-- ==== Sys2Proof/Word.lean ====
section
/-! DEFINITION. Word.lean: the word types of the Q48 and their plainest arithmetic. Numbers follow R10 of
spec/00_scope.md: bit 0 is the least significant bit, memory structures are little-endian. -/

namespace Sys2Proof

/-- A byte of memory. -/
abbrev Byte := BitVec 8

/-- A 16-bit unit address (R30 of spec/01_units_and_islands.md). -/
abbrev UAddr := BitVec 16

/-- A 64-bit token (R21 of spec/01_units_and_islands.md). -/
abbrev Tok := BitVec 64

/-- A sequence number, modulo 2^32 (R308 of spec/10_occupancies_and_queues.md). -/
abbrev Seq := BitVec 32

/-- Network time in nanoseconds (R375 of spec/12_time_and_constellations.md). -/
abbrev Time := Nat

/-- Bits `[hi:lo]` of `w` as a natural number. -/
def bitsOf {n : Nat} (w : BitVec n) (hi lo : Nat) : Nat := (w.toNat >>> lo) % 2 ^ (hi + 1 - lo)

/-- Bit `i` of `w`. -/
def bitOf {n : Nat} (w : BitVec n) (i : Nat) : Bool := w.toNat.testBit i

/-- `k` bytes of `n`, least significant first (R10). -/
def bytesLE : Nat → Nat → List Byte
  | 0, _ => []
  | k + 1, n => BitVec.ofNat 8 n :: bytesLE k (n / 256)

/-- The number that bytes spell, least significant first (R10). -/
def ofBytesLE : List Byte → Nat
  | [] => 0
  | b :: bs => b.toNat + 256 * ofBytesLE bs

/-- `k` bytes of `n`, most significant first (R10: fields carried in Ethernet frames). -/
def bytesBE (k n : Nat) : List Byte := (bytesLE k n).reverse

/-- The number that bytes spell, most significant first. -/
def ofBytesBE (bs : List Byte) : Nat := ofBytesLE bs.reverse

/-- `n` read as a `w`-bit two's-complement number. -/
def signedOf (w n : Nat) : Int :=
  if n % 2 ^ w < 2 ^ (w - 1) then (n % 2 ^ w : Nat) else (n % 2 ^ w : Nat) - (2 ^ w : Nat)

/-- The `w`-bit two's-complement pattern of `i`. -/
def patternOf (w : Nat) (i : Int) : Nat := (i % (2 ^ w : Nat)).toNat

/-- `ceil (a / b)`. -/
def ceilDiv (a b : Nat) : Nat := (a + b - 1) / b

/-- `i` limited to `lo` to `hi`. -/
def clampInt (lo hi i : Int) : Int := if i < lo then lo else if hi < i then hi else i

end Sys2Proof
end

