-- ==== Sys2Proof/Syntax.lean ====
section
/-! DEFINITION. Syntax.lean: the commands of the Q48, one constructor of Instr per row of spec/opcode_table.json, in the
table's order, with their operands. Command words are held as structures whose fields have the widths of the spec's
field tables. A command that the spec times carries the network time `t` at which it happens. -/

namespace Sys2Proof

/-- A work slice (R17, R18): its Almanac position and the work item it serves. -/
structure Slice where
  pos : BitVec 32
  queue : BitVec 12
  seq : Seq
deriving DecidableEq, Repr

/-- A matrix command (R113 of spec/03_matrix_arrays.md). -/
structure MatCmd where
  opcode : BitVec 4
  arrays : BitVec 4
  dataflow : BitVec 2
  cplx : BitVec 1
  op : BitVec 2
  acc : BitVec 1
  emit : BitVec 1
  fmtS : BitVec 4
  fmtT : BitVec 4
  accTile : BitVec 3
  rows : BitVec 10
  depth : BitVec 12
  cols : BitVec 7
  sAddr : BitVec 17
  sPitch : BitVec 10
  tAddr : BitVec 17
  tPitch : BitVec 10
  tStep : BitVec 17
  rsvd : BitVec 2
deriving DecidableEq, Repr

/-- A vector command (R142 of spec/04_vector_engine.md). -/
structure VeCmd where
  opcode : BitVec 8
  subop : BitVec 8
  opfmt : BitVec 4
  fmtA : BitVec 4
  fmtB : BitVec 4
  fmtD : BitVec 4
  srcA : BitVec 2
  srcB : BitVec 2
  bcast : BitVec 2
  dst : BitVec 2
  round : BitVec 2
  cplx : BitVec 1
  pop : BitVec 1
  acc : BitVec 1
  bias : BitVec 1
  axis : BitVec 1
  breal : BitVec 1
  rsvdA : BitVec 16
  rows : BitVec 7
  cols : BitVec 9
  pitchA : BitVec 10
  pitchB : BitVec 10
  pitchD : BitVec 10
  rsvdB : BitVec 18
  aAddr : BitVec 20
  bAddr : BitVec 20
  dAddr : BitVec 20
  rsvdC : BitVec 4
  imm : BitVec 32
  auxAddr : BitVec 20
  rsvdD : BitVec 12
deriving DecidableEq, Repr

/-- A DSP command (R234 of spec/07_dsp_engine.md). -/
structure DspCmd where
  opcode : BitVec 4
  entry : BitVec 20
  handler : BitVec 20
  hen : BitVec 1
  evtag : BitVec 8
  evmask : BitVec 8
  rsvdA : BitVec 3
  bound : BitVec 24
  rsvdB : BitVec 8
  arg : BitVec 32
deriving DecidableEq, Repr

/-- Operands of an integer ALU instruction (R210). -/
structure AluF where
  lw : BitVec 2
  dd : BitVec 5
  da : BitVec 5
  db : BitVec 5
  imm6 : BitVec 6
deriving DecidableEq, Repr

/-- Operands of a complex add instruction (R212). -/
structure CaddF where
  dd : BitVec 4
  da : BitVec 4
  db : BitVec 4
  sh : BitVec 2
deriving DecidableEq, Repr

/-- Operands of a complex multiply instruction (R213). -/
structure CmulF where
  dd : BitVec 4
  da : BitVec 4
  db : BitVec 4
  sh : BitVec 4
deriving DecidableEq, Repr

/-- Operands of a load or store instruction (R214). -/
structure LsF where
  size : BitVec 2
  mode : BitVec 2
  dd : BitVec 5
  ai : BitVec 4
  imm : BitVec 11
deriving DecidableEq, Repr

/-- Operands of a strided load or store instruction (R215). -/
structure StrF where
  ord : BitVec 1
  post : BitVec 1
  dd : BitVec 4
  ai : BitVec 4
  stride : BitVec 12
deriving DecidableEq, Repr

/-- Operands of an address instruction (R216). -/
structure AddrF where
  ai : BitVec 4
  dd : BitVec 5
  imm16 : BitVec 16
deriving DecidableEq, Repr

/-- Operands of an immediate instruction (R217). -/
structure ImmF where
  dd : BitVec 5
  lane : BitVec 2
  imm16 : BitVec 16
deriving DecidableEq, Repr

/-- Operands of LOOP (R218). -/
structure LoopF where
  level : BitVec 2
  csrc : BitVec 1
  body : BitVec 10
  count : BitVec 11
deriving DecidableEq, Repr

/-- Operands of a system instruction (R220). -/
structure SysF where
  dd : BitVec 5
  sel : BitVec 4
deriving DecidableEq, Repr

/-- A coding-engine command (R238 of spec/08_channel_coding.md). -/
structure CeCmd where
  opcode : BitVec 4
  bg : BitVec 1
  crc : BitVec 3
  z : BitVec 9
  kp : BitVec 14
  f : BitVec 14
  ncb : BitVec 15
  e : BitVec 22
  rv : BitVec 2
  qm : BitVec 4
  iter : BitVec 6
  table : BitVec 3
  attach : BitVec 1
  rsvdA : BitVec 30
  inAddr : BitVec 29
  outAddr : BitVec 29
  resAddr : BitVec 29
  rsvdB : BitVec 41
deriving DecidableEq, Repr

/-- A coding-engine command as a sequencer issues it: the fields of its word, and the record and code block of the running item, by number, that
the item-dependent ones come from (R240, R247); without one they stand as the word has them. -/
structure CeIssue where
  cmd : CeCmd
  blk : Option (Nat × Nat)
deriving DecidableEq, Repr

/-- A polar-engine command (R250). -/
structure PeCmd where
  opcode : BitVec 4
  logn : BitVec 4
  list : BitVec 2
  crc : BitVec 3
  pc : BitVec 1
  ibil : BitVec 1
  k : BitVec 11
  e : BitVec 14
  rnti : BitVec 16
  inAddr : BitVec 29
  outAddr : BitVec 29
  rsvd : BitVec 14
deriving DecidableEq, Repr

/-- A mover command (R283 of spec/09_memory_and_movement.md). -/
structure MovCmd where
  opcode : BitVec 4
  mirror : BitVec 1
  srcSpace : BitVec 2
  dstSpace : BitVec 2
  packet : BitVec 1
  src : BitVec 42
  dst : BitVec 42
  length : BitVec 24
  lines : BitVec 16
  srcPitch : BitVec 28
  dstPitch : BitVec 28
  linePitch : BitVec 24
  planePitch : BitVec 24
  groupPitch : BitVec 14
  groups : BitVec 4
deriving DecidableEq, Repr

/-- The geometry block of RELAY (R162 of spec/05_grid_operators.md). -/
structure RelayGeo where
  inW : BitVec 16
  inH : BitVec 16
  padL : BitVec 8
  padR : BitVec 8
  padT : BitVec 8
  padB : BitVec 8
  sx : BitVec 8
  sy : BitVec 8
  dx : BitVec 8
  dy : BitVec 8
  kw : BitVec 8
  kh : BitVec 8
  padMode : BitVec 1
  ux : BitVec 3
  uy : BitVec 3
  rsvd : BitVec 9
deriving DecidableEq, Repr

/-- A RELAY as it is issued: its geometry, and, in order, the bytes that its reads of the host and of peers return (R162, R163). -/
structure RelayIn where
  geo : RelayGeo
  ext : List Byte
deriving DecidableEq, Repr

/-- A window descriptor (R154). -/
structure Window where
  stepFirst : BitVec 12
  stepLast : BitVec 12
  inW : BitVec 12
  inH : BitVec 12
  linePitch : BitVec 17
  groupPitch : BitVec 17
  cgroups : BitVec 4
  padL : BitVec 4
  padR : BitVec 4
  padT : BitVec 4
  padB : BitVec 4
  sx : BitVec 2
  sy : BitVec 2
  dx : BitVec 2
  dy : BitVec 2
  ux : BitVec 3
  uy : BitVec 3
  kw : BitVec 5
  kh : BitVec 5
  padMode : BitVec 1
  rsvd : BitVec 1
deriving DecidableEq, Repr

/-- A command word as a step list of the Almanac holds it. -/
inductive StepCmd where
  | ma (w : BitVec 128)
  | ve (w : BitVec 256)
  | de (w : BitVec 128)
  | ce (w : BitVec 256)
  | pe (w : BitVec 128)
  | mov (w : BitVec 256) (geo : Option (BitVec 128))
  | child (pos : BitVec 32)
deriving DecidableEq, Repr

/-- A token that a step emits when its command completes. -/
structure Emit where
  dst : UAddr
  kind : BitVec 4
  tag : BitVec 8
  value : BitVec 32
deriving DecidableEq, Repr

/-- One step of a step list (R44, R45): the token counts it waits for, its command, the tokens it emits. -/
structure AStep where
  await : List (BitVec 8 × Nat)
  cmd : StepCmd
  emits : List Emit
deriving DecidableEq, Repr

/-- The step list that sequencer `seq` holds for engine or child `eng` while it runs the slice at Almanac position `pos` (R17, R44). Its
command words stand from byte `base` of the core's or cluster's memory, and from byte `copyAt` of each die's DRAM in the copy of the
image (R26). -/
structure StepList where
  pos : BitVec 32
  seq : UAddr
  eng : UAddr
  base : Nat
  copyAt : Nat
  steps : List AStep
deriving DecidableEq, Repr

/-- The window table of the core slice at `pos` (R153): its descriptors, which stand from byte `copyAt` of each die's DRAM. -/
structure WindowPlan where
  pos : BitVec 32
  copyAt : Nat
  descs : List (BitVec 128)
deriving DecidableEq, Repr

/-- A DSP program region of a core (R203): first address in 8-byte words, its words, and where they stand in each die's DRAM. -/
structure ProgramPlan where
  core : UAddr
  base : Nat
  copyAt : Nat
  words : List (BitVec 64)
deriving DecidableEq, Repr

/-- When the TICK plan fires a TICK (R22, R47, R387): at an offset in ns from a Meridian or from the start of each slot of a carrier, at an
edge of a symbol's reception or transmit window, or at the budgeted release instant of the carrier's items of one opcode. -/
inductive TickAt where
  | meridian (offset : Int)
  | slot (carrier : BitVec 5) (offset : Int)
  | window (carrier : BitVec 5) (uplink : Bool) (symbol : BitVec 4) (closes : Bool)
  | release (carrier : BitVec 5) (opcode : BitVec 8)
deriving DecidableEq, Repr

/-- An entry of the TICK plan (R300): the receiver, the TAG and when it fires. -/
structure TickPlan where
  dst : UAddr
  tag : BitVec 8
  at_ : TickAt
deriving DecidableEq, Repr

/-- One row of a distribution table (R28): the child slices of the slice at `pos`, each with the unit it names. -/
structure Distribution where
  pos : BitVec 32
  kids : List (BitVec 32 × UAddr)
deriving DecidableEq, Repr

/-- What the Almanac plans for one opcode of one carrier: the minimum admissible deadline, the budgeted release instant and the start of
stage 6 (R257), all in ns from the instant of R305, and the planned interval before slot start (R542). -/
structure OpPlan where
  opcode : BitVec 8
  minDeadline : Int
  release : Int
  stage6 : Int
  preSlot : Nat
deriving DecidableEq, Repr

/-- A carrier that the Almanac plans, with the fixed fields of R431 in its order. -/
structure CarrierPlan where
  carrier : BitVec 5
  fixedFields : List Nat
  ops : List OpPlan
deriving DecidableEq, Repr

/-- A region of MEMORY_PLAN (R300): where its working copy lies and where its mirror lies, if it has one. -/
structure Region where
  base : Nat
  bytes : Nat
  mirrorAt : Option Nat
deriving DecidableEq, Repr

/-- Where the Almanac keeps a carrier's received grid (R60): base in cluster memory, bytes of a slot's grid and slots kept in turn,
bytes of a stream's grid in a slot, bytes of a symbol's row; PRACH has its own. -/
structure GridPlan where
  carrier : BitVec 5
  prach : Bool
  base : Nat
  slotBytes : Nat
  slots : Nat
  streamBytes : Nat
  symbolBytes : Nat
deriving DecidableEq, Repr

/-- A child slice of a cluster slice for the engine-time check (R304): its Almanac position, the logical core that the distribution table
names, and the cycles that the Almanac reserves for its waits, link retries among them. -/
structure TimedShare where
  pos : BitVec 32
  core : Nat
  reserve : Nat
deriving DecidableEq, Repr

/-- A Timed cluster slice for the engine-time check (R304): its Almanac position, its budget, its child slices in ascending Almanac
position. -/
structure TimedSlice where
  cluster : BitVec 3
  pos : BitVec 32
  budgetNs : Nat
  shares : List TimedShare
deriving DecidableEq, Repr

/-- The parsed content of an occupancy image's sections (R300). The spec gives no byte layout for the content of the
ALMANAC, PROGRAMS, CONSTANTS, RECEIVER, ADAPTATION, WIDE_MODEL and MEMORY_PLAN sections, so the model takes it parsed. -/
structure Plan where
  lists : List StepList
  windows : List WindowPlan
  dist : List Distribution
  ticks : List TickPlan
  /-- receivers and TAGs whose tokens come from the fronthaul, host or fabric regions (R354) -/
  outerTags : List (UAddr × BitVec 8)
  barrierTags : List (BitVec 8 × UAddr)
  scopes : List (BitVec 32 × Option (BitVec 20))
  shareCosts : List (BitVec 32 × Nat)
  carriers : List CarrierPlan
  grids : List GridPlan
  learned : Bool
  unsupported : Bool
  timed : List TimedSlice
  tokenIntervals : List (UAddr × Nat)
  codingFits : Bool
  fronthaulUl : Nat
  fronthaulDl : Nat
  hostOut : Nat
  hostIn : Nat
  pcieBudget : Nat
  vlBudgets : List Nat
  vlFits : Bool
  /-- bytes per second that the Almanac plans for the DRAM of each die (R270) -/
  dramTraffic : List Nat
  programs : List ProgramPlan
  queueCfg : List (BitVec 3 × List (BitVec 128))
  /-- the learned table sets (R244): where each lies in the working weights, and in core or cluster memory -/
  tables : List (Nat × Nat)
  /-- the image's FP32 weights, and the formats of the working weights with how many follow in each (R84, R87) -/
  weights0 : List (BitVec 32)
  weightFmts : List (Nat × Nat)
  /-- the networks marked adaptable, the optimiser's parameters, the Share queue for adaptation (R84) -/
  adaptable : List Nat
  optimiser : List (BitVec 32)
  adaptQueue : Option (BitVec 12)
  /-- bytes of the optimiser state and of one retained slot of a carrier, and the DRAM reserved for adaptation: start and length (R84) -/
  optimiserBytes : Nat
  slotBytes : List (Nat × Nat)
  adaptRegion : Nat × Nat
  retention : List (Nat × Nat)
  pinReserve : List (Nat × Nat)
  fallback : List (Nat × Nat)
  contexts : Nat
  resident : Nat
  contextBytes : Nat
  poolPages : Nat
  /-- where the soft-buffer pool lies in each die's DRAM (R255) -/
  poolAt : Nat
  reuseDistance : Nat
  regions : List Region
  captureRegion : Nat × Nat
  captureFits : Bool
  restoreBytes : Nat
  narrowing : List (BitVec 128)
  /-- source buffers that the Almanac binds to a tensor (R185): base, bytes, tensor number -/
  narrowFrom : List (Nat × Nat × Nat)
  /-- outlier maps of received tensors (R200): tensor number, where the tensor's buffer starts, where its map starts -/
  outlierMaps : List (Nat × Nat × Nat)
  /-- the slice that waits for each received tensor (R194): tensor number, Almanac position -/
  narrowTo : List (Nat × BitVec 32)
  /-- the descriptors of the receiving devices' images (R187): device, descriptor -/
  peerNarrowing : List (Nat × BitVec 128)
  queuePlan : List (BitVec 64)
  envelope : List (BitVec 128)
deriving DecidableEq, Repr

/-- An occupancy image (R297): header, section table, the bytes of the sections, key block, signature block, and the parsed
content of its sections. -/
structure Image where
  header : BitVec 2048
  sections : List (BitVec 256)
  body : List Byte
  key : List Byte
  signature : List Byte
  plan : Plan
deriving DecidableEq, Repr

/-- How a host read ends (R457). -/
inductive HostRead where
  | good
  | poison
  | unsupported
  | abort
  | timeout
deriving DecidableEq, Repr

/-- What the queue engine read from host memory for one item (R311, R312, R314, R315, R254): the entry, its buffer list, its
allocation records, its release entries, how those reads ended, and the bytes of its input buffers, by buffer (R77, R91, R314). -/
structure Fetched where
  entry : BitVec 1024
  bufs : List (BitVec 128)
  allocs : List (BitVec 256)
  rels : List (BitVec 32)
  read : HostRead
  data : List (List Byte) := []
deriving DecidableEq, Repr

/-- Who sent an object request (R438 to R441). -/
inductive Requester where
  | pcie
  | sideband (eid : BitVec 8)
  | mgmt (addr : Nat) (port : BitVec 16)
deriving DecidableEq, Repr

/-- An object request (R443): the fields of its header that a request uses, and its payload as the bytes of the frame. -/
structure ObjReq where
  who : Requester
  opcode : BitVec 8
  index : BitVec 16
  sub : BitVec 8
  view : Bool
  tid : BitVec 32
  payload : List Byte
deriving DecidableEq, Repr

/-- A frame received on a fronthaul port: the fields that R465 to R467 look at, and the frame's bytes. -/
structure FhHead where
  port : Nat
  dst : BitVec 48
  src : BitVec 48
  tags : List (BitVec 16)
  etherType : BitVec 16
  fcsOk : Bool
  frame : List Byte
  revision : BitVec 4
  cBit : Bool
  msgType : BitVec 8
  eBit : Bool
deriving DecidableEq, Repr

/-- A U-plane section (R468, R470, R472): where it belongs and its payload. -/
structure FhSection where
  eaxc : BitVec 16
  sectionId : BitVec 12
  slot : Time
  symbol : Nat
  first : Nat
  count : Nat
  payload : List Byte
deriving DecidableEq, Repr

/-- Which read of the host failed (R457). -/
inductive HostReadOf where
  | fetch (queue : BitVec 12) (seq : Seq)
  | input (queue : BitVec 12) (seq : Seq)
  | swapIn (context : BitVec 20)
  | image
deriving DecidableEq, Repr

/-- Which queue's duplicated pointers disagree (R296, R147). -/
inductive QueueOwner where
  | clusterQueue (cluster : BitVec 3) (q : BitVec 6)
  | tileQueue (core : Nat)
  | streamFifo (eng : UAddr)
deriving DecidableEq, Repr

/-- The operations that a Vrelol link's join word carries (R393). -/
structure JoinWord where
  devnum : BitVec 6
  constellation : BitVec 32
  port : BitVec 3
  keyHash : BitVec 512
deriving DecidableEq, Repr

/-- One device's joined links as a link-state flood reports them (R395): its number, its identity-key hash, its flood
sequence number, whether its phase source is Vrelol, and for each joined port the neighbour. -/
structure LinkState where
  dev : BitVec 6
  keyHash : BitVec 512
  fseq : Nat
  timeFromLinks : Bool
  links : List (Nat × BitVec 6)
deriving DecidableEq, Repr

/-- An announcement of a global operation (R400). -/
structure Announce where
  op : BitVec 2
  t : Time
  participants : BitVec 64
  initiator : BitVec 6
  opNumber : BitVec 16
  tag : BitVec 8
deriving DecidableEq, Repr

/-- The four forms of acknowledgement of a global operation (R401). -/
inductive OpAnswer where
  | acted
  | missed
  | refused
  | uncertain
deriving DecidableEq, Repr

/-- A lifecycle request (R489): header, body, owner public key, signature; `length` is the submitted length. -/
structure LifeReq where
  header : BitVec 512
  body : List Byte
  ownerKey : List Byte
  signature : List Byte
  length : Nat
deriving DecidableEq, Repr

/-- A recorded input that replay injects (R352). -/
inductive Replayed where
  | fronthaul (h : FhHead) (secs : List FhSection)
  | doorbell (queue : BitVec 12) (value : BitVec 64)
  | fabric (addr : BitVec 42) (bytes : List Byte)
  | hostRead (addr : BitVec 64) (bytes : List Byte)
  | dusk (unit : UAddr)
  | ended
deriving DecidableEq, Repr

/-- Fields of a DRAM-side error pattern are not operands: codewords stand in State. A low-speed pin fault of R532. -/
inductive PinFault where
  | shortLow
  | shortHigh
  | opened
  | inverted
  | noSignal
deriving DecidableEq, Repr

/-- The commands of the Q48: one constructor per row of spec/opcode_table.json. -/
inductive Instr where
  -- units and tokens
  | unitCommand (unit : UAddr) (sl : Slice) (t : Time)
  | readyToken (dst : UAddr) (tok : Tok) (t : Time)
  | creditToken (dst : UAddr) (tok : Tok) (t : Time)
  | doneToken (dst : UAddr) (tok : Tok) (t : Time)
  | fenceToken (dst : UAddr) (tok : Tok) (t : Time)
  | tickFire (dst : UAddr) (tag : BitVec 8) (t : Time)
  | faultToken (dst : UAddr) (tok : Tok) (t : Time)
  | stepStart (sequencer eng : UAddr) (t : Time)
  | watchdogExpiry (unit : UAddr) (t : Time)
  | unitDawn (unit : UAddr) (selfTest : Bool) (t : Time)
  | dieRestoreComplete (die : BitVec 1) (t : Time)
  | cpWatchdogExpiry (t : Time)
  | clockDroop (island : Nat) (covered : Bool) (t : Time)
  | clockRestart (island : Nat) (t : Time)
  -- matrix arrays
  | maNop (core : Nat) (step : Nat) (c : MatCmd)
  | maLoad (core : Nat) (step : Nat) (c : MatCmd)
  | maPassWs (core : Nat) (step : Nat) (c : MatCmd)
  | maPassIs (core : Nat) (step : Nat) (c : MatCmd)
  | maPassOs (core : Nat) (step : Nat) (c : MatCmd)
  | maEmit (core : Nat) (step : Nat) (c : MatCmd)
  | maCommandComplete (core : Nat) (array : Nat) (t : Time)
  | tileSlotReserve (core : Nat)
  -- vector engine
  | veNop (core : Nat) (step : Nat) (c : VeCmd)
  | veCopy (core : Nat) (step : Nat) (c : VeCmd)
  | veAdd (core : Nat) (step : Nat) (c : VeCmd)
  | veSub (core : Nat) (step : Nat) (c : VeCmd)
  | veMul (core : Nat) (step : Nat) (c : VeCmd)
  | veMin (core : Nat) (step : Nat) (c : VeCmd)
  | veMax (core : Nat) (step : Nat) (c : VeCmd)
  | veAbs (core : Nat) (step : Nat) (c : VeCmd)
  | veNeg (core : Nat) (step : Nat) (c : VeCmd)
  | veConj (core : Nat) (step : Nat) (c : VeCmd)
  | veAbs2 (core : Nat) (step : Nat) (c : VeCmd)
  | veLlradd (core : Nat) (step : Nat) (c : VeCmd)
  | veRecip (core : Nat) (step : Nat) (c : VeCmd)
  | veRsqrt (core : Nat) (step : Nat) (c : VeCmd)
  | veSqrt (core : Nat) (step : Nat) (c : VeCmd)
  | veDiv (core : Nat) (step : Nat) (c : VeCmd)
  | veExp (core : Nat) (step : Nat) (c : VeCmd)
  | veExp2 (core : Nat) (step : Nat) (c : VeCmd)
  | veLog (core : Nat) (step : Nat) (c : VeCmd)
  | veLog2 (core : Nat) (step : Nat) (c : VeCmd)
  | veTanh (core : Nat) (step : Nat) (c : VeCmd)
  | veSigmoid (core : Nat) (step : Nat) (c : VeCmd)
  | veSilu (core : Nat) (step : Nat) (c : VeCmd)
  | veGelu (core : Nat) (step : Nat) (c : VeCmd)
  | veSinpi (core : Nat) (step : Nat) (c : VeCmd)
  | veCospi (core : Nat) (step : Nat) (c : VeCmd)
  | veEpi (core : Nat) (step : Nat) (c : VeCmd)
  | vePermute (core : Nat) (step : Nat) (c : VeCmd)
  | veDeinterleave (core : Nat) (step : Nat) (c : VeCmd)
  | veInterleave (core : Nat) (step : Nat) (c : VeCmd)
  | veReverse (core : Nat) (step : Nat) (c : VeCmd)
  | veSwapPairs (core : Nat) (step : Nat) (c : VeCmd)
  | veRotate (core : Nat) (step : Nat) (c : VeCmd)
  | vePack (core : Nat) (step : Nat) (c : VeCmd)
  | veUnpack (core : Nat) (step : Nat) (c : VeCmd)
  | veReduceSum (core : Nat) (step : Nat) (c : VeCmd)
  | veReduceSumsq (core : Nat) (step : Nat) (c : VeCmd)
  | veReduceMax (core : Nat) (step : Nat) (c : VeCmd)
  | veReduceMin (core : Nat) (step : Nat) (c : VeCmd)
  | veReduceMaxabs (core : Nat) (step : Nat) (c : VeCmd)
  | veReduceArgmax (core : Nat) (step : Nat) (c : VeCmd)
  | veDemap (core : Nat) (step : Nat) (c : VeCmd)
  | veCommandComplete (core : Nat) (t : Time)
  | queuePointerMismatch (owner : QueueOwner) (t : Time)
  -- DSP engine
  | dspNopCommand (core : Nat) (c : DspCmd)
  | dspRun (core : Nat) (c : DspCmd)
  | dspRunComplete (core : Nat) (t : Time)
  | dspBoundExpiry (core : Nat) (t : Time)
  | dspInterrupt (core : Nat)
  | dspWaitResume (core : Nat)
  | dspNop (core : Nat) (slot : BitVec 1)
  | dspMov (core : Nat) (slot : BitVec 1) (f : AluF)
  | dspAdd (core : Nat) (slot : BitVec 1) (f : AluF)
  | dspSub (core : Nat) (slot : BitVec 1) (f : AluF)
  | dspAdds (core : Nat) (slot : BitVec 1) (f : AluF)
  | dspSubs (core : Nat) (slot : BitVec 1) (f : AluF)
  | dspAnd (core : Nat) (slot : BitVec 1) (f : AluF)
  | dspOr (core : Nat) (slot : BitVec 1) (f : AluF)
  | dspXor (core : Nat) (slot : BitVec 1) (f : AluF)
  | dspShl (core : Nat) (slot : BitVec 1) (f : AluF)
  | dspShra (core : Nat) (slot : BitVec 1) (f : AluF)
  | dspShrr (core : Nat) (slot : BitVec 1) (f : AluF)
  | dspShrl (core : Nat) (slot : BitVec 1) (f : AluF)
  | dspMin (core : Nat) (slot : BitVec 1) (f : AluF)
  | dspMax (core : Nat) (slot : BitVec 1) (f : AluF)
  | dspAbss (core : Nat) (slot : BitVec 1) (f : AluF)
  | dspClz (core : Nat) (slot : BitVec 1) (f : AluF)
  | dspDivs (core : Nat) (slot : BitVec 1) (f : AluF)
  | dspCmplt (core : Nat) (slot : BitVec 1) (f : AluF)
  | dspCadd (core : Nat) (slot : BitVec 1) (f : CaddF)
  | dspCsub (core : Nat) (slot : BitVec 1) (f : CaddF)
  | dspCaddj (core : Nat) (slot : BitVec 1) (f : CaddF)
  | dspCsubj (core : Nat) (slot : BitVec 1) (f : CaddF)
  | dspCneg (core : Nat) (slot : BitVec 1) (f : CaddF)
  | dspCconj (core : Nat) (slot : BitVec 1) (f : CaddF)
  | dspCord (core : Nat) (slot : BitVec 1) (f : CaddF)
  | dspCmul4 (core : Nat) (slot : BitVec 1) (f : CmulF)
  | dspCmulj4 (core : Nat) (slot : BitVec 1) (f : CmulF)
  | dspCmac4 (core : Nat) (slot : BitVec 1) (f : CmulF)
  | dspCmacj4 (core : Nat) (slot : BitVec 1) (f : CmulF)
  | dspCmacs (core : Nat) (slot : BitVec 1) (f : CmulF)
  | dspExt (core : Nat) (slot : BitVec 1) (f : CmulF)
  | dspLoad (core : Nat) (slot : BitVec 1) (f : LsF)
  | dspStore (core : Nat) (slot : BitVec 1) (f : LsF)
  | dspStridedLoad (core : Nat) (slot : BitVec 1) (f : StrF)
  | dspStridedStore (core : Nat) (slot : BitVec 1) (f : StrF)
  | dspSeta (core : Nat) (slot : BitVec 1) (f : AddrF)
  | dspAdda (core : Nat) (slot : BitVec 1) (f : AddrF)
  | dspModa (core : Nat) (slot : BitVec 1) (f : AddrF)
  | dspMova (core : Nat) (slot : BitVec 1) (f : AddrF)
  | dspMovm (core : Nat) (slot : BitVec 1) (f : AddrF)
  | dspMovda (core : Nat) (slot : BitVec 1) (f : AddrF)
  | dspMovdm (core : Nat) (slot : BitVec 1) (f : AddrF)
  | dspMovl (core : Nat) (slot : BitVec 1) (f : ImmF)
  | dspMovz (core : Nat) (slot : BitVec 1) (f : ImmF)
  | dspBr (core : Nat) (target : BitVec 20)
  | dspBrz (core : Nat) (n : BitVec 4) (target : BitVec 20)
  | dspBrnz (core : Nat) (n : BitVec 4) (target : BitVec 20)
  | dspBrn (core : Nat) (n : BitVec 4) (target : BitVec 20)
  | dspBrnn (core : Nat) (n : BitVec 4) (target : BitVec 20)
  | dspCall (core : Nat) (target : BitVec 20)
  | dspJmpa (core : Nat) (n : BitVec 4)
  | dspLoop (core : Nat) (f : LoopF)
  | dspHalt (core : Nat)
  | dspReti (core : Nat)
  | dspIen (core : Nat) (ie : BitVec 1)
  | dspWait (core : Nat) (line : BitVec 3)
  | dspSignal (core : Nat) (tag : BitVec 8) (dd : BitVec 5)
  | dspMvls (core : Nat) (f : SysF)
  | dspMvsl (core : Nat) (f : SysF)
  | dspMvsd (core : Nat) (f : SysF)
  | dspMvds (core : Nat) (f : SysF)
  | dspMvad (core : Nat) (f : SysF)
  | dspMvda (core : Nat) (f : SysF)
  -- coding and polar engines
  | ceNop (cluster : BitVec 3) (k : BitVec 1) (c : CeIssue)
  | ceDerm (cluster : BitVec 3) (k : BitVec 1) (c : CeIssue)
  | ceDecode (cluster : BitVec 3) (k : BitVec 1) (c : CeIssue)
  | ceEncode (cluster : BitVec 3) (k : BitVec 1) (c : CeIssue)
  | ceCrc (cluster : BitVec 3) (k : BitVec 1) (c : CeIssue)
  | ceCommandComplete (cluster : BitVec 3) (k : BitVec 1) (t : Time)
  | peNop (cluster : BitVec 3) (c : PeCmd)
  | peDecode (cluster : BitVec 3) (c : PeCmd)
  | peEncode (cluster : BitVec 3) (c : PeCmd)
  | peCommandComplete (cluster : BitVec 3) (t : Time)
  | peBorrowedCommand (cluster : BitVec 3) (c : PeCmd)
  -- movers
  | moverNop (cluster : BitVec 3) (m : Nat) (c : MovCmd)
  | moverCopy (cluster : BitVec 3) (m : Nat) (c : MovCmd) (ext : List Byte)
  | moverFill (cluster : BitVec 3) (m : Nat) (c : MovCmd)
  | moverRelay (cluster : BitVec 3) (m : Nat) (c : MovCmd) (g : RelayIn)
  | moverFlush (cluster : BitVec 3) (m : Nat) (c : MovCmd)
  | queueFlushEffect (cluster : BitVec 3) (q : BitVec 6)
  | moverTransferIssue (cluster : BitVec 3) (m : Nat) (bytes : Nat) (destCredit : Bool)
  | moverCommandComplete (cluster : BitVec 3) (m : Nat) (t : Time)
  -- memory
  | refreshWindow (die : BitVec 1) (k : Nat) (t : Time)
  | refreshWindowEnd (die : BitVec 1) (t : Time)
  | sramScrub (base : Nat) (t : Time)
  -- PCI Express
  | bar2Write (off : Nat) (data : List Byte) (t : Time)
  | bar2Read (off len : Nat) (t : Time)
  | bar4Write (off : Nat) (data : List Byte) (t : Time)
  | bar4Read (off len : Nat) (t : Time)
  | bar4Select (value : BitVec 64)
  | atomicOpRequest
  | poisonedWriteReceived (off : Nat) (t : Time)
  | hostReadError (what : HostReadOf) (how : HostRead) (t : Time)
  | pcieReplay (flits : Nat) (t : Time)
  | pcieFatalError (t : Time)
  | pcieLinkDown (t : Time)
  | busMasterDisable (t : Time)
  | hotReset (t : Time)
  | pcieMasteringRestored (t : Time)
  | pcieRetrainNarrower (speed width : Nat) (t : Time)
  | d3hotWrite (t : Time)
  | flrWrite
  | doeDiscovery (index : BitVec 8)
  | doeAttestation (nonce : BitVec 32) (t : Time)
  | doeAbort
  -- queues and items
  | doorbell (queue : BitVec 12) (value : BitVec 64) (t : Time)
  | nop (queue : BitVec 12) (f : Fetched) (t : Time)
  | ulSlot (queue : BitVec 12) (f : Fetched) (t : Time)
  | dlSlot (queue : BitVec 12) (f : Fetched) (t : Time)
  | prach (queue : BitVec 12) (f : Fetched) (t : Time)
  | srsReport (queue : BitVec 12) (f : Fetched) (t : Time)
  | trainStep (queue : BitVec 12) (f : Fetched) (t : Time)
  | modelCommit (queue : BitVec 12) (f : Fetched) (t : Time)
  | capture (queue : BitVec 12) (f : Fetched) (t : Time)
  | move (queue : BitVec 12) (f : Fetched) (ext : List Byte) (t : Time)
  | barrier (queue : BitVec 12) (f : Fetched) (t : Time)
  | admissionCut (t : Time)
  | contextSwapComplete (context : BitVec 20) (block : List Byte) (t : Time)
  | shareDispatch (spare : Nat) (ready : List (BitVec 12 × BitVec 32)) (t : Time)
  | completionForm (queue : BitVec 12) (o : List Byte) (t : Time)
  | modTimeExpiry (queue : BitVec 12) (t : Time)
  -- fronthaul
  | fhUplaneReceive (h : FhHead) (secs : List FhSection) (t : Time)
  | fhFrameDiscard (h : FhHead) (t : Time)
  | ecpriDelayMeasurement (h : FhHead) (measurementId : BitVec 8) (action : BitVec 8) (t : Time)
  | fhWindowClose (carrier : BitVec 5) (slot : Time) (symbol : Nat) (t : Time)
  | fhDlSectionSend (carrier : BitVec 5) (slot : Time) (symbol stream firstPrb count : Nat) (t : Time)
  | fhDlWindowClose (carrier : BitVec 5) (slot : Time) (symbol : Nat) (t : Time)
  | fhLinkDown (port : Nat) (noSignal : Bool) (t : Time)
  | fhMode (req : ObjReq) (t : Time)
  | laserInputChange (input : BitVec 2) (milliDbm : Int) (t : Time)
  | rxOverPower (port : Nat) (milliDbm : Int) (t : Time)
  -- time
  | ptpFrameReceive (h : FhHead) (mgmtPort : Bool) (quarterNs : Int) (t : Time)
  | esmcMessage (port : Nat) (ql : BitVec 4) (t : Time)
  | ppsInEdge (quarterNs : Int) (highLonger : Bool) (t : Time)
  | phaseSourceLoss (t : Time)
  | servoLock (t : Time)
  | holdoverLimitExceeded (t : Time)
  | todNext (req : ObjReq) (t : Time)
  | stepAccept (req : ObjReq) (t : Time)
  | meridian (t : Time)
  | trigOutEdge (n : BitVec 3) (t : Time)
  | ppsOutEdge (t : Time)
  | evtInEdge (n : BitVec 2) (level : Bool) (widthPs : Nat) (t : Time)
  -- Vrelol links
  | vlLinkTrain (port : BitVec 3) (lanesUp : BitVec 4) (shorted polarity reversed : Bool) (t : Time)
  | vlJoin (port : BitVec 3) (peer : JoinWord) (t : Time)
  | vlDataFlit (port : BitVec 3) (flit : BitVec 2048) (t : Time)
  | vlIdleFlit (port : BitVec 3) (header : BitVec 64) (txTime echoTx echoRx : Time) (t : Time)
  | vlReplayTimeout (port : BitVec 3) (t : Time)
  | vlRetrain (port : BitVec 3) (lossOfSignal rejoined : Bool) (t : Time)
  | vlWrite (port : BitVec 3) (header : BitVec 128) (data : List Byte) (t : Time)
  | vlRead (port : BitVec 3) (header : BitVec 128) (t : Time)
  | vlReadData (port : BitVec 3) (header : BitVec 128) (data : List Byte) (t : Time)
  | vlToken (port : BitVec 3) (header : BitVec 128) (tok : Tok) (t : Time)
  | vlE2eAck (port : BitVec 3) (header : BitVec 128) (t : Time)
  | linkStateFlood (port : BitVec 3) (ls : LinkState) (t : Time)
  -- global operations
  | globalOpSend (initiator : BitVec 6) (opNumber : BitVec 16) (t : Time)
  | globalOpAnnounce (port : BitVec 3) (a : Announce) (t : Time)
  | globalOpAct (t : Time)
  | snapshotMarker (port : BitVec 3) (opTime : Time) (outSeq : BitVec 32) (t : Time)
  | globalOpAck (sender : BitVec 6) (opNumber : BitVec 16) (ans : OpAnswer) (t : Time)
  | globalOp (req : ObjReq) (t : Time)
  -- object dictionary
  | objGo (t : Time)
  | objDoneClear
  | objOverrunClear
  | mctpMessage (eid : BitVec 8) (msgType : BitVec 8) (vendor : BitVec 16) (frame : List Byte) (t : Time)
  | mgmtDatagram (addr : Nat) (port : BitVec 16) (frame : List Byte) (t : Time)
  | read (req : ObjReq) (t : Time)
  | write (req : ObjReq) (t : Time)
  | readBlock (req : ObjReq) (t : Time)
  | writeBlock (req : ObjReq) (t : Time)
  | commit (req : ObjReq) (t : Time)
  | subscribe (req : ObjReq) (t : Time)
  | alertAck (req : ObjReq) (t : Time)
  | unitQuery (req : ObjReq) (t : Time)
  | queueOpen (req : ObjReq) (t : Time)
  | queueClose (req : ObjReq) (t : Time)
  -- occupancies
  | load (req : ObjReq) (img : Image) (copied : HostRead) (t : Time)
  | loadChecksComplete (recording : Option (Time × BitVec 64 × BitVec 64 × BitVec 512)) (t : Time)
  | occEnd (req : ObjReq) (t : Time)
  | packageReset (req : ObjReq) (t : Time)
  | twilightDrained (t : Time)
  | twilightWipeComplete (t : Time)
  | replayInject (what : Replayed) (t : Time)
  -- performance counters
  | counterWrap (unit : UAddr) (i : BitVec 2) (sourceUnit : UAddr) (almanac : BitVec 32) (step : BitVec 12) (pc : BitVec 20) (queue : BitVec 12) (seq : Seq) (t : Time)
  | freeze (req : ObjReq) (t : Time)
  -- lifecycle
  | provision (r : LifeReq) (t : Time)
  | certify (r : LifeReq) (t : Time)
  | enrolOwner (r : LifeReq) (t : Time)
  | revokeOwner (r : LifeReq) (t : Time)
  | deploy (r : LifeReq) (t : Time)
  | returnDevice (r : LifeReq) (t : Time)
  | redeploy (r : LifeReq) (t : Time)
  | decommission (r : LifeReq) (t : Time)
  | installPatch (r : LifeReq) (t : Time)
  | transitionApply (t : Time)
  | attestation (req : ObjReq) (t : Time)
  -- pins, resets and environment
  | porNAssert (t : Time)
  | porNDeassert (straps : BitVec 6) (openStraps : BitVec 6) (evtLevels : BitVec 4) (t : Time)
  | perstNAssert (t : Time)
  | perstNDeassert (straps : BitVec 6) (openStraps : BitVec 6) (evtLevels : BitVec 4) (t : Time)
  | railDip (rail : Nat) (milliVolts : Nat) (deep : Bool) (t : Time)
  | railRecovery (straps : BitVec 6) (openStraps : BitVec 6) (evtLevels : BitVec 4) (t : Time)
  | sensorSample (die : BitVec 2) (readings : List Int) (t : Time)
  | avsNoResponse (die : BitVec 1) (t : Time)
  | pinFaultDetect (k : Nat) (fault : PinFault) (t : Time)
  | biasSense (k : Nat) (followsBias : Bool) (t : Time)
  | sidebandStuck (sdaLow sclLow ownDrive : Bool) (lowMicros : Nat) (t : Time)
  | i3cEntdaa (addr : BitVec 7)
  | setEndpointId (requester : BitVec 8) (eid : BitVec 8)
  | getEndpointId (requester : BitVec 8)
  | getMctpVersionSupport (requester : BitVec 8)
  | getMessageTypeSupport (requester : BitVec 8)
  | arpRequest (targetIp : BitVec 32) (senderMac : BitVec 48) (senderIp : BitVec 32)
  | icmpEcho (dstIp : BitVec 32) (srcIp : BitVec 32) (payload : List Byte)
  | neighbourDiscovery (target : BitVec 128) (senderMac : BitVec 48)
  | icmpv6Echo (dst : BitVec 128) (src : BitVec 128) (payload : List Byte)
  | jtagBypass (tdi : Bool)
  | jtagIdcode
  | jtagSamplePreload (preload : List Bool)
  | jtagExtest (t : Time)
  | jtagExtestPulse (t : Time)
  | jtagExtestTrain (t : Time)
  | jtagClamp (t : Time)
  | jtagHighz (t : Time)
  | cpRestartComplete (t : Time)
  | fhLinkUp (port : Nat) (misordered : Bool) (t : Time)
  | mgmtLinkUp (up : Bool) (t : Time)
  | pinStatusClear (k : Nat) (fault : PinFault) (t : Time)
  | doeError (docType : BitVec 8) (len : Nat)
  | ptpMessageTransmit (port : Nat) (t : Time)
  | esmcTransmit (t : Time)
deriving DecidableEq, Repr

end Sys2Proof
end

