-- ==== Sys2Proof/Decode.lean ====
section
/-! DEFINITION. Decode.lean: the reading of a word of spec/opcode_table.json (no row of it gives bits), the command words of the
engines and the instruction words of the DSP engine, read and written by the field tables of the spec. -/

namespace Sys2Proof

/-- The command that a word spells by the bits of spec/opcode_table.json: the table gives no row any bits, so every word is
refused. -/
def decodeTableWord (_nbits _w : Nat) : Option Instr := none

/-- The fields of a 128-bit word (R113). -/
def matCmdOfWord (w : BitVec 128) : MatCmd :=
  { opcode := w.extractLsb' 124 4, arrays := w.extractLsb' 120 4, dataflow := w.extractLsb' 118 2,
    cplx := w.extractLsb' 117 1, op := w.extractLsb' 115 2, acc := w.extractLsb' 114 1, emit := w.extractLsb' 113 1,
    fmtS := w.extractLsb' 109 4, fmtT := w.extractLsb' 105 4, accTile := w.extractLsb' 102 3,
    rows := w.extractLsb' 92 10, depth := w.extractLsb' 80 12, cols := w.extractLsb' 73 7,
    sAddr := w.extractLsb' 56 17, sPitch := w.extractLsb' 46 10, tAddr := w.extractLsb' 29 17,
    tPitch := w.extractLsb' 19 10, tStep := w.extractLsb' 2 17, rsvd := w.extractLsb' 0 2 }

/-- The 128-bit word of the fields (R113). -/
def matCmdToWord (c : MatCmd) : BitVec 128 :=
  c.opcode ++ c.arrays ++ c.dataflow ++ c.cplx ++ c.op ++ c.acc ++ c.emit ++ c.fmtS ++ c.fmtT ++ c.accTile ++
  c.rows ++ c.depth ++ c.cols ++ c.sAddr ++ c.sPitch ++ c.tAddr ++ c.tPitch ++ c.tStep ++ c.rsvd

/-- The fields of a 256-bit word (R142). -/
def veCmdOfWord (w : BitVec 256) : VeCmd :=
  { opcode := w.extractLsb' 248 8, subop := w.extractLsb' 240 8, opfmt := w.extractLsb' 236 4,
    fmtA := w.extractLsb' 232 4, fmtB := w.extractLsb' 228 4, fmtD := w.extractLsb' 224 4,
    srcA := w.extractLsb' 222 2, srcB := w.extractLsb' 220 2, bcast := w.extractLsb' 218 2,
    dst := w.extractLsb' 216 2, round := w.extractLsb' 214 2, cplx := w.extractLsb' 213 1, pop := w.extractLsb' 212 1,
    acc := w.extractLsb' 211 1, bias := w.extractLsb' 210 1, axis := w.extractLsb' 209 1,
    breal := w.extractLsb' 208 1, rsvdA := w.extractLsb' 192 16, rows := w.extractLsb' 185 7,
    cols := w.extractLsb' 176 9, pitchA := w.extractLsb' 166 10, pitchB := w.extractLsb' 156 10,
    pitchD := w.extractLsb' 146 10, rsvdB := w.extractLsb' 128 18, aAddr := w.extractLsb' 108 20,
    bAddr := w.extractLsb' 88 20, dAddr := w.extractLsb' 68 20, rsvdC := w.extractLsb' 64 4,
    imm := w.extractLsb' 32 32, auxAddr := w.extractLsb' 12 20, rsvdD := w.extractLsb' 0 12 }

/-- The 256-bit word of the fields (R142). -/
def veCmdToWord (c : VeCmd) : BitVec 256 :=
  c.opcode ++ c.subop ++ c.opfmt ++ c.fmtA ++ c.fmtB ++ c.fmtD ++ c.srcA ++ c.srcB ++ c.bcast ++ c.dst ++ c.round ++
  c.cplx ++ c.pop ++ c.acc ++ c.bias ++ c.axis ++ c.breal ++ c.rsvdA ++ c.rows ++ c.cols ++ c.pitchA ++ c.pitchB ++
  c.pitchD ++ c.rsvdB ++ c.aAddr ++ c.bAddr ++ c.dAddr ++ c.rsvdC ++ c.imm ++ c.auxAddr ++ c.rsvdD

/-- The fields of a 128-bit word (R234). -/
def dspCmdOfWord (w : BitVec 128) : DspCmd :=
  { opcode := w.extractLsb' 124 4, entry := w.extractLsb' 104 20, handler := w.extractLsb' 84 20,
    hen := w.extractLsb' 83 1, evtag := w.extractLsb' 75 8, evmask := w.extractLsb' 67 8, rsvdA := w.extractLsb' 64 3,
    bound := w.extractLsb' 40 24, rsvdB := w.extractLsb' 32 8, arg := w.extractLsb' 0 32 }

/-- The 128-bit word of the fields (R234). -/
def dspCmdToWord (c : DspCmd) : BitVec 128 :=
  c.opcode ++ c.entry ++ c.handler ++ c.hen ++ c.evtag ++ c.evmask ++ c.rsvdA ++ c.bound ++ c.rsvdB ++ c.arg

/-- The fields of a 256-bit word (R238). -/
def ceCmdOfWord (w : BitVec 256) : CeCmd :=
  { opcode := w.extractLsb' 252 4, bg := w.extractLsb' 251 1, crc := w.extractLsb' 248 3, z := w.extractLsb' 239 9,
    kp := w.extractLsb' 225 14, f := w.extractLsb' 211 14, ncb := w.extractLsb' 196 15, e := w.extractLsb' 174 22,
    rv := w.extractLsb' 172 2, qm := w.extractLsb' 168 4, iter := w.extractLsb' 162 6, table := w.extractLsb' 159 3,
    attach := w.extractLsb' 158 1, rsvdA := w.extractLsb' 128 30, inAddr := w.extractLsb' 99 29,
    outAddr := w.extractLsb' 70 29, resAddr := w.extractLsb' 41 29, rsvdB := w.extractLsb' 0 41 }

/-- The 256-bit word of the fields (R238). -/
def ceCmdToWord (c : CeCmd) : BitVec 256 :=
  c.opcode ++ c.bg ++ c.crc ++ c.z ++ c.kp ++ c.f ++ c.ncb ++ c.e ++ c.rv ++ c.qm ++ c.iter ++ c.table ++ c.attach ++
  c.rsvdA ++ c.inAddr ++ c.outAddr ++ c.resAddr ++ c.rsvdB

/-- The fields of a 128-bit word (R250). -/
def peCmdOfWord (w : BitVec 128) : PeCmd :=
  { opcode := w.extractLsb' 124 4, logn := w.extractLsb' 120 4, list := w.extractLsb' 118 2,
    crc := w.extractLsb' 115 3, pc := w.extractLsb' 114 1, ibil := w.extractLsb' 113 1, k := w.extractLsb' 102 11,
    e := w.extractLsb' 88 14, rnti := w.extractLsb' 72 16, inAddr := w.extractLsb' 43 29,
    outAddr := w.extractLsb' 14 29, rsvd := w.extractLsb' 0 14 }

/-- The 128-bit word of the fields (R250). -/
def peCmdToWord (c : PeCmd) : BitVec 128 :=
  c.opcode ++ c.logn ++ c.list ++ c.crc ++ c.pc ++ c.ibil ++ c.k ++ c.e ++ c.rnti ++ c.inAddr ++ c.outAddr ++ c.rsvd

/-- The fields of a 256-bit word (R283). -/
def movCmdOfWord (w : BitVec 256) : MovCmd :=
  { opcode := w.extractLsb' 252 4, mirror := w.extractLsb' 251 1, srcSpace := w.extractLsb' 249 2,
    dstSpace := w.extractLsb' 247 2, packet := w.extractLsb' 246 1, src := w.extractLsb' 204 42,
    dst := w.extractLsb' 162 42, length := w.extractLsb' 138 24, lines := w.extractLsb' 122 16,
    srcPitch := w.extractLsb' 94 28, dstPitch := w.extractLsb' 66 28, linePitch := w.extractLsb' 42 24,
    planePitch := w.extractLsb' 18 24, groupPitch := w.extractLsb' 4 14, groups := w.extractLsb' 0 4 }

/-- The 256-bit word of the fields (R283). -/
def movCmdToWord (c : MovCmd) : BitVec 256 :=
  c.opcode ++ c.mirror ++ c.srcSpace ++ c.dstSpace ++ c.packet ++ c.src ++ c.dst ++ c.length ++ c.lines ++
  c.srcPitch ++ c.dstPitch ++ c.linePitch ++ c.planePitch ++ c.groupPitch ++ c.groups

/-- The fields of a 128-bit word (R162). -/
def relayGeoOfWord (w : BitVec 128) : RelayGeo :=
  { inW := w.extractLsb' 112 16, inH := w.extractLsb' 96 16, padL := w.extractLsb' 88 8, padR := w.extractLsb' 80 8,
    padT := w.extractLsb' 72 8, padB := w.extractLsb' 64 8, sx := w.extractLsb' 56 8, sy := w.extractLsb' 48 8,
    dx := w.extractLsb' 40 8, dy := w.extractLsb' 32 8, kw := w.extractLsb' 24 8, kh := w.extractLsb' 16 8,
    padMode := w.extractLsb' 15 1, ux := w.extractLsb' 12 3, uy := w.extractLsb' 9 3, rsvd := w.extractLsb' 0 9 }

/-- The 128-bit word of the fields (R162). -/
def relayGeoToWord (c : RelayGeo) : BitVec 128 :=
  c.inW ++ c.inH ++ c.padL ++ c.padR ++ c.padT ++ c.padB ++ c.sx ++ c.sy ++ c.dx ++ c.dy ++ c.kw ++ c.kh ++
  c.padMode ++ c.ux ++ c.uy ++ c.rsvd

/-- The fields of a 128-bit word (R154). -/
def windowOfWord (w : BitVec 128) : Window :=
  { stepFirst := w.extractLsb' 116 12, stepLast := w.extractLsb' 104 12, inW := w.extractLsb' 92 12,
    inH := w.extractLsb' 80 12, linePitch := w.extractLsb' 63 17, groupPitch := w.extractLsb' 46 17,
    cgroups := w.extractLsb' 42 4, padL := w.extractLsb' 38 4, padR := w.extractLsb' 34 4, padT := w.extractLsb' 30 4,
    padB := w.extractLsb' 26 4, sx := w.extractLsb' 24 2, sy := w.extractLsb' 22 2, dx := w.extractLsb' 20 2,
    dy := w.extractLsb' 18 2, ux := w.extractLsb' 15 3, uy := w.extractLsb' 12 3, kw := w.extractLsb' 7 5,
    kh := w.extractLsb' 2 5, padMode := w.extractLsb' 1 1, rsvd := w.extractLsb' 0 1 }

/-- The 128-bit word of the fields (R154). -/
def windowToWord (c : Window) : BitVec 128 :=
  c.stepFirst ++ c.stepLast ++ c.inW ++ c.inH ++ c.linePitch ++ c.groupPitch ++ c.cgroups ++ c.padL ++ c.padR ++
  c.padT ++ c.padB ++ c.sx ++ c.sy ++ c.dx ++ c.dy ++ c.ux ++ c.uy ++ c.kw ++ c.kh ++ c.padMode ++ c.rsvd

/-! ## DSP instruction words (R209 to R220) -/

def aluWord (opc : BitVec 5) (f : AluF) : BitVec 32 := 1#4 ++ opc ++ f.lw ++ f.dd ++ f.da ++ f.db ++ f.imm6
def caddWord (opc : BitVec 4) (f : CaddF) : BitVec 32 := 2#4 ++ opc ++ f.dd ++ f.da ++ f.db ++ f.sh ++ 0#10
def cmulWord (opc : BitVec 3) (f : CmulF) : BitVec 32 := 3#4 ++ opc ++ f.dd ++ f.da ++ f.db ++ f.sh ++ 0#9
def lsWord (cls : BitVec 4) (f : LsF) : BitVec 32 := cls ++ f.size ++ f.mode ++ f.dd ++ f.ai ++ f.imm ++ 0#4
def strWord (dir : BitVec 1) (f : StrF) : BitVec 32 := 6#4 ++ dir ++ f.ord ++ f.post ++ f.dd ++ f.ai ++ f.stride ++ 0#5
def addrWord (opc : BitVec 3) (f : AddrF) : BitVec 32 := 7#4 ++ opc ++ f.ai ++ f.dd ++ f.imm16
def ctlWord (opc : BitVec 4) (x : BitVec 24) : BitVec 32 := 8#4 ++ opc ++ x
def immWord (opc : BitVec 2) (f : ImmF) : BitVec 32 := 9#4 ++ opc ++ f.dd ++ f.lane ++ 0#3 ++ f.imm16
def sysWord (opc : BitVec 3) (f : SysF) : BitVec 32 := 10#4 ++ opc ++ f.dd ++ f.sel ++ 0#16
/-- The operand bits of LOOP (R218). -/
def loopBits (f : LoopF) : BitVec 24 := f.level ++ f.csrc ++ f.body ++ f.count

/-- The integer ALU instruction of an OPC (R211). -/
def aluOf (k : Nat) (slot : BitVec 1) (opc : Nat) (f : AluF) : Option Instr :=
  match opc with
  | 0 => some (.dspMov k slot f)
  | 1 => some (.dspAdd k slot f)
  | 2 => some (.dspSub k slot f)
  | 3 => some (.dspAdds k slot f)
  | 4 => some (.dspSubs k slot f)
  | 5 => some (.dspAnd k slot f)
  | 6 => some (.dspOr k slot f)
  | 7 => some (.dspXor k slot f)
  | 8 => some (.dspShl k slot f)
  | 9 => some (.dspShra k slot f)
  | 10 => some (.dspShrr k slot f)
  | 11 => some (.dspShrl k slot f)
  | 12 => some (.dspMin k slot f)
  | 13 => some (.dspMax k slot f)
  | 14 => some (.dspAbss k slot f)
  | 15 => some (.dspClz k slot f)
  | 16 => some (.dspDivs k slot f)
  | 17 => some (.dspCmplt k slot f)
  | _ => none

/-- The complex add instruction of an OPC (R212). -/
def caddOf (k : Nat) (slot : BitVec 1) (opc : Nat) (f : CaddF) : Option Instr :=
  match opc with
  | 0 => some (.dspCadd k slot f)
  | 1 => some (.dspCsub k slot f)
  | 2 => some (.dspCaddj k slot f)
  | 3 => some (.dspCsubj k slot f)
  | 4 => some (.dspCneg k slot f)
  | 5 => some (.dspCconj k slot f)
  | 6 => some (.dspCord k slot f)
  | _ => none

/-- The complex multiply instruction of an OPC (R213). -/
def cmulOf (k : Nat) (slot : BitVec 1) (opc : Nat) (f : CmulF) : Option Instr :=
  match opc with
  | 0 => some (.dspCmul4 k slot f)
  | 1 => some (.dspCmulj4 k slot f)
  | 2 => some (.dspCmac4 k slot f)
  | 3 => some (.dspCmacj4 k slot f)
  | 4 => some (.dspCmacs k slot f)
  | 5 => some (.dspExt k slot f)
  | _ => none

/-- The address instruction of an OPC (R216). -/
def addrOf (k : Nat) (slot : BitVec 1) (opc : Nat) (f : AddrF) : Option Instr :=
  match opc with
  | 0 => some (.dspSeta k slot f)
  | 1 => some (.dspAdda k slot f)
  | 2 => some (.dspModa k slot f)
  | 3 => some (.dspMova k slot f)
  | 4 => some (.dspMovm k slot f)
  | 5 => some (.dspMovda k slot f)
  | 6 => some (.dspMovdm k slot f)
  | _ => none

/-- The system instruction of an OPC (R220). -/
def sysOf (k : Nat) (opc : Nat) (f : SysF) : Option Instr :=
  match opc with
  | 0 => some (.dspMvls k f)
  | 1 => some (.dspMvsl k f)
  | 2 => some (.dspMvsd k f)
  | 3 => some (.dspMvds k f)
  | 4 => some (.dspMvad k f)
  | 5 => some (.dspMvda k f)
  | _ => none

/-- The control instruction of an OPC, its operand bits in `x` (R218). -/
def ctlOf (k : Nat) (opc : Nat) (x : BitVec 24) : Option Instr :=
  let n := x.extractLsb' 20 4
  let target := x.extractLsb' 0 20
  let whenZero (lo len : Nat) (i : Instr) : Option Instr := if bitsOf x (lo + len - 1) lo = 0 then some i else none
  match opc with
  | 0 => whenZero 20 4 (.dspBr k target)
  | 1 => some (.dspBrz k n target)
  | 2 => some (.dspBrnz k n target)
  | 3 => some (.dspBrn k n target)
  | 4 => some (.dspBrnn k n target)
  | 5 => whenZero 20 4 (.dspCall k target)
  | 6 => whenZero 0 20 (.dspJmpa k n)
  | 7 => some (.dspLoop k { level := x.extractLsb' 22 2, csrc := x.extractLsb' 21 1, body := x.extractLsb' 11 10,
                            count := x.extractLsb' 0 11 })
  | 8 => whenZero 0 24 (.dspHalt k)
  | 9 => whenZero 0 24 (.dspReti k)
  | 10 => whenZero 1 23 (.dspIen k (x.extractLsb' 0 1))
  | 11 => whenZero 3 21 (.dspWait k (x.extractLsb' 0 3))
  | 12 => whenZero 0 11 (.dspSignal k (x.extractLsb' 16 8) (x.extractLsb' 11 5))
  | _ => none

/-- The command that a DSP instruction word spells in a slot of core `k`'s packet (R209 to R220): none where its class, opcode or a reserved
field is reserved, or where its class has no place in slot 1. -/
def dspInstrOf (k : Nat) (slot : BitVec 1) (w : BitVec 32) : Option Instr :=
  let dir := w.extractLsb' 27 1
  let ls : LsF := { size := w.extractLsb' 26 2, mode := w.extractLsb' 24 2, dd := w.extractLsb' 19 5, ai := w.extractLsb' 15 4,
                    imm := w.extractLsb' 4 11 }
  let str : StrF := { ord := w.extractLsb' 26 1, post := w.extractLsb' 25 1, dd := w.extractLsb' 21 4, ai := w.extractLsb' 17 4,
                      stride := w.extractLsb' 5 12 }
  let imm : ImmF := { dd := w.extractLsb' 21 5, lane := w.extractLsb' 19 2, imm16 := w.extractLsb' 0 16 }
  match bitsOf w 31 28 with
  | 0 => if bitsOf w 27 0 = 0 then some (.dspNop k slot) else none
  | 1 => aluOf k slot (bitsOf w 27 23)
      { lw := w.extractLsb' 21 2, dd := w.extractLsb' 16 5, da := w.extractLsb' 11 5, db := w.extractLsb' 6 5, imm6 := w.extractLsb' 0 6 }
  | 2 => if bitsOf w 9 0 = 0 then caddOf k slot (bitsOf w 27 24)
      { dd := w.extractLsb' 20 4, da := w.extractLsb' 16 4, db := w.extractLsb' 12 4, sh := w.extractLsb' 10 2 } else none
  | 3 => if bitsOf w 8 0 = 0 then cmulOf k slot (bitsOf w 27 25)
      { dd := w.extractLsb' 21 4, da := w.extractLsb' 17 4, db := w.extractLsb' 13 4, sh := w.extractLsb' 9 4 } else none
  | 4 => if bitsOf w 3 0 = 0 then some (.dspLoad k slot ls) else none
  | 5 => if bitsOf w 3 0 = 0 then some (.dspStore k slot ls) else none
  | 6 => if bitsOf w 4 0 = 0 then some (if dir = 0 then .dspStridedLoad k slot str else .dspStridedStore k slot str) else none
  | 7 => addrOf k slot (bitsOf w 27 25) { ai := w.extractLsb' 21 4, dd := w.extractLsb' 16 5, imm16 := w.extractLsb' 0 16 }
  | 8 => if slot = 0 then ctlOf k (bitsOf w 27 24) (w.extractLsb' 0 24) else none
  | 9 =>
    if bitsOf w 18 16 = 0 then
      match bitsOf w 27 26 with
      | 0 => some (.dspMovl k slot imm)
      | 1 => some (.dspMovz k slot imm)
      | _ => none
    else none
  | 10 => if slot = 0 ∧ bitsOf w 15 0 = 0 then sysOf k (bitsOf w 27 25) { dd := w.extractLsb' 20 5, sel := w.extractLsb' 16 4 } else none
  | _ => none

/-- The command that a vector word's OPCODE and SUBOP spell at place `step` of core `k`'s list (R133 to R140, R142): none where they are
reserved. -/
def veInstrOf (k step : Nat) (w : BitVec 256) : Option Instr :=
  let c := veCmdOfWord w
  match c.opcode.toNat with
  | 0x00 => some (.veNop k step c)
  | 0x01 => some (.veCopy k step c)
  | 0x02 => some (.veEpi k step c)
  | 0x10 => some (.veAdd k step c)
  | 0x11 => some (.veSub k step c)
  | 0x12 => some (.veMul k step c)
  | 0x14 => some (.veMin k step c)
  | 0x15 => some (.veMax k step c)
  | 0x16 => some (.veAbs k step c)
  | 0x17 => some (.veNeg k step c)
  | 0x18 => some (.veConj k step c)
  | 0x19 => some (.veAbs2 k step c)
  | 0x1A => some (.veLlradd k step c)
  | 0x20 =>
    match c.subop.toNat with
    | 0x02 => some (.veRecip k step c)
    | 0x03 => some (.veRsqrt k step c)
    | 0x04 => some (.veSqrt k step c)
    | 0x05 => some (.veDiv k step c)
    | 0x06 => some (.veExp k step c)
    | 0x07 => some (.veExp2 k step c)
    | 0x08 => some (.veLog k step c)
    | 0x09 => some (.veLog2 k step c)
    | 0x0A => some (.veTanh k step c)
    | 0x0B => some (.veSigmoid k step c)
    | 0x0C => some (.veSilu k step c)
    | 0x0D => some (.veGelu k step c)
    | 0x0E => some (.veSinpi k step c)
    | 0x0F => some (.veCospi k step c)
    | _ => none
  | 0x30 => some (.vePermute k step c)
  | 0x31 =>
    match c.subop.toNat with
    | 0x00 => some (.veDeinterleave k step c)
    | 0x01 => some (.veInterleave k step c)
    | 0x02 => some (.veReverse k step c)
    | 0x03 => some (.veSwapPairs k step c)
    | 0x04 => some (.veRotate k step c)
    | _ => none
  | 0x32 => some (.vePack k step c)
  | 0x33 => some (.veUnpack k step c)
  | 0x40 =>
    match c.subop.toNat with
    | 0x00 => some (.veReduceSum k step c)
    | 0x01 => some (.veReduceSumsq k step c)
    | 0x02 => some (.veReduceMax k step c)
    | 0x03 => some (.veReduceMin k step c)
    | 0x04 => some (.veReduceMaxabs k step c)
    | 0x05 => some (.veReduceArgmax k step c)
    | _ => none
  | 0x50 => some (.veDemap k step c)
  | _ => none

end Sys2Proof
end

