-- ==== Sys2Proof/Config.lean ====
section
/-! DEFINITION. Config.lean: what one part fixes (serial number, keys, tables of published standards) and the free values:
opaque constants without a body, so that no proof can lean on a value. Each names its log entry in notes/assumptions. -/

namespace Sys2Proof.Config

/-- A value that the spec leaves open, the `n`-th taken by the run (log entry 3). -/
opaque freeNat : Nat → Nat

/-- The 16-byte serial number of the device, object 0x1003:00 (R414; log entry 4). -/
opaque serial : BitVec 128

/-- Mask ROM revision, object 0x1004:01 (R414; log entry 4). -/
opaque romRevision : BitVec 32

/-- MAC addresses: fronthaul ports 0 to 15 and 16 for the management port (R414, R419; log entry 4). -/
opaque mac : Nat → BitVec 48

/-- SHAKE256 with a 64-byte digest (R297; log entry 6: a published standard, not given in the spec). -/
opaque shake256 : List Byte → BitVec 512

/-- ML-DSA-65 verification: public key, message, signature (R297; log entry 6). -/
opaque mldsaVerify : List Byte → BitVec 512 → List Byte → Bool

/-- ML-DSA-65 signature of a digest by the identity key of key generation `n` (R494, R500; log entry 6). -/
opaque mldsaSign : Nat → BitVec 512 → List Byte

/-- The identity public key that key generation `n` makes (R494; log entry 6). -/
opaque identityKey : Nat → List Byte

/-- The owner key hashes fused when the device was made, by slot, and its identity certificate (R488, R495; log entry 16). -/
opaque ownerKeyHash : Nat → BitVec 512
opaque deviceCertificate : List Byte

/-- Keys held in mask ROM (R489, R495, R497, R498): lifecycle, firmware, root and diagnostic key. -/
opaque romLifecycleKey : List Byte
opaque romFirmwareKey : List Byte
opaque romRootKey : List Byte
opaque romDiagnosticKey : List Byte

/-- The numeric codes of completion statuses in bits [479:472] (R328 gives none; log entry 7). -/
opaque statusCode : Nat → BitVec 8

/-- The edges of an LDPC base graph for set index `ils` (TS 38.212, not in the spec; log entry 8): for base graph 1 or 2,
(row, column, shift). -/
opaque ldpcEdges : Bool → Nat → List (Nat × Nat × Nat)

/-- The polar reliability sequence of TS 38.212, least reliable first (log entry 8). -/
opaque polarSequence : List Nat

/-- The distributed-CRC interleaver pattern of TS 38.212 for DCI and PBCH (log entry 8). -/
opaque polarCrcInterleaver : List Nat

/-- The transport-block size that limited-buffer rate matching takes as its reference (TS 38.212, which derives it from parameters the
carrier configuration does not hold; log entry 8): PRBs of the carrier, layers. -/
opaque lbrmTbs : Nat → Nat → Nat

/-- Places of the coded bits that multiplexed UCI takes on the shared channel (TS 38.212; log entry 8): allocation record, DMRS profile,
beta-offset indices, coded bits, KIND. -/
opaque uciPlaces : BitVec 256 → BitVec 64 → List Nat → Nat → Nat → List Nat

/-- Maximum transmission bandwidth in PRB of TS 38.101 for FR and numerology at the widest channel (R436; log entry 8). -/
opaque maxPrbs : Nat → Nat → Nat

/-- A PRACH occasion of a configuration index starts in a slot (TS 38.211, not in the spec; log entry 8): index, FR, numerology,
system frame number, slot in the frame. -/
opaque prachOccasion : Nat → Nat → Nat → Nat → Nat → Bool

/-- The last symbol of a PRACH occasion, counted from the first symbol of its first slot (log entry 8): index, FR. -/
opaque prachLastSymbol : Nat → Nat → Nat

/-- PRBs that one PRACH occasion of a configuration index takes (log entry 8): index, FR. -/
opaque prachPrbs : Nat → Nat → Nat

/-- A context block with an SRS estimate stored in it, and the estimate that a block holds (R76, R78; the spec gives the block no layout; log
entry 19): block before, FP16 parts of the channel matrices. -/
opaque srsBlock : List Byte → List (BitVec 16) → List Byte
opaque blockEstimate : List Byte → List (BitVec 16)

/-- An SRS user's report (R76 gives its content and no layout; log entry 19): context, SINR, timing offset. -/
opaque srsReport : Nat → BitVec 16 → BitVec 16 → List Byte

/-! ## What the programs of an image compute (log entry 215) -/

/-- The projection of stage 2 (R64): image digest, carrier; one row of stream coefficients for each beam. -/
opaque projection : BitVec 512 → Nat → List (List (Rat × Rat))

/-- How the image's programs round a value of a stage (R64, R65): digest, stage, exact value. -/
opaque imageRound : BitVec 512 → Nat → Rat → Rat

/-- The DSP program's FFT of one symbol's samples with the half-subcarrier correction of the numerology, and its inverse (R62, R81): digest,
numerology, size, for the FFT the subcarriers wanted. -/
opaque fftSymbol : BitVec 512 → Nat → Nat → Nat → List (Rat × Rat) → List (Rat × Rat)
opaque ifftSymbol : BitVec 512 → Nat → Nat → List (Rat × Rat) → List (Rat × Rat)

/-- The DMRS sequence of DFT-s-OFDM (TS 38.211; log entry 8): scrambling identity, slot number in the frame, symbol, length. -/
opaque lowPapr : Nat → Nat → Nat → Nat → List (Rat × Rat)

/-- A channel estimate outside the span of the DMRS that R65 interpolates between: digest, the estimates by place, the place. -/
opaque edgeEstimate : BitVec 512 → List (Nat × Rat × Rat) → Nat → Rat × Rat

/-- LMMSE weights where the matrix of R65 has no inverse: channel and noise covariance. -/
opaque openWeights : List (List (Rat × Rat)) → List (List (Rat × Rat)) → List (List (Rat × Rat))

/-- The networks of the learned path (R66): digest, working weights, carrier, record, features by data resource element (grid, estimates) and
the noise covariance; by resource element and layer the detected symbol, the post-equalisation noise variance and the confidence. -/
opaque network : BitVec 512 → List Byte → Nat → BitVec 256 → List (List (Rat × Rat) × List (List (Rat × Rat))) → List (List (Rat × Rat)) →
  List (List (Rat × Rat × Rat × Rat))

/-- The de-precoding of DFT-s-OFDM (TS 38.211), and its inverse: subcarriers of one symbol. -/
opaque dftDespread : BitVec 512 → List (Rat × Rat) → List (Rat × Rat)

/-- IMM of the image's DEMAP commands (R140), an FP32 pattern. -/
opaque llrScale : BitVec 512 → BitVec 32

/-- A codeword of the repetition, simplex and Reed–Muller codes of TS 38.212 (R252; log entry 8): information bits, bits per symbol, coded
length, message. -/
opaque shortCodeword : Nat → Nat → Nat → Nat → List Bool

/-- A correlation in Q8.8 dB above the noise floor (R252, R427 give no measure for it): digest, coded length, correlation. -/
opaque metricDb : BitVec 512 → Nat → Int → Int

/-- LLRs of a PUCCH of formats 2 to 4, and the correlations with each message of formats 0 and 1 (TS 38.211; log entry 8): digest, UCI profile,
record, for the LLRs whether they are those of CSI part 2, for the correlations the information bits, projected grid by symbol and
subcarrier. -/
opaque pucchLlrs : BitVec 512 → BitVec 64 → BitVec 256 → Bool → List (List (List (Rat × Rat))) → List Int
opaque pucchMetrics : BitVec 512 → BitVec 64 → BitVec 256 → Nat → List (List (List (Rat × Rat))) → List Int

/-- LIST of the image's polar DECODE commands (R250), by digest. -/
opaque polarList : BitVec 512 → BitVec 2

/-- The correlation peaks of a preamble (R74): digest, PRACH configuration, preamble, the occasion's samples by stream and symbol; timing
advance, power in Q8.8 dBFS, peak over noise floor in Q8.8 dB. -/
opaque prachPeaks : BitVec 512 → BitVec 64 → Nat → List (List (List (Rat × Rat))) → List (BitVec 12 × BitVec 16 × BitVec 16)

/-- An SRS estimate (R76): digest, PRBs in a group, record, projected grid by symbol and subcarrier; the FP16 parts of the matrices, the
wideband SINR and the timing offset. -/
opaque srsEstimate : BitVec 512 → Nat → BitVec 256 → List (List (List (Rat × Rat))) → List (BitVec 16) × BitVec 16 × BitVec 16

/-- The precoder of a record for a PRB (R78), one row of layer coefficients for each stream: from the host's matrices (the bytes of AUX_BUF,
whose layout the spec does not give), and from the stored channel by what the image supplies. -/
opaque hostPrecoder : List Byte → BitVec 256 → Nat → List (List (Rat × Rat))
opaque storedPrecoder : BitVec 512 → List (BitVec 16) → BitVec 256 → Nat → List (List (Rat × Rat))

/-- Control, reference and synchronisation signals of a downlink slot (R77 stages 3 and 6; the spec gives no format for their schedule; log
entry 215): digest, carrier, N_CELL_ID, slot number in the frame, records, the bytes of CTRL_BUF; by stream, symbol and subcarrier. -/
opaque controlGrid : BitVec 512 → Nat → Nat → Nat → List (BitVec 256) → List Byte → List (Nat × Nat × Nat × Rat × Rat)

/-- The raised-cosine ramp of W samples at sample `i` (R82). -/
opaque rampAt : Nat → Nat → Rat

/-- How many bits of a gain coefficient lie behind the binary point (R63 gives no scaling; log entry 9). -/
opaque gainPoint : Nat

/-- What one optimiser update makes (R85, R86; the spec gives neither networks nor optimiser; log entry 10), and the mean loss: image digest,
optimiser parameters, master weights and optimiser state before, and for each usable transport block the weights in force at its slot, its
record, the retained inputs by resource element (grid and estimates), the noise covariance and the re-encoded bits. -/
opaque trainUpdate : BitVec 512 → List (BitVec 32) → List (BitVec 32) → List Byte →
  List (List Byte × BitVec 256 × List (List (Rat × Rat)) × List (List (List (Rat × Rat))) × List (List (Rat × Rat)) × List Bool) →
  List (BitVec 32) × List Byte × BitVec 32

/-- What one forward pass of a further model of the image writes (R91; log entry 10): image digest, model, the bytes read from host memory
and from the user contexts. -/
opaque modelPass : BitVec 512 → Nat → List Byte → List (Nat × List Byte) → List Byte

/-- Island cycles that a core or cluster counts in one nanosecond of free-running operation (R34, R36, R39; log entry 11): unit,
instant. -/
opaque islandTicks : Nat → Nat → Nat

/-- Of those of a core, the cycles that wait for another island (R39; log entry 11): unit, instant. -/
opaque crossingTicks : Nat → Nat → Nat

/-- Rows of a stream FIFO's bank, less one, in an engine other than an array, by unit address (R291 gives no size; log entry 209). -/
opaque streamBankRows : Nat → Nat

/-- A correctly rounded function value that the enclosures of Func.lean did not separate (log entry 12): function, format,
operand bits. -/
opaque funcValue : Nat → Nat → Nat → Nat

/-- The AVS target in mV that the fused table gives a die in a 5 °C band (R524; log entry 13). -/
opaque avsTarget : Nat → Int → Nat

/-- The accumulated time error in ns that the time unit estimates after `elapsed` ns of holdover on a frequency source of
class `cls` (R385 gives no figure; log entry 14). -/
opaque holdoverError : Nat → Nat → Nat

/-- The version entries with their count that a Get MCTP Version Support response lists (R483 names no version; log entry 26). -/
opaque mctpVersions : List Byte

/-- The floor clock, 1.35 GHz, and the locked clock, 1.2 GHz, in MHz (R34, R40). -/
def floorMHz : Nat := 1350
def lockedMHz : Nat := 1200

end Sys2Proof.Config
end

