-- ==== Sys2Proof/Machine/State.lean ====
section
/-! DEFINITION. Machine/State.lean: the state of the Q48 as plain data, the reasons a step can stop, and the state right
after a cold reset. Each field's docstring names the rule of spec/ that gives it. -/

namespace Sys2Proof.Machine

/-- Why the block stops with a fault. No step of this model raises one: every error that the spec describes is recorded in
the fault log and recovered by the block itself (safe: the type is here for the interface). -/
inductive Fault where
  /-- Raised by no command: safe, a claim that a step ends in it is false. -/
  | unreachable
deriving DecidableEq, Repr

/-- Why a command has no meaning. -/
inductive Refusal where
  /-- Raised by an arm of exec whose command has no meaning yet: safe, no claim can be made through it. -/
  | notModelled (mnemonic : String)
deriving DecidableEq, Repr

/-- A table from numbers to values: pairs in strictly rising order of the number. -/
abbrev Tbl (α : Type) := List (Nat × α)

/-- Recovery state of a unit (R356, R358, R366). -/
inductive Phase where
  | live
  | dusk
  | dawn
  | retired
  | heldOut
deriving DecidableEq, Repr

/-- A unit port (R17 to R29). -/
structure UnitSt where
  /-- R356, R424 USTATE 2 to 5 -/
  phase : Phase := .live
  /-- commands sent to the port and not yet freed (R18): credits held by the parent are depth minus this -/
  used : Nat := 0
  /-- commands the unit holds: accepted, their slots not yet freed (R24) -/
  cmds : Nat := 0
  /-- slices the port holds, oldest first, kept by the parent with their inputs until DONE (R29) -/
  held : List Slice := []
  /-- slices a sender without a credit holds back, in order (R18) -/
  stalled : List Slice := []
  /-- child slices whose DONE has come, of slices not yet done (R28) -/
  kidsDone : List Slice := []
  /-- watchdog start, none when stopped (R24) -/
  watchdog : Option Time := none
  /-- since when the watchdog has not counted (R354) -/
  hold : Option Time := none
  /-- slice status words that are not zero, by slice, bit 0 SAT (R182) -/
  status : List (Slice × BitVec 32) := []
  /-- failed re-issues of the head slice (R360) -/
  failed : Nat := 0
  /-- a slice is being re-issued, so a fault before its DONE is a failed re-issue (R360) -/
  retrying : Bool := false
  /-- FAULTS, CORRECTED, REISSUES, LAST_FAULT of the unit record (R424) -/
  faults : Nat := 0
  corrected : Nat := 0
  reissues : Nat := 0
  lastFault : Nat := 0
  /-- network time of the last Dawn (R39, R506) -/
  dawnAt : Time := 0
deriving DecidableEq, Repr

/-- A sequencer (R44 to R46). -/
structure SeqSt where
  /-- token table, 256 counters of 8 bits by TAG (R46) -/
  tokens : Tbl Nat := []
  /-- steps started of each engine's list, by unit address (R44) -/
  started : Tbl Nat := []
  /-- steps started and not completed of each engine's list, oldest first (R45) -/
  running : Tbl (List Nat) := []
  /-- tokens discarded at slice end (R46) -/
  discarded : Nat := 0
deriving DecidableEq, Repr

/-- The held-operand buffer of an array (R92, R114). -/
structure HeldBlock where
  fmt : BitVec 4 := 0
  cplx : Bool := false
  depth : Nat := 0
  cols : Nat := 0
  vals : List (List (BitVec 16 × BitVec 16)) := []
deriving DecidableEq, Repr

/-- Format of an accumulator tile (R96, R114). -/
inductive TileFmt where
  | none
  | int32
  | fp32
deriving DecidableEq, Repr

/-- An accumulator tile, 16 KiB (R92): value (r, c) at key 64 r + c, complex parts at 64 r + 2 c and + 1; zero unlisted. -/
structure Tile where
  fmt : TileFmt := .none
  cplx : Bool := false
  vals : Tbl (BitVec 32) := []
deriving DecidableEq, Repr

/-- One matrix array (R92). -/
structure MaSt where
  held : HeldBlock := {}
  tiles : List Tile := List.replicate 8 {}
  /-- steps started on the array and not yet reported complete (R111), and the cycles they cost -/
  busy : List Nat := []
  cycles : Nat := 0
deriving DecidableEq, Repr

/-- A tile-queue slot (R119, R125 to R127): rows written 0 while it is only reserved; codewords of it in error, by number, true for an
uncorrectable one (R147; log entry 47). -/
structure Slot where
  array : Nat
  tile : Nat
  fmt : TileFmt
  cplx : Bool
  valid : Nat
  written : Nat
  vals : Tbl (BitVec 32)
  errs : Tbl Bool := []
deriving DecidableEq, Repr

/-- A matrix command that waits for a free tile-queue slot, or behind one that does (R119): command, step, next tile counted
from its first, the arrays it still runs on, those of them whose slot of that tile is reserved, whether it has begun. -/
structure MaWait where
  cmd : MatCmd
  step : Nat
  tile : Nat
  live : List Nat
  reserved : List Nat
  begun : Bool
deriving DecidableEq, Repr

/-- An engine stream FIFO (R92, R291): the rows of its two banks; banks that the writer has passed to the reader and banks that the reader
has drained, modulo 4, each with its second copy (R296). The writer fills bank `wptr` mod 2. -/
structure StreamFifo where
  banks : List (List (List Byte)) := [[], []]
  wptr : Nat := 0
  rptr : Nat := 0
  wptr2 : Nat := 0
  rptr2 : Nat := 0
deriving DecidableEq, Repr

/-- What an engine holds beside its own structure: its stream FIFO; the codewords of its memories that are in error, true for an
uncorrectable one (R92, R121, R147, R237, R261; log entry 47 numbers them); the shadow accumulators of an array, a register pair for each
cell, at 128 r + 2 c and + 1, zero unlisted (R92, R107). -/
structure EngMem where
  fifo : StreamFifo := {}
  errs : Tbl Bool := []
  shadow : Tbl (BitVec 32) := []
deriving DecidableEq, Repr

/-- An entry of the window table with its walk counters (R153, R155). -/
structure WinSt where
  desc : Window := windowOfWord 0
  q : Nat := 0
  ty : Nat := 0
  tx : Nat := 0
  g : Nat := 0
deriving DecidableEq, Repr

/-- Where a DSP result in flight lands (R221). -/
inductive DspDest where
  | d (n : Nat)
  | a (n : Nat)
  | m (n : Nat)
  | lp (n : Nat)
  | acRead (n : Nat)
deriving DecidableEq, Repr

/-- A DSP result in flight: the cycle from which packets see it, the cycle its packet issued, destination and value. -/
structure Flight where
  due : Nat
  issued : Nat
  dest : DspDest
  val : BitVec 64
deriving DecidableEq, Repr

/-- The DSP engine (R205, R227, R230, R234 to R237). -/
structure DspSt where
  d : List (BitVec 64) := List.replicate 32 0
  ac : List (BitVec 48 × BitVec 48) := List.replicate 8 (0, 0)
  /-- accumulator values as EXT and MVAD see them, until later results land (R221) -/
  acSeen : List (BitVec 48 × BitVec 48) := List.replicate 8 (0, 0)
  a : List (BitVec 24) := List.replicate 16 0
  m : List (BitVec 32) := List.replicate 16 0
  loops : List (BitVec 64) := List.replicate 4 0
  pend : BitVec 8 := 0
  evmask : BitVec 8 := 0
  hm : Bool := false
  ie : Bool := false
  elr : BitVec 20 := 0
  pc : BitVec 20 := 0
  /-- the RUN in progress -/
  cmd : Option DspCmd := none
  halted : Bool := false
  /-- cycles since the RUN started, WAIT stalls left out (R237) -/
  cycle : Nat := 0
  /-- results in flight, in the order of their packets (R221) -/
  flight : List Flight := []
  /-- slot 0 of the packet being issued has issued -/
  slot0 : Bool := false
  /-- stores of the packet being issued, slot 0 first: address and bytes (R221, R222) -/
  stores : List (Nat × List Byte) := []
  /-- branch target, packets that end before it takes effect, and whether it is a RETI (R218, R233) -/
  branch : Option (BitVec 20 × Nat × Bool) := none
  /-- where a LOOP with count 0 in the packet being issued goes on (R228) -/
  skip : Option (BitVec 20) := none
  /-- event line on which a WAIT stalls (R231) -/
  waiting : Option (BitVec 3) := none
deriving DecidableEq, Repr

/-- One core (R15, R92, R122, R205, R153). -/
structure CoreSt where
  seq : SeqSt := {}
  arrays : List MaSt := List.replicate 4 {}
  tq : List Slot := []
  maWait : List MaWait := []
  /-- vector registers V0 to V31, 16 KiB, zero unlisted (R123) -/
  veRegs : List Host.Cell := []
  /-- vector commands that wait for their slots, oldest first (R126): step and command -/
  veWait : List (Nat × VeCmd) := []
  /-- vector steps started and not yet reported complete, and the cycles they cost (R146) -/
  veBusy : List Nat := []
  veCycles : Nat := 0
  dsp : DspSt := {}
  /-- the window table, 64 entries (R153) -/
  windows : List WinSt := List.replicate 64 {}
  /-- the logical core, 6 × cluster + core, whose lists and programs stand in this core's memory, where that is another one (R54) -/
  guest : Option Nat := none
deriving DecidableEq, Repr

/-- A core-to-cluster queue record (R292) with the second copies of its pointers (R296), the value last read (R293), and the
state of its packets (R294, R295). -/
structure QRec where
  writer : UAddr := 0
  reader : UAddr := 0
  base : Nat := 0
  depth : Nat := 0
  esize : Nat := 0
  packetised : Bool := false
  wptr : Nat := 0
  rptr : Nat := 0
  wptr2 : Nat := 0
  rptr2 : Nat := 0
  underrun : Bool := false
  flushPend : Bool := false
  /-- entries of the packet being read that remain (R295) -/
  readLeft : Nat := 0
  lastRead : List Byte := []
deriving DecidableEq, Repr

/-- A coding, polar or mover engine of a cluster: steps not yet reported complete, cycles of R248, R251 and R288. -/
structure EngSt where
  busy : List Nat := []
  cycles : Nat := 0
  /-- last command was a DECODE whose write term is not paid yet (R248) -/
  decodeRun : Bool := false
deriving DecidableEq, Repr

/-- A mover (R286): transfers of the running command still to issue, transfers outstanding. -/
structure MovSt where
  eng : EngSt := {}
  toIssue : Nat := 0
  outstanding : Nat := 0
  /-- minimum efficient size of the running command's target (R288) -/
  minSize : Nat := 256
  /-- queue whose flush the running FLUSH waits for (R295) -/
  flushing : Option Nat := none
deriving DecidableEq, Repr

/-- One cluster (R15). -/
structure ClusterSt where
  seq : SeqSt := {}
  ce : List EngSt := List.replicate 2 {}
  pe : EngSt := {}
  /-- GM0, GM1, LM0 to LM3 -/
  movers : List MovSt := List.replicate 6 {}
  queues : List QRec := List.replicate 64 {}
  /-- commands of a retired PE in the exchange area (at most two, each with its half of the area) and waiting behind it (R359) -/
  borrowed : List (BitVec 3 × PeCmd × Nat) := []
  borrowWait : List (BitVec 3 × PeCmd) := []
  /-- the cluster whose lists stand in this cluster's memory, where that is another one (R358) -/
  guest : Option Nat := none
deriving DecidableEq, Repr

/-- A fault record (R371). -/
structure FaultRec where
  number : Nat
  time : Time
  unit : UAddr
  cause : BitVec 8
  action : BitVec 4
  retry : Nat
  queue : BitVec 12
  seq : Seq
  address : Nat
  count : Nat
deriving DecidableEq, Repr

/-- Servo state (R382). -/
inductive Servo where
  | freerun
  | acquiring
  | locked
  | holdover
deriving DecidableEq, Repr

/-- An event input (R391, R417): tracked level, captures taken, edges lost, the ring of 16. -/
structure EvtIn where
  level : Bool := false
  count : Nat := 0
  lost : Nat := 0
  ring : Tbl Time := []
deriving DecidableEq, Repr

/-- The time unit (R375 to R391). -/
structure TimeSt where
  /-- network time, 64 bits (R375): 0 at cold reset (R376) -/
  now : Time := 0
  /-- ns since cold reset (R506) -/
  up : Time := 0
  /-- Meridians since cold reset (R448), the latest one, its system frame and subframe number (R386, R416) -/
  meridians : Nat := 0
  lastMeridian : Time := 0
  sfn : Nat := 0
  subframe : Nat := 0
  servo : Servo := .freerun
  /-- LAST_OFFSET in quarter ns, REFUSED_OFFSET in ns (R416) -/
  lastOffset : Int := 0
  refusedOffset : Int := 0
  stepRefused : Bool := false
  refusalRun : Bool := false
  teExceeded : Bool := false
  ppsInverted : Bool := false
  /-- since when the offset has stayed below LOCK_THRESHOLD, agreeing measurements in HOLDOVER, holdover start -/
  belowSince : Option Time := none
  agreeing : Nat := 0
  holdoverSince : Time := 0
  /-- sources 1 to 6 available (R378) -/
  available : List Nat := [5, 6]
  todNext : Option Nat := none
  ppsOut : Bool := false
  /-- network time of the last PPS_IN edge -/
  lastPps : Option Time := none
  trigLevel : List Bool := List.replicate 8 false
  trigMissed : List Bool := List.replicate 8 false
  /-- Meridian at which each trigger record took effect (R389) -/
  trigRef : List Time := List.replicate 8 0
  evt : List EvtIn := List.replicate 4 {}
  /-- planned TICKs fired, the latest of each receiver and TAG with its instant (R22) -/
  ticked : List (UAddr × BitVec 8 × Time) := []
  /-- copies of compute dies 0 and 1 stopped (R376) -/
  copyStopped : List Bool := [false, false]
deriving DecidableEq, Repr

/-- Occupancy state (R301). -/
inductive OccState where
  | none
  | loading
  | running
  | twilight
deriving DecidableEq, Repr

/-- What follows Twilight (R302, R336, R367, R492). -/
inductive AfterTwilight where
  | toNone
  | packageReset
  | transition
deriving DecidableEq, Repr

/-- The occupancy (R301, R305, R421, R351). -/
structure OccSt where
  state : OccState := .none
  image : Option Image := none
  /-- a host read of the copy failed (R457) or the lengths disagree (R301) -/
  copyBad : Bool := false
  queuedLoad : Option (Image × Bool) := none
  after : AfterTwilight := .toNone
  drained : Bool := false
  reason : Nat := 0
  section_ : Nat := 0
  step : Nat := 0
  unit : UAddr := 0
  /-- OCCUPANCY_NUMBER of the running occupancy and successful loads since cold reset (R305) -/
  number : Nat := 0
  loads : Nat := 0
  digest : BitVec 512 := 0
  locked : Bool := false
  /-- the load names a replay source (R41, R351), REPLAY_STATUS, inputs ignored while replaying (R352) -/
  replay : Bool := false
  replayStatus : Nat := 0
  replayIgnored : Nat := 0
  /-- since when the queue engine has been able to fetch without a break (R337, R459) -/
  fetchFrom : Time := 0
deriving DecidableEq, Repr

/-- A MODEL_COMMIT accepted and not swapped yet (R87 to R89): the Meridian it claims (0 while it claims none), when its
conversion into the spare set completed. -/
structure ModelSwap where
  queue : Nat
  seq : Nat
  target : Time
  revert : Bool
  slipped : Bool
  converted : Option Time
deriving DecidableEq, Repr

/-- What the learned and classical paths took in of one user of an uplink slot (R65, R66, R84): for each data resource element the projected
grid and the channel estimates, by beam and layer, real and imaginary part; the noise covariance; the transport block where it passed CRC. -/
structure UserIn where
  context : Nat
  record : BitVec 256
  grid : List (List (Rat × Rat))
  estimates : List (List (List (Rat × Rat)))
  noise : List (List (Rat × Rat))
  passed : Option (List Bool)
deriving DecidableEq, Repr

/-- A retained uplink slot (R84, R85): its item, slot start and number (R387), the working weights in force at its start, its users. -/
structure Retained where
  carrier : Nat
  queue : Nat
  seq : Nat
  slotTime : Time
  slotNo : Nat
  weights : List Byte
  users : List UserIn
deriving DecidableEq, Repr

/-- Weight sets (R84, R87 to R90): the image's original and the master weights as FP32 patterns, the two sets of working weights and the
optimiser state as bytes. -/
structure WeightSt where
  original : List (BitVec 32) := []
  master : List (BitVec 32) := []
  inForce : List Byte := []
  /-- the spare working set: the set retired by the latest swap, or the result of a conversion -/
  spare : List Byte := []
  optimiser : List Byte := []
  /-- model generation, 32 bits (R90) -/
  gen : Nat := 0
  swaps : List ModelSwap := []
  /-- retained uplink slots (R84), newest first, and those held beyond the window by a pin (R85) -/
  retained : List Retained := []
  /-- pins (R85): the TRAIN_STEP's queue and sequence number, the pinned slot's carrier, queue and sequence number -/
  pins : List (Nat × Nat × Nat × Nat × Nat) := []
deriving DecidableEq, Repr

/-- Completion statuses (R57, R320, R322). -/
inductive Status where
  | ok
  | late
  | replayed
  | inputIncomplete
  | crcFail
  | fallbackUsed
  | saturated
  | empty
  | refusedNotLoaded
  | refusedFormat
  | refusedLateSubmit
  | refusedEnvelope
  | refusedSoftbuf
  | refusedContext
deriving DecidableEq, Repr

/-- How far an item has come (R318 to R323, R369). -/
inductive ItemPhase where
  | waiting
  | accepted
  | refused (s : Status)
deriving DecidableEq, Repr

/-- A fetched work item whose completion is not yet formed (R311). -/
structure Item where
  queue : Nat
  seq : Nat
  opcode : Nat
  fetched : Fetched
  arrival : Time
  fetchedAt : Time
  /-- SLOT_TIME and DEADLINE extended to 64 bits (R319) -/
  slotTime : Time
  deadline : Time
  phase : ItemPhase
  decidedAt : Time
  /-- a slice of it was re-issued (R369) -/
  reissued : Bool
  /-- DONE of its last slice (R369) -/
  doneAt : Option Time
  /-- an input read failed (R457), or a stored channel was missing (R78) -/
  inputMissing : Bool
  /-- resource elements erased, uplink (R61) -/
  erased : Nat
  /-- sections not sent, downlink (R79) -/
  unsent : Nat
  /-- SAT of any of its slices; of one whose scope is all users; users with SAT in a slice of their own scope (R183) -/
  sat : Bool
  satAll : Bool
  satUsers : List Nat
  /-- model generation at its slot start (R56) -/
  gen : Nat
  /-- TRAIN_STEP: slots skipped (R85) -/
  skipped : Nat
  /-- MODEL_COMMIT and CAPTURE: the Meridian used; BARRIER: T (R329, R346, R402) -/
  meridianUsed : Time
  /-- MODEL_COMMIT: the swap slipped, the generation after it (R89, R329) -/
  slipped : Bool
  genAfter : Nat
  /-- BARRIER: operation number (R400) -/
  opNumber : Nat
  /-- outputs that movers made while the host could not be written (R459): address and bytes -/
  outputs : List (Nat × List Byte)
deriving DecidableEq, Repr

/-- A formed completion whose writes may be held (R333, R459): entry, outputs. -/
structure Formed where
  seq : Nat
  entry : BitVec 512
  outputs : List (Nat × List Byte)
deriving DecidableEq, Repr

/-- A queue pair (R306, R307, R310, R317, R330, R334). -/
structure QueueSt where
  sqBase : Nat := 0
  cqBase : Nat := 0
  ledger : Nat := 0
  depth : Nat := 0
  firstSeq : Nat := 0
  client : Nat := 0
  vector : Nat := 0
  modCount : Nat := 0
  modTime : Nat := 0
  tail : Nat := 0
  acceptNext : Nat := 0
  completeNext : Nat := 0
  /-- next entry to fetch (R318) -/
  fetchNext : Nat := 0
  /-- next completion to form (R331) -/
  formNext : Nat := 0
  /-- QSTATE: 0 disabled, 1 open, 2 closed by Twilight -/
  qstate : Nat := 0
  /-- COMPLETE_NEXT of the last ledger written (R333) -/
  ledgerNext : Nat := 0
  deficit : Int := 0
  dbFaults : Nat := 0
  /-- doorbells with their landing times: tail and time, newest first (R318) -/
  arrivals : List (Nat × Time) := []
  /-- latest deadline of an item that has passed its fetch checks (R320) -/
  lastDeadline : Option Time := none
  /-- formed completions not yet covered by a ledger (R333), oldest first -/
  formed : List Formed := []
  /-- pending completion count P and its timer (R334) -/
  pendCount : Nat := 0
  timer : Option Time := none
deriving DecidableEq, Repr

/-- A HARQ soft buffer (R255): the numbers of its pages in the pool, its circular-buffer length; its carrier. -/
structure SoftBuf where
  context : Nat
  process : Nat
  pages : Nat
  at_ : List Nat
  carrier : Nat
  ncb : Nat
  half : BitVec 1
  lastSeq : Option (Nat × Nat)
  tbs : Nat
  rate : Nat
  /-- queue and sequence number of items not completed that use it; the other half written by one of them -/
  users : List (Nat × Nat)
  released : Bool
deriving DecidableEq, Repr

/-- A resident user context (R325, R326): its last use, whether it holds an SRS estimate (R76, R78), its block. -/
structure CtxSt where
  context : Nat
  lastUse : Time
  hasEstimate : Bool
  block : List Byte
deriving DecidableEq, Repr

/-- A planned swap (R327). -/
structure Swap where
  context : Nat
  victim : Option Nat
  landed : Bool
deriving DecidableEq, Repr

/-- Contexts, soft-buffer pool and per-client counts (R255 to R259, R324 to R327). -/
structure PoolSt where
  freePages : Nat := 0
  bufs : List SoftBuf := []
  /-- last slot number that used a HARQ process, by 32 × context + process (R257) -/
  lastUse : Tbl Time := []
  resident : List CtxSt := []
  swaps : List Swap := []
  /-- contexts written to the backing store: whether the block held an estimate, and the block (R325, R327) -/
  backing : Tbl (Bool × List Byte) := []
  /-- fetched, accepted, refused, completed by client (R324) -/
  clients : Tbl (Nat × Nat × Nat × Nat) := []
deriving DecidableEq, Repr

/-- A C-plane section sent for an uplink symbol (R469): the opcode of its item, and what of it has been received (R470): first PRB or
sample, count, values of the parts after gain. -/
structure CSection where
  op : Nat
  carrier : Nat
  slot : Time
  symbol : Nat
  port : Nat
  eaxc : BitVec 16
  sectionId : BitVec 12
  first : Nat
  count : Nat
  got : List (Nat × Nat × List Int)
deriving DecidableEq, Repr

/-- A fronthaul port (R419, R463 to R467, R486). -/
structure FhPort where
  up : Bool := false
  peer : Option (BitVec 48 × Option (BitVec 16)) := none
  rx : Nat := 0
  tx : Nat := 0
  late : Nat := 0
  faults : BitVec 16 := 0
  /-- next ecpriSeqid to send by eAxC ID, C-plane messages at 65,536 more (R467) -/
  seqids : Tbl Nat := []
deriving DecidableEq, Repr

/-- The fronthaul region (R60, R61, R463 to R472). -/
structure FhSt where
  ports : List FhPort := List.replicate 16 {}
  /-- laser inputs 0 to 3: 0 good, 1 no light, 2 over-power (R464) -/
  lasers : List Nat := List.replicate 4 0
  sections : List CSection := []
  /-- symbols complete: carrier, slot start, symbol (R61) -/
  complete : List (Nat × Time × Nat) := []
  /-- downlink sections sent: carrier, slot start, symbol, stream, first PRB or sample, count; symbols whose transmit window has closed
  (R79) -/
  dlSent : List (Nat × Time × Nat × Nat × Nat × Nat) := []
  dlClosed : List (Nat × Time × Nat) := []
deriving DecidableEq, Repr

/-- A Vrelol port (R419, R473 to R480, R405). -/
structure VlPort where
  /-- 0 down, 1 trained and unjoined, 2 joined -/
  state : Nat := 0
  peer : Option (BitVec 6 × BitVec 3) := none
  retries : Nat := 0
  faults : BitVec 16 := 0
  halfRate : Bool := false
  /-- CONSTELLATION_ID that the latest training took (R392) -/
  identity : BitVec 32 := 0
  /-- next FSEQ to send, last FSEQ received in order, NAK outstanding -/
  txSeq : BitVec 12 := 0
  rxSeq : BitVec 12 := 4095
  nak : Bool := false
  /-- data flits sent and not acknowledged, oldest first: FSEQ and flit (R478) -/
  replay : List (BitVec 12 × BitVec 2048) := []
  /-- replays in a row without ACK progress, flits replayed this subframe, budget exceeded this subframe -/
  stuck : Nat := 0
  replayed : Nat := 0
  overBudget : Bool := false
  /-- bytes received of classes 0 and 1 and not yet taken as segments, none of class 2 (R476) -/
  streams : List (List Byte) := [[], [], []]
  /-- credits held in 16-byte units: shared space of classes 0 to 2; reserves by 64 × class + hop class (R477) -/
  shared : List Nat := [0, 0, 0]
  reserve : Tbl Nat := []
  /-- segments that wait for credits, in order (R477) -/
  waiting : List (BitVec 128 × List Byte) := []
  /-- credits to return to the peer: class, count in 16-byte units, of a reserve, hop class (R475, R477) -/
  owed : List (Nat × Nat × Bool × Nat) := []
  /-- OUT_SEQ and IN_SEQ since the join (R404, R405) -/
  outSeq : BitVec 32 := 0
  inSeq : BitVec 32 := 0
  /-- last TX_TIME of the peer and its arrival, two-way delay (R475) -/
  peerTx : Time := 0
  peerRx : Time := 0
  delay : Int := 0
deriving DecidableEq, Repr

/-- A write or token held until its end-to-end acknowledgement (R480). -/
structure HeldWrite where
  /-- the unit that issued it (R22) -/
  src : UAddr
  dst : BitVec 6
  e2e : BitVec 16
  header : BitVec 128
  data : List Byte
deriving DecidableEq, Repr

/-- A READ sent to a peer (R481): its tag, the tag of the first piece of the read through BAR4 that it is part of, its address and length,
and the bytes that answered it with their poison. -/
structure ReadOut where
  tag : Nat
  head : Nat
  addr : Nat
  len : Nat
  got : Option (List Byte × Bool)
deriving DecidableEq, Repr

/-- A route (R395): destination, hops, next-hop device, port. -/
structure Route where
  dev : Nat
  hops : Nat
  next : Nat
  port : Nat
deriving DecidableEq, Repr

/-- An exact value: ± m × 2^e, an infinity, or NaN. A zero keeps its sign. -/
inductive Val where
  | fin (neg : Bool) (m : Nat) (e : Int)
  | inf (neg : Bool)
  | nan
deriving DecidableEq, Repr

/-- Statistics of one transfer of link narrowing (R188, R201): per channel the largest magnitude, the smallest and the largest
value (none where no value counted); E_ERR and E_SIG as FP32 bits; values, saturations, escapes, wide blocks, zero and constant channels. -/
structure NarrowMeas where
  stats : List (Option (Val × Val × Val))
  eErr : BitVec 32
  eSig : BitVec 32
  counts : List Nat
deriving DecidableEq, Repr

/-- Link narrowing of one tensor to one destination (R188, R189): the last completed transfer, the transfers sent and not yet completed by
E2E_SEQ, with the port that sent each. -/
structure NarrowSt where
  tensor : Nat
  dst : Nat
  last : Option NarrowMeas
  sent : List (BitVec 16 × Nat × NarrowMeas)
deriving DecidableEq, Repr

/-- What a port keeps of a tensor (R201): the last completed transfer, the running totals in the order of R420. -/
structure NarrowPort where
  tensor : Nat
  port : Nat
  last : NarrowMeas
  totals : List Nat
deriving DecidableEq, Repr

/-- The exponents of a transfer, fixed when a slice first encodes it and kept with its inputs (R189): the slice, the destination's fabric
address, the tensor, exponents and zero points, and whether the present run of the slice has used them. -/
structure FixedScales where
  slice : Slice
  addr : Nat
  tensor : Nat
  scales : List (Int × Int)
  used : Bool
deriving DecidableEq, Repr

/-- A narrowed transfer of which not all segments have arrived: source, tensor, address, bytes. -/
structure PartIn where
  src : Nat
  tensor : Nat
  addr : Nat
  data : List Byte
deriving DecidableEq, Repr

/-- The fabric region (R392 to R398, R473 to R481). -/
structure FabricSt where
  ports : List VlPort := List.replicate 8 {}
  known : List LinkState := []
  routes : List Route := []
  /-- a settled change waits for this Meridian (R396) -/
  changeAt : Option Time := none
  duplicates : List Nat := []
  held : List HeldWrite := []
  nextE2e : Tbl (BitVec 16) := []
  /-- E2E_SEQ landed, by source (R480); a number half the range behind the newest is forgotten -/
  landed : Tbl (List (BitVec 16)) := []
  /-- reads outstanding, in the order sent (R481) -/
  reads : List ReadOut := []
  diameter : Nat := 0
  eccentricity : Nat := 0
  floodSeq : Nat := 0
  narrow : List NarrowSt := []
  narrowPorts : List NarrowPort := []
  fixedScales : List FixedScales := []
  partIn : List PartIn := []
  /-- positions whose next slice a received transfer has saturated, and slices whose inputs have (R194) -/
  satNext : List (BitVec 32) := []
  satSlices : List Slice := []
  /-- destinations with a new next hop (R396): the first E2E_SEQ that waits until every earlier write is acknowledged -/
  newHop : Tbl (BitVec 16) := []
deriving DecidableEq, Repr

/-- A global operation the device armed, forwards or started (R400, R401, R403). -/
structure OpSt where
  a : Announce
  lead : Nat
  armed : Bool
  sent : Bool
  acted : BitVec 64
  uncertain : BitVec 64
  missed : BitVec 64
  refused : BitVec 64
  role : Nat
  /-- its entry of the log, counted since cold reset (R406) -/
  slot : Nat
deriving DecidableEq, Repr

/-- A snapshot (R405): T, occupancy number, model generation, per port OUT_SEQ, IN_SEQ, TRANSIT, IN_FLIGHT, per queue the
pointers, the counter image, the ports whose marker is still missing. -/
structure Snapshot where
  t : Time
  number : Nat
  gen : Nat
  ports : List (Nat × Nat × Nat × Nat)
  queues : List (Nat × Nat × Nat × Nat)
  counters : List Byte
  missing : List Nat
deriving DecidableEq, Repr

/-- Global operations (R399 to R406). -/
structure GlobalSt where
  ops : List OpSt := []
  /-- operation number of the next operation that this device initiates (R400) -/
  counter : BitVec 16 := 0
  log : Tbl (BitVec 512) := []
  logCount : Nat := 0
  snapshot : Option Snapshot := none
  /-- snapshots in progress: initiator, operation number, whether the device acted uncertain, snapshot (R401, R405) -/
  pending : List (BitVec 6 × BitVec 16 × Bool × Snapshot) := []
  /-- markers that came before this device acted: port, T, OUT_SEQ (R405) -/
  early : List (Nat × Time × BitVec 32) := []
deriving DecidableEq, Repr

/-- A captured commit (R435): when it takes effect, its mask, the captured values. -/
structure Commit where
  target : Time
  mask : BitVec 64
  vals : Tbl Nat
deriving DecidableEq, Repr

/-- An object stream (R447 to R449). -/
structure Sub where
  who : Requester
  tid : BitVec 32
  period : Nat
  entries : List (BitVec 16 × BitVec 8)
  ringAddr : Nat
  ringSlots : Nat
  seq : Nat
deriving DecidableEq, Repr

/-- The object dictionary's own state (R409 to R449). -/
structure ObjSt where
  /-- RW values written since cold reset, by 256 × index + subindex (R412) -/
  rw : Tbl Nat := []
  /-- staged values written, and values in force taken by a commit, of RWS objects (R434); others are at their default -/
  staged : Tbl Nat := []
  inForce : Tbl Nat := []
  commits : List Commit := []
  /-- commits that took effect: the Meridian, and the values of their objects before it (none: the default) (R56) -/
  past : List (Time × List (Nat × Option Nat)) := []
  commitMeridian : Time := 0
  refused : BitVec 64 := 0
  firstFault : BitVec 32 := 0
  /-- OBJ_CTRL (R439) -/
  busy : Bool := false
  done : Bool := false
  overrun : Bool := false
  /-- requests that have landed and are not served, oldest first (R438) -/
  landed : List ObjReq := []
  /-- requests of the management port kept for repeats (R441): source, TID, time, response frame, empty before its answer -/
  recent : List (Nat × BitVec 16 × BitVec 32 × Time × List Byte) := []
  mgmtDropped : Nat := 0
  subs : List Sub := []
deriving DecidableEq, Repr

/-- Fuse storage and lifecycle requests (R488 to R499). -/
structure LifeSt where
  /-- Eclipse map (R51), fused at manufacture: log entry 5 names the positions that this reset value disables -/
  eclipse : BitVec 56 := 0x81020408102040
  /-- 0 BLANK to 4 DECOMMISSIONED -/
  state : Nat := 2
  /-- hashes fused since manufacture; none: as manufactured (log entry 16) -/
  ownerHash : List (Option (BitVec 512)) := List.replicate 4 none
  ownerFused : BitVec 4 := 1
  ownerRevoked : BitVec 4 := 0
  requests : Nat := 0
  patchFloor : Nat := 0
  certified : Bool := true
  /-- the certificate stored since manufacture; none: as manufactured (log entry 16) -/
  certificate : Option (List Byte) := none
  keyDestroyed : Bool := false
  /-- identity key generations made; 0: none -/
  keyGen : Nat := 1
  /-- accepted transition: operation code, immediate (R492) -/
  transition : Option (Nat × Bool) := none
  /-- bytes of a partial request (R488) -/
  partialReq : List Byte := []
  /-- the patch record in force: level, digest (R498) -/
  patch : Option (BitVec 32 × BitVec 512) := none
  /-- the copies of the verified record in the DRAM of compute dies 0 and 1 (R498) -/
  patchCopies : List (Option (List Byte)) := [none, none]
deriving DecidableEq, Repr

/-- The control processor (R48, R50). -/
structure CpSt where
  restarting : Bool := false
  /-- its 256 KiB of RAM, and the codewords whose check bytes differ from those of their data (R48, R271) -/
  ram : List Host.Cell := []
  ramCheck : Tbl (BitVec 32) := []
  /-- die or package recovery it sequences (R50, R366): 0 none, otherwise the die's number plus 1 -/
  packageStep : Nat := 0
deriving DecidableEq, Repr

/-- The PCI Express port (R450 to R462). -/
structure PcieSt where
  linkUp : Bool := true
  /-- Bus Master Enable (R459), 0 as PCI Express resets it -/
  busMaster : Bool := false
  speed : Nat := 64
  width : Nat := 8
  retries : Nat := 0
  replayed : Nat := 0
  overBudget : Bool := false
  d3hot : Bool := false
  /-- log2 of the size of BAR2 (R452) -/
  bar2Bits : Nat := 36
  bar4 : BitVec 6 := 0
  /-- MSI-X table entries that differ from their reset value, all zero but for the mask bit of bits [127:96] (R453), and the
  pending bit array: the vectors whose bit is 1 -/
  msixTable : Tbl (BitVec 128) := []
  msixPending : List Nat := []
  doeError : Bool := false
  doeReply : List Byte := []
deriving DecidableEq, Repr

/-- A compute die's part in recovery (R281, R363, R364, R366). -/
structure DieSt where
  /-- its slices run on the other die -/
  out : Bool := false
  /-- Dawn passed, slices return at this Meridian or later -/
  returnFrom : Option Time := none
  /-- 2 KiB blocks of the restore footprint copied; none when no restore runs -/
  restored : Option Nat := none
  /-- a fault detected while the other die was out waits (R364) -/
  faultHeld : Bool := false
  /-- when the open DRAM refresh window ends (R269), and the 2 KiB block that every channel scrubs next (R275) -/
  refreshing : Option Time := none
  scrub : Nat := 0
deriving DecidableEq, Repr

/-- A clock island (R33 to R35): stopped by a floor breach, and since when. -/
structure IslandSt where
  stopped : Bool := false
  since : Time := 0
  stretched : Bool := false
deriving DecidableEq, Repr

/-- Pins, rails and sensors (R516 to R540). -/
structure PinSt where
  /-- reset held by POR_N, PERST_N, a rail -/
  porLow : Bool := false
  perstLow : Bool := false
  railBad : Bool := false
  alert : Bool := false
  thermtrip : Bool := false
  halted : Bool := false
  devnum : BitVec 6 := 0
  openStrap : BitVec 6 := 0
  /-- pin status byte of low-speed signal k (R536) -/
  status : Tbl (BitVec 8) := []
  /-- junction sensors 0 to 39 in units of 1/256 °C; none invalid (R535) -/
  temps : List (Option Int) := List.replicate 40 (some 6400)
  /-- die treated as at 100 °C until cold reset (R535) -/
  tempLatched : List Bool := [false, false, false]
  throttle : List Nat := [0, 0, 0]
  below97 : List (Option Time) := [none, none, none]
  /-- measured mV of the 13 rails, in the order of R536; AVS targets of the core rails; AVS_NO_RESPONSE of the core rails -/
  railMv : List Nat := [750, 750, 1050, 1050, 400, 400, 750, 850, 900, 900, 1800, 1800, 1800]
  avs : List Nat := [750, 750]
  avsNoResponse : List Bool := [false, false]
  /-- JTAG instruction in force: 0 BYPASS (R485) and the boundary preload -/
  jtag : Nat := 0
  boundary : List Bool := []
deriving DecidableEq, Repr

/-- Sideband and management port (R440, R441, R482 to R484). -/
structure BusSt where
  i3cAddr : Option (BitVec 7) := none
  eid : BitVec 8 := 0
  busClears : Nat := 0
  stuck : Bool := false
  mgmtUp : Bool := false
deriving DecidableEq, Repr

/-- A counter record (R505). -/
structure CounterSt where
  config : List (BitVec 32) := List.replicate 4 0
  count : List (BitVec 64) := List.replicate 4 0
  overflow : BitVec 4 := 0
deriving DecidableEq, Repr

/-- Performance counters (R504 to R515). -/
structure PmuSt where
  recs : Tbl CounterSt := []
  samples : Tbl (BitVec 256) := []
  written : Nat := 0
  lost : Nat := 0
  windowTime : Time := 0
deriving DecidableEq, Repr

/-- Capture settings (R345). -/
structure CapSet where
  bufBase : Nat
  bufBytes : Nat
  carriers : BitVec 32
  ringBytes : Nat
  kinds : BitVec 5
  wrap : Bool
  mode : Nat
deriving DecidableEq, Repr

/-- The capture unit (R345 to R350). -/
structure CapSt where
  running : Option CapSet := none
  /-- settings that take effect at a Meridian, in the order of their items (R346) -/
  changes : List (Time × CapSet) := []
  /-- bytes written to the ring since the start, records in it: length each, oldest first -/
  written : Nat := 0
  lens : List Nat := []
  /-- bytes lost since the last record kept, and the time of the first record lost (R350) -/
  lost : Nat := 0
  lostAt : Time := 0
  producer : Nat := 0
deriving DecidableEq, Repr

/-- What leaves the device: the model's record of its outputs, oldest first (log entry 2). -/
inductive Output where
  | hostWrite (addr : Nat) (bytes : List Byte)
  | msix (vector : Nat)
  | readReply (bytes : List Byte) (poisoned : Bool)
  | unsupportedRequest
  | response (who : Requester) (frame : List Byte)
  | token (dst : UAddr) (tok : Tok)
  | cplane (port : Nat) (eaxc : BitVec 16) (slot : Time) (symbol first count : Nat)
  | uplane (port : Nat) (eaxc : BitVec 16) (slot : Time) (symbol first : Nat) (bytes : List Byte)
  | ecpriReply (port : Nat) (measurementId : BitVec 8) (t : Time)
  | ptp (port : Nat)
  | esmc (port : Nat) (ql : BitVec 4)
  | segment (port : Nat) (header : BitVec 128) (data : List Byte)
  | flit (port : Nat) (flit : BitVec 2048)
  | joinFlit (port : Nat) (w : JoinWord)
  | flood (port : Nat) (ls : LinkState)
  | announce (port : Nat) (a : Announce)
  | marker (port : Nat) (t : Time) (outSeq : BitVec 32)
  | opAck (dst : BitVec 6) (opNumber : BitVec 16) (ans : OpAnswer)
  | avs (rail : Nat) (milliVolts : Nat)
  | doe (bytes : List Byte)
  | mctp (eid : BitVec 8) (bytes : List Byte)
  | arpReply (mac : BitVec 48) (ip : BitVec 32)
  | icmpReply (dst : Nat) (payload : List Byte)
  | ndReply (target : BitVec 128)
  | jtag (bits : List Bool)
  | sclPulses (n : Nat)
deriving DecidableEq, Repr

/-- Byte-addressed local memory (R262, R271 to R273, R276). -/
structure MemSt where
  /-- bytes by local address, strictly rising, no zero listed: an unlisted byte reads 0 -/
  cells : List Host.Cell := []
  /-- codewords whose stored check bytes differ from those of their data: codeword number and difference (R271) -/
  check : Tbl (BitVec 32) := []
  /-- codewords of mirrored regions that a scrub found uncorrectable and that wait for the next refresh window (R275) -/
  repairs : List Nat := []
  /-- bytes of each SRAM, by its first address, that its scrub port has passed (R275) -/
  scrubbed : Tbl Nat := []
  /-- dropped writes of a master in the current subframe: master, subframe, record number (R263) -/
  dropped : List (UAddr × Nat × Nat) := []
deriving DecidableEq, Repr

/-- A token on its way (R37): receiver, token, and for a FENCE the writes of its source that it waits for, by receiving device and
E2E_SEQ (R22). -/
structure Crossing where
  dst : UAddr
  tok : Tok
  behind : List (BitVec 6 × BitVec 16)
deriving DecidableEq, Repr

/-- The state of the Q48. -/
structure State where
  /-- commands that wait, first in first out -/
  pending : List Instr
  time : TimeSt
  mem : MemSt
  /-- tokens emitted that have not arrived yet, oldest first (R37) -/
  crossing : List Crossing
  /-- unit ports by unit address (R17) -/
  units : Tbl UnitSt
  /-- cores by 6 × cluster + logical core -/
  cores : Tbl CoreSt
  clusters : Tbl ClusterSt
  /-- stream FIFOs and errors of engines, by unit address (R92, R291) -/
  engMem : Tbl EngMem
  /-- clock islands: 0 to 47 cores, 48 to 55 clusters, 56 to 60 I/O die regions (R33) -/
  islands : Tbl IslandSt
  dies : List DieSt
  cp : CpSt
  /-- fault log: record N at N mod 256 (R371), number of the newest record -/
  faults : Tbl FaultRec
  lastFault : Nat
  occ : OccSt
  weights : WeightSt
  queues : Tbl QueueSt
  items : List Item
  pool : PoolSt
  /-- Share dispatcher's last queue (R310) -/
  shareCur : Nat
  fh : FhSt
  fabric : FabricSt
  global : GlobalSt
  obj : ObjSt
  life : LifeSt
  pcie : PcieSt
  pins : PinSt
  bus : BusSt
  pmu : PmuSt
  cap : CapSt
  out : List Output
  /-- how many free values the run has taken: the model's own field (log entry 3) -/
  freeCount : Nat
deriving DecidableEq, Repr

/-- The device right after a cold reset in lifecycle state DEPLOYED: every value the spec states for reset, and for the
others the value that notes/assumptions names (log entries 1, 4, 16). -/
def State.reset : State :=
  { pending := [], time := {}, mem := {}, crossing := [], units := [], cores := [], clusters := [], engMem := [], islands := [],
    dies := [{}, {}], cp := {}, faults := [], lastFault := 0, occ := {}, weights := {}, queues := [], items := [],
    pool := {}, shareCur := 4095, fh := {}, fabric := {}, global := {}, obj := {}, life := {}, pcie := {}, pins := {},
    bus := {}, pmu := {}, cap := {}, out := [], freeCount := 0 }

end Sys2Proof.Machine
end

