-- ==== Sys2Proof/Machine/Ops.lean ====
section
/-! DEFINITION. Machine/Ops.lean: the named operations over State that the commands share: tables, time, unit addresses,
the fault log, tokens, counters, capture records and memory. -/

namespace Sys2Proof.Machine

/-! ## Tables -/

/-- The value of key `k`. -/
def tget {α : Type} : Tbl α → Nat → Option α
  | [], _ => none
  | (j, x) :: t, k => if j = k then some x else tget t k

/-- The table with `v` at key `k`, in rising order. -/
def tset {α : Type} : Tbl α → Nat → α → Tbl α
  | [], k, v => [(k, v)]
  | (j, x) :: t, k, v =>
    if k < j then (k, v) :: (j, x) :: t else if k = j then (k, v) :: t else (j, x) :: tset t k v

/-- The table without key `k`. -/
def tdel {α : Type} (t : Tbl α) (k : Nat) : Tbl α := t.filter (fun p => p.1 ≠ k)

/-- Entry `i` of a list replaced by `f` of it; a list too short is unchanged. -/
def lmod {α : Type} : List α → Nat → (α → α) → List α
  | [], _, _ => []
  | x :: t, 0, f => f x :: t
  | x :: t, i + 1, f => x :: lmod t i f

/-- A list cut into pieces of `n`, at most `fuel` of them. -/
def chunks {α : Type} (n : Nat) : Nat → List α → List (List α)
  | 0, _ => []
  | fuel + 1, l => match l with
    | [] => []
    | _ => l.take n :: chunks n fuel (l.drop n)

/-! ## Time -/

/-- Network time reaches `t`; it never runs backward (R376). -/
def State.atTime (s : State) (t : Time) : State :=
  { s with time := { s.time with now := max s.time.now t, up := s.time.up + (max s.time.now t - s.time.now) } }

/-- Something leaves the device. -/
def State.emit (s : State) (o : Output) : State := { s with out := s.out ++ [o] }

/-- A value the spec leaves open, below `bound` (log entry 3). -/
def State.free (s : State) (bound : Nat) : Nat × State :=
  (Config.freeNat s.freeCount % bound, { s with freeCount := s.freeCount + 1 })

/-- The RW object `idx:sub`, or its default (R412). -/
def rwVal (s : State) (idx sub dflt : Nat) : Nat := (tget s.obj.rw (256 * idx + sub)).getD dflt

/-- The in-force value of the RWS object `idx:sub`, or its default (R434). -/
def inForce (s : State) (idx sub dflt : Nat) : Nat := (tget s.obj.inForce (256 * idx + sub)).getD dflt

/-! ## Unit addresses (R30, R31) -/

def uLevel (u : UAddr) : Nat := bitsOf u 15 13
def uDie (u : UAddr) : Nat := bitsOf u 12 11
/-- The package cluster number (R6). -/
def uCluster (u : UAddr) : Nat := 4 * bitsOf u 12 11 + bitsOf u 10 8
def uCore (u : UAddr) : Nat := bitsOf u 7 5
def uKind (u : UAddr) : Nat := bitsOf u 4 2
def uInst (u : UAddr) : Nat := bitsOf u 1 0

def packageUnit : UAddr := 0x8000#16
def dieUnit (d : Nat) : UAddr := BitVec.ofNat 16 (0x6000 + 0x800 * d)
def clusterUnit (c : Nat) : UAddr := BitVec.ofNat 16 (0x4000 + 0x800 * (c / 4) + 0x100 * (c % 4))
/-- Core `k` = 6 × cluster + logical core. -/
def coreUnit (k : Nat) : UAddr := BitVec.ofNat 16 (0x2000 + 0x800 * (k / 24) + 0x100 * (k / 6 % 4) + 0x20 * (k % 6))
/-- An engine of core `k`: KIND and INSTANCE of R31. -/
def coreEng (k kind inst : Nat) : UAddr :=
  BitVec.ofNat 16 (0x800 * (k / 24) + 0x100 * (k / 6 % 4) + 0x20 * (k % 6) + 4 * kind + inst)
/-- A shared engine of cluster `c`: CORE 6 or 7, KIND and INSTANCE of R31. -/
def clusterEng (c core kind inst : Nat) : UAddr :=
  BitVec.ofNat 16 (0x800 * (c / 4) + 0x100 * (c % 4) + 0x20 * core + 4 * kind + inst)
/-- Mover `m` of cluster `c`: 0 and 1 are GM0 and GM1, 2 to 5 are LM0 to LM3. -/
def moverUnit (c m : Nat) : UAddr := if m < 2 then clusterEng c 7 5 m else clusterEng c 6 5 (m - 2)

/-- The combinations of CORE, KIND and INSTANCE that R31 lists. -/
def engineValid (core kind inst : Nat) : Bool :=
  if core ≤ 5 then kind == 0 || ((kind == 1 || kind == 2 || kind == 6) && inst == 0)
  else if core == 6 then kind == 5
  else (kind == 3 && inst ≤ 1) || (kind == 4 && inst == 0) || (kind == 5 && inst ≤ 1) || (kind == 6 && inst == 0)

/-- `u` names a unit under R30 and R31. -/
def unitValid (u : UAddr) : Bool :=
  match uLevel u with
  | 4 => u == packageUnit
  | 3 => uDie u ≤ 2 && u.toNat % 0x800 == 0
  | 2 => uDie u ≤ 1 && bitsOf u 10 8 ≤ 3 && u.toNat % 0x100 == 0
  | 1 => uDie u ≤ 1 && bitsOf u 10 8 ≤ 3 && uCore u ≤ 5 && u.toNat % 0x20 == 0
  | 0 => uDie u ≤ 1 && bitsOf u 10 8 ≤ 3 && engineValid (uCore u) (uKind u) (uInst u)
  | _ => false

/-- The core that holds a level 0 or 1 unit, 6 × cluster + logical core. -/
def coreNo (u : UAddr) : Nat := 6 * uCluster u + uCore u

/-- The unit that contains `u` (R15); the package contains itself. -/
def parentOf (u : UAddr) : UAddr :=
  match uLevel u with
  | 0 => if uCore u ≤ 5 then coreUnit (coreNo u) else clusterUnit (uCluster u)
  | 1 => clusterUnit (uCluster u)
  | 2 => dieUnit (uDie u)
  | _ => packageUnit

/-- Every valid unit address, in ascending order of level: 416 engines, 48 cores, 8 clusters, 3 dies, the package (R15). -/
def coreEngines (k : Nat) : List UAddr :=
  [coreEng k 0 0, coreEng k 0 1, coreEng k 0 2, coreEng k 0 3, coreEng k 1 0, coreEng k 2 0, coreEng k 6 0]
def clusterEngines (c : Nat) : List UAddr :=
  [clusterEng c 7 3 0, clusterEng c 7 3 1, clusterEng c 7 4 0, clusterEng c 7 5 0, clusterEng c 7 5 1,
   clusterEng c 6 5 0, clusterEng c 6 5 1, clusterEng c 6 5 2, clusterEng c 6 5 3, clusterEng c 7 6 0]
def allUnits : List UAddr :=
  (List.range 48).flatMap coreEngines ++ (List.range 8).flatMap clusterEngines ++ (List.range 48).map coreUnit
    ++ (List.range 8).map clusterUnit ++ (List.range 3).map dieUnit ++ [packageUnit]

/-- The children of `u` (R15). -/
def childrenOf (u : UAddr) : List UAddr :=
  match uLevel u with
  | 1 => coreEngines (coreNo u)
  | 2 => (List.range 6).map (fun n => coreUnit (6 * uCluster u + n)) ++ clusterEngines (uCluster u)
  | 3 => if uDie u ≤ 1 then (List.range 4).map (fun i => clusterUnit (4 * uDie u + i)) else []
  | 4 => (List.range 3).map dieUnit
  | _ => []

/-- `u` is `v` or inside it. -/
def inside (u v : UAddr) : Bool :=
  u == v || parentOf u == v || parentOf (parentOf u) == v || parentOf (parentOf (parentOf u)) == v || v == packageUnit

/-- The command depth of a unit port (R19); the package port and the I/O die have no credits from a parent. -/
def unitDepth (u : UAddr) : Nat :=
  match uLevel u with
  | 0 => 4
  | 1 => 8
  | 2 => 16
  | 3 => if uDie u ≤ 1 then 32 else 0
  | _ => 0

/-- The default timeout of a level in ns (R353). -/
def timeoutDefault (u : UAddr) : Nat :=
  match uLevel u with
  | 0 => 50000
  | 1 => 100000
  | 2 => 200000
  | 3 => 1000000
  | _ => 5000000

/-- The index of a unit record (R423). -/
def recordIndex (u : UAddr) : Nat :=
  match uLevel u with
  | 4 => 0x3000
  | 3 => 0x3001 + uDie u
  | 2 => 0x3010 + uCluster u
  | 1 => 0x3020 + 8 * uCluster u + uCore u
  | _ =>
    if uCore u ≤ 5 then
      0x3100 + 0x10 * coreNo u + (if uKind u = 0 then uInst u else if uKind u = 1 then 4 else if uKind u = 2 then 5 else 6)
    else
      0x3400 + 0x10 * uCluster u +
        (if uKind u = 3 then uInst u else if uKind u = 4 then 2
         else if uKind u = 5 then (if uCore u = 7 then 3 + uInst u else 5 + uInst u) else 9)

/-- The instance number k of an engine in R423, as a counter's SOURCE names it (R507). -/
def engineIndex (u : UAddr) : Nat := recordIndex u % 16

/-- The index of the counter record that counts for `u` (R504). -/
def counterIndex (u : UAddr) : Nat :=
  match uLevel u with
  | 4 => 0x3800
  | 3 => 0x3801 + uDie u
  | 2 => 0x3808 + uCluster u
  | _ => if uCore u ≤ 5 then 0x3810 + coreNo u else 0x3808 + uCluster u

def unitOf (s : State) (u : UAddr) : UnitSt := (tget s.units u.toNat).getD {}
def setUnit (s : State) (u : UAddr) (x : UnitSt) : State := { s with units := tset s.units u.toNat x }
def modUnit (s : State) (u : UAddr) (f : UnitSt → UnitSt) : State := setUnit s u (f (unitOf s u))
def coreOf (s : State) (k : Nat) : CoreSt := (tget s.cores k).getD {}
def setCore (s : State) (k : Nat) (x : CoreSt) : State := { s with cores := tset s.cores k x }
def modCore (s : State) (k : Nat) (f : CoreSt → CoreSt) : State := setCore s k (f (coreOf s k))
def clusterOf (s : State) (c : Nat) : ClusterSt := (tget s.clusters c).getD {}
def setCluster (s : State) (c : Nat) (x : ClusterSt) : State := { s with clusters := tset s.clusters c x }
def modCluster (s : State) (c : Nat) (f : ClusterSt → ClusterSt) : State := setCluster s c (f (clusterOf s c))
def islandOf (s : State) (i : Nat) : IslandSt := (tget s.islands i).getD {}
def queueOf (s : State) (q : Nat) : QueueSt := (tget s.queues q).getD {}
def setQueue (s : State) (q : Nat) (x : QueueSt) : State := { s with queues := tset s.queues q x }
def modQueue (s : State) (q : Nat) (f : QueueSt → QueueSt) : State := setQueue s q (f (queueOf s q))

/-- `u` runs nothing: it is retired or held out (R358), or a unit that contains it is. -/
def unitGone (s : State) (u : UAddr) : Bool :=
  let gone (v : UAddr) : Bool := (unitOf s v).phase == .retired || (unitOf s v).phase == .heldOut
  gone u || gone (parentOf u) || gone (parentOf (parentOf u)) || gone (parentOf (parentOf (parentOf u)))

/-- A unit that contains `u` is in Dusk or Dawn (R362). -/
def parentDown (s : State) (u : UAddr) : Bool :=
  let down (v : UAddr) : Bool := v != u && ((unitOf s v).phase == .dusk || (unitOf s v).phase == .dawn)
  down (parentOf u) || down (parentOf (parentOf u)) || down (parentOf (parentOf (parentOf u)))

/-- The timeout in force of `u` in ns (R353, R424). -/
def timeoutOf (s : State) (u : UAddr) : Nat := inForce s (recordIndex u) 3 (timeoutDefault u)

/-! ## Performance counters (R504 to R509) -/

/-- Events whose SOURCE selects no instance (R510). -/
def eventHasInst (ev : Nat) : Bool :=
  (0x01 ≤ ev && ev ≤ 0x04) || ev == 0x30 || ev == 0x31 || (0x40 ≤ ev && ev ≤ 0x42) || (0x44 ≤ ev && ev ≤ 0x47)
    || (0x66 ≤ ev && ev ≤ 0x69)

/-- What a configured counter adds for an event of value `v` (R507, R508). -/
def countAdd (cfg : BitVec 32) (ev inst v : Nat) : Nat :=
  if bitOf cfg 15 && bitsOf cfg 31 24 == ev && ev != 0
      && (!eventHasInst ev || bitsOf cfg 23 20 == inst || bitsOf cfg 23 20 == 15) then
    (if bitOf cfg 14 then min v 1 else v)
  else 0

/-- Counter `i` of a record takes an event; a carry out of bit 63 sets OVERFLOW bit i (R509). -/
def countOne (ev inst v : Nat) (r : CounterSt) (i : Nat) : CounterSt :=
  let add := countAdd (r.config.getD i 0) ev inst v
  let old := (r.count.getD i 0).toNat
  { r with
    count := lmod r.count i (fun x => x + BitVec.ofNat 64 add)
    overflow := if old + add ≥ 2 ^ 64 then r.overflow ||| BitVec.ofNat 4 (2 ^ i) else r.overflow }

/-- Event `ev` of value `v` at counter record `rec`, engine or port instance `inst`: nothing while FREEZE = 1 (R514). -/
def countEvent (s : State) (rec ev inst v : Nat) : State :=
  if v = 0 || rwVal s 0x38F0 1 0 = 1 then s
  else
    match tget s.pmu.recs rec with
    | none => s
    | some r => { s with pmu := { s.pmu with recs := tset s.pmu.recs rec ([0, 1, 2, 3].foldl (countOne ev inst v) r) } }

/-- Event of unit `u`: a unit counts nothing of its own from its Dusk to the end of its Dawn, and nothing once retired
(R509). -/
def countUnit (s : State) (u : UAddr) (ev v : Nat) : State :=
  if (unitOf s u).phase == .live && !unitGone s u && !parentDown s u then countEvent s (counterIndex u) ev (engineIndex u) v
  else s

/-! ## Capture (R345 to R350) -/

/-- The bit of KINDS that selects a record kind (R345); none for Start, Loss and End. -/
def capKindBit : Nat → Option Nat
  | 1 => some 0
  | 2 => some 1
  | 3 => some 1
  | 4 => some 3
  | 5 => some 4
  | 6 => some 2
  | _ => none

/-- The bytes of a record: header of R347, payload, padding to a multiple of 16. -/
def capBytes (time kind source : Nat) (payload : List Byte) : List Byte :=
  let n := payload.length
  bytesLE 16 (time % 2 ^ 64 * 2 ^ 64 + kind % 256 * 2 ^ 56 + source % 65536 * 2 ^ 40 + n % 2 ^ 32) ++ payload
    ++ List.replicate ((16 - n % 16) % 16) 0

/-- Drop the oldest whole records until `need` bytes fit in a ring of `size` (R350). -/
def capDrop (size need : Nat) : List Nat → List Nat
  | [] => []
  | n :: t => if n + t.sum + need ≤ size then n :: t else capDrop size need t

/-! ## The fault log (R371 to R373) -/

/-- Cause codes (R372). -/
def causeWatchdog : BitVec 8 := 0x01#8
def causeUncorrectable : BitVec 8 := 0x02#8
def causePoison : BitVec 8 := 0x03#8
def causeProtocol : BitVec 8 := 0x04#8
def causePointer : BitVec 8 := 0x05#8
def causeUnderrun : BitVec 8 := 0x06#8
def causeCommand : BitVec 8 := 0x07#8
def causeSelfTest : BitVec 8 := 0x08#8
def causeFloor : BitVec 8 := 0x09#8
def causeThrottle : BitVec 8 := 0x0A#8
def causeReserved : BitVec 8 := 0x0B#8
def causeRetry : BitVec 8 := 0x0C#8
def causeDoorbell : BitVec 8 := 0x0D#8
def causeCp : BitVec 8 := 0x0E#8
def causeEnvironment : BitVec 8 := 0x0F#8
def causeEscalation : BitVec 8 := 0x10#8
def causeRecovered : BitVec 8 := 0x11#8
def causeHeldOut : BitVec 8 := 0x12#8
def causeHalt : BitVec 8 := 0x13#8
def causeCaptureLoss : BitVec 8 := 0x14#8

/-- A record with ACTION 3 to 5, or with one of three causes, asserts ALERT_N (R373). -/
def alerts (cause : BitVec 8) (action : BitVec 4) : Bool :=
  3 ≤ action.toNat && action.toNat ≤ 5 || cause == causeFloor || cause == causeThrottle || cause == causeEnvironment

/-- The fabric address that a record shows (R264, R371): an address below 2^36 is one of this device's own; 0 is none. -/
def faultAddress (s : State) (a : Nat) : Nat :=
  if a = 0 then 0 else if a < 2 ^ 36 then s.pins.devnum.toNat * 2 ^ 36 + a else a % 2 ^ 42

/-- Append a fault record (R371): the next number, at number mod 256. The unit record counts it (R424). -/
def recordFaultAt (s : State) (u : UAddr) (cause : BitVec 8) (action : BitVec 4) (retry : Nat) (queue : BitVec 12)
    (seq : Seq) (address : Nat) : State :=
  let n := s.lastFault + 1
  let r : FaultRec := { number := n, time := s.time.now, unit := u, cause := cause, action := action, retry := min retry 2,
                        queue := queue, seq := seq, address := faultAddress s address, count := 1 }
  let s := { s with faults := tset s.faults (n % 256) r, lastFault := n,
                    pins := { s.pins with alert := s.pins.alert || alerts cause action } }
  modUnit s u (fun x => { x with faults := min (x.faults + 1) (2 ^ 32 - 1), lastFault := n })

/-- A fault record of `u` that names no item: the queue and sequence number of the slice it runs, if any (R371). -/
def recordFault (s : State) (u : UAddr) (cause : BitVec 8) (action : BitVec 4) (address : Nat) : State :=
  let x := unitOf s u
  match x.held.head? with
  | some sl => recordFaultAt s u cause action x.failed sl.queue sl.seq address
  | none => recordFaultAt s u cause action x.failed 0 0 address

/-- The ACTION that a fault needing a restart of `u` records: none where `u` runs nothing (R358) or a containing unit is in
Dusk or Dawn (R362), escalation after two failed re-issues (R361), else Dusk, Dawn and re-issue. -/
def actionFor (s : State) (u : UAddr) : BitVec 4 :=
  if unitGone s u || parentDown s u then 0
  else if (unitOf s u).retrying && 1 ≤ (unitOf s u).failed then 2
  else 1

/-! ## Tokens (R21 to R24, R46) -/

/-- A token (R21). -/
def mkToken (src : UAddr) (kind tag value : Nat) : Tok :=
  BitVec.ofNat 64 (src.toNat * 2 ^ 48 + kind % 16 * 2 ^ 44 + tag % 256 * 2 ^ 32 + value % 2 ^ 32)
def tokSource (t : Tok) : UAddr := BitVec.ofNat 16 (bitsOf t 63 48)
def tokKind (t : Tok) : Nat := bitsOf t 47 44
def tokTag (t : Tok) : Nat := bitsOf t 39 32
def tokValue (t : Tok) : Nat := bitsOf t 31 0

/-- The clock island of a unit (R33): cores 0 to 47, clusters 48 to 55, the port logic of the compute dies and the package in the
dispatch region (R16), the I/O die's own in the control region. -/
def unitIsland (u : UAddr) : Nat :=
  match uLevel u with
  | 0 => if uCore u ≤ 5 then coreNo u else 48 + uCluster u
  | 1 => coreNo u
  | 2 => 48 + uCluster u
  | _ => if u = dieUnit 2 then 59 else 60

/-- The island's clock runs (R35); in locked mode all islands run from one clock (R40, R43). -/
def islandRuns (s : State) (i : Nat) : Bool :=
  if s.occ.locked then s.islands.all (fun p => !p.2.stopped) else !(islandOf s i).stopped

/-- Two tokens take the same path: the FIFO between two islands (R37), within an island the order of one source and one
destination (R23). -/
def samePath (a b : Crossing) : Bool :=
  let sa := unitIsland (tokSource a.tok)
  let da := unitIsland a.dst
  sa == unitIsland (tokSource b.tok) && da == unitIsland b.dst
    && (sa != da || (tokSource a.tok == tokSource b.tok && a.dst == b.dst))

/-- A token that crosses between islands and stands beyond the eight entries of its path's FIFO (R37). -/
def beyondFifo (cs : List Crossing) (i : Nat) (c : Crossing) : Bool :=
  unitIsland (tokSource c.tok) != unitIsland c.dst && decide (8 ≤ ((cs.take i).filter (samePath c)).length)

/-- A full crossing FIFO stalls `u` (R37). -/
def outStalled (s : State) (u : UAddr) : Bool :=
  s.crossing.zipIdx.any (fun p => tokSource p.1.tok == u && beyondFifo s.crossing p.2 p.1)

/-- The clock of `u` runs (R35) and its tokens find room in their crossings (R37). -/
def clocked (s : State) (u : UAddr) : Bool := islandRuns s (unitIsland u) && !outStalled s u

/-- The writes over links that `u` has issued and that have not landed (R480). -/
def writesOf (s : State) (u : UAddr) : List (BitVec 6 × BitVec 16) :=
  (s.fabric.held.filter (fun w => w.src == u)).map (fun w => (w.dst, w.e2e))

/-- The watchdog of a unit that emits a token or frees a slot restarts if it runs (R24); one that does not count goes on from now (R354). -/
def restartDog (now : Time) (x : UnitSt) : UnitSt :=
  { x with watchdog := x.watchdog.map (fun _ => now), hold := x.hold.map (fun _ => now) }

/-- `u` emits a token: its watchdog restarts if it runs (R24), and the token enters the crossing (R37); a FENCE waits behind the writes of
its source (R22). -/
def sendToken (s : State) (src dst : UAddr) (kind tag value : Nat) : State :=
  let tok := mkToken src kind tag value
  let behind := if kind = 4 then writesOf s src else []
  let s := modUnit s src (restartDog s.time.now)
  { s with crossing := s.crossing ++ [{ dst := dst, tok := tok, behind := behind }], out := s.out ++ [.token dst tok] }

/-- A command slot of `u` frees (R18, R24): the watchdog stops when the unit holds no command, and a CREDIT token returns the slot's credit
to `dst`. A unit that holds no command frees none. -/
def freeSlot (s : State) (u dst : UAddr) : State :=
  if (unitOf s u).cmds = 0 then s
  else
    let s := modUnit s u (fun x => { x with
      cmds := x.cmds - 1
      watchdog := if x.cmds ≤ 1 then none else x.watchdog
      hold := if x.cmds ≤ 1 then none else x.hold })
    sendToken s u dst 2 0 1

/-- The status word of slice `sl` at unit `u` (R182). -/
def sliceStatus (s : State) (u : UAddr) (sl : Slice) : BitVec 32 :=
  (((unitOf s u).status.find? (fun p => p.1 == sl)).map (fun p => p.2)).getD 0

/-- `w` is ORed into the status word of slice `sl` at unit `u`. -/
def orStatus (s : State) (u : UAddr) (sl : Slice) (w : BitVec 32) : State :=
  if w = 0 then s
  else modUnit s u (fun x => { x with status := (sl, sliceStatus s u sl ||| w) :: x.status.filter (fun p => p.1 != sl) })

/-- The status word of slice `sl` at unit `u` is cleared. -/
def clearStatus (x : UnitSt) (sl : Slice) : UnitSt := { x with status := x.status.filter (fun p => p.1 != sl) }

/-- An engine stops its command with a fault: a record, and a FAULT token to its parent whose VALUE is the record number
(R21, R274). -/
def engineFault (s : State) (u : UAddr) (cause : BitVec 8) (address : Nat) : State :=
  let s := recordFault s u cause (actionFor s u) address
  sendToken s u (parentOf u) 6 0 s.lastFault

/-! ## Stream FIFOs and engine memories (R92, R291, R121, R147, R237, R261) -/

def engMemOf (s : State) (u : UAddr) : EngMem := (tget s.engMem u.toNat).getD {}
def modEngMem (s : State) (u : UAddr) (f : EngMem → EngMem) : State :=
  { s with engMem := tset s.engMem u.toNat (f (engMemOf s u)) }

/-- Rows that a bank of the stream FIFO of `u` holds: 8 in an array (R92). -/
def bankRows (u : UAddr) : Nat := if uLevel u = 0 && uCore u ≤ 5 && uKind u = 0 then 8 else 1 + Config.streamBankRows u.toNat

/-- Both banks hold rows for the reader: the writer stalls (R290). -/
def StreamFifo.full (f : StreamFifo) : Bool := (f.wptr + 4 - f.rptr) % 4 == 2
/-- No bank has passed to the reader: it stalls. -/
def StreamFifo.empty (f : StreamFifo) : Bool := f.wptr == f.rptr

/-- The bank being filled passes to the reader (R291). -/
def StreamFifo.pass (f : StreamFifo) : StreamFifo := { f with wptr := (f.wptr + 1) % 4, wptr2 := (f.wptr2 + 1) % 4 }

/-- The writer adds a row; a full bank passes to the reader. -/
def StreamFifo.put (cap : Nat) (f : StreamFifo) (row : List Byte) : StreamFifo :=
  let f := { f with banks := lmod f.banks (f.wptr % 2) (fun b => b ++ [row]) }
  if cap ≤ (f.banks.getD (f.wptr % 2) []).length then f.pass else f

/-- The reader drains the bank that has passed to it, and it passes back to the writer (R291). -/
def StreamFifo.take (f : StreamFifo) : List (List Byte) × StreamFifo :=
  if f.empty then ([], f)
  else (f.banks.getD (f.rptr % 2) [],
    { f with banks := lmod f.banks (f.rptr % 2) (fun _ => []), rptr := (f.rptr + 1) % 4, rptr2 := (f.rptr2 + 1) % 4 })

/-- A command's rows go through the FIFO, the reader draining each bank as it passes; the last one passes when the writing command ends. -/
def StreamFifo.run (cap : Nat) : StreamFifo → List (List Byte) → List (List Byte) × StreamFifo
  | f, [] => if (f.banks.getD (f.wptr % 2) []).isEmpty then ([], f) else f.pass.take
  | f, row :: rest =>
    let r := (f.put cap row).take
    let q := StreamFifo.run cap r.2 rest
    (r.1 ++ q.1, q.2)

/-- The rows of a command stream through the FIFO of engine `u`: the rows as the engine takes them, and the state. -/
def stream (s : State) (u : UAddr) (rows : List (List Byte)) : List (List Byte) × State :=
  let r := StreamFifo.run (bankRows u) (engMemOf s u).fifo rows
  (r.1, modEngMem s u (fun m => { m with fifo := r.2 }))

/-- The errors in codewords `lo` to `lo + n − 1` of the memories of `u`. -/
def errsIn (s : State) (u : UAddr) (lo n : Nat) : List Bool :=
  ((engMemOf s u).errs.filter (fun p => decide (lo ≤ p.1) && decide (p.1 < lo + n))).map (fun p => p.2)

/-- One of them is uncorrectable. -/
def errBad (s : State) (u : UAddr) (lo n : Nat) : Bool := (errsIn s u lo n).any (fun b => b)

/-- The corrected ones that a read meets are counted in the unit (R272, event 0x32). -/
def countErrs (s : State) (u : UAddr) (lo n : Nat) : State :=
  let k := ((errsIn s u lo n).filter (fun b => !b)).length
  if k = 0 then s else countUnit (modUnit s u (fun x => { x with corrected := x.corrected + k })) u 0x32 k

/-- Codewords written anew hold no error. -/
def clearErrs (s : State) (u : UAddr) (lo n : Nat) : State :=
  if (errsIn s u lo n).isEmpty then s
  else modEngMem s u (fun m => { m with errs := m.errs.filter (fun p => p.1 < lo || lo + n ≤ p.1) })

/-! ## The 288/256 code (R271, R272) -/

/-- Product in GF(2^8) with field polynomial x^8 + x^4 + x^3 + x^2 + 1: `b`'s low `fuel` bits, most significant first. -/
def gfMulAux : Nat → Nat → Nat → Nat
  | 0, _, _ => 0
  | fuel + 1, a, b =>
    let r := 2 * gfMulAux fuel a (b / 2)
    let r := if r ≥ 256 then r ^^^ 0x11D else r
    if b % 2 = 1 then r ^^^ a else r

def gfMul (a b : Nat) : Nat := gfMulAux 8 a b

/-- α^n for α = 0x02. -/
def gfPow : Nat → Nat
  | 0 => 1
  | n + 1 => gfMul 2 (gfPow n)

/-- What a read finds in a codeword (R272). -/
inductive CwState where
  | good
  | single (power : Nat) (value : Nat)
  | poison
  | uncorrectable
deriving DecidableEq, Repr

/-- The four syndromes of a codeword whose check bytes p0 to p3 differ by `d` from those of its data (R271). -/
def syndrome (d : BitVec 32) (i : Nat) : Nat :=
  gfMul (bitsOf d 7 0) (gfPow (3 * i)) ^^^ gfMul (bitsOf d 15 8) (gfPow (2 * i)) ^^^ gfMul (bitsOf d 23 16) (gfPow i)
    ^^^ bitsOf d 31 24

/-- The first power of x below `p` whose symbol alone, in error by `e`, has these syndromes. -/
def findSingle (e s1 s2 s3 : Nat) : Nat → Option Nat
  | 0 => none
  | p + 1 =>
    if gfMul e (gfPow p) = s1 && gfMul e (gfPow (2 * p)) = s2 && gfMul e (gfPow (3 * p)) = s3 then some p
    else findSingle e s1 s2 s3 p

/-- The first case of R272 that applies. -/
def cwState (d : BitVec 32) : CwState :=
  if d = 0 then .good
  else if d = 0xFFFFFFFF#32 then .poison
  else
    let e := syndrome d 0
    if e = 0 then .uncorrectable
    else
      match findSingle e (syndrome d 1) (syndrome d 2) (syndrome d 3) 36 with
      | some p => .single p e
      | none => .uncorrectable

/-! ## Byte lists in canonical form -/

/-- The byte at `a`: an unlisted byte reads 0. -/
def cget : List Host.Cell → Nat → Byte
  | [], _ => 0
  | (j, x) :: t, a => if j = a then x else cget t a

/-- Byte `a` becomes `b`, the list staying in canonical form. -/
def cput : List Host.Cell → Nat → Byte → List Host.Cell
  | [], a, b => if b = 0 then [] else [(a, b)]
  | (j, x) :: t, a, b =>
    if a < j then (if b = 0 then (j, x) :: t else (a, b) :: (j, x) :: t)
    else if a = j then (if b = 0 then t else (a, b) :: t)
    else (j, x) :: cput t a b

def cgets (m : List Host.Cell) (a : Nat) : Nat → List Byte
  | 0 => []
  | n + 1 => cget m a :: cgets m (a + 1) n

def cputs (m : List Host.Cell) (a : Nat) : List Byte → List Host.Cell
  | [] => m
  | b :: bs => cputs (cput m a b) (a + 1) bs

/-- Canonical form: addresses strictly rising, no zero listed. -/
def cellsWf : List Host.Cell → Bool
  | [] => true
  | [(_, b)] => b != 0
  | (a, b) :: (a', b') :: t => b != 0 && decide (a < a') && cellsWf ((a', b') :: t)

/-- The memory is in canonical form. -/
def Memory.wf (m : MemSt) : Bool := cellsWf m.cells

/-- Every byte from `a` to `a + n` excluded becomes 0. -/
def cwipe (m : List Host.Cell) (a n : Nat) : List Host.Cell := m.filter (fun p => p.1 < a || a + n ≤ p.1)

/-! ## The local address space (R262, R53) -/

/-- Physical position `p` of cluster `c` is disabled (R51). -/
def eclipsed (s : State) (c p : Nat) : Bool := bitOf s.life.eclipse (7 * c + p)

/-- The physical position of logical core `n` of cluster `c` (R52). -/
def physOf (s : State) (c n : Nat) : Nat :=
  ((List.range 7).filter (fun p => !eclipsed s c p)).getD n 7

def dramBase (d : Nat) : Nat := 0x600000000 * d
def dramBytes : Nat := 0x600000000
def clusterBase (c : Nat) : Nat := 0xC00000000 + 0x4000000 * c
def clusterBytes : Nat := 0x3000000
/-- The core-memory window of core `k` (R53). -/
def coreBase (s : State) (k : Nat) : Nat := 0xC40000000 + 0x800000 * (7 * (k / 6) + physOf s (k / 6) (k % 6))
def coreBytes : Nat := 0x600000
def ioBase : Nat := 0xD00000000
def ioBytes : Nat := 0x2000000
def controlBase : Nat := 0xE00000000
def controlBytes : Nat := 0x2000000

/-- What a local address belongs to. -/
inductive Place where
  | dram (die : Nat)
  | cluster (c : Nat)
  | core (k : Nat)
  | ioSram
  | control
  | reserved
deriving DecidableEq, Repr

/-- The map of R262: every address not populated in it is reserved. -/
def placeOf (s : State) (a : Nat) : Place :=
  if a < 0x600000000 then .dram 0
  else if a < 0xC00000000 then .dram 1
  else if a < 0xC20000000 then
    if (a - 0xC00000000) % 0x4000000 < clusterBytes then .cluster ((a - 0xC00000000) / 0x4000000) else .reserved
  else if a < 0xC40000000 then .reserved
  else if a < 0xC60000000 then
    let slot := (a - 0xC40000000) / 0x800000
    let c := slot / 7
    let p := slot % 7
    if slot < 56 && !eclipsed s c p && (a - 0xC40000000) % 0x800000 < coreBytes then
      .core (6 * c + ((List.range p).filter (fun i => !eclipsed s c i)).length)
    else .reserved
  else if ioBase ≤ a ∧ a < ioBase + ioBytes then .ioSram
  else if controlBase ≤ a ∧ a < controlBase + controlBytes then .control
  else .reserved

/-- The unit whose memory a place is (R16, R25). -/
def placeUnit : Place → UAddr
  | .dram d => dieUnit d
  | .cluster c => clusterUnit c
  | .core k => coreUnit k
  | _ => dieUnit 2

/-- The mirrored regions of MEMORY_PLAN in force (R276): none while an image is only being loaded. -/
def mirrorRegions (s : State) : List Region :=
  match s.occ.image with
  | none => []
  | some im => if s.occ.state = .loading then [] else im.plan.regions.filter (fun r => r.mirrorAt.isSome)

/-- `a` lies in the `n` bytes from `base`. -/
def inRange (base n a : Nat) : Bool := decide (base ≤ a) && decide (a < base + n)

/-- The local address of the mirror of the byte at `a` (R276). -/
def mirrorOf (s : State) (a : Nat) : Option Nat :=
  ((mirrorRegions s).find? (fun r => inRange r.base r.bytes a)).map (fun r => r.mirrorAt.getD 0 + (a - r.base))

/-- The local address of the byte whose mirror lies at `a`. -/
def workingOf (s : State) (a : Nat) : Option Nat :=
  ((mirrorRegions s).find? (fun r => inRange (r.mirrorAt.getD 0) r.bytes a)).map (fun r => r.base + (a - r.mirrorAt.getD 0))

/-- The die that holds local address `a`. -/
def dieOfAddr (s : State) (a : Nat) : Nat :=
  match placeOf s a with
  | .dram d => d
  | .cluster c => c / 4
  | .core k => k / 24
  | _ => 2

/-- The 2 KiB block of the restore footprint that the mirror of `a` lies in, counted from the start of the footprint (R281):
footprint blocks in ascending address order. -/
def blockOf (a : Nat) : Nat := a / 2048

/-- A write to a mirror at `m` is made now (R281): the die that holds it is in service, or has the block of `m` already restored. -/
def mirrorOpen (s : State) (m : Nat) : Bool :=
  let d := dieOfAddr s m
  match (unitOf s (dieUnit d)).phase with
  | .live => true
  | .dawn => ((s.dies.getD d {}).restored.map (fun n => decide (blockOf m < n))).getD false
  | _ => false

/-- Split `bs` from address `a` at the codeword boundaries. -/
def pieces : Nat → Nat → List Byte → List (Nat × List Byte)
  | 0, _, _ => []
  | fuel + 1, a, bs =>
    if bs = [] then []
    else (a, bs.take (32 - a % 32)) :: pieces fuel (a + (32 - a % 32)) (bs.drop (32 - a % 32))

/-- The addresses of the codewords that `n` bytes from `a` touch. -/
def codewords (a n : Nat) : List Nat :=
  if n = 0 then [] else (List.range ((a + n - 1) / 32 - a / 32 + 1)).map (fun i => a / 32 + i)

/-- A corrected codeword is counted in its memory's unit (R372, R424, event 0x32). -/
def countCorrected (s : State) (a : Nat) : State :=
  let u := placeUnit (placeOf s a)
  countUnit (modUnit s u (fun x => { x with corrected := x.corrected + 1 })) u 0x32 1

/-- The 32 data bytes of codeword `w` as a read returns them: corrected where a single symbol is in error. -/
def cwBytes (cells : List Host.Cell) (check : Tbl (BitVec 32)) (w : Nat) : List Byte :=
  let bs := cgets cells (32 * w) 32
  match cwState ((tget check w).getD 0) with
  | .single p e => if 4 ≤ p then lmod bs (35 - p) (fun b => b ^^^ BitVec.ofNat 8 e) else bs
  | _ => bs

/-- What a read of `n` bytes at local address `a` returns: the bytes, and whether a codeword is poisoned or uncorrectable. -/
structure Got where
  bytes : List Byte
  poisoned : Bool
  uncorrectable : Bool
  at_ : Nat
deriving DecidableEq, Repr

/-- A read of local memory: a reserved address returns zero (R263), each codeword is checked (R272). -/
def readLocal (s : State) (a n : Nat) : Got :=
  let bad (w : Nat) : Bool := placeOf s (32 * w) != .reserved &&
    (cwState ((tget s.mem.check w).getD 0) == .uncorrectable || cwState ((tget s.mem.check w).getD 0) == .poison)
  let ws := codewords a n
  let all := ws.flatMap (fun w =>
    if placeOf s (32 * w) = .reserved then List.replicate 32 (0 : Byte) else cwBytes s.mem.cells s.mem.check w)
  { bytes := (all.drop (a % 32)).take n
    poisoned := ws.any (fun w => placeOf s (32 * w) != .reserved && cwState ((tget s.mem.check w).getD 0) == .poison)
    uncorrectable := ws.any (fun w => placeOf s (32 * w) != .reserved && cwState ((tget s.mem.check w).getD 0) == .uncorrectable)
    at_ := 32 * (ws.find? bad).getD (a / 32) }

/-- The fault cause of such a read (R272, R274). -/
def badCause (g : Got) : BitVec 8 := if g.uncorrectable then causeUncorrectable else causePoison

/-- The 2 KiB DRAM blocks that `n` bytes from `a` touch are counted as event `ev` of their die (R510). -/
def countDram (s : State) (ev a n : Nat) : State :=
  if n = 0 then s
  else
    match placeOf s a with
    | .dram d => countUnit s (dieUnit d) ev ((a + n - 1) / 2048 - a / 2048 + 1)
    | _ => s

/-- Count what a read corrected (R272) and the DRAM blocks it read. -/
def countRead (s : State) (a n : Nat) : State :=
  let s := countDram s 0x50 a n
  (codewords a n).foldl (fun s w =>
    match cwState ((tget s.mem.check w).getD 0) with
    | .single _ _ => if placeOf s (32 * w) = .reserved then s else countCorrected s (32 * w)
    | _ => s) s

/-- A write to a reserved address is dropped and recorded, folded into the same master's record of the subframe (R263). -/
def dropWrite (s : State) (master : UAddr) (a : Nat) : State :=
  let sub := s.time.meridians
  let s := countEvent s 0x3800 0x74 0 1
  match s.mem.dropped.find? (fun d => d.1 == master && d.2.1 == sub) with
  | some (_, _, n) =>
    match tget s.faults (n % 256) with
    | some r => if r.number = n then { s with faults := tset s.faults (n % 256) { r with count := min (r.count + 1) 65535 } } else s
    | none => s
  | none =>
    let s := recordFaultAt s master causeReserved 0 0 0 0 a
    { s with mem := { s.mem with
        dropped := (master, sub, s.lastFault) :: s.mem.dropped.filter (fun d => d.2.1 == sub && d.1 != master) } }

/-- One piece of a write, inside one codeword (R273): a whole codeword is stored directly, a part is merged; a merge into a
codeword that does not read good stores poison and records the memory's unit. -/
def writePiece (s : State) (a : Nat) (bs : List Byte) : State :=
  let w := a / 32
  let put (s : State) : State := { s with mem := { s.mem with cells := cputs s.mem.cells a bs } }
  let setCheck (s : State) (d : BitVec 32) : State :=
    { s with mem := { s.mem with check := if d = 0 then tdel s.mem.check w else tset s.mem.check w d } }
  if bs.length = 32 then setCheck (put s) 0
  else
    match cwState ((tget s.mem.check w).getD 0) with
    | .good => put s
    | .single _ _ =>
      let fixed := cwBytes s.mem.cells s.mem.check w
      let s := { s with mem := { s.mem with cells := cputs s.mem.cells (32 * w) fixed } }
      countCorrected (setCheck (put s) 0) a
    | .poison => recordFault (setCheck (put s) 0xFFFFFFFF#32) (placeUnit (placeOf s a)) causePoison 0 a
    | .uncorrectable => recordFault (setCheck (put s) 0xFFFFFFFF#32) (placeUnit (placeOf s a)) causeUncorrectable 0 a

/-- The mirror's part of a write (R279, R281). While the working copy's die is out this is the only copy that is written, and no mirror
write is counted. -/
def mirrorPiece (s : State) (a : Nat) (bs : List Byte) : State :=
  match mirrorOf s a with
  | none => s
  | some m =>
    if mirrorOpen s m then
      let both := (unitOf s (dieUnit (dieOfAddr s a))).phase == .live
      let s := if both then countUnit (countDram s 0x51 m bs.length) (dieUnit (dieOfAddr s m)) 0x52 1 else s
      (pieces bs.length m bs).foldl (fun s p => writePiece s p.1 p.2) s
    else s

/-- A write of `bs` at local address `a` by `master`; with `mirror`, also to the mirror (R263, R273, R279). -/
def writeLocal (s : State) (master : UAddr) (a : Nat) (bs : List Byte) (mirror : Bool) : State :=
  let ps := pieces bs.length a bs
  let s := countDram s 0x51 a bs.length
  let s := ps.foldl (fun s p =>
    if placeOf s p.1 = .reserved then s
    else if mirror then mirrorPiece (writePiece s p.1 p.2) p.1 p.2 else writePiece s p.1 p.2) s
  match ps.find? (fun p => placeOf s p.1 == .reserved) with
  | some p => dropWrite s master p.1
  | none => s

/-- A wipe of `n` bytes from `a`: all-zero data with valid check bits (R25). -/
def wipeRange (s : State) (a n : Nat) : State :=
  { s with mem := { s.mem with
      cells := cwipe s.mem.cells a n
      check := s.mem.check.filter (fun p => 32 * p.1 + 31 < a || a + n ≤ 32 * p.1) } }

/-- The `n` bytes from `src`, with the state of their codewords, are copied to `dst`. -/
def copyRange (s : State) (src dst n : Nat) : State :=
  let w := wipeRange s dst n
  let bytes := s.mem.cells.filter (fun p => inRange src n p.1)
  let bad := s.mem.check.filter (fun p => inRange src n (32 * p.1))
  { w with mem := { w.mem with
      cells := bytes.foldl (fun m p => cput m (p.1 - src + dst) p.2) w.mem.cells
      check := bad.foldl (fun t p => tset t ((32 * p.1 - src + dst) / 32) p.2) w.mem.check } }

/-! ## Repair of mirrored codewords (R275, R282) -/

/-- The other copy of a byte of a mirrored region, where both copies are in service. -/
def otherCopy (s : State) (a : Nat) : Option Nat :=
  let o := match mirrorOf s a with
    | some m => some m
    | none => workingOf s a
  let up (x : Nat) : Bool := (unitOf s (dieUnit (dieOfAddr s x))).phase == .live
  o.filter (fun b => up a && up b)

def cwStateAt (s : State) (w : Nat) : CwState := cwState ((tget s.mem.check w).getD 0)

/-- A codeword reads good. -/
def cwGood (s : State) (w : Nat) : Bool :=
  match cwStateAt s w with
  | .good => true
  | .single _ _ => true
  | _ => false

/-- Codeword `w` rewritten whole with `bs`. -/
def putCodeword (s : State) (w : Nat) (bs : List Byte) : State :=
  { s with mem := { s.mem with cells := cputs s.mem.cells (32 * w) bs, check := tdel s.mem.check w } }

/-- Codeword `w` rewritten from the other copy, if that copy reads good (R275, R282). -/
def repairCw (s : State) (w : Nat) : Option State :=
  match otherCopy s (32 * w) with
  | none => none
  | some b => if cwGood s (b / 32) then some (putCodeword s w (cwBytes s.mem.cells s.mem.check (b / 32))) else none

/-- The uncorrectable codewords of the 2 KiB block that holds `a`, the most that one transfer reads, rewritten from the other copy before
the parent re-issues (R282). -/
def repairBlock (s : State) (a : Nat) : State :=
  ((s.mem.check.filter (fun p => p.1 / 64 = a / 2048 ∧ cwState p.2 = .uncorrectable)).map (fun p => p.1)).foldl
    (fun s w => (repairCw s w).getD s) s

/-! ## Capture records -/

/-- Write a record's bytes into the DRAM ring at ring offset `off` (R345, MODE 1), wrapping at its end. -/
def capRingWrite (s : State) (base size off : Nat) (bs : List Byte) : State :=
  let k := off % size
  let first := bs.take (size - k)
  let s := writeLocal s (dieUnit 2) (base + k) first false
  writeLocal s (dieUnit 2) base (bs.drop (size - k)) false

/-- The capture unit writes a record if it runs and the record's kind is selected (R345, R347, R350). -/
def capRecord (s : State) (kind source : Nat) (time : Time) (payload : List Byte) : State :=
  match s.cap.running with
  | none => s
  | some c =>
    let wanted := match capKindBit kind with
      | some b => bitOf c.kinds b
      | none => true
    if !wanted then s
    else
      let bs := capBytes time kind source payload
      let n := bs.length
      if c.mode = 1 then
        let base := match s.occ.image with
          | some im => im.plan.captureRegion.1
          | none => 0
        if c.wrap then
          if n ≤ c.ringBytes then
            let s1 := capRingWrite s base c.ringBytes s.cap.written bs
            { s1 with cap := { s1.cap with
                written := s.cap.written + n, lens := capDrop c.ringBytes n s.cap.lens ++ [n] } }
          else s
        else if s.cap.written + n ≤ c.ringBytes then
          let s1 := capRingWrite s base c.ringBytes s.cap.written bs
          { s1 with cap := { s1.cap with written := s.cap.written + n, lens := s.cap.lens ++ [n] } }
        else
          -- R350: it stops at the first record that does not fit, writes an End record and raises CAPTURE_LOSS
          let e := capBytes s.time.now 9 0 []
          let s1 := if s.cap.written + 16 ≤ c.ringBytes then capRingWrite s base c.ringBytes s.cap.written e else s
          let s1 := { s1 with cap := { s1.cap with running := none, lost := s1.cap.lost + n } }
          recordFaultAt s1 (dieUnit 2) causeCaptureLoss 0 0 0 0 0
      else
        let space := c.bufBytes - (s.cap.producer - rwVal s 0x1403 2 0)
        let loss := if s.cap.lost = 0 then [] else capBytes s.cap.lostAt 8 0 (bytesLE 8 s.cap.lost)
        if (loss ++ bs).length ≤ space ∧ 0 < c.bufBytes then
          let all := loss ++ bs
          let k := s.cap.producer % c.bufBytes
          let s1 := s.emit (.hostWrite (c.bufBase + k) (all.take (c.bufBytes - k)))
          let s1 := if c.bufBytes - k < all.length then s1.emit (.hostWrite c.bufBase (all.drop (c.bufBytes - k))) else s1
          { s1 with cap := { s1.cap with lost := 0, producer := s.cap.producer + all.length } }
        else
          { s with cap := { s.cap with
              lost := s.cap.lost + n, lostAt := if s.cap.lost = 0 then time else s.cap.lostAt } }

/-- A timing event (R349). -/
def timingEvent (s : State) (event : Nat) (u : UAddr) (arg : Nat) : State :=
  capRecord s 6 0 s.time.now (bytesLE 16 (event % 256 * 2 ^ 120 + u.toNat * 2 ^ 104 + arg % 2 ^ 64))

/-! ## Sensors and core rails (R524, R535) -/

/-- Sensors of a die: first and number (R535). -/
def dieSensors (d : Nat) : Nat × Nat := if d = 0 then (0, 16) else if d = 1 then (16, 16) else (32, 8)

/-- The valid sensors of a die with their readings. -/
def validSensors (s : State) (d : Nat) : List (Nat × Int) :=
  (List.range (dieSensors d).2).filterMap (fun i =>
    (s.pins.temps.getD ((dieSensors d).1 + i) none).map (fun v => ((dieSensors d).1 + i, v)))

/-- The hottest valid sensor of a die, the lowest among equals. -/
def hottest (s : State) (d : Nat) : Option (Nat × Int) :=
  (validSensors s d).foldl (fun b x => match b with
    | none => some x
    | some y => if y.2 < x.2 then some x else b) none

/-- The voltages that a target passes on its way from `a` to `b`, in steps of 5 mV (R524). -/
def avsSteps (a b : Nat) : List Nat :=
  if a ≤ b then (List.range (ceilDiv (b - a) 5)).map (fun k => min b (a + 5 * (k + 1)))
  else (List.range (ceilDiv (a - b) 5)).map (fun k => max b (a - 5 * (k + 1)))

/-- A core rail takes the target of its die's 5 °C band, within 0.60 V to 0.80 V (R523, R524). -/
def avsRetarget (s : State) (d : Nat) : State :=
  match hottest s d with
  | none => s
  | some h =>
    let v := max 600 (min 800 (Config.avsTarget d (h.2 / 1280)))
    let s := (avsSteps (s.pins.avs.getD d 0) v).foldl (fun s x => s.emit (.avs d x)) s
    { s with pins := { s.pins with avs := lmod s.pins.avs d (fun _ => v) } }

end Sys2Proof.Machine
end

