-- ==== Sys2Proof/Machine/Queues.lean ====
section
/-! DEFINITION. Machine/Queues.lean: queue pairs: serial numbers, doorbells, MSI-X, ledgers, the writing of completions, opening
and closing (R306 to R308, R317, R318, R330 to R334 of spec/10_occupancies_and_queues.md). -/

namespace Sys2Proof.Machine

/-- `a` precedes `b` in serial arithmetic (R308). -/
def precedes (a b : Nat) : Bool :=
  let d := (b % 2 ^ 32 + 2 ^ 32 - a % 2 ^ 32) % 2 ^ 32
  1 ≤ d && d < 2 ^ 31

/-- `(a − b) mod 2^32`. -/
def seqSub (a b : Nat) : Nat := (a % 2 ^ 32 + 2 ^ 32 - b % 2 ^ 32) % 2 ^ 32
def seqNext (a : Nat) : Nat := (a + 1) % 2 ^ 32

/-- The device can issue host transactions (R459, R460). -/
def canMaster (s : State) : Bool := s.pcie.linkUp && s.pcie.busMaster && !s.pcie.d3hot

/-- The queue engine can write to the host: mastering is possible and the I/O die is in service (R365, R459). -/
def canWrite (s : State) : Bool := canMaster s && (unitOf s (dieUnit 2)).phase == .live && !s.pins.halted

/-! ## MSI-X (R450, R453, R334) -/

/-- An MSI-X table entry: all zero but for the mask bit until the host writes it. -/
def msixEntry (s : State) (v : Nat) : BitVec 128 := (tget s.pcie.msixTable v).getD (BitVec.ofNat 128 (2 ^ 96))

/-- Vector `v` fires: a message, or its pending bit where the vector is masked or no message can be sent (R334). -/
def raiseVector (s : State) (v : Nat) : State :=
  if 2048 ≤ v then s
  else if bitOf (msixEntry s v) 96 || !canMaster s then
    { s with pcie := { s.pcie with
        msixPending := if s.pcie.msixPending.contains v then s.pcie.msixPending else s.pcie.msixPending ++ [v] } }
  else s.emit (.msix v)

/-- Pending vectors that are not masked send their messages once messages can be sent. -/
def drainVectors (s : State) : State :=
  if canMaster s then
    let ready := s.pcie.msixPending.filter (fun v => !bitOf (msixEntry s v) 96)
    let s := { s with pcie := { s.pcie with msixPending := s.pcie.msixPending.filter (fun v => bitOf (msixEntry s v) 96) } }
    ready.foldl (fun s v => s.emit (.msix v)) s
  else s

/-! ## Ledgers and completions -/

/-- The 64 bytes of a queue's ledger (R330). -/
def ledgerBytes (s : State) (q : QueueSt) : List Byte :=
  bytesLE 64 (q.acceptNext % 2 ^ 32 * 2 ^ 480 + q.completeNext % 2 ^ 32 * 2 ^ 448 + q.tail % 2 ^ 32 * 2 ^ 416
    + s.time.now % 2 ^ 32 * 2 ^ 384 + s.occ.number % 2 ^ 32 * 2 ^ 352 + q.qstate % 256 * 2 ^ 344)

/-- The interrupt moderation after `n` completions are newly covered (R334): the timer starts at the first, and MOD_COUNT
reached fires the vector, which clears count and timer. -/
def moderate (s : State) (qn n : Nat) : State :=
  let q := queueOf s qn
  let p := q.pendCount + n
  if 0 < q.modCount && q.modCount ≤ p && 0 < n then
    raiseVector (modQueue s qn (fun q => { q with pendCount := 0, timer := none })) q.vector
  else
    modQueue s qn (fun q => { q with
      pendCount := p, timer := if 0 < n && q.timer.isNone then some s.time.now else q.timer })

/-- Write queue `qn`'s ledger (R330), then count what it newly covers (R334). Nothing is written while the device cannot write
to the host (R459). -/
def writeLedger (s : State) (qn : Nat) : State :=
  if canWrite s then
    let q := queueOf s qn
    let n := seqSub q.completeNext q.ledgerNext
    let s := s.emit (.hostWrite q.ledger (ledgerBytes s q))
    moderate (modQueue s qn (fun q => { q with ledgerNext := q.completeNext })) qn n
  else s

/-- Write one formed completion: its outputs, then its entry as one 64-byte write (R332, R456). -/
def writeFormed (s : State) (qn : Nat) (f : Formed) : State :=
  let q := queueOf s qn
  let s := f.outputs.foldl (fun s o => s.emit (.hostWrite o.1 o.2)) s
  let s := s.emit (.hostWrite (q.cqBase + 64 * (f.seq % q.depth)) (bytesLE 64 f.entry.toNat))
  modQueue s qn (fun q => { q with completeNext := seqNext f.seq })

/-- Write what queue `qn` has formed, then the ledger that covers it (R332, R333). -/
def flushQueue (s : State) (qn : Nat) : State :=
  let q := queueOf s qn
  if canWrite s && !q.formed.isEmpty then
    let s := q.formed.foldl (fun s f => writeFormed s qn f) s
    writeLedger (modQueue s qn (fun q => { q with formed := [] })) qn
  else s

/-- The numbers of the queues that are not disabled, in ascending order. -/
def openQueues (s : State) : List Nat := (s.queues.filter (fun p => p.2.qstate != 0)).map (fun p => p.1)

/-- Every queue's held completions and its ledger, after a recovery of the I/O die or of the host link (R333, R459). -/
def flushAll (s : State) : State :=
  (openQueues s).foldl (fun s q => if (queueOf s q).formed.isEmpty then writeLedger s q else flushQueue s q) s

/-- ACCEPT_NEXT passes every item already decided (R330). -/
def advanceAccept : Nat → State → Nat → State
  | 0, s, _ => s
  | fuel + 1, s, qn =>
    let a := (queueOf s qn).acceptNext
    if s.items.any (fun i => i.queue == qn && i.seq == a && i.phase != .waiting) then
      advanceAccept fuel (modQueue s qn (fun q => { q with acceptNext := seqNext a })) qn
    else s

/-! ## Doorbells (R317, R318) -/

/-- A fault record that names queue `qn`. -/
def doorbellFault (s : State) (qn : Nat) : State :=
  recordFaultAt (modQueue s qn (fun q => { q with dbFaults := (q.dbFaults + 1) % 2 ^ 32 })) (dieUnit 2) causeDoorbell 0 0
    (BitVec.ofNat 12 qn) 0 0

/-- A doorbell write of `v` to queue `qn` takes effect (R317): the first case of its table that applies. -/
def ringDoorbell (s : State) (qn v : Nat) : State :=
  let q := queueOf s qn
  let v := v % 2 ^ 32
  if q.qstate = 0 then doorbellFault s qn
  else if v = q.tail || precedes v q.tail then s
  else if precedes q.tail v && seqSub v q.completeNext ≤ q.depth then
    modQueue s qn (fun q => { q with tail := v, arrivals := (v, s.time.now) :: q.arrivals })
  else doorbellFault s qn

/-- A live doorbell lands (R318, R348, R352): replay ignores and counts it; otherwise it is captured and rung. -/
def liveDoorbell (s : State) (qn v : Nat) : State :=
  if s.occ.replayStatus = 1 then { s with occ := { s.occ with replayIgnored := s.occ.replayIgnored + 1 } }
  else ringDoorbell (capRecord s 2 qn s.time.now (bytesLE 8 v)) qn v

/-- The arrival time of entry `seq` of a queue: the landing of the first doorbell that covers it (R318). -/
def arrivalOf (q : QueueSt) (seq : Nat) : Time :=
  ((q.arrivals.reverse.find? (fun p => precedes seq p.1)).map (fun p => p.2)).getD 0

/-- Doorbells whose entries have all been fetched are forgotten. -/
def trimArrivals (q : QueueSt) : QueueSt :=
  { q with arrivals := q.arrivals.filter (fun p => precedes q.fetchNext p.1) }

/-! ## Opening and closing (R307) -/

/-- A non-zero DEPTH opens a disabled queue: every pointer at FIRST_SEQ, and a ledger with STATE 1. -/
def openQueue (s : State) (qn depth : Nat) : State :=
  let s := modQueue s qn (fun q => { q with
    depth := depth, tail := q.firstSeq, acceptNext := q.firstSeq, completeNext := q.firstSeq, fetchNext := q.firstSeq,
    formNext := q.firstSeq, ledgerNext := q.firstSeq, qstate := 1, deficit := 0, arrivals := [], lastDeadline := none,
    formed := [], pendCount := 0, timer := none })
  writeLedger s qn

/-- DEPTH 0 closes a drained queue: a final ledger with STATE 0. -/
def closeQueue (s : State) (qn : Nat) : State :=
  let s := writeLedger (modQueue s qn (fun q => { q with qstate := 0 })) qn
  modQueue s qn (fun q => { q with depth := 0, timer := none, pendCount := 0 })

/-! ## Client counts (R324) -/

def clientOf (s : State) (c : Nat) : Nat × Nat × Nat × Nat := (tget s.pool.clients c).getD (0, 0, 0, 0)
def setClient (s : State) (c : Nat) (x : Nat × Nat × Nat × Nat) : State :=
  { s with pool := { s.pool with clients := tset s.pool.clients c x } }
def countFetched (s : State) (qn : Nat) : State :=
  let c := (queueOf s qn).client
  let x := clientOf s c
  setClient s c ((x.1 + 1) % 2 ^ 64, x.2.1, x.2.2.1, x.2.2.2)
def countAccepted (s : State) (qn : Nat) : State :=
  let c := (queueOf s qn).client
  let x := clientOf s c
  countEvent (setClient s c (x.1, (x.2.1 + 1) % 2 ^ 64, x.2.2.1, x.2.2.2)) 0x3800 0x70 0 1
def countRefused (s : State) (qn : Nat) : State :=
  let c := (queueOf s qn).client
  let x := clientOf s c
  countEvent (setClient s c (x.1, x.2.1, (x.2.2.1 + 1) % 2 ^ 64, x.2.2.2)) 0x3800 0x71 0 1
def countCompleted (s : State) (qn : Nat) : State :=
  let c := (queueOf s qn).client
  let x := clientOf s c
  setClient s c (x.1, x.2.1, x.2.2.1, (x.2.2.2 + 1) % 2 ^ 64)

end Sys2Proof.Machine
end

