-- ==== Sys2Proof/Machine/Units.lean ====
section
/-! DEFINITION. Machine/Units.lean: units, tokens, sequencer steps, Dusk and Dawn, escalation, clock islands
(spec/01_units_and_islands.md; R353 to R368 of spec/11_determinism_and_recovery.md). -/

namespace Sys2Proof.Machine

/-- The parsed plan of the running occupancy; an image that is still being loaded gives none. -/
def planOf (s : State) : Option Plan :=
  if s.occ.state = .loading then none else s.occ.image.map (fun im => im.plan)

/-! ## Where a slice runs (R28, R54, R358, R363) -/

/-- The row of the distribution table that is keyed by Almanac position `pos` (R28). -/
def kidsOf (s : State) (pos : BitVec 32) : List (BitVec 32 × UAddr) :=
  match planOf s with
  | none => []
  | some p => ((p.dist.find? (fun d => d.pos == pos)).map (fun d => d.kids)).getD []

/-- The row of the distribution table in which the child slice at `pos` stands. -/
def rowOf (s : State) (pos : BitVec 32) : List (BitVec 32 × UAddr) :=
  match planOf s with
  | none => []
  | some p => ((p.dist.find? (fun d => d.kids.any (fun k => k.1 == pos))).map (fun d => d.kids)).getD []

/-- The unit that the distribution table names for the child slice at `pos`. -/
def nominalOf (s : State) (pos : BitVec 32) : Option UAddr := ((rowOf s pos).find? (fun k => k.1 == pos)).map (fun k => k.2)

/-- Insert a child slice in ascending Almanac position. -/
def insertPos (p : BitVec 32) : List (BitVec 32) → List (BitVec 32)
  | [] => [p]
  | q :: t => if p.toNat ≤ q.toNat then p :: q :: t else q :: insertPos p t

/-- The remaining cores of cluster `c`, ascending logical core number (R54). -/
def coresLeft (s : State) (c : Nat) : List UAddr :=
  ((List.range 6).map (fun n => coreUnit (6 * c + n))).filter (fun u => !unitGone s u)

/-- The next unit of a cyclic list after `i` that is not gone. -/
def nextAlive (s : State) (us : List UAddr) (i : Nat) : Option UAddr :=
  ((List.range us.length).map (fun k => us.getD ((i + k) % us.length) 0)).find? (fun u => !unitGone s u)

/-- The compute die `d` runs no slices: it is out for recovery or held out (R363, R366). -/
def dieOut (s : State) (d : Nat) : Bool := (s.dies.getD d {}).out || unitGone s (dieUnit d)

/-- The cluster that runs what the table places on cluster `c` (R358, R363): the one of the same number on the other die while its die is
out, the next of its die that is not held out. -/
def servingCluster (s : State) (c : Nat) : Nat :=
  let d := if dieOut s (c / 4) then 1 - c / 4 else c / 4
  let u := clusterUnit (4 * d + c % 4)
  if unitGone s u then uCluster ((nextAlive s ((List.range 4).map (fun i => clusterUnit (4 * d + i))) (c % 4)).getD u) else 4 * d + c % 4

/-- The child slices of a row that the table places on core `n` of its cluster, the core being retired, in ascending Almanac position. -/
def movedOf (s : State) (c : Nat) (row : List (BitVec 32 × UAddr)) : List (BitVec 32) :=
  ((row.filter (fun k => unitGone s (coreUnit (6 * c + uCore k.2)))).map (fun k => k.1)).foldr insertPos []

/-- The unit that runs the child slice at `pos` whose nominal unit is `u` (R28, R54, R358, R363): for a core the one of the same number
in the cluster that serves, or, where that is retired, the remaining cores of the cluster cyclically, in ascending Almanac position of
the child slices placed on retired cores; for a cluster the one that serves it; for a compute die that is out the other die. -/
def servingUnit (s : State) (u : UAddr) (pos : BitVec 32) : UAddr :=
  match uLevel u with
  | 1 =>
    let c := servingCluster s (uCluster u)
    let v := coreUnit (6 * c + uCore u)
    if unitGone s v then
      let left := coresLeft s c
      left.getD ((movedOf s c (rowOf s pos)).idxOf pos % left.length) v
    else v
  | 2 => clusterUnit (servingCluster s (uCluster u))
  | 3 => if uDie u ≤ 1 && dieOut s (uDie u) then dieUnit (1 - uDie u) else u
  | _ => u

/-! ## Units of a moved slice -/

/-- Unit `v` with the die, cluster and core numbers of `act` in place of those of `nom`, where it lies in `nom`. -/
def inPlaceOf (nom act v : UAddr) : UAddr :=
  if uLevel nom = 1 && inside v nom then (v &&& 0xE01F#16) ||| (act &&& 0x1FE0#16)
  else if uLevel nom = 2 && inside v nom then (v &&& 0xE0FF#16) ||| (act &&& 0x1F00#16)
  else v

/-- The unit that stands for `v` now: in the cluster that serves its cluster, and, where its core is retired, in the core that holds a
slice which the table places on that core (R54, R358, R363). -/
def homeOf (s : State) (v : UAddr) : UAddr :=
  if 3 ≤ uLevel v then v
  else
    let c := servingCluster s (uCluster v)
    let v := inPlaceOf (clusterUnit (uCluster v)) (clusterUnit c) v
    let k := coreUnit (coreNo v)
    if (uLevel v = 1 || uLevel v = 0 && uCore v ≤ 5) && unitGone s k then
      match (coresLeft s c).find? (fun u => (unitOf s u).held.any (fun sl =>
          (nominalOf s sl.pos).any (fun n => uCore n == uCore k))) with
      | some u => inPlaceOf k u v
      | none => v
    else v

/-! ## The slice a unit runs, and its step lists (R17, R26, R44) -/

/-- The slice that unit `u` runs: the oldest it holds. -/
def runningSlice (s : State) (u : UAddr) : Option Slice := (unitOf s u).held.head?

/-- Two engines have the same place in their cores or clusters. -/
def sameEngine (a b : UAddr) : Bool :=
  uLevel a == uLevel b && (if uLevel a = 0 && uCore a ≤ 5 && uCore b ≤ 5 then a.toNat % 32 == b.toNat % 32 else a.toNat % 256 == b.toNat % 256)

/-- The list that sequencer `q` holds for engine or child `eng` while it runs its present slice (R44). -/
def planList (s : State) (q eng : UAddr) : Option StepList :=
  match planOf s, runningSlice s (parentOf q) with
  | some p, some sl => p.lists.find? (fun l => l.pos == sl.pos && uLevel l.seq == 0 && sameEngine l.seq q && sameEngine l.eng eng)
  | _, _ => none

/-- The bytes of a command word as memory holds it, least significant first. A child slice has none. -/
def cmdBytes : StepCmd → List Byte
  | .ma w => bytesLE 16 w.toNat
  | .ve w => bytesLE 32 w.toNat
  | .de w => bytesLE 16 w.toNat
  | .ce w => bytesLE 32 w.toNat
  | .pe w => bytesLE 16 w.toNat
  | .mov w g => bytesLE 32 w.toNat ++ (g.elim [] (fun x => bytesLE 16 x.toNat))
  | .child _ => []

/-- The command whose word memory holds as `bs`, of the same kind as `c`. -/
def cmdOfBytes (c : StepCmd) (bs : List Byte) : StepCmd :=
  match c with
  | .ma _ => .ma (BitVec.ofNat 128 (ofBytesLE bs))
  | .ve _ => .ve (BitVec.ofNat 256 (ofBytesLE bs))
  | .de _ => .de (BitVec.ofNat 128 (ofBytesLE bs))
  | .ce _ => .ce (BitVec.ofNat 256 (ofBytesLE bs))
  | .pe _ => .pe (BitVec.ofNat 128 (ofBytesLE bs))
  | .mov _ g => .mov (BitVec.ofNat 256 (ofBytesLE (bs.take 32))) (g.map (fun _ => BitVec.ofNat 128 (ofBytesLE (bs.drop 32))))
  | .child p => .child p

def listBytes (steps : List AStep) : List Byte := steps.flatMap (fun st => cmdBytes st.cmd)

/-- Where the lists of sequencer `q` stand. -/
def seqBase (s : State) (q : UAddr) : Nat := if uCore q ≤ 5 then coreBase s (coreNo q) else clusterBase (uCluster q)

/-- The command word of step `n` of list `l` as sequencer `q` reads it from its memory (R26). -/
def stepGot (s : State) (q : UAddr) (l : StepList) (n : Nat) : Got :=
  readLocal s (seqBase s q + l.base + (listBytes (l.steps.take n)).length) (((l.steps[n]?).map (fun st => (cmdBytes st.cmd).length)).getD 0)

/-- The steps of the list that sequencer `q` holds for `eng`. -/
def stepListOf (s : State) (q eng : UAddr) : List AStep := (planList s q eng).elim [] (fun l => l.steps)

/-! ## Placing lists, programs and windows (R26, R153, R203, R277) -/

/-- The lists and programs that the image keeps for unit `nom`, from the copy in the DRAM of die `d`, to the memory at `base`. -/
def placeLists (s : State) (p : Plan) (nom : UAddr) (d base : Nat) : State :=
  let s := (p.lists.filter (fun l => parentOf l.seq == nom)).foldl (fun s l =>
    copyRange s (dramBase d + l.copyAt) (base + l.base) (listBytes l.steps).length) s
  (p.programs.filter (fun g => g.core == nom)).foldl (fun s g =>
    copyRange s (dramBase d + g.copyAt) (base + 8 * g.base) (8 * g.words.length)) s

/-- Step 5 of R356 for a core: its lists and programs, or while it runs a slice of another core those of core `n`. -/
def reloadCore (s : State) (k n : Nat) : State :=
  match planOf s with
  | none => s
  | some p =>
    modCore (placeLists s p (coreUnit n) (k / 24) (coreBase s k)) k (fun c => { c with guest := if n = k then none else some n })

/-- The same for a cluster's own lists. -/
def reloadClusterLists (s : State) (c n : Nat) : State :=
  match planOf s with
  | none => s
  | some p =>
    modCluster (placeLists s p (clusterUnit n) (c / 4) (clusterBase c)) c (fun x => { x with guest := if n = c then none else some n })

/-- The window table of 64 entries that the words of its descriptors give (R153). -/
def windowTable (ws : List (BitVec 128)) : List WinSt :=
  ((ws ++ List.replicate 64 0).take 64).map (fun w => { desc := windowOfWord w })

/-- The window table of the slice at `pos` from the image's copy in the DRAM of core `k`'s die; a bad read stops the sequencer (R274). -/
def loadWindows (s : State) (k : Nat) (pos : BitVec 32) : State :=
  match (planOf s).elim none (fun p => p.windows.find? (fun w => w.pos == pos)) with
  | none => modCore s k (fun c => { c with windows := windowTable [] })
  | some w =>
    let g := readLocal s (dramBase (k / 24) + w.copyAt) (16 * w.descs.length)
    let ws := (chunks 16 w.descs.length g.bytes).map (fun b => BitVec.ofNat 128 (ofBytesLE b))
    let s := modCore s k (fun c => { c with windows := windowTable ws })
    if g.poisoned || g.uncorrectable then engineFault s (coreEng k 6 0) (badCause g) g.at_ else s

/-! ## Waits that stop a watchdog (R354) -/

/-- Tokens of TAG `tag` reach the unit of sequencer `q` from the time unit or from the fronthaul, host or fabric regions. -/
def outerTag (p : Plan) (q : UAddr) (tag : BitVec 8) : Bool :=
  p.outerTags.any (fun x => x.2 == tag && (x.1 == q || x.1 == parentOf q))
    || p.ticks.any (fun x => x.tag == tag && (x.dst == q || x.dst == parentOf q))

/-- The next step of a list waits, and only for such tokens. -/
def waitsOuter (p : Plan) (l : StepList) (x : SeqSt) (eng : UAddr) : Bool :=
  match l.steps[(tget x.started eng.toNat).getD 0]? with
  | none => false
  | some st =>
    let unmet := st.await.filter (fun a => (tget x.tokens a.1.toNat).getD 0 < a.2)
    !unmet.isEmpty && unmet.all (fun a => outerTag p l.seq a.1)

/-- The state of the sequencer that a sequencer's unit address names. -/
def seqOf (s : State) (q : UAddr) : SeqSt := if uCore q ≤ 5 then (coreOf s (coreNo q)).seq else (clusterOf s (uCluster q)).seq
def setSeq (s : State) (q : UAddr) (x : SeqSt) : State :=
  if uCore q ≤ 5 then modCore s (coreNo q) (fun c => { c with seq := x }) else modCluster s (uCluster q) (fun c => { c with seq := x })

/-- The engine or child, in the unit of sequencer `q`, that a list of the plan drives. -/
def listEngine (l : StepList) (q : UAddr) : UAddr := inPlaceOf (parentOf l.seq) (parentOf q) l.eng

/-- Every list of the running slice of sequencer `q` that has a next step waits only for tokens from outside. -/
def seqWaits (s : State) (q : UAddr) : Bool :=
  match planOf s, runningSlice s (parentOf q) with
  | some p, some sl =>
    let ls := p.lists.filter (fun l => l.pos == sl.pos && sameEngine l.seq q)
    let open_ := ls.filter (fun l => decide ((tget (seqOf s q).started (listEngine l q).toNat).getD 0 < l.steps.length))
    !open_.isEmpty && open_.all (fun l => waitsOuter p l (seqOf s q) (listEngine l q))
  | _, _ => false

/-- The sequencer of a core or a cluster. -/
def sequencerOf (u : UAddr) : UAddr := if uLevel u = 1 then coreEng (coreNo u) 6 0 else clusterEng (uCluster u) 7 6 0

/-- The units of level 1 and 2 inside `u` that run a slice. -/
def runnersIn (s : State) (u : UAddr) : List UAddr :=
  (s.units.filter (fun p => let v : UAddr := BitVec.ofNat 16 p.1
    (uLevel v == 1 || uLevel v == 2) && inside v u && !p.2.held.isEmpty)).map (fun p => BitVec.ofNat 16 p.1)

/-- `u`'s next step on every list waits only for TICK tokens or tokens of the fronthaul, host or fabric regions (R354): an engine by its
list, a larger unit by the lists of every core and cluster in it that runs a slice. -/
def waitsOutside (s : State) (u : UAddr) : Bool :=
  if uLevel u = 0 then
    match planOf s, planList s (sequencerOf (parentOf u)) u with
    | some p, some l => waitsOuter p l (seqOf s (sequencerOf (parentOf u))) u
    | _, _ => false
  else !(runnersIn s u).isEmpty && (runnersIn s u).all (fun v => seqWaits s (sequencerOf v))

/-- A unit's watchdog stops counting when such a wait begins and goes on from where it stood when it ends (R354). -/
def settleDog (s : State) (u : UAddr) : State :=
  match (unitOf s u).watchdog, (unitOf s u).hold with
  | some _, none => if waitsOutside s u then modUnit s u (fun x => { x with hold := some s.time.now }) else s
  | some w, some h =>
    if waitsOutside s u then s
    else modUnit s u (fun x => { x with watchdog := some (w + (s.time.now - h)), hold := none })
  | none, _ => s

/-- The watchdogs whose waits a change at the sequencer of `u` can begin or end: those of its engines, of `u`, and of the units that contain
it. -/
def settleDogs (s : State) (u : UAddr) : State :=
  (childrenOf u ++ [u, parentOf u, parentOf (parentOf u), packageUnit]).foldl settleDog s

/-! ## Slices at a port -/

/-- A queue record as a slice finds it (R292): empty, both pointers 0, the flags clear. -/
def freshQueue (q : QRec) : QRec :=
  { writer := q.writer, reader := q.reader, base := q.base, depth := q.depth, esize := q.esize, packetised := q.packetised }

/-- What a slice finds of its inputs from other devices when it starts, or starts again: the saturation of a transfer that it waited for
(R194), and the exponents of the transfers that it sends (R189). -/
def sliceInputs (s : State) (u : UAddr) (sl : Slice) : State :=
  let f := s.fabric
  let sat := f.satSlices.contains sl || f.satNext.contains sl.pos
  let s := { s with fabric := { f with
    satNext := f.satNext.erase sl.pos, satSlices := if sat && !f.satSlices.contains sl then f.satSlices ++ [sl] else f.satSlices
    fixedScales := f.fixedScales.map (fun x => if x.slice = sl then { x with used := false } else x) } }
  if sat then orStatus s u sl 1 else s

/-- Slice `sl` starts on its unit: the token table is cleared (R46), its status word is cleared (R182), the lists restart, the queue records
are loaded from the Almanac (R292), the DSP starts its first step (R235), and the window table is that of the slice, its walk at the start
(R153, R155). A slice of another core or cluster brings that one's lists and programs, and the next slice of the unit's own brings its own
back (R54). -/
def sliceStart (s : State) (u : UAddr) (sl : Slice) : State :=
  let s := sliceInputs (modUnit s u (fun x => clearStatus x sl)) u sl
  let nom := (nominalOf s sl.pos).getD u
  match uLevel u with
  | 1 =>
    let k := coreNo u
    let s := if coreNo nom = k && (coreOf s k).guest.isNone then s else reloadCore s k (coreNo nom)
    let s := modCore s k (fun c => { c with
      seq := { c.seq with tokens := [], started := [], running := [] }, dsp := {}, maWait := [], veWait := [], tq := [] })
    settleDogs (loadWindows (clearErrs s (coreEng k 2 0) 0 76) k sl.pos) u
  | 2 =>
    let c := uCluster u
    let s := if uCluster nom = c && (clusterOf s c).guest.isNone then s else reloadClusterLists s c (uCluster nom)
    let s := modCluster s c (fun c => { c with
      seq := { c.seq with tokens := [], started := [], running := [] },
      queues := c.queues.map freshQueue })
    settleDogs s u
  | _ => s

/-- A slice ends on its unit: tokens left counted are discarded and tallied (R46, event 0x31). -/
def sliceEnd (s : State) (u : UAddr) : State :=
  let left (q : SeqSt) : Nat := (q.tokens.map (fun p => p.2)).sum
  let close (q : SeqSt) : SeqSt := { q with tokens := [], started := [], running := [], discarded := q.discarded + left q }
  match uLevel u with
  | 1 =>
    let n := left (coreOf s (coreNo u)).seq
    countUnit (modCore s (coreNo u) (fun c => { c with seq := close c.seq })) (coreEng (coreNo u) 6 0) 0x31 n
  | 2 =>
    let n := left (clusterOf s (uCluster u)).seq
    countUnit (modCluster s (uCluster u) (fun c => { c with seq := close c.seq })) (clusterEng (uCluster u) 7 6 0) 0x31 n
  | _ => s

/-- `u` is in service: neither it nor a unit that contains it is in Dusk, in Dawn, retired or held out. -/
def inService (s : State) (u : UAddr) : Bool := (unitOf s u).phase == .live && !unitGone s u && !parentDown s u

/-- A unit that is in service, whose clock runs (R35) and whose tokens find room in their crossings (R37). -/
def canRun (s : State) (u : UAddr) : Bool := inService s u && clocked s u

/-- A credit is held for a command to `u` (R18, R19): its port is in service and a slot is free. -/
def hasCredit (s : State) (u : UAddr) : Bool :=
  inService s u && (uLevel u == 4 || u == dieUnit 2 || (unitOf s u).used < unitDepth u)

/-- The child slice `pos` of the parent slice that `sl` belongs to has been accepted by `u` or is done. -/
def sentTo (s : State) (u : UAddr) (sl : Slice) (pos : BitVec 32) : Bool :=
  let x : Slice := { sl with pos := pos }
  (unitOf s u).held.contains x || (unitOf s (parentOf u)).kidsDone.contains x

/-- A core runs a slice of a retired core after its own child slices of the same cluster slice and after those given before it (R54). -/
def turnOf (s : State) (u : UAddr) (sl : Slice) : Bool :=
  let row := rowOf s sl.pos
  let given (k : BitVec 32 × UAddr) : Bool := uCore k.2 != uCore u
  if uLevel u = 1 && (nominalOf s sl.pos).any (fun n => uCore n != uCore u) then
    (row.filter (fun k => k.1 != sl.pos && servingUnit s k.2 k.1 == u && (!given k || decide (k.1.toNat < sl.pos.toNat)))).all
      (fun k => sentTo s u sl k.1)
  else true

/-- The port of `u` accepts a slice (R18, R24): one slot taken, the watchdog started if the unit held nothing. -/
def acceptSlice (s : State) (u : UAddr) (sl : Slice) : State :=
  let first := (unitOf s u).held.isEmpty
  let s := modUnit s u (fun x => { x with
    used := x.used + 1, cmds := x.cmds + 1, held := x.held ++ [sl]
    watchdog := if x.watchdog.isSome then x.watchdog else some s.time.now })
  if first then sliceStart s u sl else s

/-- Stalled slices whose turn has come go in order while credits last (R18, R54). -/
def sendStalled : Nat → State → UAddr → State
  | 0, s, _ => s
  | fuel + 1, s, u =>
    match (unitOf s u).stalled.find? (turnOf s u) with
    | some sl =>
      if hasCredit s u then
        sendStalled fuel (acceptSlice (modUnit s u (fun x => { x with stalled := x.stalled.erase sl })) u sl) u
      else s
    | none => s

/-- A parent sends a slice: it stalls in order and goes when a credit is held for it and its turn has come (R18, R54). -/
def sendSlice (s : State) (u : UAddr) (sl : Slice) : State :=
  let n := (unitOf s u).stalled.length + 1
  sendStalled n (modUnit s u (fun x => { x with stalled := x.stalled ++ [sl] })) u

/-! ## Dusk (R356, R25) -/

/-- Wipe the state of the engines and sequencers inside `u` and the memories that R25 lists for its level. -/
def wipeEngine (s : State) (u : UAddr) : State :=
  let k := coreNo u
  let c := uCluster u
  let s := { s with engMem := tdel s.engMem u.toNat }
  if uCore u ≤ 5 then
    match uKind u with
    | 0 => modCore s k (fun x => { x with arrays := lmod x.arrays (uInst u) (fun _ => {}), maWait := [] })
    | 1 => modCore s k (fun x => { x with veRegs := [], tq := [], veWait := [], veBusy := [], veCycles := 0 })
    | 2 => modCore s k (fun x => { x with dsp := {} })
    | _ => modCore s k (fun x => { x with seq := { x.seq with tokens := [], started := [], running := [] } })
  else
    match uKind u with
    | 3 => modCluster s c (fun x => { x with ce := lmod x.ce (uInst u) (fun _ => {}) })
    | 4 => modCluster s c (fun x => { x with pe := {} })
    | 5 =>
      let m := if uCore u = 7 then uInst u else uInst u + 2
      modCluster s c (fun x => { x with movers := lmod x.movers m (fun _ => {}) })
    | _ => modCluster s c (fun x => { x with seq := { x.seq with tokens := [], started := [], running := [] } })

/-- Stream FIFOs, shadow accumulators and errors of the engines inside `u` (R25). -/
def wipeEngMem (s : State) (u : UAddr) : State :=
  { s with engMem := s.engMem.filter (fun p => !inside (BitVec.ofNat 16 p.1) u) }

def wipeCore (s : State) (k : Nat) : State :=
  wipeEngMem (wipeRange (setCore s k {}) (coreBase s k) coreBytes) (coreUnit k)

def wipeCluster (s : State) (c : Nat) : State :=
  let s := wipeEngMem ((List.range 6).foldl (fun s n => wipeCore s (6 * c + n)) s) (clusterUnit c)
  wipeRange (modCluster s c (fun x => { x with
    seq := {}, ce := List.replicate 2 {}, pe := {}, movers := List.replicate 6 {}, borrowed := [], borrowWait := [],
    queues := x.queues.map freshQueue })) (clusterBase c) clusterBytes

/-- The mirrored regions whose working copy `holds` its place, taken from their mirrors (R281). -/
def takeMirrors (s : State) (holds : Region → Bool) : State :=
  ((mirrorRegions s).filter holds).foldl (fun s r => copyRange s (r.mirrorAt.getD 0) r.base r.bytes) s

/-- A compute die's wipe (R25, R281): its clusters and its DRAM, the patch record's copy in it (R498); what it holds as a working copy of a
mirrored region is served from the mirror from now on, and the mirrors it holds are gone. -/
def wipeDie (s : State) (d : Nat) : State :=
  let s := (List.range 4).foldl (fun s i => wipeCluster s (4 * d + i)) s
  let s := wipeRange s (dramBase d) dramBytes
  let s := { s with life := { s.life with patchCopies := lmod s.life.patchCopies d (fun _ => none) } }
  takeMirrors s (fun r => dieOfAddr s r.base == d)

/-- The control processor's RAM is wiped (R25, R50), and with it the part of a lifecycle request that it holds. -/
def wipeCpRam (s : State) : State :=
  { s with cp := { s.cp with ram := [], ramCheck := [] }, life := { s.life with partialReq := [] } }

/-- The I/O die's wipe (R25, R365): I/O die SRAM, control processor RAM and helper state: the Share dispatcher stands as at load. The fault
log, context table, subscriptions and captured commits are restored from DRAM at its Dawn, and the host, time, fronthaul and fabric link
state keep running. -/
def wipeIo (s : State) : State :=
  { wipeCpRam (wipeRange s ioBase ioBytes) with
    shareCur := 4095, queues := s.queues.map (fun p => (p.1, { p.2 with deficit := 0 })) }

/-- The signature of a patch record (R498) verifies: the 3,309 bytes at its end, over those before them. -/
def patchSigned (b : List Byte) : Bool :=
  Config.mldsaVerify Config.romFirmwareKey (Config.shake256 (b.take (b.length - 3309))) (b.drop (b.length - 3309))

/-- The control processor starts from ROM and loads the patch record from a copy that verifies (R48, R50, R498); with none it runs from ROM
alone. The record stands at the start of its RAM (log entry 208). -/
def loadPatch (s : State) : State :=
  match s.life.patchCopies.find? (fun c => c.any patchSigned) with
  | some (some b) => { s with cp := { s.cp with ram := cputs [] 0 b, ramCheck := [] } }
  | _ => { s with life := { s.life with patch := none } }

/-- The copy of the patch record in the DRAM of die `d` is written again from the other die's (R498). -/
def restorePatch (s : State) (d : Nat) : State :=
  { s with life := { s.life with patchCopies := lmod s.life.patchCopies d (fun _ => s.life.patchCopies.getD (1 - d) none) } }

def wipeUnit (s : State) (u : UAddr) : State :=
  match uLevel u with
  | 0 => wipeEngine s u
  | 1 => wipeCore s (coreNo u)
  | 2 => wipeCluster s (uCluster u)
  | 3 => if uDie u ≤ 1 then wipeDie s (uDie u) else wipeIo s
  | _ => s

/-- The units inside `u` lose their commands with it (R356 step 1, R361). -/
def clearInside (s : State) (u : UAddr) : State :=
  { s with units := s.units.map (fun p =>
      let v : UAddr := BitVec.ofNat 16 p.1
      if v != u && inside v u then
        (p.1, { p.2 with used := 0, cmds := 0, held := [], stalled := [], kidsDone := [], watchdog := none, hold := none, status := [],
                         retrying := false, failed := 0,
                         phase := if p.2.phase == .retired || p.2.phase == .heldOut then p.2.phase else .live })
      else p) }

/-- An engine's parent stops its other engines without wiping them and clears its token table (R360). -/
def stopSiblings (s : State) (u : UAddr) : State :=
  let stopSeq (q : SeqSt) : SeqSt := { q with tokens := [], started := [], running := [] }
  if uLevel u = 0 then
    if uCore u ≤ 5 then
      modCore s (coreNo u) (fun c => { c with
        seq := stopSeq c.seq, maWait := [], veWait := [], veBusy := [], tq := [],
        arrays := c.arrays.map (fun a => { a with busy := [] }), dsp := { c.dsp with cmd := none, halted := true } })
    else
      modCluster s (uCluster u) (fun c => { c with
        seq := stopSeq c.seq,
        ce := c.ce.map (fun e => { e with busy := [] }), pe := { c.pe with busy := [] }
        movers := c.movers.map (fun m => { m with toIssue := 0, outstanding := 0, eng := { m.eng with busy := [] } }) })
  else s

/-- Items whose slices a unit holds were re-issued (R369). -/
def markReissued (s : State) (sls : List Slice) : State :=
  { s with items := s.items.map (fun i =>
      if sls.any (fun sl => sl.queue.toNat == i.queue && sl.seq.toNat == i.seq) then { i with reissued := true } else i) }

/-- The slices that a restart of `u` interrupts: its own, or for an engine those of its parent. -/
def slicesOf (s : State) (u : UAddr) : List Slice :=
  if uLevel u = 0 then ((unitOf s (parentOf u)).held.take 1) else (unitOf s u).held

/-- A load in progress is abandoned: reason 0x09, the copy wiped, state NONE (R302, R362). -/
def abandonLoad (s : State) : State :=
  if s.occ.state = .loading then
    { s with occ := { s.occ with state := .none, image := none, copyBad := false, reason := 9, section_ := 0, step := 0,
                                 unit := 0, digest := 0, locked := false, replay := false } }
  else s

/-- Dusk of `u` (R356 steps 1 to 3): credits void, commands discarded, memories wiped; a compute die's slices move to the
other compute die at once (R361, R363). -/
def duskOf (s : State) (u : UAddr) : State :=
  let s := timingEvent s 1 u s.lastFault
  let s := stopSiblings s u
  let s := clearInside s u
  let moved := if uLevel u = 3 && uDie u ≤ 1 then (unitOf s u).held else []
  let s := modUnit s u (fun x => { x with
    phase := .dusk, used := 0, cmds := 0, watchdog := none, hold := none, kidsDone := [], status := []
    held := if moved = [] then x.held else [] })
  let s := wipeUnit s u
  if uLevel u = 3 && uDie u ≤ 1 then
    let o := dieUnit (1 - uDie u)
    let dies := lmod s.dies (uDie u) (fun d => { d with out := true, restored := none, returnFrom := none })
    let s := { s with
      dies := lmod dies (1 - uDie u) (fun d => { d with out := false, returnFrom := none })
      time := { s.time with copyStopped := lmod s.time.copyStopped (uDie u) (fun _ => true) } }
    let s := markReissued s moved
    let s := moved.foldl (fun s sl => sendSlice s o sl) s
    countUnit (modUnit s o (fun x => { x with reissues := x.reissues + moved.length })) o 0x33 moved.length
  else s

/-- The package halts (R366): nothing more is fetched, issued or written. -/
def haltPackage (s : State) : State :=
  let s := recordFaultAt s packageUnit causeHalt 5 0 0 0 0
  { s with pins := { s.pins with halted := true } }

/-- A compute die is held out (R366): a HELD_OUT record, ALERT_N; its slices run on the other die. With the other die held
out too, nothing remains and the package halts. -/
def holdOutDie (s : State) (d : Nat) : State :=
  let u := dieUnit d
  let moved := (unitOf s u).held
  let s := clearInside s u
  let s := modUnit s u (fun x => { x with
    phase := .heldOut, used := 0, cmds := 0, held := [], watchdog := none, hold := none, status := [] })
  let s := { s with dies := lmod s.dies d (fun x => { x with out := true, restored := none, returnFrom := none }) }
  let s := recordFaultAt s u causeHeldOut 4 0 0 0 0
  let s := markReissued s moved
  let s := moved.foldl (fun s sl => sendSlice s (dieUnit (1 - d)) sl) s
  if unitGone s (dieUnit (1 - d)) then haltPackage s else s

/-- The other compute die is out of service, in Dusk, in Dawn or under restore (R364). -/
def otherDieOut (s : State) (d : Nat) : Bool :=
  (unitOf s (dieUnit (1 - d))).phase == .dusk || (unitOf s (dieUnit (1 - d))).phase == .dawn || unitGone s (dieUnit (1 - d))

/-- Package recovery starts with the I/O die (R366 step 1). -/
def startPackage (s : State) : State :=
  let s := { s with cp := { s.cp with packageStep := 1 } }
  let s := modUnit s packageUnit (fun x => { x with phase := .dusk })
  duskOf s (dieUnit 2)

/-- Recovery of `u` after its fault was recorded (R360 to R364): a Dusk, or after two failed re-issues the parent's recovery.
`fuel` bounds the climb through the five levels. -/
def recover : Nat → State → UAddr → State
  | 0, s, _ => s
  | fuel + 1, s, u =>
    if s.pins.halted || unitGone s u || parentDown s u then s
    else if (unitOf s u).phase = .dusk || (unitOf s u).phase = .dawn then s
    else
      let s := abandonLoad s
      let x := unitOf s u
      if uLevel u = 4 then (if s.cp.packageStep = 0 then startPackage s else haltPackage s)
      else if x.retrying && 1 ≤ x.failed then
        let s := modUnit s u (fun x => { x with failed := 2 })
        let s := recordFaultAt s (parentOf u) causeEscalation 1 2 0 0 0
        recover fuel s (parentOf u)
      else
        let s := modUnit s u (fun x => { x with failed := if x.retrying then x.failed + 1 else x.failed })
        if uLevel u = 3 && uDie u ≤ 1 && otherDieOut s (uDie u) then
          if unitGone s (dieUnit (1 - uDie u)) then haltPackage s
          else { s with dies := lmod s.dies (uDie u) (fun d => { d with faultHeld := true }) }
        else duskOf s u

/-! ## Dawn (R356, R358) -/

/-- The default queue records of a cluster, as the Almanac gives them (R292). -/
def queueRec (w : BitVec 128) : QRec :=
  { writer := BitVec.ofNat 16 (bitsOf w 127 112), reader := BitVec.ofNat 16 (bitsOf w 111 96), base := bitsOf w 95 76,
    depth := bitsOf w 75 59, esize := bitsOf w 58 57, packetised := bitOf w 56 }

def queueRecs (p : Plan) (c : Nat) : List QRec :=
  let ws := ((p.queueCfg.find? (fun q => q.1.toNat == c)).map (fun q => q.2)).getD []
  ws.map queueRec ++ List.replicate (64 - ws.length) ({} : QRec)

/-- Step 5 of R356 for a cluster: its own lists, its queue records and its cores' lists and programs (R26, R292). -/
def reloadCluster (s : State) (c : Nat) : State :=
  let s := takeMirrors s (fun r => decide (placeOf s r.base = .cluster c))
  match planOf s with
  | none => s
  | some p => (List.range 6).foldl (fun s n => reloadCore s (6 * c + n) (6 * c + n))
      (reloadClusterLists (modCluster s c (fun x => { x with queues := queueRecs p c })) c c)

/-- Step 5 of R356: for a compute die also the patch record's copy; for the I/O die the control processor's patch record (R48, R498). -/
def reloadUnit (s : State) (u : UAddr) : State :=
  match uLevel u with
  | 1 => reloadCore s (coreNo u) (coreNo u)
  | 2 => reloadCluster s (uCluster u)
  | 3 => if uDie u ≤ 1 then restorePatch ((List.range 4).foldl (fun s i => reloadCluster s (4 * uDie u + i)) s) (uDie u) else loadPatch s
  | _ => s

/-- Step 6 of R356: credits return and the parent re-issues the slices it holds inputs for (R29, R360). A unit whose parent
re-issues a slice is retrying until that slice's DONE. -/
def rejoin (s : State) (u : UAddr) : State :=
  let s := reloadUnit s u
  let again := slicesOf s u
  let s := modUnit s u (fun x => { x with
    phase := .live, used := x.held.length, cmds := x.held.length, dawnAt := s.time.now, retrying := !again.isEmpty, status := []
    reissues := x.reissues + again.length, watchdog := if x.held.isEmpty then none else some s.time.now })
  let s := markReissued s again
  let s := countUnit s u 0x33 again.length
  let s := match again with
    | [] => s
    | sl :: _ => sliceStart s (if uLevel u = 0 then parentOf u else u) sl
  let s := if uLevel u = 3 && uDie u ≤ 1 then
      avsRetarget { s with time := { s.time with copyStopped := lmod s.time.copyStopped (uDie u) (fun _ => false) } } (uDie u)
    else s
  let s := timingEvent s 2 u 0
  let s := recordFaultAt s u causeRecovered 0 0 0 0 0
  let s := sendStalled 32 s u
  -- R333, R365: the I/O die rewrites completions and ledgers at its Dawn
  if u = dieUnit 2 then flushAll s else s

/-- A unit is retired (R358): a record with ACTION 3, a timing event 0x03. -/
def retire (s : State) (u : UAddr) (cause : BitVec 8) : State :=
  let s := recordFaultAt s u cause 3 0 0 0 0
  let s := modUnit s u (fun x => { x with
    phase := .retired, used := 0, cmds := 0, held := [], stalled := [], watchdog := none, hold := none, status := [] })
  timingEvent s 3 u s.lastFault

/-- A retired core's slices go to the remaining cores of its cluster (R54). -/
def retireCore (s : State) (k : Nat) : State :=
  let u := coreUnit k
  let moved := (unitOf s u).held ++ (unitOf s u).stalled
  let s := retire s u causeSelfTest
  let s := markReissued s moved
  moved.foldl (fun s sl => sendSlice s (servingUnit s u sl.pos) sl) s

/-- The helper cluster of a retired PE (R359): the next of the same die, cyclically, neither held out nor with a retired PE. -/
def peHelper (s : State) (c : Nat) : Option Nat :=
  ([1, 2, 3].map (fun i => 4 * (c / 4) + (c % 4 + i) % 4)).find?
    (fun h => !unitGone s (clusterUnit h) && !unitGone s (clusterEng h 7 4 0))

/-- A cluster of die `d` that is not held out has a retired PE, and no helper serves it (R359). -/
def peUnserved (s : State) (d : Nat) : Bool :=
  (List.range 4).any (fun i =>
    let h := 4 * d + i
    !unitGone s (clusterUnit h) && unitGone s (clusterEng h 7 4 0) && (peHelper s h).isNone)

/-- A cluster is held out (R358); with every cluster of the die held out, or with a retired PE left without a helper (R359), so is the die. -/
def holdOutCluster (s : State) (c : Nat) : State :=
  let u := clusterUnit c
  let moved := (unitOf s u).held ++ (unitOf s u).stalled
  let s := clearInside s u
  let s := recordFaultAt s u causeSelfTest 4 0 0 0 0
  let s := modUnit s u (fun x => { x with
    phase := .heldOut, used := 0, cmds := 0, held := [], stalled := [], watchdog := none, hold := none, status := [] })
  let d := c / 4
  if (List.range 4).all (fun i => unitGone s (clusterUnit (4 * d + i))) || peUnserved s d then holdOutDie s d
  else
    let s := markReissued s moved
    moved.foldl (fun s sl => sendSlice s (servingUnit s u sl.pos) sl) s

/-- A unit failed its self-test (R358). -/
def selfTestFail (s : State) (u : UAddr) : State :=
  match uLevel u with
  | 0 =>
    if uCore u ≤ 5 then retireCore (modUnit s u (fun x => { x with phase := .retired })) (coreNo u)
    else
      let c := uCluster u
      if uKind u = 6 then holdOutCluster s c
      else if uKind u = 4 then
        let s := retire s u causeSelfTest
        if peUnserved s (c / 4) then holdOutDie s (c / 4)
        else s
      else
        let s := retire s u causeSelfTest
        let kin := (clusterEngines c).filter (fun v => uKind v == uKind u && uCore v == uCore u)
        if kin.all (fun v => unitGone s v) then holdOutCluster s c else s
  | 1 => retireCore s (coreNo u)
  | 2 => holdOutCluster s (uCluster u)
  | 3 => if uDie u ≤ 1 then holdOutDie s (uDie u) else haltPackage (recordFaultAt s u causeSelfTest 5 0 0 0 0)
  | _ => s

/-- A fault held back while the other compute die was out starts its recovery now (R364). -/
def releaseHeldFault (s : State) (d : Nat) : State :=
  if (s.dies.getD d {}).faultHeld then
    recover 6 { s with dies := lmod s.dies d (fun x => { x with faultHeld := false }) } (dieUnit d)
  else s

/-- The next step of a package recovery after die `d` of it is done (R366). -/
def packageNext (s : State) (d : Nat) : State :=
  if s.cp.packageStep = 1 && d = 2 then duskOf { s with cp := { s.cp with packageStep := 2 } } (dieUnit 0)
  else if s.cp.packageStep = 2 && d = 0 then duskOf { s with cp := { s.cp with packageStep := 3 } } (dieUnit 1)
  else if s.cp.packageStep = 3 && d = 1 then
    rejoin { s with cp := { s.cp with packageStep := 0 } } packageUnit
  else s

/-- Page `n` of the soft-buffer pool on die `d` (R255). -/
def poolPage (s : State) (d n : Nat) : Nat := dramBase d + (planOf s).elim 0 (fun p => p.poolAt) + 4096 * n

/-- The soft buffers' pages on the returning die `d` are written afresh from the survivor (R258). -/
def restorePool (s : State) (d : Nat) : State :=
  (s.pool.bufs.flatMap (fun b => b.at_)).foldl (fun s n => copyRange s (poolPage s (1 - d) n) (poolPage s d n) 4096) s

/-- The mirrors that die `d` holds are copied again from the survivor (R258, R281). -/
def restoreMirror (s : State) (d : Nat) : State :=
  restorePool (((mirrorRegions s).filter (fun r => dieOfAddr s (r.mirrorAt.getD 0) == d)).foldl
    (fun s r => copyRange s r.base (r.mirrorAt.getD 0) r.bytes) s) d

/-- The words of step lists, programs and window tables, with their places in each die's DRAM: the part of the sections' bytes that the plan
spells out (log entry 44). -/
def placedWords (p : Plan) : List (Nat × List Byte) :=
  p.lists.map (fun l => (l.copyAt, listBytes l.steps))
    ++ p.programs.map (fun g => (g.copyAt, g.words.flatMap (fun w => bytesLE 8 w.toNat)))
    ++ p.windows.map (fun w => (w.copyAt, w.descs.flatMap (fun x => bytesLE 16 x.toNat)))

/-- The sections of the image at their PLACE on die `d` (R277, R299). -/
def placeSections (s : State) (d : Nat) : State :=
  let put (s : State) (a : Nat) (bs : List Byte) : State :=
    { s with mem := { s.mem with cells := cputs s.mem.cells (dramBase d + a) bs } }
  match s.occ.image with
  | none => s
  | some im =>
    let s := im.sections.foldl (fun s e =>
      let off := bitsOf e 191 128 - (256 + 32 * im.sections.length)
      put s (bitsOf e 34 0) ((im.body.drop off).take (bitsOf e 127 64))) s
    (placedWords im.plan).foldl (fun s w => put s w.1 w.2) s

/-- The image's copy on the returning die `d` is written from the survivor's, section by section (R277, R281). -/
def restoreSections (s : State) (d : Nat) : State :=
  match s.occ.image with
  | none => s
  | some im => im.sections.foldl (fun s e =>
      copyRange s (dramBase (1 - d) + bitsOf e 34 0) (dramBase d + bitsOf e 34 0) (bitsOf e 127 64)) s

/-! ## Commands of spec/01 and their meanings -/

/-- A meaning whose effect is always a next state. -/
abbrev Out := Host.Outcome State Fault Refusal

/-- The package is halted, or held in reset: nothing is issued, fetched or written (R366, R528). -/
def stopped (s : State) : Bool := s.pins.halted || s.pins.porLow || s.pins.perstLow || s.pins.railBad

/-- Apply `f` at time `t`, unless the device is halted or held in reset. -/
def timed (s : State) (t : Time) (f : State → State) : Out :=
  if stopped s then .next (s.atTime t) else .next (f (s.atTime t))

/-- The parent of unit `v` holds a slice whose row of the distribution table gives the child slice `sl` to `unit`, and has not sent it yet
(R28). -/
def distributes (s : State) (v unit : UAddr) (sl : Slice) : Bool :=
  (unitOf s (parentOf v)).held.any (fun p => p.queue == sl.queue && p.seq == sl.seq && (kidsOf s p.pos).contains (sl.pos, unit))
    && !(unitOf s v).held.contains sl && !(unitOf s v).stalled.contains sl && !(unitOf s (parentOf v)).kidsDone.contains sl

/-- UNIT_COMMAND (R17, R18, R28): the package takes slices from the queue engine; every other unit gets the child slices that the
distribution table of a slice its parent holds places on it, or on a unit it stands in for. -/
def execUnitCommand (unit : UAddr) (sl : Slice) (t : Time) (s : State) : Out :=
  timed s t (fun s =>
    let v := servingUnit s unit sl.pos
    if unitValid unit && (unit == packageUnit || distributes s v unit sl) then sendSlice s v sl else s)

/-- A token that arrives at a core sequencer sets the pending bit of the event line that watches its TAG (R230). -/
def dspEvent (s : State) (k tag : Nat) : State :=
  let d := (coreOf s k).dsp
  match d.cmd with
  | none => s
  | some c =>
    let n := (tag + 256 - c.evtag.toNat) % 256
    if n < 8 && bitOf d.evmask n then
      modCore s k (fun x => { x with dsp := { x.dsp with pend := x.dsp.pend ||| BitVec.ofNat 8 (2 ^ n) } })
    else s

/-- A token counts into entry TAG of the receiver's token table (R21, R46); a count that would pass 255 is a protocol fault
of the unit. -/
def countToken (s : State) (dst : UAddr) (tag : Nat) : State :=
  if uLevel dst = 1 || (uLevel dst = 0 && uCore dst ≤ 5) then
    let k := coreNo dst
    let n := (tget (coreOf s k).seq.tokens tag).getD 0
    if 255 ≤ n then
      recover 6 (recordFault s (coreUnit k) causeProtocol (actionFor s (coreUnit k)) 0) (coreUnit k)
    else
      let s := modCore s k (fun c => { c with seq := { c.seq with tokens := tset c.seq.tokens tag (n + 1) } })
      settleDogs (dspEvent s k tag) (coreUnit k)
  else if uLevel dst = 2 || uLevel dst = 0 then
    let k := uCluster dst
    let n := (tget (clusterOf s k).seq.tokens tag).getD 0
    if 255 ≤ n then
      recover 6 (recordFault s (clusterUnit k) causeProtocol (actionFor s (clusterUnit k)) 0) (clusterUnit k)
    else settleDogs (modCluster s k (fun c => { c with seq := { c.seq with tokens := tset c.seq.tokens tag (n + 1) } })) (clusterUnit k)
  else s

/-- A CREDIT token arrives (R18, R20, R22): `src` is the port whose slots freed. -/
def creditArrive (s : State) (dst src : UAddr) (n : Nat) : State :=
  if n = 0 || 16 < n then recordFaultAt s dst causeProtocol 0 0 0 0 0
  else if (unitOf s src).phase ≠ .live || unitGone s src || parentDown s src then s
  else if (unitOf s src).used < n then
    recover 6 (recordFault s src causeProtocol (actionFor s src) 0) src
  else sendStalled 32 (modUnit s src (fun x => { x with used := x.used - n })) src

/-- A slice that ended with SAT marks its item: every user's record, or the one of the slice's user scope (R183). -/
def markSat (s : State) (sl : Slice) : State :=
  let scope := (planOf s).elim none (fun p => (p.scopes.find? (fun x => x.1 == sl.pos)).elim none (fun x => x.2))
  { s with items := s.items.map (fun i =>
      if i.queue = sl.queue.toNat ∧ i.seq = sl.seq.toNat then
        { i with
          sat := true, satAll := i.satAll || scope.isNone
          satUsers := scope.elim i.satUsers (fun n => if i.satUsers.contains n.toNat then i.satUsers else i.satUsers ++ [n.toNat]) }
      else i) }

/-- The lists of the slice at `pos` emit a DONE token; its TAG. -/
def doneTag (s : State) (pos : BitVec 32) : Option (BitVec 8) :=
  (planOf s).elim none (fun p =>
    (((p.lists.filter (fun l => l.pos == pos)).flatMap (fun l => l.steps)).flatMap (fun st => st.emits)).find? (fun e => e.kind == 3)
      |>.map (fun e => e.tag))

/-- Slice `p` of unit `u` is finished (R18, R28, R182, R369): `u` emits its DONE token and returns the slot's credit. The package, which has no
parent, notes when the item's last slice is done. -/
def finishSlice (s : State) (u : UAddr) (p : Slice) : State :=
  let kids := (kidsOf s p.pos).map (fun k => ({ p with pos := k.1 } : Slice))
  let s := modUnit s u (fun y => { y with kidsDone := y.kidsDone.filter (fun k => !kids.contains k && k != p) })
  if uLevel u = 4 then
    let s := if bitOf (sliceStatus s u p) 0 then markSat s p else s
    let left := (unitOf s u).held.erase p
    let s := modUnit s u (fun y => { clearStatus y p with
      held := left, used := y.used - 1, cmds := y.cmds - 1
      watchdog := if left.isEmpty then none else y.watchdog, hold := if left.isEmpty then none else y.hold })
    { s with items := s.items.map (fun i =>
        if i.queue = p.queue.toNat ∧ i.seq = p.seq.toNat ∧ !left.any (fun q => q.queue == p.queue && q.seq == p.seq) then
          { i with doneAt := some s.time.now }
        else i) }
  else freeSlot (sendToken s u (parentOf u) 3 ((doneTag s p.pos).getD 0).toNat p.pos.toNat) u (parentOf u)

/-- `u` emits its DONE only after every child slice of the slice is done (R28), and, where the slice's own lists emit it, after they have. -/
def tryFinish (s : State) (u : UAddr) (p : Slice) : State :=
  let y := unitOf s u
  if (kidsOf s p.pos).all (fun k => y.kidsDone.contains { p with pos := k.1 })
      && ((doneTag s p.pos).isNone || y.kidsDone.contains p) then finishSlice s u p
  else s

/-- The lists of the slice that `u` runs have come to its DONE. -/
def ownDone (s : State) (u : UAddr) : State :=
  match runningSlice s u with
  | none => s
  | some p => tryFinish (modUnit s u (fun y => { y with kidsDone := y.kidsDone ++ [p] })) u p

/-- One token of a step of the list that sequencer `q` holds for `eng` (R45): DONE is the unit's own; a receiver inside the unit that the
plan names lies in the unit that runs the slice. -/
def emitOne (q eng : UAddr) (s : State) (e : Emit) : State :=
  if e.kind = 3 then ownDone s (parentOf q)
  else
    let nom := (planList s q eng).elim (parentOf q) (fun l => parentOf l.seq)
    sendToken s eng (homeOf s (inPlaceOf nom (parentOf q) e.dst)) e.kind.toNat e.tag.toNat e.value.toNat

/-- Step `n` of the list that sequencer `q` holds for `eng` completes and emits its tokens (R45). -/
def finishStep (s : State) (q eng : UAddr) (n : Nat) : State :=
  let x := seqOf s q
  let run := (tget x.running eng.toNat).getD []
  if run.contains n then
    let s := setSeq s q { x with running := tset x.running eng.toNat (run.erase n) }
    ((stepListOf s q eng)[n]?).elim s (fun st => st.emits.foldl (emitOne q eng) s)
  else s

/-- The steps whose command is the child slice at `pos` complete at its DONE (R28, R45): by list, the engine or child and the step. -/
def childSteps (s : State) (u : UAddr) (pos : BitVec 32) : List (UAddr × Nat) :=
  match planOf s, runningSlice s u with
  | some p, some sl =>
    (p.lists.filter (fun l => l.pos == sl.pos && sameEngine l.seq (sequencerOf u))).flatMap (fun l =>
      ((List.range l.steps.length).filter (fun n => ((l.steps[n]?).map (fun st => st.cmd)) == some (.child pos))).map
        (fun n => (listEngine l (sequencerOf u), n)))
  | _, _ => []

/-- A DONE token of child `src` for the slice at `pos` (R28, R29, R45, R182, R360): the child's slice is finished and its next begins, its status
word is ORed into that of the slice it belongs to, the step that sent it completes, and a parent whose children of a slice are all done
emits its own DONE. -/
def doneArrive (s : State) (dst src : UAddr) (pos : BitVec 32) : State :=
  let x := unitOf s src
  match x.held.find? (fun sl => sl.pos == pos) with
  | none => s
  | some sl =>
    let w := sliceStatus s src sl
    let runs := x.held.head? == some sl
    let rest := x.held.erase sl
    let s := if runs then sliceEnd s src else s
    let s := if bitOf w 0 then markSat s sl else s
    let s := modUnit s src (fun x => { clearStatus x sl with
      held := rest, failed := 0, retrying := false
      watchdog := if rest.isEmpty then none else x.watchdog, hold := if rest.isEmpty then none else x.hold })
    let s := match rest with
      | [] => s
      | next :: _ => if runs then sliceStart s src next else s
    let s := modUnit s dst (fun y => { y with kidsDone := y.kidsDone ++ [sl] })
    match (unitOf s dst).held.find? (fun p => p.queue == sl.queue && p.seq == sl.seq && (kidsOf s p.pos).any (fun k => k.1 == pos)) with
    | none => s
    | some p =>
      let s := orStatus s dst p w
      let s := if uLevel dst = 2 then (childSteps s dst pos).foldl (fun s c => finishStep s (sequencerOf dst) c.1 c.2) s else s
      tryFinish s dst p

/-- The record that a FAULT token names is of an uncorrectable read in a mirrored region: where it was read (R282). -/
def mirroredFault (s : State) (n : Nat) : Option Nat :=
  match tget s.faults (n % 256) with
  | none => none
  | some r =>
    let a := r.address % 2 ^ 36
    if r.number = n && r.cause == causeUncorrectable && ((mirrorOf s a).isSome || (workingOf s a).isSome) then some a else none

/-- A FAULT token of child `src` that names record `n` starts that child's Dusk or escalates (R360); an uncorrectable read of a mirrored
region is repaired first (R282), and with a compute die held out it halts the package (R366). -/
def faultArrive (s : State) (src : UAddr) (n : Nat) : State :=
  match mirroredFault s n with
  | none => recover 6 s src
  | some a =>
    if unitGone s (dieUnit 0) || unitGone s (dieUnit 1) then haltPackage s else recover 6 (repairBlock s a) src

/-- What a token does at its receiver `dst` (R22): its KIND decides; a reserved KIND is discarded with a record. -/
def tokenEffect (s : State) (dst : UAddr) (tok : Tok) : State :=
  match tokKind tok with
  | 1 => countToken s dst (tokTag tok)
  | 2 => creditArrive s dst (tokSource tok) (tokValue tok)
  | 3 => doneArrive (countToken s dst (tokTag tok)) dst (tokSource tok) (BitVec.ofNat 32 (tokValue tok))
  | 4 => countToken s dst (tokTag tok)
  | 5 => countToken s dst (tokTag tok)
  | 6 => faultArrive (countToken s dst (tokTag tok)) (tokSource tok) (tokValue tok)
  | _ => recordFaultAt s dst causeProtocol 0 0 0 0 0

/-- The writes that a FENCE waits for have landed (R22). -/
def fenceOpen (s : State) (c : Crossing) : Bool :=
  c.behind.all (fun b => !s.fabric.held.any (fun w => w.dst == b.1 && w.e2e == b.2))

/-- The entry of the crossings that a token arriving at `dst` takes: the first of its path (R23, R37), a FENCE's writes landed (R22). -/
def arriving (s : State) (dst : UAddr) (tok : Tok) : Option Crossing :=
  (s.crossing.find? (samePath { dst := dst, tok := tok, behind := [] })).filter
    (fun c => c.dst == dst && c.tok == tok && fenceOpen s c)

/-- A token arrives at `dst` (R22, R23, R37): the first of its path. The regions of the I/O die have no unit address, and their tokens come as
from the die (R16); a token that no unit sent does not exist. -/
def tokenArrive (s : State) (dst : UAddr) (tok : Tok) : State :=
  match arriving s dst tok with
  | some c => tokenEffect { s with crossing := s.crossing.erase c } dst tok
  | none => if tokSource tok = dieUnit 2 then tokenEffect s dst tok else s

/-- READY_TOKEN (R22). -/
def execReadyToken (dst : UAddr) (tok : Tok) (t : Time) (s : State) : Out := timed s t (fun s => tokenArrive s dst tok)
/-- CREDIT_TOKEN (R18, R20). -/
def execCreditToken (dst : UAddr) (tok : Tok) (t : Time) (s : State) : Out := timed s t (fun s => tokenArrive s dst tok)
/-- DONE_TOKEN (R28). -/
def execDoneToken (dst : UAddr) (tok : Tok) (t : Time) (s : State) : Out := timed s t (fun s => tokenArrive s dst tok)
/-- FENCE_TOKEN (R22): it arrives once every earlier write of its source has landed. -/
def execFenceToken (dst : UAddr) (tok : Tok) (t : Time) (s : State) : Out := timed s t (fun s => tokenArrive s dst tok)
/-- FAULT_TOKEN (R360). -/
def execFaultToken (dst : UAddr) (tok : Tok) (t : Time) (s : State) : Out := timed s t (fun s => tokenArrive s dst tok)

/-- The awaited counts are reached (R45). -/
def awaitMet (tokens : Tbl Nat) (a : List (BitVec 8 × Nat)) : Bool :=
  a.all (fun p => p.2 ≤ (tget tokens p.1.toNat).getD 0)
/-- Starting a step subtracts the awaited counts (R45). -/
def awaitTake (tokens : Tbl Nat) (a : List (BitVec 8 × Nat)) : Tbl Nat :=
  a.foldl (fun t p => tset t p.1.toNat ((tget t p.1.toNat).getD 0 - p.2)) tokens

/-- The ports whose credits a step's command takes: a matrix command one of each array it names (R116), others one of the
engine the list drives. -/
def stepPorts (eng : UAddr) : StepCmd → List UAddr
  | .ma w =>
    let named := (List.range 4).filter (fun i => bitOf w (120 + i))
    if named = [] then [eng] else named.map (fun i => coreEng (coreNo eng) 0 i)
  | _ => [eng]

/-- The engine that runs the commands of a list (R358, R359): a retired CE, GM or LM leaves them to its sibling of the same
kind, a retired PE to the PE of the helper cluster. -/
def engineFor (s : State) (u : UAddr) : UAddr :=
  if uLevel u = 0 && 6 ≤ uCore u && unitGone s u then
    if uKind u = 4 then ((peHelper s (uCluster u)).map (fun h => clusterEng h 7 4 0)).getD u
    else (((clusterEngines (uCluster u)).filter (fun v => uKind v == uKind u && uCore v == uCore u)).find?
      (fun v => !unitGone s v)).getD u
  else u

/-- The tokens left after the awaits of several lists are taken in turn; none where one is not met (R45, R116). -/
def awaitAll : Tbl Nat → List (List (BitVec 8 × Nat)) → Option (Tbl Nat)
  | tokens, [] => some tokens
  | tokens, a :: t => if awaitMet tokens a then awaitAll (awaitTake tokens a) t else none

/-- The next step of the list that `sequencer` holds for `eng`, with its position; its command word as memory holds it (R26). -/
def nextStep (s : State) (sequencer eng : UAddr) : Option (Nat × AStep) :=
  (planList s sequencer eng).bind (fun l =>
    let n := (tget (seqOf s sequencer).started eng.toNat).getD 0
    (l.steps[n]?).map (fun st => (n, { st with cmd := cmdOfBytes st.cmd (stepGot s sequencer l n).bytes })))

/-- The read of that command word, where it is bad (R274). -/
def nextBad (s : State) (sequencer eng : UAddr) : Option Got :=
  ((planList s sequencer eng).map (fun l => stepGot s sequencer l ((tget (seqOf s sequencer).started eng.toNat).getD 0))).filter
    (fun g => g.poisoned || g.uncorrectable)

/-- The unit to which a step sends the child slice at `pos` of the running slice: the one that the distribution table names, or the one that
serves it (R28, R54). -/
def childTarget (s : State) (sequencer : UAddr) (pos : BitVec 32) : Option (UAddr × Slice) :=
  (runningSlice s (parentOf sequencer)).bind (fun sl =>
    ((kidsOf s sl.pos).find? (fun k => k.1 == pos)).map (fun k => (servingUnit s k.2 pos, { sl with pos := pos })))

/-- A list's step `n` is started and runs until its command completes. -/
def markStarted (q : SeqSt) (eng : UAddr) (n : Nat) : SeqSt :=
  { q with
    started := tset q.started eng.toNat (n + 1)
    running := tset q.running eng.toNat ((tget q.running eng.toNat).getD [] ++ [n]) }

/-- One command slot of a port is spent and its watchdog started if it held nothing (R18, R24). -/
def spendCredit (s : State) (u : UAddr) : State :=
  modUnit s u (fun x => { x with
    used := x.used + 1, cmds := x.cmds + 1, watchdog := if x.watchdog.isSome then x.watchdog else some s.time.now })

/-- A credit is held for the command of a step (R45). -/
def stepCredit (s : State) (sequencer : UAddr) (ports : List UAddr) : StepCmd → Bool
  | .child pos => (childTarget s sequencer pos).any (fun c => hasCredit s c.1 && (unitOf s c.1).stalled.isEmpty && turnOf s c.1 c.2)
  | _ => ports.all (fun u => hasCredit s (engineFor s u))

/-- The command of a step is sent: a child slice to the unit that runs it, an engine command by a credit of each port. -/
def stepSend (s : State) (sequencer : UAddr) (ports : List UAddr) : StepCmd → State
  | .child pos => (childTarget s sequencer pos).elim s (fun c => sendSlice s c.1 c.2)
  | _ => (ports.map (engineFor s)).foldl spendCredit s

/-- STEP_START (R44, R45, R116): the next step of the list starts if its counts and credits are there: the counts and one
credit of each port are taken and the step runs until its command completes; a matrix command that names several arrays
starts at the same position of every named array's list. A step that may not start yet leaves the state; a bad read of its command word
stops the sequencer with a fault (R26, R274). -/
def execStepStart (sequencer eng : UAddr) (t : Time) (s : State) : Out :=
  timed s t (fun s =>
    if !(unitValid sequencer && uLevel sequencer == 0 && uKind sequencer == 6 && canRun s sequencer) then s
    else
      match nextBad s sequencer eng, nextStep s sequencer eng with
      | some g, _ => engineFault s sequencer (badCause g) g.at_
      | none, none => s
      | none, some (_, st) =>
        let ports := stepPorts eng st.cmd
        let nexts := ports.filterMap (fun u => (nextStep s sequencer u).map (fun p => (u, p)))
        let same := nexts.length == ports.length && nexts.all (fun p => p.2.2.cmd == st.cmd)
        match awaitAll (seqOf s sequencer).tokens (nexts.map (fun p => p.2.2.await)) with
        | none => s
        | some tokens =>
          if same && stepCredit s sequencer ports st.cmd then
            let q := nexts.foldl (fun q p => markStarted q p.1 p.2.1) { seqOf s sequencer with tokens := tokens }
            let s := stepSend (setSeq s sequencer q) sequencer ports st.cmd
            settleDogs (countUnit s sequencer 0x30 nexts.length) (parentOf sequencer)
          else s)

/-- A command of engine `eng` completes in the list of `sequencer` (R18, R24, R45): its slots free with a CREDIT token each, the
oldest running step of the list leaves, and its tokens are emitted. -/
def completeStep (s : State) (sequencer eng : UAddr) (ports : List UAddr) : State :=
  let s := ports.foldl (fun s u => freeSlot s u sequencer) s
  match (tget (seqOf s sequencer).running eng.toNat).getD [] with
  | [] => s
  | n :: _ => finishStep s sequencer eng n

/-- WATCHDOG_EXPIRY (R24, R354, R360): the unit holds a command and its timeout has run since its last start, the times left out in which its
watchdog does not count. -/
def execWatchdogExpiry (unit : UAddr) (t : Time) (s : State) : Out :=
  timed s t (fun s =>
    match (unitOf s unit).watchdog, (unitOf s unit).hold with
    | none, _ => s
    | some _, some _ => s
    | some w, none =>
      if unitValid unit && w + timeoutOf s unit ≤ s.time.now then
        recover 6 (recordFault s unit causeWatchdog (actionFor s unit) 0) unit
      else s)

/-- UNIT_DAWN (R356 steps 4 to 6, R358): the self-test of a wiped unit passes or fails; a compute die waits for its restore
when the other die can give it one. -/
def execUnitDawn (unit : UAddr) (selfTest : Bool) (t : Time) (s : State) : Out :=
  timed s t (fun s =>
    if !(unitValid unit) || (unitOf s unit).phase ≠ .dusk || uLevel unit = 4 then s
    else if !selfTest then
      let s := selfTestFail s unit
      if uLevel unit = 3 then packageNext s (uDie unit) else s
    else if uLevel unit = 3 && uDie unit ≤ 1 then
      if (planOf s).isSome && !otherDieOut s (uDie unit) then
        let s := modUnit s unit (fun x => { x with phase := .dawn })
        { s with
          dies := lmod s.dies (uDie unit) (fun d => { d with restored := some 0 }) }
      else
        let s := rejoin s unit
        packageNext { s with dies := lmod s.dies (uDie unit) (fun d =>
          { d with restored := none, returnFrom := some (s.time.now + 50000) }) } (uDie unit)
    else
      let s := rejoin s unit
      if uLevel unit = 3 then packageNext s 2 else s)

/-- DIE_RESTORE_COMPLETE (R281, R363): the restore footprint stands on both dies again, the die rejoins, and its slices
return at the first Meridian at least 50 µs later. -/
def execDieRestoreComplete (die : BitVec 1) (t : Time) (s : State) : Out :=
  timed s t (fun s =>
    let d := die.toNat
    let u := dieUnit d
    if (unitOf s u).phase ≠ .dawn then s
    else
      let s := rejoin (restoreMirror (restoreSections s d) d) u
      let s := { s with dies := lmod s.dies d (fun x => { x with restored := none, returnFrom := some (s.time.now + 50000) }) }
      let s := releaseHeldFault s (1 - d)
      packageNext s d)

/-- The unit whose clock an island is (R33). -/
def islandUnit (i : Nat) : UAddr := if i < 48 then coreUnit i else if i < 56 then clusterUnit (i - 48) else dieUnit 2

/-- CLOCK_DROOP (R34, R35): the generator stretches the clock, or, where the droop is beyond it, stops the clock and records
a floor breach. -/
def execClockDroop (island : Nat) (covered : Bool) (t : Time) (s : State) : Out :=
  timed s t (fun s =>
    if 61 ≤ island then s
    else if covered then
      -- R40: droop tracking is off in locked mode
      if s.occ.locked then s
      else { s with islands := tset s.islands island { islandOf s island with stretched := true } }
    -- R35, R43: in locked mode the one clock stops for all islands
    else if (islandOf s island).stopped then s
    else
      let s := { s with islands := tset s.islands island { islandOf s island with stopped := true, since := s.time.now } }
      recordFaultAt s (islandUnit island) causeFloor 0 0 0 0 0)

/-- CLOCK_RESTART (R34, R35, R43): the supply recovers; a stopped island runs again and its floor breach ends (timing event
0x06, event 0x75). -/
def execClockRestart (island : Nat) (t : Time) (s : State) : Out :=
  timed s t (fun s =>
    if 61 ≤ island then s
    else
      let i := islandOf s island
      let s := { s with islands := tset s.islands island { i with stopped := false, stretched := false } }
      if i.stopped then
        let d := s.time.now - i.since
        countEvent (timingEvent s 6 (islandUnit island) d) 0x3800 0x75 0 d
      else s)

end Sys2Proof.Machine
end

