-- ==== Sys2Proof/Machine/Control.lean ====
section
/-! DEFINITION. Machine/Control.lean: how object requests land and are answered (R438 to R446), the control block (R453, R454, R439, R317) and accesses of any master to local and fabric
addresses (R262 to R265, R280). -/

namespace Sys2Proof.Machine

/-- The device's own number (R392). -/
def devnum (s : State) : Nat := s.pins.devnum.toNat

/-- The object window lies in the control block at offset 0x1000 (R439, R453). -/
def windowBase : Nat := controlBase + 0x1000

/-! ## Abort codes (R445) -/

def abUnknownOpcode : Nat := 1
def abUnknownObject : Nat := 2
def abUnknownSub : Nat := 3
def abAccess : Nat := 4
def abLength : Nat := 5
def abRange : Nat := 6
def abState : Nat := 7
def abBusy : Nat := 8
def abUnknownUnit : Nat := 9
def abSelector : Nat := 10
def abLimit : Nat := 11
def abLifecycle : Nat := 12

/-! ## Frames and answers (R438 to R443) -/

/-- A transport carries numbers most significant byte first (R10, R440, R441). -/
def bigEndian : Requester → Bool
  | .pcie => false
  | _ => true

/-- A number of `n` bytes in a transport's byte order. -/
def numBytes (who : Requester) (n v : Nat) : List Byte := if bigEndian who then bytesBE n v else bytesLE n v
/-- A number that a transport's bytes spell. -/
def numOf (who : Requester) (bs : List Byte) : Nat := if bigEndian who then ofBytesBE bs else ofBytesLE bs

/-- A response frame (R443). -/
def respFrame (who : Requester) (op idx sub abort : Nat) (tid : BitVec 32) (payload : List Byte) : List Byte :=
  numBytes who 16 ((op + 0x80) % 256 * 2 ^ 120 + idx % 65536 * 2 ^ 104 + sub % 256 * 2 ^ 96 + abort % 65536 * 2 ^ 80
    + payload.length % 2 ^ 32 * 2 ^ 32 + tid.toNat) ++ payload

/-- A management request's entry of the last 64 requests of its source gets its response. -/
def keepResponse (xs : List (Nat × BitVec 16 × BitVec 32 × Time × List Byte)) (a : Nat) (p : BitVec 16) (tid : BitVec 32)
    (t : Time) (f : List Byte) : List (Nat × BitVec 16 × BitVec 32 × Time × List Byte) :=
  let open_ (x : Nat × BitVec 16 × BitVec 32 × Time × List Byte) : Bool := x.1 == a && x.2.1 == p && x.2.2.1 == tid && x.2.2.2.2.isEmpty
  match xs.findIdx? open_ with
  | some i => lmod xs i (fun x => (x.1, x.2.1, x.2.2.1, x.2.2.2.1, f))
  | none => xs ++ [(a, p, tid, t, f)]

/-- The response frame of a request leaves by its transport: over PCI Express into the window, with DONE set and OBJ_VECTOR
raised; over a management port whose link is down not at all (R487). -/
def answer (s : State) (req : ObjReq) (abort : Nat) (payload : List Byte) : State :=
  let f := respFrame req.who req.opcode.toNat req.index.toNat req.sub.toNat abort req.tid (if abort = 0 then payload else [])
  match req.who with
  | .pcie =>
    let s := { s with
      mem := { s.mem with cells := cputs s.mem.cells windowBase f }
      obj := { s.obj with busy := false, done := true } }
    raiseVector s (rwVal s 0x1021 0 0xFFFF)
  | .sideband _ => s.emit (.response req.who f)
  | .mgmt a p =>
    let s := { s with obj := { s.obj with recent := keepResponse s.obj.recent a p req.tid s.time.now f } }
    if s.bus.mgmtUp then s.emit (.response req.who f) else s

/-! ## Who serves (R446, R50, R365) -/

/-- The requests that need the control processor. -/
def needsCp (req : ObjReq) : Bool :=
  let i := req.index.toNat
  req.opcode = 5 || req.opcode = 6 || (req.opcode = 2 && i = 0x1401 && req.sub = 1) || (req.opcode = 2 && i = 0x1400 && req.sub = 4)
    || (0x1100 ≤ i && i < 0x1200) || i = 0x1223 || i = 0x1407 || i = 0x1225 || i = 0x1405

/-- The request is aborted with BUSY before it is examined. -/
def isBusy (s : State) (req : ObjReq) : Bool :=
  (unitOf s (dieUnit 2)).phase != .live || (s.cp.restarting && needsCp req)

/-- A request lands: one that must be turned away with BUSY is answered at once (R50, R365). -/
def landReq (s : State) (req : ObjReq) : State :=
  if isBusy s req then answer s req abBusy [] else { s with obj := { s.obj with landed := s.obj.landed ++ [req] } }

/-! ## The object window -/

/-- The request that a frame spells, its header already read as a number in its transport's byte order (R443). -/
def requestOf (who : Requester) (h : BitVec 128) (payload : List Byte) : ObjReq :=
  { who := who, opcode := BitVec.ofNat 8 (bitsOf h 127 120), index := BitVec.ofNat 16 (bitsOf h 119 104),
    sub := BitVec.ofNat 8 (bitsOf h 103 96), view := bitOf h 64, tid := BitVec.ofNat 32 (bitsOf h 31 0), payload := payload }

/-- GO written (R439): the request in the window lands, or, while one is being served, OVERRUN is set. A payload beyond the
limit of R442 is kept one byte too long, so that it is refused when served. -/
def objGo (s : State) : State :=
  if s.obj.busy then { s with obj := { s.obj with overrun := true } }
  else
    let h : BitVec 128 := BitVec.ofNat 128 (ofBytesLE (cgets s.mem.cells windowBase 16))
    let req := requestOf .pcie h (cgets s.mem.cells (windowBase + 16) (min (bitsOf h 63 32) 4081))
    landReq { s with obj := { s.obj with busy := true } } req

def objDoneClear (s : State) : State := { s with obj := { s.obj with done := false } }
def objOverrunClear (s : State) : State := { s with obj := { s.obj with overrun := false } }

/-- A write of `v` to bits [2:0] of OBJ_CTRL (R439). -/
def writeObjCtrl (s : State) (v : Nat) : State :=
  let s := if v.testBit 1 then objDoneClear s else s
  let s := if v.testBit 2 then objOverrunClear s else s
  if v.testBit 0 then objGo s else s

/-- The value that OBJ_CTRL reads. -/
def readObjCtrl (s : State) : Nat :=
  (if s.obj.busy then 1 else 0) + (if s.obj.done then 2 else 0) + (if s.obj.overrun then 4 else 0)

/-! ## Registers of the control block (R453) -/

/-- What an offset of the control block holds. -/
inductive CtlReg where
  | objCtrl
  | bar4Select
  | window
  | doorbell (q : Nat)
  | msix (v : Nat)
  | pba
  | reserved
deriving DecidableEq, Repr

def ctlRegOf (off : Nat) : CtlReg :=
  if off < 8 then .objCtrl
  else if off < 16 then .bar4Select
  else if 0x1000 ≤ off ∧ off < 0x2000 then .window
  else if 0x100000 ≤ off ∧ off < 0x108000 then .doorbell ((off - 0x100000) / 8)
  else if 0x200000 ≤ off ∧ off < 0x208000 then .msix ((off - 0x200000) / 16)
  else if 0x210000 ≤ off ∧ off < 0x210100 then .pba
  else .reserved

/-- Registers accept aligned accesses of 4 and 8 bytes. -/
def ctlAligned (off n : Nat) : Bool := (n == 4 || n == 8) && off % n == 0

/-- `v` with the `n` bytes at byte offset `k` replaced. -/
def mergeBytes (v k : Nat) (bs : List Byte) : Nat :=
  let low := v % 2 ^ (8 * k)
  let high := v / 2 ^ (8 * (k + bs.length))
  low + ofBytesLE bs * 2 ^ (8 * k) + high * 2 ^ (8 * (k + bs.length))

/-- A write of `bs` at offset `off` of the control block by `master`. -/
def ctlWrite (s : State) (master : UAddr) (off : Nat) (bs : List Byte) : State :=
  let ok := ctlAligned off bs.length
  match ctlRegOf off with
  | .window =>
    { s with mem := { s.mem with cells := cputs s.mem.cells (controlBase + off) (bs.take (0x2000 - off)) } }
  | .objCtrl => if ok && off = 0 then writeObjCtrl s (ofBytesLE bs) else s
  | .bar4Select => if ok && off = 8 then { s with pcie := { s.pcie with bar4 := BitVec.ofNat 6 (ofBytesLE bs) } } else s
  | .doorbell q => if ok && off % 8 = 0 then liveDoorbell s q (ofBytesLE (bs.take 4)) else s
  | .msix v =>
    if ok then
      let w := mergeBytes (msixEntry s v).toNat (off % 16) bs
      drainVectors { s with pcie := { s.pcie with msixTable := tset s.pcie.msixTable v (BitVec.ofNat 128 w) } }
    else s
  | .pba => s
  | .reserved => dropWrite s master (controlBase + off)

/-- The value of the pending bits of the 8-byte group `g` of the pending bit array. -/
def pbaGroup (s : State) (g : Nat) : Nat :=
  ((List.range 64).filter (fun i => s.pcie.msixPending.contains (64 * g + i))).foldl (fun n i => n + 2 ^ i) 0

/-- A read of `n` bytes at offset `off` of the control block: a register read that is not aligned reads zero, a doorbell reads
the held TAIL. -/
def ctlRead (s : State) (off n : Nat) : List Byte :=
  let ok := ctlAligned off n
  let reg (v : Nat) : List Byte := if ok then bytesLE n (v / 2 ^ (8 * (off % 8))) else List.replicate n 0
  match ctlRegOf off with
  | .window => (cgets s.mem.cells (controlBase + off) (min n (0x2000 - off))) ++ List.replicate (n - (0x2000 - off)) 0
  | .objCtrl => reg (readObjCtrl s)
  | .bar4Select => reg s.pcie.bar4.toNat
  | .doorbell q => reg ((queueOf s q).tail % 2 ^ 32)
  | .msix v => if ok then bytesLE n ((msixEntry s v).toNat / 2 ^ (8 * (off % 16))) else List.replicate n 0
  | .pba => reg (pbaGroup s ((off - 0x210000) / 8))
  | .reserved => List.replicate n 0

/-! ## Accesses by local address (R263, R265, R280) -/

/-- A write at a local address: the control block's registers, or memory. -/
def busWrite (s : State) (master : UAddr) (a : Nat) (bs : List Byte) (mirror : Bool) : State :=
  if bs = [] then s
  else if placeOf s a = .control then ctlWrite s master (a - controlBase) bs
  else writeLocal s master a bs mirror

/-- A read at a local address. -/
def busRead (s : State) (a n : Nat) : Got :=
  if n ≠ 0 ∧ placeOf s a = .control then
    { bytes := ctlRead s (a - controlBase) n, poisoned := false, uncorrectable := false, at_ := a }
  else readLocal s a n

/-- A route to device `d` exists (R264, R395). -/
def routeTo (s : State) (d : Nat) : Option Route :=
  if s.fabric.duplicates.contains d then none else s.fabric.routes.find? (fun r => r.dev == d)

end Sys2Proof.Machine
end

