-- ==== Sys2Proof/Machine/Num.lean ====
section
/-! DEFINITION. Machine/Num.lean: the number formats of the Q48, exact values, rounding, conversion and QB blocks
(spec/06_number_formats.md). -/

namespace Sys2Proof.Machine

/-- A rounding mode (R177); stochastic carries the 24-bit draw of R179. -/
inductive Rnd where
  | rne
  | rtz
  | sto (draw : Nat)
deriving DecidableEq, Repr

/-- Bits per element of a format code (R95, R170). -/
def fmtBits : Nat → Nat
  | 1 => 4
  | 2 => 8
  | 3 => 16
  | 4 => 8
  | 5 => 8
  | 6 => 16
  | 7 => 16
  | 8 => 32
  | _ => 0

def isInt (f : Nat) : Bool := 1 ≤ f && f ≤ 3
def isFloat (f : Nat) : Bool := 4 ≤ f && f ≤ 8
def isQB (f : Nat) : Bool := f == 9 || f == 10

/-- Exponent bits, fraction bits and bias of a floating-point format (R172). -/
def expBits : Nat → Nat
  | 4 => 4
  | 5 => 5
  | 6 => 5
  | _ => 8
def fracBits : Nat → Nat
  | 4 => 3
  | 5 => 2
  | 6 => 10
  | 7 => 7
  | _ => 23
def biasOf (f : Nat) : Nat := 2 ^ (expBits f - 1) - 1

/-- Canonical NaN (R172). -/
def nanBits : Nat → Nat
  | 4 => 0x7F
  | 5 => 0x7E
  | 6 => 0x7E00
  | 7 => 0x7FC0
  | _ => 0x7FC00000

/-- Largest finite magnitude as bits (R172). -/
def maxBits : Nat → Nat
  | 4 => 0x7E
  | 5 => 0x7B
  | 6 => 0x7BFF
  | 7 => 0x7F7F
  | _ => 0x7F7FFFFF

/-- The largest integer of an integer format (R171). -/
def intMax (f : Nat) : Int := (2 : Int) ^ (fmtBits f - 1) - 1
def intMin (f : Nat) : Int := -((2 : Int) ^ (fmtBits f - 1))

def ofInt (i : Int) : Val := .fin (i < 0) i.natAbs 0
def zeroVal : Val := .fin false 0 0
def negZero : Val := .fin true 0 0
def oneVal : Val := .fin false 1 0

/-- The value of `bits` in floating-point format `f` (R172, R173). -/
def floatVal (f bits : Nat) : Val :=
  let fb := fracBits f
  let eb := expBits f
  let neg := bits.testBit (fb + eb)
  let frac := bits % 2 ^ fb
  let ex := bits / 2 ^ fb % 2 ^ eb
  if f = 4 then
    if ex = 15 ∧ frac = 7 then .nan
    else if ex = 0 then .fin neg frac (1 - 7 - 3) else .fin neg (frac + 8) ((ex : Int) - 7 - 3)
  else if ex = 2 ^ eb - 1 then (if frac = 0 then .inf neg else .nan)
  else if ex = 0 then .fin neg frac (1 - (biasOf f : Int) - fb)
  else .fin neg (frac + 2 ^ fb) ((ex : Int) - biasOf f - fb)

/-- The value of an element's bits (R170). -/
def elemVal (f bits : Nat) : Val :=
  if isInt f then ofInt (signedOf (fmtBits f) bits) else floatVal f bits

/-- Index of the highest set bit of `m`, for `m` > 0. -/
def topBit (m : Nat) : Nat := Nat.log2 m

/-- `m × 2^e` divided by `2^q`: the floor, the remainder and the divisor of the remainder. -/
def splitAt2 (m : Nat) (e q : Int) : Nat × Nat × Nat :=
  if q ≤ e then (m * 2 ^ (e - q).toNat, 0, 1)
  else
    let d := 2 ^ (q - e).toNat
    (m / d, m % d, d)

/-- Round the quotient `k` + `r` / `d` (0 ≤ r < d) to an integer in mode `mode` (R177, R178). -/
def roundQ (mode : Rnd) (k r d : Nat) : Nat :=
  match mode with
  | .rne => if 2 * r < d then k else if d < 2 * r then k + 1 else if k % 2 = 0 then k else k + 1
  | .rtz => k
  | .sto draw => if r = 0 then k else if draw < r * 2 ^ 24 / d then k + 1 else k

/-- The magnitude m × 2^e rounded to format `f` with an exponent range unbounded above: mantissa and exponent (R177). -/
def roundMag (f : Nat) (mode : Rnd) (m : Nat) (e : Int) : Nat × Int :=
  if m = 0 then (0, 0)
  else
    let fb : Int := fracBits f
    let q := max ((topBit m : Int) + e - fb) (1 - (biasOf f : Int) - fb)
    let (k, r, d) := splitAt2 m e q
    (roundQ mode k r d, q)

/-- m × 2^e exceeds the largest finite magnitude of `f`. -/
def beyondMax (f m : Nat) (e : Int) : Bool :=
  match floatVal f (maxBits f) with
  | .fin _ mm me => if me ≤ e then decide (mm < m * 2 ^ (e - me).toNat) else decide (mm * 2 ^ (me - e).toNat < m)
  | _ => false

/-- The bits of a magnitude that format `f` represents. -/
def packMag (f : Nat) (neg : Bool) (m : Nat) (e : Int) : Nat :=
  let fb := fracBits f
  let sign := if neg then 2 ^ (fb + expBits f) else 0
  if m = 0 then sign
  else
    let q := max ((topBit m : Int) + e - fb) (1 - (biasOf f : Int) - fb)
    let k := (splitAt2 m e q).1
    if k < 2 ^ fb then sign + k
    else sign + ((q + biasOf f + fb).toNat * 2 ^ fb + (k - 2 ^ fb))

def infBits (f : Nat) (neg : Bool) : Nat :=
  (if neg then 2 ^ (fracBits f + expBits f) else 0) + (2 ^ expBits f - 1) * 2 ^ fracBits f

/-- A conversion to floating-point format `f` (R180, R181): bits, and whether the sticky flag is set. -/
def convFloat (f : Nat) (mode : Rnd) : Val → Nat × Bool
  | .nan => (nanBits f, false)
  | .inf neg => if f = 4 then (packMag f neg 7 6, true) else (infBits f neg, false)
  | .fin neg m e =>
    let (k, q) := roundMag f mode m e
    if beyondMax f k q then ((if neg then 2 ^ (fracBits f + expBits f) else 0) + maxBits f, true)
    else (packMag f neg k q, false)

/-- A finite value rounded to an integer (R177). -/
def roundInt (mode : Rnd) (neg : Bool) (m : Nat) (e : Int) : Int :=
  let (k, r, d) := splitAt2 m e 0
  let n := roundQ mode k r d
  if neg then -(n : Int) else n

/-- A conversion to integer format `f` (R180, R181): the integer, and the flag. -/
def convInt (f : Nat) (mode : Rnd) : Val → Int × Bool
  | .nan => (0, true)
  | .inf neg => (if neg then intMin f else intMax f, true)
  | .fin neg m e =>
    let i := roundInt mode neg m e
    (clampInt (intMin f) (intMax f) i, decide (i < intMin f) || decide (intMax f < i))

/-- A conversion to element format `f` (R180): bits and flag. -/
def convElem (f : Nat) (mode : Rnd) (v : Val) : Nat × Bool :=
  if isInt f then
    let (i, b) := convInt f mode v
    (patternOf (fmtBits f) i, b)
  else convFloat f mode v

/-! ## Exact arithmetic (R98 to R100, R131) -/

def Val.neg : Val → Val
  | .fin s m e => .fin (!s) m e
  | .inf s => .inf (!s)
  | .nan => .nan

def Val.isNeg : Val → Bool
  | .fin s _ _ => s
  | .inf s => s
  | .nan => false

def Val.isZero : Val → Bool
  | .fin _ m _ => m == 0
  | _ => false

def Val.isFin : Val → Bool
  | .fin _ _ _ => true
  | _ => false

/-- The exact product; an infinity multiplied by zero gives NaN (R100). -/
def Val.mul : Val → Val → Val
  | .nan, _ => .nan
  | _, .nan => .nan
  | .inf s, .fin t m _ => if m = 0 then .nan else .inf (s != t)
  | .fin s m _, .inf t => if m = 0 then .nan else .inf (s != t)
  | .inf s, .inf t => .inf (s != t)
  | .fin s m e, .fin t n g => .fin (s != t) (m * n) (e + g)

/-- The exact sum; −0 + −0 is −0 and every other sum of zeros is +0; infinities of opposite sign give NaN (R100). -/
def Val.add : Val → Val → Val
  | .nan, _ => .nan
  | _, .nan => .nan
  | .inf s, .inf t => if s = t then .inf s else .nan
  | .inf s, _ => .inf s
  | _, .inf t => .inf t
  | .fin s m e, .fin t n g =>
    if m = 0 ∧ n = 0 then .fin (s && t) 0 0
    else
      let q := min e g
      let a : Int := (m * 2 ^ (e - q).toNat : Nat)
      let b : Int := (n * 2 ^ (g - q).toNat : Nat)
      let c := (if s then -a else a) + (if t then -b else b)
      if c = 0 then .fin false 0 0 else .fin (c < 0) c.natAbs q

/-- x < y on the extended reals; false with a NaN. -/
def Val.lt : Val → Val → Bool
  | .nan, _ => false
  | _, .nan => false
  | .inf s, .inf t => s && !t
  | .inf s, .fin _ _ _ => s
  | .fin _ _ _, .inf t => !t
  | .fin s m e, .fin t n g =>
    let q := min e g
    let a : Int := (m * 2 ^ (e - q).toNat : Nat)
    let b : Int := (n * 2 ^ (g - q).toNat : Nat)
    decide ((if s then -a else a) < (if t then -b else b))

/-- Rounding of an arithmetic step to operation format `f` (R98, R130, R131): to nearest, ties to even; a finite value
beyond the range overflows to infinity, INT16 saturates; either sets the flag (R101, R132). -/
def arith (f : Nat) : Val → Val × Bool
  | .nan => (.nan, false)
  | .inf s => (.inf s, false)
  | .fin s m e =>
    if isInt f then
      let (i, b) := convInt f .rne (.fin s m e)
      (ofInt i, b)
    else
      let (k, q) := roundMag f .rne m e
      if beyondMax f k q then (.inf s, true) else (.fin s k q, false)

/-- A value converted on entry to operation format `f` (R130). -/
def enter (f : Nat) (v : Val) : Val × Bool :=
  let (b, sat) := convElem f .rne v
  (elemVal f b, sat)

/-- MIN and MAX of R131. -/
def Val.minv (a b : Val) : Val :=
  if a = .nan ∨ b = .nan then .nan
  else if a.isZero && b.isZero then (if a.isNeg || b.isNeg then negZero else zeroVal)
  else if b.lt a then b else a
def Val.maxv (a b : Val) : Val :=
  if a = .nan ∨ b = .nan then .nan
  else if a.isZero && b.isZero then (if a.isNeg && b.isNeg then negZero else zeroVal)
  else if a.lt b then b else a

def Val.absv : Val → Val
  | .fin _ m e => .fin false m e
  | .inf _ => .inf false
  | .nan => .nan

/-! ## Stochastic rounding (R179) -/

def mix64 (z : BitVec 64) : BitVec 64 :=
  let z := (z ^^^ (z >>> 30)) * 0xBF58476D1CE4E5B9#64
  let z := (z ^^^ (z >>> 27)) * 0x94D049BB133111EB#64
  z ^^^ (z >>> 31)

/-- The key of a vector command: image salt, queue, sequence number, Almanac position, step position. -/
def stoKey (salt : BitVec 64) (queue seq pos step : Nat) : BitVec 64 :=
  let k := mix64 (salt ^^^ (BitVec.ofNat 64 queue <<< 32) ^^^ BitVec.ofNat 64 seq)
  mix64 (k ^^^ (BitVec.ofNat 64 pos <<< 12) ^^^ BitVec.ofNat 64 step)

def stoDraw (key : BitVec 64) (e : Nat) : Nat := (mix64 (key + BitVec.ofNat 64 (e + 1) * 0x9E3779B97F4A7C15#64) >>> 40).toNat

/-! ## Elements in memory (R97, R128) -/

/-- Element `i` of a row of bytes in format `f` (not QB). -/
def elemAt (f : Nat) (row : List Byte) (i : Nat) : Nat :=
  match fmtBits f with
  | 4 => (row.getD (i / 2) 0).toNat / (if i % 2 = 0 then 1 else 16) % 16
  | 8 => (row.getD i 0).toNat
  | 16 => ofBytesLE [row.getD (2 * i) 0, row.getD (2 * i + 1) 0]
  | _ => ofBytesLE [row.getD (4 * i) 0, row.getD (4 * i + 1) 0, row.getD (4 * i + 2) 0, row.getD (4 * i + 3) 0]

/-- Bytes that `n` elements of format `f` take. -/
def elemBytes (f n : Nat) : Nat := (fmtBits f * n + 7) / 8

/-- The INT4 pairs of R97: element 2i in bits [3:0]. -/
def packNibbles : List Nat → List Byte
  | [] => []
  | [a] => [BitVec.ofNat 8 (a % 16)]
  | a :: b :: t => BitVec.ofNat 8 (a % 16 + 16 * (b % 16)) :: packNibbles t

/-- Elements as bytes (R97). -/
def packElems (f : Nat) (xs : List Nat) : List Byte :=
  if fmtBits f = 4 then packNibbles xs else xs.flatMap (fun x => bytesLE (fmtBits f / 8) x)

/-! ## QB blocks (R174 to R176) -/

/-- Mantissa bits of a QB format. -/
def qbM (f : Nat) : Nat := if f = 9 then 9 else 12
/-- Bytes of a QB block. -/
def qbBytes (f : Nat) : Nat := if f = 9 then 40 else 52

/-- The 32 parts of a QB block (R175). -/
def qbVals (f : Nat) (bs : List Byte) : List Val :=
  let w := ofBytesLE bs
  let ex := signedOf 8 (w / 2 ^ 24 % 256)
  (List.range 32).map (fun j =>
    if w.testBit 23 then zeroVal
    else
      let m := signedOf (qbM f) (w / 2 ^ (32 + qbM f * j) % 2 ^ qbM f)
      .fin (m < 0) m.natAbs ex)

/-- rne(x / 2^ex) of a finite part. -/
def qbMant (ex : Int) : Val → Int
  | .fin s m e => roundInt .rne s m (e - ex)
  | _ => 0

/-- Step 1 of R176: a NaN part becomes 0, an infinite part the largest finite FP32 magnitude; either sets the flag. -/
def qbPart : Val → Val × Bool
  | .nan => (zeroVal, true)
  | .inf s => (.fin s 0xFFFFFF 104, true)
  | v => (v, false)

/-- Form a QB block from 32 parts (R176): bytes and flag. -/
def qbForm (f : Nat) (parts : List Val) : List Byte × Bool :=
  let ps := parts.map qbPart
  let vs := ps.map (fun p => p.1)
  let sat := ps.any (fun p => p.2)
  let lim : Int := (2 : Int) ^ (qbM f - 1) - 1
  let zero := bytesLE (qbBytes f) (2 ^ 23)
  if vs.all (fun v => v.isZero) then (zero, sat)
  else
    let cand := (List.range 256).map (fun (i : Nat) => (i : Int) - 128)
    let ex := (cand.find? (fun ex => vs.all (fun v => decide ((qbMant ex v).natAbs ≤ lim.natAbs)))).getD 127
    let ms := vs.map (qbMant ex)
    if ms.all (fun m => m = 0) then (zero, sat)
    else
      let body := (List.range 32).foldl (fun acc j => acc + patternOf (qbM f) (ms.getD j 0) * 2 ^ (32 + qbM f * j)) 0
      (bytesLE (qbBytes f) (patternOf 8 ex * 2 ^ 24 + body), sat)

end Sys2Proof.Machine
end

