-- ==== Sys2Proof/Machine/Narrow.lean ====
section
/-! DEFINITION. Machine/Narrow.lean: link narrowing: exponents, encoding and rebuilding of a transfer (R185 to R201 of
spec/06_number_formats.md). -/

namespace Sys2Proof.Machine

/-! ## Descriptors (R186) -/

def ndTensor (d : BitVec 128) : Nat := bitsOf d 127 112
def ndIq (d : BitVec 128) : Bool := bitsOf d 111 110 == 1
def ndAsym (d : BitVec 128) : Bool := bitOf d 109
def ndHeadroom (d : BitVec 128) : Nat := bitsOf d 108 106
def ndInit (d : BitVec 128) : Int := signedOf 8 (bitsOf d 105 98)
def ndLimit (d : BitVec 128) : Nat := bitsOf d 97 86
def ndChannels (d : BitVec 128) : Nat := bitsOf d 85 79
def ndFmt (d : BitVec 128) : Nat := bitsOf d 78 75
def ndOutlier (d : BitVec 128) (c : Nat) : Bool := bitOf d c

/-- The ranges of R187 that concern one descriptor. -/
def narrowOk (d : BitVec 128) : Bool :=
  ndTensor d == 0 ||
    (bitsOf d 74 64 == 0 &&
      (if ndIq d then !ndAsym d && bitsOf d 63 0 == 0 && isQB (ndFmt d) && ndChannels d ≤ 64
       else bitsOf d 111 110 == 2 && isFloat (ndFmt d) && ndChannels d ≤ 64
         && (List.range 64).all (fun c => !ndOutlier d c || decide (c < ndChannels d))))

/-! ## Exponents (R188) -/

/-- `v` is at most `w`. -/
def Val.le (v w : Val) : Bool := !(w.lt v)

/-- The smallest integer `s` with `v` ≤ `k` × 2^(s − H), for a positive `v` and `k` 127 or 255: 2^t ≤ v < 2^(t + 1) leaves two. -/
def smallestExp (v : Val) (k h : Nat) : Int :=
  match v with
  | .fin _ m e =>
    let s := e + (topBit m : Int) - (topBit k : Int) + (h : Int)
    if v.le (.fin false k (s - h)) then s else s + 1
  | _ => 0

def limitExp (s : Int) : Int := clampInt (-128) 127 s

/-- rne(x / 2^s) of a finite value. -/
def scaled (s : Int) : Val → Int
  | .fin neg m e => roundInt .rne neg m (e - s)
  | _ => 0

/-- The exponent and zero point of one channel or stream, from its statistics of the previous transfer; the exponent is limited last. -/
def channelScale (d : BitVec 128) (st : Option (Val × Val × Val)) : Int × Int :=
  match st with
  | none => (limitExp (ndInit d), 0)
  | some (a, lo, hi) =>
    let range := hi.add lo.neg
    if a.isZero || (ndAsym d && range.isZero) then (limitExp (ndInit d), 0)
    else if ndAsym d then
      let s := smallestExp range 255 (ndHeadroom d)
      (limitExp s, clampInt (-32768) 32767 (-128 - scaled s lo))
    else (limitExp (smallestExp a 127 (ndHeadroom d)), 0)

/-- The channels, or streams, that a descriptor codes: outlier channels left out. -/
def coded (d : BitVec 128) : List Nat := (List.range (ndChannels d)).filter (fun c => !ndOutlier d c)
def outliers (d : BitVec 128) : List Nat := (List.range (ndChannels d)).filter (fun c => ndOutlier d c)

def scalesOf (d : BitVec 128) (prev : Option NarrowMeas) : List (Int × Int) :=
  (List.range (ndChannels d)).map (fun c => channelScale d (prev.elim none (fun m => m.stats.getD c none)))

/-- The scale record (R190): one byte per channel, then under ASYM one zero point of 16 bits each. -/
def scaleRecord (d : BitVec 128) (sc : List (Int × Int)) : List Byte :=
  sc.map (fun p => BitVec.ofNat 8 (patternOf 8 p.1)) ++
    (if ndAsym d then sc.flatMap (fun p => bytesLE 2 (patternOf 16 p.2)) else [])

/-! ## Measurements (R188, R201) -/

/-- A value as FP32 bits. -/
def fp32Bits (v : Val) : BitVec 32 := BitVec.ofNat 32 (convFloat 8 .rne v).1

/-- One more value of a channel: largest magnitude, smallest, largest; NaN and infinite values are left out. -/
def measure (st : Option (Val × Val × Val)) (v : Val) : Option (Val × Val × Val) :=
  if !v.isFin then st
  else
    match st with
    | none => some (v.absv, v, v)
    | some (a, lo, hi) => some (a.maxv v.absv, lo.minv v, hi.maxv v)

def statsOf (vs : List Val) : Option (Val × Val × Val) := vs.foldl measure none

/-- One FP32 step rounded to nearest even. -/
def step32 (v : Val) : Val := (arith 8 v).1

/-- The FP32 sum of squares of `xs`, every step rounded. -/
def sumSquares (xs : List Val) : Val := xs.foldl (fun acc x => step32 (acc.add (step32 (x.mul x)))) zeroVal

/-- The error and signal sums of R199 for values and what the receiver holds. -/
def errSig (xs ys : List Val) : Val × Val :=
  (sumSquares ((xs.zip ys).map (fun p => step32 (p.1.add p.2.neg))), sumSquares xs)

/-! ## IQ blocks (R191 to R194) -/

/-- The side entry of an escaped part: the smallest S that makes it exact (R192). -/
def sideEntry (s : Int) (v : Val) : Option Nat :=
  ((List.range 16).filterMap (fun (k : Nat) =>
    let q : Int := s + (k : Int) - 4
    match v with
    | .fin neg m e =>
      let (i, r, _) := splitAt2 m e q
      let x : Int := if neg then -(i : Int) else i
      if r = 0 ∧ -2048 ≤ x ∧ x ≤ 2047 then some (k * 4096 + patternOf 12 x) else none
    | _ => none)).head?

/-- What coding a block gives: bytes, values at the receiver, escapes, wide. -/
structure CodedIq where
  bytes : List Byte
  recv : List Val
  escapes : Nat
  wide : Bool
deriving DecidableEq, Repr

/-- One 16-sample block of a stream with exponent `s` (R191 to R193). -/
def encodeIq (f : Nat) (s : Int) (src : List Byte) : CodedIq :=
  let parts := qbVals f src
  if parts.all Val.isZero then { bytes := [BitVec.ofNat 8 64], recv := parts, escapes := 0, wide := false }
  else
    let codes := parts.map (scaled s)
    let fits (c : Int) : Bool := decide (-127 ≤ c) && decide (c ≤ 127)
    let esc := (parts.zip codes).filter (fun p => !fits p.2)
    let sides := esc.map (fun p => sideEntry s p.1)
    if 4 < esc.length || sides.any (fun x => x.isNone) then
      { bytes := [BitVec.ofNat 8 128] ++ src, recv := parts, escapes := 0, wide := true }
    else
      { bytes := [BitVec.ofNat 8 (esc.length * 8)]
          ++ codes.map (fun c => BitVec.ofNat 8 (if fits c then patternOf 8 c else 128))
          ++ sides.flatMap (fun x => bytesLE 2 (x.getD 0))
        recv := (parts.zip codes).map (fun p =>
          if fits p.2 then .fin (decide (p.2 < 0)) p.2.natAbs s else p.1)
        escapes := esc.length, wide := false }

/-- The value of a side entry (R192). -/
def sideVal (s : Int) (w : Nat) : Val :=
  let m := signedOf 12 (w % 4096)
  .fin (decide (m < 0)) m.natAbs (s + ((w / 4096 % 16 : Nat) : Int) - 4)

/-- The values of the codes of a narrow block, side entries taken in part order. -/
def narrowVals (s : Int) : List Byte → List Nat → List Val
  | [], _ => []
  | c :: cs, sides =>
    if c = BitVec.ofNat 8 128 then sideVal s (sides.headD 0) :: narrowVals s cs sides.tail
    else
      let v := signedOf 8 c.toNat
      .fin (decide (v < 0)) v.natAbs s :: narrowVals s cs sides

/-- Pairs of bytes as little-endian words. -/
def words16 : List Byte → List Nat
  | a :: b :: t => ofBytesLE [a, b] :: words16 t
  | _ => []

/-- One received block of format `f` (R194): the rebuilt block, its flag, and the bytes that follow. -/
def decodeIq (f : Nat) (s : Int) (src : List Byte) : List Byte × Bool × List Byte :=
  match src with
  | [] => ([], false, [])
  | h :: t =>
    if h.toNat.testBit 7 then (t.take (qbBytes f), false, t.drop (qbBytes f))
    else if h.toNat.testBit 6 then (bytesLE (qbBytes f) (2 ^ 23), false, t)
    else
      let esc := h.toNat / 8 % 8
      let r := qbForm f (narrowVals s (t.take 32) (words16 ((t.drop 32).take (2 * esc))))
      (r.1, r.2, t.drop (32 + 2 * esc))

/-! ## Activation blocks (R195 to R200) -/

/-- The code of `x` and the value that the receiver rebuilds, and whether the code was limited (R195). -/
def actCode (asym : Bool) (sz : Int × Int) (x : Val) : Int × Val × Bool :=
  let q := scaled sz.1 x + (if asym then sz.2 else 0)
  let lo : Int := if asym then -128 else -127
  let c := clampInt lo 127 q
  let v := if asym then c - sz.2 else c
  (c, .fin (decide (v < 0)) v.natAbs sz.1, decide (q ≠ c))

/-- A channel's values in a block are sent without codes (R196). -/
def codeless (asym : Bool) (f : Nat) (bits : List Nat) : Bool :=
  if asym then bits.all (fun b => b == bits.headD 0) else bits.all (fun b => (elemVal f b).isZero)

/-- BF16 bits of a value. -/
def bf16 (v : Val) : Nat := (convFloat 7 .rne v).1

/-- Largest `m` below 2^k, built from bit `k − 1` down, with `ok m`. -/
def buildRoot (ok : Nat → Bool) : Nat → Nat → Nat
  | 0, m => m
  | k + 1, m => if ok (m + 2 ^ k) then buildRoot ok k (m + 2 ^ k) else buildRoot ok k m

/-- The FP32 value nearest 10^(n / 40) (R199). -/
def limitVal (n : Nat) : Val :=
  let p := 10 ^ n
  let e := topBit p / 40
  let sh := 40 * e
  -- 10^n against (m × 2^(e − 24))^40 for a 25-bit m
  let ok (m : Nat) : Bool := decide (m ^ 40 * 2 ^ sh ≤ p * (2 ^ 24) ^ 40)
  let m := buildRoot ok 25 0
  step32 (.fin false (m * 2 + (if m ^ 40 * 2 ^ sh = p * (2 ^ 24) ^ 40 then 0 else 1)) ((e : Int) - 25))

/-- What coding an activation block gives. -/
structure CodedAct where
  bytes : List Byte
  eErr : Val
  eSig : Val
  saturations : Nat
  wide : Bool
  zeroConst : Nat
deriving DecidableEq, Repr

/-- One block of up to 16 positions: `rows` holds the element bits of every channel of each position (R195 to R199). -/
def encodeAct (d : BitVec 128) (sc : List (Int × Int)) (rows : List (List Nat)) : CodedAct :=
  let f := ndFmt d
  let asym := ndAsym d
  let chs := coded d
  let marked (c : Nat) : Bool := codeless asym f (rows.map (fun r => r.getD c 0))
  let mask := (List.range chs.length).foldl (fun n k => if marked (chs.getD k 0) then n + 2 ^ k else n) 0
  let maskBytes := (chs.length + 7) / 8
  let vals := rows.flatMap (fun r => chs.map (fun c => elemVal f (r.getD c 0)))
  let codeOf (r : List Nat) (c : Nat) : Int × Val × Bool := actCode asym (sc.getD c (0, 0)) (elemVal f (r.getD c 0))
  let recv := rows.flatMap (fun r => chs.map (fun c =>
    if marked c then (if asym then floatVal 7 (bf16 (elemVal f (r.getD c 0))) else zeroVal) else (codeOf r c).2.1))
  let es := errSig vals recv
  let bad := vals.any (fun v => !v.isFin)
  let tooFar := ndLimit d != 0 && es.2.lt (step32 (es.1.mul (limitVal (ndLimit d))))
  let open_ := chs.filter (fun c => !marked c)
  if bad || tooFar then
    { bytes := [BitVec.ofNat 8 (128 + rows.length)] ++ List.replicate maskBytes 0
        ++ vals.flatMap (fun v => bytesLE 2 (bf16 v))
      eErr := if bad then zeroVal else es.1, eSig := if bad then zeroVal else es.2
      saturations := 0, wide := true, zeroConst := 0 }
  else
    { bytes := [BitVec.ofNat 8 rows.length] ++ bytesLE maskBytes mask
        ++ (if asym then (chs.filter marked).flatMap (fun c => bytesLE 2 (bf16 (elemVal f ((rows.headD []).getD c 0)))) else [])
        ++ rows.flatMap (fun r => open_.map (fun c => BitVec.ofNat 8 (patternOf 8 (codeOf r c).1)))
      eErr := es.1, eSig := es.2
      saturations := (rows.map (fun r => (open_.filter (fun c => (codeOf r c).2.2)).length)).sum
      wide := false, zeroConst := (chs.filter marked).length }

/-- One received activation block: the values of the coded channels of each position, and the bytes that follow (R200). -/
def decodeAct (d : BitVec 128) (sc : List (Int × Int)) (src : List Byte) : List (List Val) × List Byte :=
  let asym := ndAsym d
  let chs := coded d
  let k := chs.length
  let h := (src.headD 0).toNat
  let n := h % 32
  let maskBytes := (k + 7) / 8
  let mask := ofBytesLE ((src.drop 1).take maskBytes)
  let t := src.drop (1 + maskBytes)
  if h.testBit 7 then
    let ws := words16 (t.take (2 * k * n))
    ((List.range n).map (fun i => (List.range k).map (fun j => floatVal 7 (ws.getD (i * k + j) 0))), t.drop (2 * k * n))
  else
    let marked := (List.range k).filter (fun j => mask.testBit j)
    let free := (List.range k).filter (fun j => !mask.testBit j)
    let consts := if asym then words16 (t.take (2 * marked.length)) else []
    let t := if asym then t.drop (2 * marked.length) else t
    let codeVal (j : Nat) (b : Byte) : Val :=
      let sz := sc.getD (chs.getD j 0) (0, 0)
      let v := signedOf 8 b.toNat - (if asym then sz.2 else 0)
      .fin (decide (v < 0)) v.natAbs sz.1
    ((List.range n).map (fun i => (List.range k).map (fun j =>
        if mask.testBit j then (if asym then floatVal 7 (consts.getD (marked.idxOf j) 0) else zeroVal)
        else codeVal j (t.getD (i * free.length + free.idxOf j) 0))),
      t.drop (n * free.length))

/-! ## Whole transfers -/

/-- A transfer encoded under exponents `sc`, with what it measured (R185, R188 to R201): nothing where it holds no channel or no byte (R187). Blocks
of an IQ tensor follow one another with the stream number rising fastest (log entry 20). -/
def encodeTransfer (d : BitVec 128) (sc : List (Int × Int)) (src : List Byte) : List Byte × NarrowMeas :=
  let k := ndChannels d
  let f := ndFmt d
  let none_ : NarrowMeas := { stats := List.replicate k none, eErr := 0, eSig := 0, counts := [0, 0, 0, 0, 0] }
  if k = 0 ∨ src = [] then ([], none_)
  else
    if ndIq d then
      let bs := chunks (qbBytes f) src.length src
      let cs := (List.range bs.length).map (fun i => encodeIq f (sc.getD (i % k) (0, 0)).1 (bs.getD i []))
      let es := (List.range bs.length).map (fun i => errSig (qbVals f (bs.getD i [])) ((cs.getD i ⟨[], [], 0, false⟩).recv))
      (scaleRecord d sc ++ cs.flatMap (fun c => c.bytes),
       { stats := (List.range k).map (fun c => statsOf
           (((List.range bs.length).filter (fun i => i % k = c)).flatMap (fun i => qbVals f (bs.getD i []))))
         eErr := fp32Bits (es.foldl (fun a e => step32 (a.add e.1)) zeroVal)
         eSig := fp32Bits (es.foldl (fun a e => step32 (a.add e.2)) zeroVal)
         counts := [32 * bs.length, 0, (cs.map (fun c => c.escapes)).sum, (cs.filter (fun c => c.wide)).length, 0] })
    else
      let rows := (chunks (elemBytes f k) src.length src).map (fun r => (List.range k).map (fun c => elemAt f r c))
      let cs := (chunks 16 rows.length rows).map (encodeAct d sc)
      (scaleRecord d sc ++ cs.flatMap (fun c => c.bytes)
         ++ rows.flatMap (fun r => (outliers d).flatMap (fun c => bytesLE 2 (bf16 (elemVal f (r.getD c 0))))),
       { stats := (List.range k).map (fun c =>
           if ndOutlier d c then none else statsOf (rows.map (fun r => elemVal f (r.getD c 0))))
         eErr := fp32Bits (cs.foldl (fun a c => step32 (a.add c.eErr)) zeroVal)
         eSig := fp32Bits (cs.foldl (fun a c => step32 (a.add c.eSig)) zeroVal)
         counts := [rows.length * (coded d).length, (cs.map (fun c => c.saturations)).sum, 0,
                    (cs.filter (fun c => c.wide)).length, (cs.map (fun c => c.zeroConst)).sum] })

/-- The exponents and zero points of a received scale record (R190), and the bytes that follow. -/
def readScales (d : BitVec 128) (src : List Byte) : List (Int × Int) × List Byte :=
  let k := ndChannels d
  let zs := if ndAsym d then words16 ((src.drop k).take (2 * k)) else []
  ((List.range k).map (fun c => (signedOf 8 (src.getD c 0).toNat, signedOf 16 (zs.getD c 0))),
   src.drop (if ndAsym d then 3 * k else k))

/-- The blocks of a received IQ transfer. -/
def decodeIqs (f k : Nat) (sc : List (Int × Int)) : Nat → Nat → List Byte → List Byte × Bool
  | 0, _, _ => ([], false)
  | fuel + 1, i, src =>
    if src = [] then ([], false)
    else
      let b := decodeIq f (sc.getD (i % k) (0, 0)).1 src
      let r := decodeIqs f k sc fuel (i + 1) b.2.2
      (b.1 ++ r.1, b.2.1 || r.2)

/-- The blocks of a received activation transfer: the bytes left over are the outlier channels of the positions read. -/
def decodeActs (d : BitVec 128) (sc : List (Int × Int)) : Nat → List (List Val) → List Byte → List (List Val) × List Byte
  | 0, acc, src => (acc, src)
  | fuel + 1, acc, src =>
    if src.length ≤ 2 * (outliers d).length * acc.length then (acc, src)
    else
      let b := decodeAct d sc src
      decodeActs d sc fuel (acc ++ b.1) b.2

/-- A transfer rebuilt (R194, R200): the destination's bytes, the outlier map's bytes, and whether a conversion saturated. -/
def decodeTransfer (d : BitVec 128) (src : List Byte) : List Byte × List Byte × Bool :=
  let k := ndChannels d
  let f := ndFmt d
  if k = 0 ∨ src = [] then ([], [], false)
  else
    let (sc, body) := readScales d src
    if ndIq d then
      let r := decodeIqs f k sc body.length 0 body
      (r.1, [], r.2)
    else
      let r := decodeActs d sc body.length [] body
      let chs := coded d
      let conv (v : Val) : Nat × Bool := convElem f .rne v
      let elem (row : List Val) (c : Nat) : Nat := if ndOutlier d c then 0 else (conv (row.getD (chs.idxOf c) zeroVal)).1
      (r.1.flatMap (fun row => packElems f ((List.range k).map (elem row))), r.2,
       r.1.any (fun row => row.any (fun v => (conv v).2)))

end Sys2Proof.Machine
end

