-- ==== Sys2Proof/Machine/Links.lean ====
section
/-! DEFINITION. Machine/Links.lean: Vrelol ports: segments, flits, credits, replay, held writes (R473 to R481 of
spec/14_external_interfaces.md; R185 to R190). -/

namespace Sys2Proof.Machine

def vlPort (s : State) (p : Nat) : VlPort := s.fabric.ports.getD p {}
def modVl (s : State) (p : Nat) (f : VlPort → VlPort) : State :=
  { s with fabric := { s.fabric with ports := lmod s.fabric.ports p f } }

/-! ## Segments (R476) -/

def segHeader (ty src dst vc tag status len hops addr tensor e2e : Nat) : BitVec 128 :=
  BitVec.ofNat 128 (ty % 16 * 2 ^ 124 + src % 64 * 2 ^ 118 + dst % 64 * 2 ^ 112 + vc % 4 * 2 ^ 110 + tag % 4096 * 2 ^ 98
    + status % 4 * 2 ^ 96 + len % 4096 * 2 ^ 84 + hops % 64 * 2 ^ 78 + addr % 2 ^ 42 * 2 ^ 36 + tensor % 65536 * 2 ^ 20
    + e2e % 65536 * 16)
def segType (h : BitVec 128) : Nat := bitsOf h 127 124
def segSrc (h : BitVec 128) : Nat := bitsOf h 123 118
def segDst (h : BitVec 128) : Nat := bitsOf h 117 112
def segVc (h : BitVec 128) : Nat := bitsOf h 111 110
def segTag (h : BitVec 128) : Nat := bitsOf h 109 98
def segStatus (h : BitVec 128) : Nat := bitsOf h 97 96
def segLen (h : BitVec 128) : Nat := bitsOf h 95 84
def segHops (h : BitVec 128) : Nat := bitsOf h 83 78
def segAddr (h : BitVec 128) : Nat := bitsOf h 77 36
def segTensor (h : BitVec 128) : Nat := bitsOf h 35 20
def segE2e (h : BitVec 128) : Nat := bitsOf h 19 4

/-- The header with one more link crossed (R477). -/
def segHop (h : BitVec 128) : BitVec 128 :=
  segHeader (segType h) (segSrc h) (segDst h) (segVc h) (segTag h) (segStatus h) (segLen h) (segHops h + 1) (segAddr h)
    (segTensor h) (segE2e h)

/-- The data bytes that follow a header: a READ carries none. -/
def segData (h : BitVec 128) : Nat := if segType h = 2 then 0 else segLen h

/-- A segment's bytes: header, data, zeros to a multiple of 16. -/
def segBytes (h : BitVec 128) (data : List Byte) : List Byte :=
  let d := data.take (segData h)
  bytesLE 16 h.toNat ++ d ++ List.replicate (ceilDiv (segData h) 16 * 16 - d.length) 0

/-- Credits that a segment needs, in units of 16 bytes. -/
def segCredits (h : BitVec 128) : Nat := 1 + ceilDiv (segData h) 16

/-! ## Flits (R474, R475) -/

/-- CRC-32 with polynomial 0x04C1_1DB7, most significant bit first, from zero (log entry 21). -/
def crc32Bit (r : Nat) (b : Bool) : Nat :=
  let t := r.testBit 31 != b
  (2 * r % 2 ^ 32) ^^^ (if t then 0x04C11DB7 else 0)
def crc32 (bs : List Byte) : Nat :=
  bs.foldl (fun r b => [7, 6, 5, 4, 3, 2, 1, 0].foldl (fun r i => crc32Bit r (b.toNat.testBit i)) r) 0

/-- The syndromes of one interleaved codeword of a flit: symbols from the highest power down, roots 1 and α (log entry 21). -/
def rsSyndromes (cw : List Byte) : Nat × Nat :=
  cw.foldl (fun p b => (p.1 ^^^ b.toNat, gfMul 2 p.2 ^^^ b.toNat)) (0, 0)

/-- The two check bytes that make both syndromes zero: the remainder of the data polynomial by (x + 1)(x + α). -/
def rsCheck (data : List Byte) : List Byte :=
  let (r1, r0) := data.foldl (fun (p : Nat × Nat) b =>
    let f := p.1 ^^^ b.toNat
    (p.2 ^^^ gfMul 3 f, gfMul 2 f)) (0, 0)
  [BitVec.ofNat 8 r1, BitVec.ofNat 8 r0]

/-- One codeword with a single symbol in error put right. -/
def rsCorrect (cw : List Byte) : List Byte :=
  let (s0, s1) := rsSyndromes cw
  if s0 = 0 then cw
  else
    match (List.range 128).find? (fun p => gfMul s0 (gfPow p) = s1) with
    | some p => lmod cw (127 - p) (fun b => b ^^^ BitVec.ofNat 8 s0)
    | none => cw

/-- Every second byte, from the first. -/
def evens : List Byte → List Byte
  | a :: _ :: t => a :: evens t
  | [a] => [a]
  | [] => []
def interleave : List Byte → List Byte → List Byte
  | a :: as', b :: bs => a :: b :: interleave as' bs
  | _, _ => []

/-- A flit from its header and its payload (R474). -/
def mkFlit (header : Nat) (payload : List Byte) : BitVec 2048 :=
  let body := bytesLE 8 header ++ (payload ++ List.replicate (240 - payload.length) 0).take 240
  let body := body ++ bytesLE 4 (crc32 body)
  let ev := rsCheck (evens body)
  let od := rsCheck (evens (body.drop 1))
  BitVec.ofNat 2048 (ofBytesLE (body ++ interleave ev od))

/-- A received flit after the correction of R474, and whether its CRC holds. -/
def openFlit (flit : BitVec 2048) : List Byte × Bool :=
  let bs := bytesLE 256 flit.toNat
  let fixed := interleave (rsCorrect (evens bs)) (rsCorrect (evens (bs.drop 1)))
  (fixed, ofBytesLE ((fixed.drop 248).take 4) = crc32 (fixed.take 248))

/-- The link header of the next flit of kind `kind` and class `vc` on a port; the oldest credits owed travel with it. -/
def linkHeader (p : VlPort) (fseq : BitVec 12) (kind vc : Nat) : Nat :=
  let c := p.owed.headD (0, 0, false, 0)
  fseq.toNat * 2 ^ 52 + p.rxSeq.toNat * 2 ^ 40 + (if p.nak then 2 ^ 39 else 0) + kind * 2 ^ 37 + vc % 4 * 2 ^ 35 + c.1 % 4 * 2 ^ 33
    + c.2.1 % 4096 * 2 ^ 21 + (if c.2.2.1 then 2 ^ 20 else 0) + c.2.2.2 % 64 * 2 ^ 14

/-- An idle flit leaves port `n` (R475): timestamps in bytes 8 to 31. -/
def sendIdle (s : State) (n : Nat) : State :=
  let p := vlPort s n
  let f := mkFlit (linkHeader p (p.txSeq - 1) 0 0) (bytesLE 8 s.time.now ++ bytesLE 8 p.peerTx ++ bytesLE 8 p.peerRx)
  (modVl s n (fun p => { p with owed := p.owed.tail })).emit (.flit n f)

/-! ## Credits (R477) -/

/-- The receive space of a class, in units of 16 bytes: shared, and reserve of one hop class. -/
def sharedSpace (vc : Nat) : Nat := if vc = 2 then 512 else 6144
def reserveSpace (vc : Nat) : Nat := if vc = 2 then 0 else 129

/-- The credits a sender holds at the join. -/
def joinCredits (p : VlPort) : VlPort := { p with shared := [6144, 6144, 512], reserve := [], waiting := [], owed := [] }

def reserveHeld (p : VlPort) (vc hop : Nat) : Nat := (tget p.reserve (64 * vc + hop)).getD (reserveSpace vc)

/-- Credits for a segment: from the shared space, otherwise from the reserve of its hop class. -/
def takeCredits (p : VlPort) (h : BitVec 128) : Option VlPort :=
  let vc := segVc h
  let n := segCredits h
  let held := p.shared.getD vc 0
  let res := reserveHeld p vc (segHops h)
  if n ≤ held then some { p with shared := lmod p.shared vc (fun x => x - n) }
  else if n ≤ res then some { p with reserve := tset p.reserve (64 * vc + segHops h) (res - n) }
  else none

/-- A segment has left this device's receive space of port `n`: its credits go back to the peer. -/
def oweCredits (s : State) (n : Nat) (h : BitVec 128) : State :=
  modVl s n (fun p => { p with owed := p.owed ++ [(segVc h, segCredits h, false, segHops h)] })

/-- One flit of data leaves port `n`: it enters the replay buffer (R478). -/
def sendFlit (s : State) (n vc : Nat) (payload : List Byte) : State :=
  let p := vlPort s n
  let f := mkFlit (linkHeader p p.txSeq 1 vc) payload
  (modVl s n (fun p => { p with
    txSeq := p.txSeq + 1, outSeq := p.outSeq + 1, replay := p.replay ++ [(p.txSeq, f)]
    owed := p.owed.tail })).emit (.flit n f)

/-- The flits that carry a segment, the last filled with padding (R476). -/
def segFlits (h : BitVec 128) (data : List Byte) : List (List Byte) := chunks 240 20 (segBytes h data)

/-- The segments that wait at port `n` go, in order, while the credits and the replay buffer of 1,024 flits allow. -/
def drainPort : Nat → State → Nat → State
  | 0, s, _ => s
  | fuel + 1, s, n =>
    let p := vlPort s n
    match p.waiting with
    | [] => s
    | (h, data) :: rest =>
      let fl := segFlits h data
      if p.state ≠ 2 || 1024 < p.replay.length + fl.length then s
      else
        match takeCredits p h with
        | none => s
        | some p' =>
          let s := modVl s n (fun _ => { p' with waiting := rest })
          let s := s.emit (.segment n h data)
          drainPort fuel (fl.foldl (fun s f => sendFlit s n (segVc h) f) s) n

/-- A segment joins the send queue of port `n`. -/
def sendSegment (s : State) (n : Nat) (h : BitVec 128) (data : List Byte) : State :=
  let s := modVl s n (fun p => { p with waiting := p.waiting ++ [(h, data)] })
  drainPort (vlPort s n).waiting.length s n

/-- A segment goes to device `d` by its route; without one it is dropped as R263 drops a write. -/
def routeSegment (s : State) (d : Nat) (h : BitVec 128) (data : List Byte) : State :=
  match routeTo s d with
  | some r => sendSegment s r.port h data
  | none => s

/-! ## Writes to a peer (R476, R480, R185 to R190) -/

/-- The descriptor of a tensor number in the running image. -/
def descriptorOf (s : State) (tensor : Nat) : Option (BitVec 128) :=
  (planOf s).elim none (fun p => p.narrowing.find? (fun d => tensor ≠ 0 ∧ ndTensor d = tensor))

/-- The tensor that the Almanac binds to the source buffer at `a` (R185); 0 none. -/
def tensorAt (s : State) (a : Nat) : Nat :=
  (planOf s).elim 0 (fun p => ((p.narrowFrom.find? (fun b => b.1 ≤ a && a < b.1 + b.2.1)).map (fun b => b.2.2)).getD 0)

def narrowOf (s : State) (tensor dst : Nat) : Option NarrowSt :=
  s.fabric.narrow.find? (fun n => n.tensor == tensor && n.dst == dst)

/-- A transfer of a tensor was sent to `dst` by port `n`, its last segment under sequence number `e`: its measurements wait for its
completion (R189). -/
def noteSent (s : State) (tensor dst n : Nat) (e : BitVec 16) (m : NarrowMeas) : State :=
  let old := (narrowOf s tensor dst).getD { tensor := tensor, dst := dst, last := none, sent := [] }
  let rest := s.fabric.narrow.filter (fun x => !(x.tensor == tensor && x.dst == dst))
  let now : NarrowSt := { old with sent := old.sent ++ [(e, n, m)] }
  let s := { s with fabric := { s.fabric with narrow := rest ++ [now] } }
  let s := countEvent s 0x3803 0x67 n (m.counts.getD 3 0)
  let s := countEvent s 0x3803 0x68 n (m.counts.getD 2 0)
  countEvent s 0x3803 0x69 n (m.counts.getD 1 0)

/-- A WRITE (or TOKEN) of unit `u` to device `d`: it takes the next E2E_SEQ, is held until its acknowledgement, and goes (R480), unless a new
next hop waits for the writes before it (R396). -/
def sendHeld (s : State) (u : UAddr) (ty d addr : Nat) (tensor : Nat) (data : List Byte) : State :=
  let e := (tget s.fabric.nextE2e d).getD 0
  let h := segHeader ty (devnum s) d 0 0 0 data.length 0 addr tensor e.toNat
  let s := { s with fabric := { s.fabric with
    nextE2e := tset s.fabric.nextE2e d (e + 1)
    held := s.fabric.held ++ [{ src := u, dst := BitVec.ofNat 6 d, e2e := e, header := h, data := data }] } }
  if (tget s.fabric.newHop d).isSome then s else routeSegment s d h data

/-- The segments of an encoded transfer: none above 2,048 bytes (R476); a full one is followed by another, so that the receiver knows the
last (log entry 224). -/
def narrowSegments (bs : List Byte) : List (List Byte) :=
  chunks 2048 (bs.length / 2048 + 1) bs ++ (if bs.length % 2048 = 0 then [[]] else [])

/-- The exponents of a transfer of slice `sl` to fabric address `addr`: those that the slice's first run fixed, or, where this is the first
time, those that the statistics give, which are then kept (R188, R189). -/
def takeScales (s : State) (sl : Option Slice) (nd : BitVec 128) (addr : Nat) : List (Int × Int) × State :=
  let t := ndTensor nd
  let sc := scalesOf nd ((narrowOf s t (addr / 2 ^ 36 % 64)).elim none (fun n => n.last))
  match sl with
  | none => (sc, s)
  | some x =>
    let put (l : List FixedScales) : State := { s with fabric := { s.fabric with fixedScales := l } }
    match s.fabric.fixedScales.findIdx? (fun f => f.slice == x && f.addr == addr && f.tensor == t && !f.used) with
    | some i =>
      (((s.fabric.fixedScales[i]?).map (fun f => f.scales)).getD sc, put (lmod s.fabric.fixedScales i (fun f => { f with used := true })))
    | none => (sc, put (s.fabric.fixedScales ++ [{ slice := x, addr := addr, tensor := t, scales := sc, used := true }]))

/-- A write of one transfer of slice `sl` to a fabric address on another device: dropped where no route exists (R263, R264); encoded where
its source buffer, at `src`, is bound to a tensor (R185). -/
def remoteWrite (s : State) (master : UAddr) (sl : Option Slice) (src : Option Nat) (addr : Nat) (data : List Byte) : State :=
  let d := addr / 2 ^ 36 % 64
  match routeTo s d with
  | none => dropWrite s master (2 ^ 42 + addr)
  | some r =>
    match src.bind (fun a => descriptorOf s (tensorAt s a)) with
    | none => sendHeld s master 1 d addr 0 data
    | some nd =>
      let t := ndTensor nd
      let (sc, s) := takeScales s sl nd addr
      let (bs, m) := encodeTransfer nd sc data
      if bs = [] then s
      else
        let s := (narrowSegments bs).foldl (fun s b => sendHeld s master 1 d addr t b) s
        noteSent s t d r.port ((tget s.fabric.nextE2e d).getD 0 - 1) m

/-- Bytes held for destination `d` (R480). -/
def heldBytes (s : State) (d : Nat) : Nat := ((s.fabric.held.filter (fun w => w.dst.toNat == d)).map (fun w => w.data.length)).sum

/-- The figures of a completed transfer at the port that sent it (R201). -/
def portFigures (tensor : Nat) (ps : List NarrowPort) (x : Nat × NarrowMeas) : List NarrowPort :=
  let old := ((ps.find? (fun p => p.tensor == tensor && p.port == x.1)).map (fun p => p.totals)).getD [0, 0, 0, 0, 0]
  let c (i : Nat) : Nat := x.2.counts.getD i 0
  ps.filter (fun p => !(p.tensor == tensor && p.port == x.1)) ++
    [{ tensor := tensor, port := x.1, last := x.2,
       totals := [c 1, c 2, c 3, c 4, c 0].zipIdx.map (fun y => (old.getD y.2 0 + y.1) % 2 ^ 64) }]

/-- A new next hop's waiting writes go once every earlier write to `d` is acknowledged (R396). -/
def releaseHop (s : State) (d : Nat) : State :=
  match tget s.fabric.newHop d with
  | none => s
  | some n =>
    let ws := s.fabric.held.filter (fun w => w.dst.toNat == d)
    if ws.any (fun w => decide (32768 ≤ (w.e2e - n).toNat)) then s
    else ws.foldl (fun s w => routeSegment s d w.header w.data) { s with fabric := { s.fabric with newHop := tdel s.fabric.newHop d } }

/-- The E2E_SEQ `e` of destination `d` is acknowledged: the held write goes, and a narrowed transfer is complete, so its
statistics replace the previous ones (R189, R201). -/
def e2eAcked (s : State) (d : Nat) (e : BitVec 16) : State :=
  let done (n : NarrowSt) : Option (BitVec 16 × Nat × NarrowMeas) := if n.dst = d then n.sent.find? (fun x => x.1 == e) else none
  releaseHop { s with fabric := { s.fabric with
      held := s.fabric.held.filter (fun w => !(w.dst.toNat == d && w.e2e == e))
      narrow := s.fabric.narrow.map (fun n => (done n).elim n (fun x =>
        { n with last := some x.2.2, sent := n.sent.filter (fun y => y.1 != e) }))
      narrowPorts := s.fabric.narrow.foldl (fun ps n => (done n).elim ps (fun x => portFigures n.tensor ps x.2)) s.fabric.narrowPorts } } d

/-- A read whose pieces have all been answered is answered to the host, poisoned if a piece is (R455, R481). -/
def finishRead (s : State) (head : Nat) : State :=
  let ps := s.fabric.reads.filter (fun r => r.head == head)
  if ps.isEmpty || ps.any (fun r => r.got.isNone) then s
  else
    let s := { s with fabric := { s.fabric with reads := s.fabric.reads.filter (fun r => r.head != head) } }
    s.emit (.readReply (ps.flatMap (fun r => (r.got.elim [] (fun g => g.1)))) (ps.any (fun r => r.got.elim false (fun g => g.2))))

/-- The piece under tag `k` is answered. -/
def answerRead (s : State) (k : Nat) (bs : List Byte) (poison : Bool) : State :=
  match s.fabric.reads.find? (fun r => r.tag == k && r.got.isNone) with
  | none => s
  | some r =>
    finishRead { s with fabric := { s.fabric with
      reads := s.fabric.reads.map (fun x => if x.tag = k then { x with got := some (bs, poison) } else x) } } r.head

/-! ## Acknowledgement and replay (R478, R479) -/

/-- Credits that a flit header returns; a count beyond the receiver's space is a protocol fault, and the port goes down to
retrain (R477). -/
def addCredits (s : State) (n : Nat) (h : BitVec 64) : State :=
  let vc := bitsOf h 34 33
  let c := bitsOf h 32 21
  let hop := bitsOf h 19 14
  let p := vlPort s n
  if c = 0 then s
  else
    let res := bitOf h 20
    let now := (if res then reserveHeld p vc hop else p.shared.getD vc 0) + c
    if (if res then reserveSpace vc else sharedSpace vc) < now || 2 < vc then
      let s := recordFaultAt s (dieUnit 2) causeProtocol 0 0 0 0 0
      modVl s n (fun p => { p with state := 0 })
    else
      let s := modVl s n (fun p =>
        if res then { p with reserve := tset p.reserve (64 * vc + hop) now } else { p with shared := lmod p.shared vc (fun _ => now) })
      drainPort p.waiting.length s n

/-- Data flits up to FSEQ `ack` have been received: they leave the replay buffer. -/
def ackFlits (s : State) (n : Nat) (ack : BitVec 12) : State :=
  let p := vlPort s n
  match p.replay.findIdx? (fun x => x.1 == ack) with
  | none => s
  | some i =>
    let s := modVl s n (fun p => { p with replay := p.replay.drop (i + 1), stuck := 0 })
    drainPort p.waiting.length s n

/-- The replay budget of port `n` in flits per subframe (R479). -/
def vlBudget (s : State) (n : Nat) : Nat := (planOf s).elim 0 (fun p => p.vlBudgets.getD n 0)

/-- Replay what the port has sent and not had acknowledged: identical bytes (R478); the first beyond the budget of the
subframe is recorded (R479). -/
def replayPort (s : State) (n : Nat) : State :=
  let p := vlPort s n
  let k := p.replay.length
  if k = 0 || 16 ≤ p.stuck then s
  else
    let s := p.replay.foldl (fun s f => s.emit (.flit n f.2)) s
    let s := modVl s n (fun p => { p with
      retries := (p.retries + 1) % 2 ^ 64, stuck := p.stuck + 1, replayed := p.replayed + k })
    let s := countEvent s 0x3803 0x66 n k
    let s := timingEvent s 8 (dieUnit 2) (n * 2 ^ 56 + k)
    if (planOf s).isSome && vlBudget s n < p.replayed + k && !p.overBudget then
      let s := modVl s n (fun p => { p with overBudget := true })
      recordFaultAt (timingEvent s 9 (dieUnit 2) 0) (dieUnit 2) causeRetry 0 0 0 0 0
    else s

/-- What every flit header carries: acknowledgement, credits, NAK. -/
def linkControl (s : State) (n : Nat) (h : BitVec 64) : State :=
  let s := addCredits (ackFlits s n (BitVec.ofNat 12 (bitsOf h 51 40))) n h
  if bitOf h 39 then replayPort s n else s

end Sys2Proof.Machine
end

