-- ==== Sys2Proof/Machine/Operands.lean ====
section
/-! DEFINITION. Machine/Operands.lean: operand rows in core memory (R97, R128) and the sliding-window geometry that the
window generator and the grid movers share (R148 to R156). -/

namespace Sys2Proof.Machine

/-- An element: real and imaginary part; a real element has imaginary part +0. -/
abbrev Elem := Val × Val

def zeroElem : Elem := (zeroVal, zeroVal)

/-- Bytes of `n` elements of a row in format `f` (R97, R128, R174). -/
def rowBytes (f : Nat) (cplx : Bool) (n : Nat) : Nat :=
  if isQB f then ceilDiv n 16 * qbBytes f else elemBytes f (if cplx then 2 * n else n)

/-- Byte just past the last row; 0 where nothing is read. -/
def extent (addr pitch n bytes : Nat) : Nat := if n = 0 ∨ bytes = 0 then 0 else addr * 64 + (n - 1) * pitch * 64 + bytes

/-- The first `n` elements of a row of bytes (R97, R128). -/
def rowElems (f : Nat) (cplx : Bool) (bs : List Byte) (n : Nat) : List Elem :=
  if isQB f then
    let parts := (List.range (ceilDiv n 16)).flatMap (fun b => qbVals f (bs.drop (b * qbBytes f)))
    (List.range n).map (fun i => (parts.getD (2 * i) zeroVal, parts.getD (2 * i + 1) zeroVal))
  else if cplx then (List.range n).map (fun i => (elemVal f (elemAt f bs (2 * i)), elemVal f (elemAt f bs (2 * i + 1))))
  else (List.range n).map (fun i => (elemVal f (elemAt f bs i), zeroVal))

/-- The value of a 32-bit accumulator word (R96). -/
def accVal (fmt : TileFmt) (w : BitVec 32) : Val :=
  match fmt with
  | .int32 => ofInt (signedOf 32 w.toNat)
  | _ => floatVal 8 w.toNat

/-- The first read of a list that meets a poisoned or uncorrectable codeword (R272). -/
def badRead (gs : List Got) : Option Got := gs.find? (fun g => g.poisoned || g.uncorrectable)

/-! ## Sliding windows -/

/-- The geometry of one axis: input size, filter size, stride, dilation, pads, upsampling. -/
structure Axis where
  size : Nat
  k : Nat
  stride : Nat
  dil : Nat
  padL : Nat
  padR : Nat
  up : Nat
deriving DecidableEq, Repr

/-- The size of the upsampled view, (in − 1) × U + 1, or 0 (R155). -/
def Axis.view (a : Axis) : Nat := if a.size = 0 then 0 else (a.size - 1) * a.up + 1

/-- The output size of R150 over the upsampled view. -/
def Axis.outSize (a : Axis) : Nat :=
  if a.view = 0 ∨ a.k = 0 then 0
  else
    let n : Int := (a.view + a.padL + a.padR : Nat) - (a.dil * (a.k - 1) : Nat) - 1
    (n.fdiv a.stride + 1).toNat

/-- The input position that output `o` reads for tap `t`, by R156: none for a zero row. -/
def Axis.source (a : Axis) (replicate : Bool) (o t : Nat) : Option Nat :=
  let v : Int := (o * a.stride + t * a.dil : Nat) - (a.padL : Nat)
  let inside := decide (0 ≤ v) && decide (v < a.view)
  if !inside && !replicate then none
  else
    let c := (clampInt 0 ((a.view : Int) - 1) v).toNat
    if c % a.up = 0 then some (c / a.up) else none

/-- The axes of a window descriptor (R154). -/
def windowX (w : Window) : Axis :=
  { size := w.inW.toNat, k := w.kw.toNat, stride := w.sx.toNat, dil := w.dx.toNat, padL := w.padL.toNat,
    padR := w.padR.toNat, up := w.ux.toNat }
def windowY (w : Window) : Axis :=
  { size := w.inH.toNat, k := w.kh.toNat, stride := w.sy.toNat, dil := w.dy.toNat, padL := w.padT.toNat,
    padR := w.padB.toNat, up := w.uy.toNat }

/-- The axes of a re-lay geometry block (R162). -/
def relayX (g : RelayGeo) : Axis :=
  { size := g.inW.toNat, k := g.kw.toNat, stride := g.sx.toNat, dil := g.dx.toNat, padL := g.padL.toNat,
    padR := g.padR.toNat, up := g.ux.toNat }
def relayY (g : RelayGeo) : Axis :=
  { size := g.inH.toNat, k := g.kh.toNat, stride := g.sy.toNat, dil := g.dy.toNat, padL := g.padT.toNat,
    padR := g.padB.toNat, up := g.uy.toNat }

/-- The source position (y, x) of raster index `q` for tap (ty, tx): none for a zero row (R156). -/
def gridSource (x y : Axis) (replicate : Bool) (q ty tx : Nat) : Option (Nat × Nat) :=
  if x.outSize = 0 then none
  else
    match y.source replicate (q / x.outSize) ty, x.source replicate (q % x.outSize) tx with
    | some sy, some sx => some (sy, sx)
    | _, _ => none

/-- The walk of R155 after one bound pass of `rows` rows on `n` arrays: next group, then tap, then chunk. -/
def walkNext (w : WinSt) (rows n : Nat) : WinSt :=
  if w.g + 1 < w.desc.cgroups.toNat then { w with g := w.g + 1 }
  else if w.tx + 1 < w.desc.kw.toNat then { w with g := 0, tx := w.tx + 1 }
  else if w.ty + 1 < w.desc.kh.toNat then { w with g := 0, tx := 0, ty := w.ty + 1 }
  else { w with g := 0, tx := 0, ty := 0, q := w.q + rows * n }

/-- The descriptor's own ranges (R154, R157). -/
def windowOk (w : Window) : Bool :=
  w.stepFirst == 0 ||
    (w.rsvd == 0 && w.stepFirst.toNat ≤ w.stepLast.toNat && w.cgroups.toNat ≤ 8 && (w.sx == 1 || w.sx == 2)
      && (w.sy == 1 || w.sy == 2) && (w.dx == 1 || w.dx == 2) && (w.dy == 1 || w.dy == 2) && 1 ≤ w.ux.toNat
      && w.ux.toNat ≤ 4 && 1 ≤ w.uy.toNat && w.uy.toNat ≤ 4 && w.kw.toNat ≤ 16 && w.kh.toNat ≤ 16)

/-- The geometry block's own ranges (R162). -/
def relayOk (g : RelayGeo) : Bool :=
  g.rsvd == 0 && g.sx != 0 && g.sy != 0 && g.dx != 0 && g.dy != 0 && g.ux != 0 && g.uy != 0

end Sys2Proof.Machine
end

