-- ==== Sys2Proof/Machine/Movers.lean ====
section
/-! DEFINITION. Machine/Movers.lean: the movers and the core-to-cluster queues (R283 to R296 of
spec/09_memory_and_movement.md, R162 to R164 of spec/05_grid_operators.md, R359). -/

namespace Sys2Proof.Machine

/-! ## Core-to-cluster queues (R292 to R296) -/

def qrecOf (s : State) (c q : Nat) : QRec := (clusterOf s c).queues.getD q {}
def modQrec (s : State) (c q : Nat) (f : QRec → QRec) : State := modCluster s c (fun x => { x with queues := lmod x.queues q f })

def qEntryBytes (q : QRec) : Nat := 32 * 2 ^ q.esize
/-- Entries held. -/
def qCount (q : QRec) : Nat := if q.depth = 0 then 0 else (q.wptr + 2 * q.depth - q.rptr) % (2 * q.depth)
def qFree (q : QRec) : Nat := q.depth - qCount q
/-- The local address of the entry a pointer names. -/
def qAddr (c : Nat) (q : QRec) (ptr : Nat) : Nat := clusterBase c + q.base * 64 + ptr % q.depth * qEntryBytes q

/-- EMPTY: no entry, or in a packetised queue no committed packet (R292, R294). -/
def qEmpty (s : State) (c : Nat) (q : QRec) : Bool :=
  qCount q = 0 ||
    (q.packetised && q.readLeft = 0 && !((cget s.mem.cells (qAddr c q q.rptr + 3)).toNat.testBit 7))

/-- The 128-bit record of R292. -/
def qWord (s : State) (c : Nat) (q : QRec) : BitVec 128 :=
  BitVec.ofNat 128 (q.writer.toNat * 2 ^ 112 + q.reader.toNat * 2 ^ 96 + q.base % 2 ^ 20 * 2 ^ 76 + q.depth % 2 ^ 17 * 2 ^ 59
    + q.esize % 4 * 2 ^ 57 + (if q.packetised then 2 ^ 56 else 0) + q.wptr % 2 ^ 17 * 2 ^ 39 + q.rptr % 2 ^ 17 * 2 ^ 22
    + (if qEmpty s c q then 2 ^ 21 else 0) + (if q.depth ≠ 0 ∧ qCount q = q.depth then 2 ^ 20 else 0)
    + (if q.underrun then 2 ^ 19 else 0) + (if q.flushPend then 2 ^ 18 else 0))

/-- Both copies of the write pointer advance by `n`. -/
def qAdvanceW (q : QRec) (n : Nat) : QRec :=
  let p := (q.wptr + n) % (2 * q.depth)
  { q with wptr := p, wptr2 := p }
/-- Both copies of the read pointer advance by one. -/
def qAdvanceR (q : QRec) : QRec :=
  let p := (q.rptr + 1) % (2 * q.depth)
  { q with rptr := p, rptr2 := p }

/-- The entries that a line of `n` bytes takes, with its length entry where it is written as one packet. -/
def qEntries (q : QRec) (packet : Bool) (n : Nat) : Nat := ceilDiv n (qEntryBytes q) + (if packet then 1 else 0)

/-- Write a line into a queue, as one packet or as entries: the length word comes last (R294). -/
def qWriteLine (s : State) (master : UAddr) (c qn : Nat) (packet : Bool) (data : List Byte) : State :=
  let q := qrecOf s c qn
  let n := ceilDiv data.length (qEntryBytes q)
  let first := if packet then q.wptr + 1 else q.wptr
  let es := chunks (qEntryBytes q) n data
  let s := (List.range n).foldl (fun s i => writeLocal s master (qAddr c q (first + i)) (es.getD i []) false) s
  let s := if packet then writeLocal s master (qAddr c q q.wptr) (bytesLE 4 (2 ^ 31 + n % 2 ^ 24)) false else s
  modQrec s c qn (fun q => qAdvanceW q (qEntries q packet data.length))

/-! ## A running command -/

/-- A mover's run: state, bytes still to come from the host or a peer, whether it has stopped with a fault. -/
structure MovRun where
  s : State
  ext : List Byte
  stop : Bool
deriving DecidableEq, Repr

/-- The host buffers of the item whose slice cluster `c` runs (R284, R312). -/
def bufsOf (s : State) (c : Nat) : List (BitVec 128) :=
  match (unitOf s (clusterUnit c)).held.head? with
  | none => []
  | some sl =>
    ((s.items.find? (fun i => i.queue == sl.queue.toNat && i.seq == sl.seq.toNat)).map (fun i => i.fetched.bufs)).getD []

def bufAddr (b : BitVec 128) : Nat := bitsOf b 127 64
def bufLen (b : BitVec 128) : Nat := bitsOf b 63 28

/-- An address plus a signed offset, in 42 bits. -/
def addrPlus (a : Nat) (i : Int) : Nat := (((a : Int) + i) % ((2 : Int) ^ 42)).toNat

/-- One entry is read from a queue (R293): an empty queue returns the last value, sets UNDERRUN and faults the reader. -/
def qReadEntry (r : MovRun) (u : UAddr) (c qn : Nat) : MovRun × List Byte :=
  let q := qrecOf r.s c qn
  if qEmpty r.s c q then
    let s := modQrec r.s c qn (fun q => { q with underrun := true })
    ({ r with s := engineFault s u causeUnderrun 0, stop := true }, q.lastRead)
  else
    let a := qAddr c q q.rptr
    let g := readLocal r.s a (qEntryBytes q)
    if g.poisoned || g.uncorrectable then ({ r with s := engineFault r.s u (badCause g) g.at_, stop := true }, [])
    else
      let left := if q.packetised && q.readLeft = 0 then ofBytesLE (g.bytes.take 3) else q.readLeft - 1
      let s := modQrec r.s c qn (fun q => { qAdvanceR q with
        readLeft := if q.packetised then left else 0, lastRead := g.bytes })
      ({ r with s := countRead s a (qEntryBytes q) }, g.bytes)

/-- Read `n` bytes from the entries of a queue. -/
def qReadLine (r : MovRun) (u : UAddr) (c qn n : Nat) : MovRun × List Byte :=
  let k := ceilDiv n (qEntryBytes (qrecOf r.s c qn))
  let (r, bs) := (List.range k).foldl (fun (p : MovRun × List Byte) _ =>
    if p.1.stop then p
    else
      let (r', e) := qReadEntry p.1 u c qn
      (r', p.2 ++ e)) (r, [])
  (r, bs.take n)

/-- The part of `n` bytes from offset `off` that lies inside a buffer of `len` bytes. -/
def insideLen (len off n : Nat) : Nat := min n (len - off)

/-- A DRAM access of `u` that a refresh window holds is counted (R270, event 0x48). -/
def countHeld (s : State) (u : UAddr) (a : Nat) : State :=
  match placeOf s a with
  | .dram d => if (s.dies.getD d {}).refreshing.any (fun e => decide (s.time.now < e)) then countUnit s u 0x48 1 else s
  | _ => s

/-- Read `n` bytes of a transfer's source (R284): local memory, a peer, a host buffer; reserved addresses read zero. -/
def movRead (r : MovRun) (u : UAddr) (c space a n : Nat) : MovRun × List Byte :=
  if space = 1 then
    let b := (bufsOf r.s c).getD (a / 2 ^ 36) 0
    let k := insideLen (bufLen b) (a % 2 ^ 36) n
    ({ r with ext := r.ext.drop k }, (r.ext.take k) ++ List.replicate (n - (r.ext.take k).length) 0)
  else if a / 2 ^ 36 = devnum r.s then
    let g := busRead r.s (a % 2 ^ 36) n
    if g.poisoned || g.uncorrectable then ({ r with s := engineFault r.s u (badCause g) g.at_, stop := true }, [])
    else ({ r with s := countHeld (countRead r.s (a % 2 ^ 36) n) u (a % 2 ^ 36) }, g.bytes)
  else
    match routeTo r.s (a / 2 ^ 36) with
    | none => (r, List.replicate n 0)
    | some _ => ({ r with ext := r.ext.drop n }, (r.ext.take n) ++ List.replicate (n - (r.ext.take n).length) 0)

/-- An output to the host (R332, R459): written, or kept with its item while the host cannot be written. -/
def hostOut (s : State) (sl : Option Slice) (a : Nat) (bs : List Byte) : State :=
  if bs = [] then s
  else if canWrite s then s.emit (.hostWrite a bs)
  else
    match sl with
    | none => s
    | some sl => { s with items := s.items.map (fun i =>
        if i.queue = sl.queue.toNat ∧ i.seq = sl.seq.toNat then { i with outputs := i.outputs ++ [(a, bs)] } else i) }

/-- Write a transfer at its destination (R284, R279); `src` is where its source buffer lies in this device, for link narrowing. -/
def movWrite (r : MovRun) (u : UAddr) (c space a : Nat) (src : Option Nat) (mirror : Bool) (bs : List Byte) : MovRun :=
  if bs = [] then r
  else if space = 1 then
    let b := (bufsOf r.s c).getD (a / 2 ^ 36) 0
    let k := insideLen (bufLen b) (a % 2 ^ 36) bs.length
    let s := hostOut r.s (unitOf r.s (clusterUnit c)).held.head? (bufAddr b + a % 2 ^ 36) (bs.take k)
    { r with s := if k < bs.length then dropWrite s u a else s }
  else if a / 2 ^ 36 = devnum r.s then { r with s := countHeld (busWrite r.s u (a % 2 ^ 36) bs mirror) u (a % 2 ^ 36) }
  else { r with s := remoteWrite r.s u (unitOf r.s (clusterUnit c)).held.head? src a bs }

/-- Where a mover's source lies in this device's memory, if it does. -/
def localSource (s : State) (space a : Nat) : Option Nat := if space = 0 ∧ a / 2 ^ 36 = devnum s then some (a % 2 ^ 36) else none

/-- The transfers of a line (R286): offsets and lengths, none above 2 KiB or across a 2 KiB boundary of either address. -/
def transfers (a b : Nat) : Nat → Nat → Nat → List (Nat × Nat)
  | 0, _, _ => []
  | fuel + 1, off, n =>
    if n = 0 then []
    else
      let k := min n (min (2048 - (a + off) % 2048) (2048 - (b + off) % 2048))
      (off, k) :: transfers a b fuel (off + k) (n - k)

def lineTransfers (a b n : Nat) : List (Nat × Nat) := transfers a b (n / 1024 + 3) 0 n

/-- The bytes of a FILL line: the pattern repeated little-endian (R285). -/
def fillBytes (pattern n : Nat) : List Byte :=
  let p := bytesLE 4 pattern
  (List.range n).map (fun i => p.getD (i % 4) 0)

def movPitch (p : BitVec 28) : Int := signedOf 28 p.toNat

/-- One line of a COPY (R285, R286), each transfer read completely before it is written. -/
def copyLine (u : UAddr) (c : Nat) (cmd : MovCmd) (r : MovRun) (i : Nat) : MovRun :=
  let n := cmd.length.toNat
  let a := addrPlus cmd.src.toNat ((i : Int) * movPitch cmd.srcPitch)
  let b := addrPlus cmd.dst.toNat ((i : Int) * movPitch cmd.dstPitch)
  let mirror := cmd.mirror == 1
  let ss := cmd.srcSpace.toNat
  let ds := cmd.dstSpace.toNat
  if r.stop then r
  else if ss = 2 || ds = 2 then
    let (r, bs) := if ss = 2 then qReadLine r u c (cmd.src.toNat % 64) n else movRead r u c ss a n
    if r.stop then r
    else if ds = 2 then { r with s := qWriteLine r.s u c (cmd.dst.toNat % 64) (cmd.packet == 1) bs }
    else (lineTransfers 0 b n).foldl (fun r t =>
      movWrite r u c ds (addrPlus b (t.1 : Nat)) (some (clusterBase c + 64 * (qrecOf r.s c (cmd.src.toNat % 64)).base)) mirror
        ((bs.drop t.1).take t.2)) r
  else
    (lineTransfers a b n).foldl (fun r t =>
      if r.stop then r
      else
        let (r, bs) := movRead r u c ss (addrPlus a (t.1 : Nat)) t.2
        if r.stop then r
        else movWrite r u c ds (addrPlus b (t.1 : Nat)) (localSource r.s ss (addrPlus a (t.1 : Nat))) mirror bs) r

/-- One line of a FILL. -/
def fillLine (u : UAddr) (c : Nat) (cmd : MovCmd) (r : MovRun) (i : Nat) : MovRun :=
  let n := cmd.length.toNat
  let b := addrPlus cmd.dst.toNat ((i : Int) * movPitch cmd.dstPitch)
  let bs := fillBytes (cmd.src.toNat % 2 ^ 32) n
  if cmd.dstSpace = 2 then { r with s := qWriteLine r.s u c (cmd.dst.toNat % 64) (cmd.packet == 1) bs }
  else (lineTransfers 0 b n).foldl (fun r t =>
    movWrite r u c cmd.dstSpace.toNat (addrPlus b (t.1 : Nat)) none (cmd.mirror == 1) ((bs.drop t.1).take t.2)) r

/-- One destination position of a RELAY: every group of its source row, or zeros (R163). -/
def relayRow (u : UAddr) (c : Nat) (cmd : MovCmd) (src : Option (Nat × Nat)) (r : MovRun) : MovRun × List Byte :=
  let n := cmd.length.toNat
  match src with
  | none => (r, List.replicate (n * cmd.groups.toNat) 0)
  | some (sy, sx) =>
    (List.range cmd.groups.toNat).foldl (fun (p : MovRun × List Byte) g =>
      if p.1.stop then p
      else
        let a := addrPlus cmd.src.toNat
          ((sy * cmd.linePitch.toNat * 64 + g * cmd.groupPitch.toNat * 64 : Nat) + (sx : Int) * movPitch cmd.srcPitch)
        let (r, bs) := movRead p.1 u c cmd.srcSpace.toNat a n
        (r, p.2 ++ bs)) (r, [])

/-- A whole RELAY: KW × KH planes of OW × OH positions. -/
def relayRun (u : UAddr) (c : Nat) (cmd : MovCmd) (g : RelayGeo) (r : MovRun) : MovRun :=
  let x := relayX g
  let y := relayY g
  let n := x.outSize * y.outSize
  (List.range (x.k * y.k)).foldl (fun r plane =>
    (List.range n).foldl (fun r q =>
      if r.stop then r
      else
        let (r, bs) := relayRow u c cmd (gridSource x y (g.padMode == 1) q (plane / x.k) (plane % x.k)) r
        if r.stop then r
        else movWrite r u c cmd.dstSpace.toNat
          (addrPlus cmd.dst.toNat ((plane * cmd.planePitch.toNat * 64 : Nat) + (q : Int) * movPitch cmd.dstPitch))
          (localSource r.s cmd.srcSpace.toNat cmd.src.toNat) (cmd.mirror == 1) bs) r) r

/-! ## Commands -/

/-- A RELAY writes nothing: no group, or an empty output (R287). -/
def relayEmpty (cmd : MovCmd) (g : RelayGeo) : Bool :=
  cmd.length == 0 || cmd.groups == 0 || (relayX g).outSize = 0 || (relayY g).outSize = 0 || (relayX g).k = 0 || (relayY g).k = 0

/-- A queue field names a queue of non-zero depth and nothing else (R284, R289). -/
def queueFieldOk (s : State) (c : Nat) (f : BitVec 42) : Bool :=
  f.toNat < 64 && (qrecOf s c f.toNat).depth != 0

/-- The checks of R289 on a command that moves something. -/
def movOk (s : State) (c : Nat) (cmd : MovCmd) : Bool :=
  cmd.srcSpace != 3 && cmd.dstSpace != 3 && cmd.linePitch == 0 && cmd.planePitch == 0 && cmd.groupPitch == 0 && cmd.groups == 0
    && (cmd.srcSpace != 2 || cmd.opcode == 2 || queueFieldOk s c cmd.src) && (cmd.dstSpace != 2 || queueFieldOk s c cmd.dst)

/-- The checks of R289 and R162 on a RELAY: a grid mover, no LINES, addresses in memory. -/
def relayCmdOk (m : Nat) (cmd : MovCmd) (g : RelayGeo) : Bool :=
  m < 2 && cmd.lines == 0 && cmd.groups.toNat ≤ 8 && relayOk g && cmd.srcSpace.toNat < 2 && cmd.dstSpace.toNat < 2

/-- The minimum efficient size of a command's target, the slower of its ends (R288). -/
def endSize (s : State) (space : Nat) (a : Nat) : Nat :=
  if space = 1 then 512
  else if space = 2 then 256
  else if a / 2 ^ 36 ≠ devnum s then 1024
  else match placeOf s (a % 2 ^ 36) with
    | .dram _ => 2048
    | _ => 256
def cmdMinSize (s : State) (cmd : MovCmd) : Nat :=
  max (if cmd.opcode = 2 then 0 else endSize s cmd.srcSpace.toNat cmd.src.toNat) (endSize s cmd.dstSpace.toNat cmd.dst.toNat)

/-- Transfers of a command and the cycles they cost the mover (R286, R288). -/
def cmdTransfers (cmd : MovCmd) : List Nat :=
  (List.range cmd.lines.toNat).flatMap (fun i =>
    let b := addrPlus cmd.dst.toNat ((i : Int) * movPitch cmd.dstPitch)
    let a := if cmd.opcode = 2 then 0 else addrPlus cmd.src.toNat ((i : Int) * movPitch cmd.srcPitch)
    (lineTransfers a b cmd.length.toNat).map (fun t => t.2))
def transferCycles (minSize : Nat) (ts : List Nat) : Nat := (ts.map (fun b => ceilDiv (max b minSize) 256)).sum

def modMov (s : State) (c m : Nat) (f : MovSt → MovSt) : State := modCluster s c (fun x => { x with movers := lmod x.movers m f })
def movOf (s : State) (c m : Nat) : MovSt := (clusterOf s c).movers.getD m {}

/-- The command has run: it is reported complete later (R287); what it cost is counted (R288, event 0x44). -/
def movDone (s : State) (c m : Nat) (u : UAddr) (ts : List Nat) (minSize cycles : Nat) : State :=
  let s := modMov (stream s u (ts.map (fun _ => []))).2 c m (fun x => { x with
    eng := { x.eng with busy := x.eng.busy ++ [0], cycles := x.eng.cycles + cycles }
    toIssue := x.toIssue + ts.length, minSize := minSize })
  countUnit s u 0x44 cycles

/-- The unit that runs a command of mover `m` of cluster `c` (R358). -/
def movUnit (s : State) (c m : Nat) : UAddr := engineFor s (moverUnit c m)

/-- Does the command touch the host while the host cannot be read? Then it waits (R459). -/
def waitsForHost (s : State) (cmd : MovCmd) : Bool := cmd.opcode != 2 && cmd.srcSpace == 1 && !canMaster s

/-- Does a command of `n` bytes find the 1 MiB that its destination device may hold taken (R480)? Then it waits; a longer command waits until
nothing is held. -/
def waitsForPeer (s : State) (cmd : MovCmd) (n : Nat) : Bool :=
  let d := cmd.dst.toNat / 2 ^ 36
  cmd.dstSpace == 0 && d != devnum s && heldBytes s d != 0 && decide (2 ^ 20 < heldBytes s d + n)

/-- Entries that a command's lines need in its queue destination, and whether they fit (R292, R294): a packet beyond DEPTH
faults. -/
def queueNeed (s : State) (c : Nat) (cmd : MovCmd) : Nat :=
  cmd.lines.toNat * qEntries (qrecOf s c (cmd.dst.toNat % 64)) (cmd.packet == 1) cmd.length.toNat
def packetTooLong (s : State) (c : Nat) (cmd : MovCmd) : Bool :=
  cmd.packet == 1 && (qrecOf s c (cmd.dst.toNat % 64)).depth < qEntries (qrecOf s c (cmd.dst.toNat % 64)) true cmd.length.toNat

/-- A COPY or FILL runs, line by line; `line` is one line of it. -/
def movLines (s : State) (c m : Nat) (u : UAddr) (cmd : MovCmd) (ext : List Byte)
    (line : UAddr → Nat → MovCmd → MovRun → Nat → MovRun) : State :=
  if cmd.length = 0 || cmd.lines = 0 then movDone s c m u [] 256 0
  else if !movOk s c cmd then engineFault s u causeCommand 0
  else if cmd.dstSpace = 2 && packetTooLong s c cmd then engineFault s u causeCommand 0
  else if waitsForHost s cmd || waitsForPeer s cmd (cmd.lines.toNat * cmd.length.toNat) || (cmd.dstSpace = 2 && qFree (qrecOf s c (cmd.dst.toNat % 64)) < queueNeed s c cmd) then s
  else
    let r := (List.range cmd.lines.toNat).foldl (line u c cmd) { s := s, ext := ext, stop := false }
    if r.stop then r.s
    else
      let ts := cmdTransfers cmd
      let k := cmdMinSize s cmd
      movDone r.s c m u ts k (transferCycles k ts)

/-- A command reaches mover `m` of cluster `c`: nothing runs on a mover out of service. -/
def movCommand (c : BitVec 3) (m : Nat) (s : State) (f : State → UAddr → State) : Out :=
  let u := movUnit s c.toNat m
  if stopped s || 6 ≤ m || !canRun s u then .next s else .next (f s u)

/-- MOVER_NOP (R287). -/
def execMoverNop (c : BitVec 3) (m : Nat) (_cmd : MovCmd) (s : State) : Out :=
  movCommand c m s (fun s u => movDone s c.toNat m u [] 256 0)

/-- MOVER_COPY (R285, R286): `ext` holds, in order, the bytes that the reads of the host and of peers return. -/
def execMoverCopy (c : BitVec 3) (m : Nat) (cmd : MovCmd) (ext : List Byte) (s : State) : Out :=
  movCommand c m s (fun s u => movLines s c.toNat m u { cmd with opcode := 1 } ext copyLine)

/-- MOVER_FILL (R285): a pattern field beyond 32 bits is a reserved value (R283). -/
def execMoverFill (c : BitVec 3) (m : Nat) (cmd : MovCmd) (s : State) : Out :=
  movCommand c m s (fun s u =>
    if 2 ^ 32 ≤ cmd.src.toNat then engineFault s u causeCommand 0
    else movLines s c.toNat m u { cmd with opcode := 2 } [] fillLine)

/-- MOVER_RELAY (R163, R164, R285): `x.ext` holds, in order, the bytes that the reads of the host and of peers return. -/
def execMoverRelay (c : BitVec 3) (m : Nat) (cmd : MovCmd) (x : RelayIn) (s : State) : Out :=
  movCommand c m s (fun s u =>
    let g := x.geo
    if !relayCmdOk m cmd g then engineFault s u causeCommand 0
    else if relayEmpty cmd g then movDone s c.toNat m u [] 256 0
    else
      let row := cmd.length.toNat * cmd.groups.toNat
      let n := (relayX g).outSize * (relayY g).outSize * (relayX g).k * (relayY g).k
      let r := relayRun u c.toNat cmd g { s := s, ext := x.ext, stop := false }
      if waitsForHost s { cmd with opcode := 3 } || waitsForPeer s cmd (n * row) then s
      else if r.stop then r.s
      else
        movDone r.s c.toNat m u (List.replicate n (min row 2048)) (cmdMinSize s cmd) (n * max 1 (ceilDiv row 256)))

/-- MOVER_FLUSH (R295): a flush of an empty queue is done at once; otherwise it waits for both ends' packet boundaries. -/
def execMoverFlush (c : BitVec 3) (m : Nat) (cmd : MovCmd) (s : State) : Out :=
  movCommand c m s (fun s u =>
    if !queueFieldOk s c.toNat cmd.dst || !movOk s c.toNat { cmd with opcode := 2 } then engineFault s u causeCommand 0
    else
      let q := cmd.dst.toNat
      let s' := movDone s c.toNat m u [] 256 0
      if qEmpty s c.toNat (qrecOf s c.toNat q) then s'
      else modMov (modQrec s' c.toNat q (fun x => { x with flushPend := true })) c.toNat m (fun x => { x with flushing := some q }))

/-- QUEUE_FLUSH_EFFECT (R295): writer and reader stand at packet boundaries; RPTR := WPTR. A packet is written as a whole, so
the writer always stands at one. -/
def execQueueFlushEffect (c : BitVec 3) (q : BitVec 6) (s : State) : Out :=
  let x := qrecOf s c.toNat q.toNat
  if stopped s || !x.flushPend || (x.packetised && x.readLeft != 0) then .next s
  else .next (modQrec s c.toNat q.toNat (fun x => { x with rptr := x.wptr, rptr2 := x.wptr, flushPend := false }))

/-- The transfer slots of a mover (R286). -/
def movSlots (m : Nat) : Nat := if m < 2 then 64 else 96

/-- MOVER_TRANSFER_ISSUE (R286): a transfer read issues with a slot and a credit; without either the mover waits. A transfer
that finds every slot taken waits for the landing of the oldest. -/
def execMoverTransferIssue (c : BitVec 3) (m : Nat) (bytes : Nat) (destCredit : Bool) (s : State) : Out :=
  movCommand c m s (fun s u =>
    let x := movOf s c.toNat m
    if x.toIssue = 0 then s
    else if !destCredit then countUnit s u 0x47 1
    else
      let s := if movSlots m ≤ x.outstanding then countUnit s u 0x47 1 else s
      let s := modMov s c.toNat m (fun x => { x with
        toIssue := x.toIssue - 1, outstanding := min (movSlots m) (x.outstanding + 1) })
      let s := countUnit s u 0x45 1
      if bytes < x.minSize then countUnit s u 0x46 1 else s)

/-- MOVER_COMMAND_COMPLETE (R287): the oldest command's last write has landed; a FLUSH completes once its flush has taken
effect. -/
def execMoverCommandComplete (c : BitVec 3) (m : Nat) (t : Time) (s : State) : Out :=
  timed s t (fun s =>
    let x := movOf s c.toNat m
    match x.eng.busy with
    | [] => s
    | _ :: rest =>
      if (x.flushing.map (fun q => (qrecOf s c.toNat q).flushPend)).getD false || !clocked s (movUnit s c.toNat m) then s
      else
        let s := modMov s c.toNat m (fun x => { x with
          eng := { x.eng with busy := rest }, toIssue := 0, outstanding := 0, flushing := none })
        completeStep s (clusterEng c.toNat 7 6 0) (moverUnit c.toNat m) [movUnit s c.toNat m])

/-! ## Pointer mismatches (R296, R147) -/

/-- The slices of `u` are re-issued by its parent, with the unit's own state as it stands. -/
def reissueUnit (s : State) (u : UAddr) : State :=
  let v := if uLevel u = 0 then parentOf u else u
  let again := (unitOf s v).held.take 1
  let s := markReissued s again
  let s := modUnit s v (fun x => { x with reissues := x.reissues + again.length, kidsDone := [] })
  let s := countUnit s v 0x33 again.length
  match again with
  | [] => s
  | sl :: _ => sliceStart s v sl

/-- QUEUE_POINTER_MISMATCH (R296): the queue is reset, a fault names its owner, the writer's and the reader's slices are
re-issued. -/
def execQueuePointerMismatch (owner : QueueOwner) (t : Time) (s : State) : Out :=
  timed s t (fun s =>
    match owner with
    | .clusterQueue c q =>
      let x := qrecOf s c.toNat q.toNat
      let s := modQrec s c.toNat q.toNat freshQueue
      let s := recordFault s (clusterEng c.toNat 7 6 0) causePointer 1 0
      let s := reissueUnit s x.writer
      if parentOf x.reader = parentOf x.writer ∧ uLevel x.reader = 0 ∧ uLevel x.writer = 0 then s else reissueUnit s x.reader
    | .tileQueue k =>
      if 48 ≤ k then s
      else
        let s := modCore s k (fun c => { c with tq := [], maWait := [], veWait := [] })
        let s := recordFault s (coreEng k 6 0) causePointer 1 0
        reissueUnit s (coreUnit k)
    | .streamFifo e =>
      if !unitValid e || uLevel e ≠ 0 then s
      else
        let s := modEngMem s e (fun m => { m with fifo := {} })
        let s := recordFault s (if uCore e ≤ 5 then coreEng (coreNo e) 6 0 else clusterEng (uCluster e) 7 6 0) causePointer 1 0
        reissueUnit s e)

end Sys2Proof.Machine
end

