-- ==== Sys2Proof/Machine/Carrier.lean ====
section
/-! DEFINITION. Machine/Carrier.lean: the carrier configuration in force, slot and symbol timing, windows (R377, R386, R387 of
spec/12_time_and_constellations.md; R426, R427 of spec/13_object_dictionary.md; R61, R305, R319). -/

namespace Sys2Proof.Machine

/-! ## Carrier records (R426, R427) -/

/-- The defaults of subindices 0x01 to 0x15 of a CARRIER record (R427). -/
def carrierDefaults : List Nat := [0, 1, 1, 1, 273, 0, 0, 0, 0, 0, 0, 4096, 0, 0, 0, 0, 0, 0, 0x19, 0x19, 4]

/-- The subindices of the fixed fields in the order of R431. -/
def fixedSubs : List Nat := [2, 3, 4, 5, 6, 7, 8, 12]

def carrierIndex (c k : Nat) : Nat := 0x4000 + 0x80 * c + k

/-- Field `sub` of carrier `c`'s CARRIER record, in force. -/
def carField (s : State) (c sub : Nat) : Nat := inForce s (carrierIndex c 0) sub (carrierDefaults.getD (sub - 1) 0)
/-- Field `sub` of object `k` of carrier `c`, in force; the default of every other carrier object is 0. -/
def carObj (s : State) (c k sub : Nat) : Nat := inForce s (carrierIndex c k) sub 0

/-- The value in force at time `t` of the RWS object `idx:sub` (R56): before a later commit, or after the pending commits that take
effect by `t`. -/
def inForceAt (s : State) (idx sub dflt : Nat) (t : Time) : Nat :=
  let k := 256 * idx + sub
  match s.obj.past.find? (fun p => decide (t < p.1) && p.2.any (fun v => v.1 == k)) with
  | some p => ((p.2.find? (fun v => v.1 == k)).elim none (fun v => v.2)).getD dflt
  | none =>
    ((s.obj.commits.filter (fun c => c.target ≤ t)).foldl (fun v c => (tget c.vals k).getD v) (inForce s idx sub dflt))

/-- A carrier's objects as they are in force at a slot start (R56). -/
def carObjAt (s : State) (c k sub : Nat) (t : Time) : Nat := inForceAt s (carrierIndex c k) sub 0 t
def carFieldAt (s : State) (c sub : Nat) (t : Time) : Nat :=
  inForceAt s (carrierIndex c 0) sub (carrierDefaults.getD (sub - 1) 0) t

def carEnabled (s : State) (c : Nat) : Bool := carField s c 1 = 1
def carMu (s : State) (c : Nat) : Nat := carField s c 4

/-! ## 32-bit times (R377) -/

/-- A 32-bit field extended to the 64-bit network time nearest `ref`; exactly half a wrap is the earlier time. -/
def extend32 (low ref : Nat) : Nat :=
  let d := (low + 2 ^ 32 - ref % 2 ^ 32) % 2 ^ 32
  if 2 ^ 31 ≤ d then ref + d - 2 ^ 32 else ref + d

/-! ## Meridians, slots and symbols (R386, R387) -/

def meridianOffset (s : State) : Nat := rwVal s 0x1209 1 0
def sfnOffset (s : State) : Nat := rwVal s 0x1209 2 0

/-- Nanoseconds since the latest Meridian. -/
def inSubframe (s : State) (t : Time) : Nat := (t + 1000000 - meridianOffset s) % 1000000
/-- A count of subframes that grows by one at every Meridian. -/
def subframeCount (s : State) (t : Time) : Nat := (t + 1000000 - meridianOffset s) / 1000000
/-- A Meridian falls at `t` (R386). -/
def isMeridian (s : State) (t : Time) : Bool := inSubframe s t = 0
/-- The first Meridian at or after `t`. -/
def meridianFrom (s : State) (t : Time) : Time := t + (1000000 - inSubframe s t) % 1000000

def subframeAt (s : State) (t : Time) : Nat :=
  ((((t : Int) - (meridianOffset s : Int)) / 1000000) % 10).toNat
def sfnAt (s : State) (t : Time) : Nat :=
  (((((t : Int) - (meridianOffset s : Int)) / 10000000) + (sfnOffset s : Int)) % 1024).toNat

/-- The start of symbol `l` of a subframe of numerology `mu`, in whole ns at or below the exact instant: a symbol lasts 2,192
units of 1 / (30.72 MHz × 2^mu), the first of each half subframe 16 × 2^mu units more (TS 38.211, normal cyclic prefix). -/
def symbolStart (mu l : Nat) : Nat :=
  let long := if l = 0 then 0 else if l ≤ 7 * 2 ^ mu then 1 else 2
  (2192 * l + 16 * 2 ^ mu * long) * 15625 / (480 * 2 ^ mu)

/-- The start of symbol `l` counted on from a subframe's first, later subframes included. -/
def symbolTime (mu l : Nat) : Nat := l / (14 * 2 ^ mu) * 1000000 + symbolStart mu (l % (14 * 2 ^ mu))

/-- The slot of its subframe that starts at `tau` ns after the Meridian. -/
def slotStarting (mu tau : Nat) : Option Nat := (List.range (2 ^ mu)).find? (fun j => symbolStart mu (14 * j) = tau)
/-- The slot of its subframe that `tau` lies in. -/
def slotWithin (mu tau : Nat) : Nat := ((List.range (2 ^ mu)).filter (fun j => symbolStart mu (14 * j) ≤ tau)).length - 1
/-- A count of slots of numerology `mu`, one higher for each slot (R387). -/
def slotNumber (s : State) (mu : Nat) (t : Time) : Nat := subframeCount s t * 2 ^ mu + slotWithin mu (inSubframe s t)
/-- The start of symbol `sym` counted from the first symbol of the slot that starts at `t`. -/
def symbolAt (s : State) (mu : Nat) (t : Time) (sym : Nat) : Time :=
  t - inSubframe s t + symbolTime mu (14 * slotWithin mu (inSubframe s t) + sym)

/-- `t` is a slot boundary of carrier `c`'s numerology (R319). -/
def onSlotGrid (s : State) (c : Nat) (t : Time) : Bool := (slotStarting (carMu s c) (inSubframe s t)).isSome

/-- The PRACH configuration `i` of carrier `c` (R430). -/
def prachConfig (s : State) (c i : Nat) (t : Time) : BitVec 64 := BitVec.ofNat 64 (carObjAt s c 10 (i + 1) t)

/-- `t` is an occasion of PRACH configuration `i` (R319): SLOT_TIME names the start of its first slot. -/
def onPrachGrid (s : State) (c i : Nat) (t : Time) : Bool :=
  let mu := carMu s c
  onSlotGrid s c t &&
    Config.prachOccasion (bitsOf (prachConfig s c i t) 63 56) (carField s c 3) mu (sfnAt s t)
      (subframeAt s t * 2 ^ mu + slotWithin mu (inSubframe s t))

/-! ## Windows (R61, R79, R426) -/

/-- Earliest and latest arrival of symbol `sym` (0 to 13 of the slot it lies in) of the slot at `t`. -/
def ulWindow (s : State) (c : Nat) (t : Time) (sym : Nat) : Time × Time :=
  let e := symbolAt s (carMu s c) t (sym + 1)
  let w := carObjAt s c 5 (sym % 14 + 1) t
  (e + w / 65536 * 10, e + w % 65536 * 10)
/-- Opening and closing of the transmit window of symbol `sym`. -/
def dlWindow (s : State) (c : Nat) (t : Time) (sym : Nat) : Time × Time :=
  let e := symbolAt s (carMu s c) t sym
  let w := carObjAt s c 6 (sym % 14 + 1) t
  (e - w / 65536 * 10, e - w % 65536 * 10)

/-- The instant from which R305 states an opcode's offsets: the close of the last symbol's window, or slot start. `cfg` is the
PRACH configuration. -/
def baseInstant (s : State) (op c : Nat) (t : Time) (cfg : Nat) : Time :=
  if op = 2 then t
  else if op = 3 then
    (ulWindow s c t (Config.prachLastSymbol (bitsOf (prachConfig s c cfg t) 63 56) (carField s c 3))).2
  else (ulWindow s c t 13).2

/-! ## Streams (R426, R469) -/

/-- The streams of carrier `c` in a direction: 0 uplink, 1 downlink. -/
def streamsOf (s : State) (c dir : Nat) : Nat := carField s c (if dir = 1 then 7 else 6)
/-- The port and eAxC ID that a stream is mapped to in a slot. -/
def streamPort (s : State) (c dir i : Nat) (t : Time) : Nat :=
  bitsOf (BitVec.ofNat 32 (carObjAt s c (if dir = 1 then 4 else 3) (i + 1) t)) 20 16
def streamEaxc (s : State) (c dir i : Nat) (t : Time) : Nat := carObjAt s c (if dir = 1 then 4 else 3) (i + 1) t % 65536

def fhPort (s : State) (p : Nat) : FhPort := s.fh.ports.getD p {}
def modFh (s : State) (p : Nat) (f : FhPort → FhPort) : State := { s with fh := { s.fh with ports := lmod s.fh.ports p f } }

/-- A message takes the next ecpriSeqid of its eAxC ID and direction (R467). -/
def nextSeqid (p : FhPort) (key : Nat) : FhPort := { p with seqids := tset p.seqids key (((tget p.seqids key).getD 0 + 1) % 256), tx := p.tx + 1 }

end Sys2Proof.Machine
end

