-- ==== Sys2Proof/Machine/Segment.lean ====
section
/-! DEFINITION. Machine/Segment.lean: what an item's records fix of its transport blocks: the resource elements that carry them, their code
blocks and soft buffers (R247, R254 to R257 of spec/08_channel_coding.md; R315). Segmentation, resource mapping and the pseudo-random
sequence are those of TS 38.211 and TS 38.212, which the spec names without giving them (log entry 8). -/

namespace Sys2Proof.Machine

/-! ## Allocation records (R315, R254) -/

def aContext (a : BitVec 256) : Nat := bitsOf a 255 236
def aKind (a : BitVec 256) : Nat := bitsOf a 235 234
def aPrbStart (a : BitVec 256) : Nat := bitsOf a 233 225
def aPrbCount (a : BitVec 256) : Nat := bitsOf a 224 216
def aSymStart (a : BitVec 256) : Nat := bitsOf a 215 212
def aSymCount (a : BitVec 256) : Nat := bitsOf a 211 208
def aLayers (a : BitVec 256) : Nat := bitsOf a 207 204
def aQm (a : BitVec 256) : Nat := bitsOf a 203 200
def aRate (a : BitVec 256) : Nat := bitsOf a 199 190
def aProfile (a : BitVec 256) : Nat := bitsOf a 189 186
def aPort (a : BitVec 256) : Nat := bitsOf a 185 182
def aDfts (a : BitVec 256) : Bool := bitOf a 181
def aNid (a : BitVec 256) : Nat := bitsOf a 179 170
def aRnti (a : BitVec 256) : Nat := bitsOf a 169 154
def aPrecode (a : BitVec 256) : Bool := bitOf a 180
def aTbs (a : BitVec 256) : Nat := bitsOf a 153 130
def aProcess (a : BitVec 256) : Nat := bitsOf a 127 123
/-- Redundancy version (R254). -/
def aRv (a : BitVec 256) : Nat := bitsOf a 121 120
def aNew (a : BitVec 256) : Bool := bitOf a 122
def aLbrm (a : BitVec 256) : Bool := bitOf a 119
def aUciProfile (a : BitVec 256) : Nat := bitsOf a 95 90
def aAckBits (a : BitVec 256) : Nat := bitsOf a 89 79
def aCsi1Bits (a : BitVec 256) : Nat := bitsOf a 78 68
def aCsi2Bits (a : BitVec 256) : Nat := bitsOf a 67 57
def aSr (a : BitVec 256) : Bool := bitOf a 56
def aUci (a : BitVec 256) : Bool := bitsOf a 89 57 != 0 || bitOf a 56
def aDataBuf (a : BitVec 256) : Nat := bitsOf a 47 42
def aDataOff (a : BitVec 256) : Nat := bitsOf a 41 6

/-! ## Code blocks (R247) -/

/-- The 51 lifting sizes of TS 38.212: a × 2^j up to 384. -/
def liftSizes : List Nat :=
  ([2, 3, 5, 7, 9, 11, 13, 15].flatMap (fun a => (List.range 8).map (fun j => a * 2 ^ j))).filter (fun z => 2 ≤ z && z ≤ 384)

/-- The set index of a lifting size. -/
def liftIndex (z : Nat) : Nat :=
  ([2, 3, 5, 7, 9, 11, 13, 15].findIdx (fun a => (List.range 8).any (fun j => a * 2 ^ j == z)))

/-- Systematic block columns, and block columns of the circular buffer. -/
def ldpcKb (bg2 : Bool) : Nat := if bg2 then 10 else 22
def ldpcN (bg2 : Bool) : Nat := if bg2 then 50 else 66
def ldpcRows (bg2 : Bool) : Nat := if bg2 then 42 else 46

/-- The code blocks of a transport block: base graph, number, K′, lifting size, filler bits. -/
structure Seg where
  bg2 : Bool
  blocks : Nat
  kp : Nat
  z : Nat
  f : Nat
deriving DecidableEq, Repr

/-- Base graph 2 for short blocks and low rates (TS 38.212). -/
def segBg2 (tbs rate : Nat) : Bool := tbs ≤ 292 || (tbs ≤ 3824 && rate * 100 ≤ 67 * 1024) || rate ≤ 256

/-- Length of a transport block's CRC: CRC24A above 3,824 bits, else CRC16 (R249). -/
def tbCrcLen (tbs : Nat) : Nat := if 3824 < tbs then 24 else 16
/-- Its code in a coding-engine command. -/
def tbCrcCode (tbs : Nat) : Nat := if 3824 < tbs then 1 else 3

/-- The systematic columns that the lifting size is chosen for. -/
def segKb (bg2 : Bool) (b : Nat) : Nat := if !bg2 then 22 else if 640 < b then 10 else if 560 < b then 9 else if 192 < b then 8 else 6

/-- The least lifting size at or above `z`. -/
def liftFrom (z : Nat) : Nat := (liftSizes.filter (fun x => decide (z ≤ x))).foldl min 384

/-- Segmentation of a transport block of `tbs` bits at code rate × 1,024 `rate`: none for no block. -/
def segOf (tbs rate : Nat) : Seg :=
  let bg2 := segBg2 tbs rate
  let b := tbs + tbCrcLen tbs
  let most := if bg2 then 3840 else 8448
  let c := if tbs = 0 then 0 else if b ≤ most then 1 else ceilDiv b (most - 24)
  let kp := if c = 0 then 0 else ceilDiv (if c = 1 then b else b + 24 * c) c
  let z := liftFrom (ceilDiv kp (segKb bg2 b))
  { bg2 := bg2, blocks := c, kp := kp, z := z, f := ldpcKb bg2 * z - kp }

/-- The circular-buffer length of a code block; `lbrm` holds the transport-block size that limits it, if one does. -/
def segNcb (g : Seg) (lbrm : Option Nat) : Nat :=
  let n := ldpcN g.bg2 * g.z
  match lbrm with
  | none => n
  | some t => min n (3 * t / (2 * max g.blocks 1))

/-- The rate-matched length of code block `j` of `c`, of `g` coded bits on `nl` layers. -/
def segE (g nl qm c j : Nat) : Nat :=
  let u := nl * qm
  if c = 0 ∨ u = 0 then 0
  else if j + g / u % c < c then u * (g / u / c) else u * ceilDiv (g / u) c

/-- Bytes between two code blocks of a soft buffer's half (R255), and of the half. -/
def blockPitch (ncb : Nat) : Nat := ceilDiv ncb 64 * 64
def halfBytes (g : Seg) (ncb : Nat) : Nat := g.blocks * blockPitch ncb

/-- Limited-buffer rate matching holds where the record asks for it and the carrier configuration permits it (R247, R254). -/
def lbrmOf (s : State) (c : Nat) (a : BitVec 256) (t : Time) : Option Nat :=
  if aLbrm a && carFieldAt s c 14 t == 1 then some (Config.lbrmTbs (carField s c 5) (aLayers a)) else none

/-- The circular-buffer length of a data record of carrier `c` in the slot at `t`. -/
def aNcb (s : State) (c : Nat) (a : BitVec 256) (t : Time) : Nat := segNcb (segOf (aTbs a) (aRate a)) (lbrmOf s c a t)

/-! ## The pseudo-random sequence of TS 38.211 -/

/-- One step of a 31-bit register with feedback taps `taps`. -/
def lfsrStep (taps r : Nat) : Nat :=
  let fb := ((List.range 31).filter (fun i => taps.testBit i && r.testBit i)).length % 2
  r / 2 + fb * 2 ^ 30

/-- `n` bits from the two registers. -/
def goldFrom : Nat → Nat → Nat → List Bool
  | 0, _, _ => []
  | n + 1, x, y => (x.testBit 0 != y.testBit 0) :: goldFrom n (lfsrStep 9 x) (lfsrStep 15 y)

/-- The registers after 1,600 steps. -/
def goldSkip : Nat → Nat → Nat → Nat × Nat
  | 0, x, y => (x, y)
  | n + 1, x, y => goldSkip n (lfsrStep 9 x) (lfsrStep 15 y)

/-- The first `n` bits of the sequence that `cinit` starts. -/
def goldBits (cinit n : Nat) : List Bool :=
  let r := goldSkip 1600 1 (cinit % 2 ^ 31)
  goldFrom n r.1 r.2

/-- The scrambling sequence of codeword 0 of a data channel. -/
def scrambling (rnti nId n : Nat) : List Bool := goldBits (rnti * 2 ^ 15 + nId) n

/-! ## Resource elements (R58, R428) -/

/-- A profile's fields. -/
def dmType (w : BitVec 64) : Nat := bitsOf w 63 62
def dmDouble (w : BitVec 64) : Bool := bitOf w 60
def dmMarks (w : BitVec 64) (sym : Nat) : Bool := bitOf w (46 + sym)
def dmCdmNoData (w : BitVec 64) : Nat := bitsOf w 45 44
def dmScrambling (w : BitVec 64) : Nat := bitsOf w 43 28
def dmPtrs (w : BitVec 64) : Bool := bitOf w 27
def dmPtrsTime (w : BitVec 64) : Nat := 2 ^ bitsOf w 26 25
def dmPtrsFreq (w : BitVec 64) : Nat := if bitsOf w 24 23 = 0 then 2 else 4

/-- The CDM group of a subcarrier of a DMRS symbol. -/
def cdmGroup (w : BitVec 64) (sc : Nat) : Nat := if dmType w = 2 then sc % 6 / 2 else sc % 2

/-- The DMRS profile of a record. -/
def profileOf (s : State) (c : Nat) (a : BitVec 256) (t : Time) : BitVec 64 := BitVec.ofNat 64 (carObjAt s c 8 (aProfile a + 1) t)

/-- The symbols of a record, and its DMRS symbols. -/
def aSyms (a : BitVec 256) : List Nat := (List.range (aSymCount a)).map (fun i => aSymStart a + i)
def dmSyms (w : BitVec 64) (a : BitVec 256) : List Nat := (aSyms a).filter (dmMarks w)

/-- The PT-RS symbols of a record (TS 38.211): every L-th, counted anew from each DMRS symbol; `fuel` bounds the walk from `ref` + `i` L. -/
def ptrsFrom (dm : List Nat) (last l : Nat) : Nat → Nat → Nat → List Nat
  | 0, _, _ => []
  | fuel + 1, ref, i =>
    if last < ref + i * l then []
    else
      let lo := max (ref + i * l + 1 - l) ref
      match (dm.filter (fun d => decide (lo ≤ d ∧ d ≤ ref + i * l))).getLast? with
      | some d => ptrsFrom dm last l fuel d 1
      | none => (ref + i * l) :: ptrsFrom dm last l fuel ref (i + 1)

def ptrsSyms (w : BitVec 64) (a : BitVec 256) : List Nat :=
  if !dmPtrs w || aSymCount a == 0 then []
  else ptrsFrom (dmSyms w a) (aSymStart a + aSymCount a - 1) (dmPtrsTime w) 64 (aSymStart a) 0

/-- The subcarriers of a record that carry PT-RS, counted from its first. -/
def ptrsScs (w : BitVec 64) (a : BitVec 256) : List Nat :=
  let k := dmPtrsFreq w
  let n := aPrbCount a
  let rb := if n % k = 0 then aRnti a % k else aRnti a % (n % k)
  let port := aPort a
  let re := if dmType w = 2 then [0, 1, 2, 3, 4, 5].getD port 0 else [0, 2, 1, 3].getD port 0
  (List.range (ceilDiv n k)).map (fun i => 12 * (i * k + rb) + re)

/-- The resource elements of a record that carry data, in the order of mapping: symbol, subcarrier of the carrier (TS 38.211). -/
def dataRes (w : BitVec 64) (a : BitVec 256) : List (Nat × Nat) :=
  let pt := ptrsSyms w a
  let ps := ptrsScs w a
  (aSyms a).flatMap (fun sym =>
    ((List.range (12 * aPrbCount a)).filter (fun k =>
      if dmMarks w sym then decide (dmCdmNoData w ≤ cdmGroup w (12 * aPrbStart a + k)) && !aDfts a
      else !(pt.contains sym && ps.contains k))).map (fun k => (sym, 12 * aPrbStart a + k)))

/-- Coded bits of a record. -/
def codedBits (w : BitVec 64) (a : BitVec 256) : Nat := (dataRes w a).length * aLayers a * aQm a

/-- Places of the coded bits that UCI of a KIND takes on the shared channel (TS 38.212; log entry 8). -/
def uciOnData (s : State) (c : Nat) (a : BitVec 256) (t : Time) (kind : Nat) : List Nat :=
  Config.uciPlaces a (profileOf s c a t) ([16, 17, 18].map (fun k => carFieldAt s c k t)) (codedBits (profileOf s c a t) a) kind

/-- Places of the coded bits that the transport block takes. -/
def dataBitPlaces (s : State) (c : Nat) (a : BitVec 256) (t : Time) : List Nat :=
  let n := codedBits (profileOf s c a t) a
  if aKind a == 0 && aUci a then
    let taken := [0, 2, 3].flatMap (uciOnData s c a t)
    (List.range n).filter (fun p => !taken.contains p)
  else List.range n

end Sys2Proof.Machine
end

