-- ==== Sys2Proof/Machine/Items.lean ====
section
/-! DEFINITION. Machine/Items.lean: work items: their fields, the checks at fetch, and the fetching of each opcode (R311 to R323
of spec/10_occupancies_and_queues.md; R85, R88, R254, R345, R346, R402, R403, R457). -/

namespace Sys2Proof.Machine

/-! ## The entry's fields (R311, R314, R316, R345, R402) -/

def eOp (e : BitVec 1024) : Nat := bitsOf e 7 0
def eCarrier (e : BitVec 1024) : Nat := bitsOf e 12 8
def eSeq (e : BitVec 1024) : Nat := bitsOf e 95 64
def eSlot (e : BitVec 1024) : Nat := bitsOf e 127 96
def eDeadline (e : BitVec 1024) : Nat := bitsOf e 159 128
def eBufCount (e : BitVec 1024) : Nat := bitsOf e 191 185
def eBufList (e : BitVec 1024) : Nat := bitsOf e 255 192
def eAllocBuf (e : BitVec 1024) : Nat := bitsOf e 261 256
def eAllocCount (e : BitVec 1024) : Nat := bitsOf e 273 262
def ePath (e : BitVec 1024) : Nat := bitsOf e 275 274
def eRelBuf (e : BitVec 1024) : Nat := bitsOf e 281 276
def eRelCount (e : BitVec 1024) : Nat := bitsOf e 293 282
def eReportBuf (e : BitVec 1024) : Nat := bitsOf e 299 294
def eCtrlBuf (e : BitVec 1024) : Nat := bitsOf e 305 300
def eAuxBuf (e : BitVec 1024) : Nat := bitsOf e 311 306
def eCopy (e : BitVec 1024) : Bool := bitOf e 312
def eInBuf (e : BitVec 1024) : Nat := bitsOf e 261 256
def eOutBuf (e : BitVec 1024) : Nat := bitsOf e 267 262
def eSlotCount (e : BitVec 1024) : Nat := bitsOf e 272 268
def eTrainMode (e : BitVec 1024) : Bool := bitOf e 273
/-- SLOT_REF i of TRAIN_STEP: queue and sequence number. -/
def eSlotRef (e : BitVec 1024) (i : Nat) : Nat × Nat := (bitsOf e (44 * i + 363) (44 * i + 352), bitsOf e (44 * i + 351) (44 * i + 320))
def eRevert (e : BitVec 1024) : Bool := bitOf e 256
def eMoveSrc (e : BitVec 1024) : Nat := bitsOf e 399 358
def eMoveDst (e : BitVec 1024) : Nat := bitsOf e 357 316
def eMoveLen (e : BitVec 1024) : Nat := bitsOf e 315 280
def eMoveDstHost (e : BitVec 1024) : Bool := bitOf e 257
def eMoveSrcHost (e : BitVec 1024) : Bool := bitOf e 256
def eBarOp (e : BitVec 1024) : Nat := bitsOf e 257 256
def eBarMask (e : BitVec 1024) : BitVec 64 := BitVec.ofNat 64 (bitsOf e 321 258)
def eBarT (e : BitVec 1024) : Nat := bitsOf e 353 322
def eBarLead (e : BitVec 1024) : Nat := bitsOf e 369 354
def eBarTag (e : BitVec 1024) : Nat := bitsOf e 377 370
def eCapMode (e : BitVec 1024) : Nat := bitsOf e 257 256
def eCapWrap (e : BitVec 1024) : Bool := bitOf e 258
def eCapKinds (e : BitVec 1024) : Nat := bitsOf e 269 265
def eCapRing (e : BitVec 1024) : Nat := bitsOf e 305 270
def eCapCarriers (e : BitVec 1024) : Nat := bitsOf e 337 306
def eCapBuf (e : BitVec 1024) : Nat := bitsOf e 343 338

/-- The carrier opcodes: UL_SLOT, DL_SLOT, PRACH, SRS_REPORT. -/
def isSlotOp (op : Nat) : Bool := 1 ≤ op && op ≤ 4
/-- The opcodes that carry a deadline (R320). -/
def hasDeadline (op : Nat) : Bool := isSlotOp op || op == 9

/-! ## Well-formed allocation records (R315) -/

/-- A buffer field: used and below BUF_COUNT, or unused and 0 (R314). -/
def bufOk (used : Bool) (bufs f : Nat) : Bool := if used then f < bufs else f == 0

/-- Records in ascending CONTEXT order, and within one context in ascending KIND order. -/
def allocsSorted : List (BitVec 256) → Bool
  | a :: b :: t => (aContext a * 4 + aKind a ≤ aContext b * 4 + aKind b) && allocsSorted (b :: t)
  | _ => true

/-- The modulation of a data record is one that its direction supports (R58): π/2-BPSK with DFT-s-OFDM alone, which has one layer. -/
def qmOk (op : Nat) (a : BitVec 256) : Bool :=
  if op = 2 then [2, 4, 6, 8, 10].contains (aQm a) && !aDfts a
  else [1, 2, 4, 6, 8].contains (aQm a) && (aQm a != 1 || aDfts a) && (!aDfts a || aLayers a ≤ 1)

/-- One allocation record of an item with `bufs` buffers is well formed (R315, R254). -/
def allocOk (op bufs : Nat) (a : BitVec 256) : Bool :=
  aKind a != 3 && aPrbStart a ≤ 274 && aPrbCount a ≤ 275 && aSymStart a ≤ 13 && aSymCount a ≤ 14
    && aLayers a ≤ (if op == 2 then 8 else 4)
    && (aTbs a == 0 || aKind a != 0 || qmOk op a)
    && bitsOf a 129 128 == 0 && bitsOf a 55 48 == 0 && bitsOf a 5 0 == 0 && bitsOf a 118 96 == 0
    && aDataOff a % 64 == 0 && bufOk (aTbs a != 0) bufs (aDataBuf a)

/-! ## REFUSED_FORMAT (R320) -/

/-- The item has an occasion or slot grid for its SLOT_TIME (R319). -/
def onGrid (s : State) (e : BitVec 1024) (slot : Time) : Bool :=
  match eOp e with
  | 1 => onSlotGrid s (eCarrier e) slot
  | 2 => onSlotGrid s (eCarrier e) slot
  | 3 => onPrachGrid s (eCarrier e) (eAllocBuf e) slot
  | 4 => onSlotGrid s (eCarrier e) slot
  | 6 => isMeridian s slot
  | _ => true

/-- Buffer-list entries (R312). -/
def bufEntryOk (b : BitVec 128) : Bool := bufAddr b % 64 == 0 && bitsOf b 27 0 == 0

/-- The header of R311. -/
def headerOk (f : Fetched) (seq : Nat) : Bool :=
  let e := f.entry
  let op := eOp e
  eSeq e == seq && op ≤ 9 && bitsOf e 184 160 == 0 && bitsOf e 63 13 == 0 && eBufCount e ≤ 64
    && (eBufCount e == 0 || eBufList e % 64 == 0) && f.bufs.length == eBufCount e && f.bufs.all bufEntryOk
    && (isSlotOp op || eCarrier e == 0) && (isSlotOp op || op == 6 || eSlot e == 0) && (hasDeadline op || eDeadline e == 0)

/-- The bodies of R314 to R316, R345 and R402. -/
def bodyOk (s : State) (f : Fetched) : Bool :=
  let e := f.entry
  let n := eBufCount e
  let recs := f.allocs.length == eAllocCount e && allocsSorted f.allocs && f.allocs.all (allocOk (eOp e) n)
  match eOp e with
  | 0 => bitsOf e 1023 256 == 0
  | 1 => bitsOf e 1023 313 == 0 && ePath e != 3 && recs && bufOk (eAllocCount e != 0) n (eAllocBuf e)
      && bufOk (eRelCount e != 0) n (eRelBuf e) && f.rels.length == eRelCount e && f.rels.all (fun r => bitsOf r 6 0 == 0)
      && bufOk true n (eReportBuf e) && bufOk true n (eCtrlBuf e) && eAuxBuf e == 0 && !eCopy e
  | 2 => bitsOf e 1023 313 == 0 && recs && bufOk (eAllocCount e != 0) n (eAllocBuf e) && bufOk true n (eCtrlBuf e)
      && bufOk true n (eAuxBuf e) && ePath e == 0 && eRelCount e == 0 && eRelBuf e == 0 && eReportBuf e == 0 && !eCopy e
  | 3 => bitsOf e 1023 313 == 0 && eAllocCount e == 0 && bufOk true n (eReportBuf e) && ePath e == 0 && eRelCount e == 0
      && eRelBuf e == 0 && eCtrlBuf e == 0 && eAuxBuf e == 0 && !eCopy e
  | 4 => bitsOf e 1023 313 == 0 && recs && bufOk (eAllocCount e != 0) n (eAllocBuf e) && bufOk true n (eReportBuf e)
      && bufOk (eCopy e) n (eAuxBuf e) && ePath e == 0 && eRelCount e == 0 && eRelBuf e == 0 && eCtrlBuf e == 0
  | 5 => bitsOf e 319 274 == 0 && eSlotCount e ≤ 16
      && (List.range 16).all (fun i => (!eTrainMode e && i < eSlotCount e) || eSlotRef e i == (0, 0))
      && (if eTrainMode e then eSlotCount e == 0 && eInBuf e < n && eOutBuf e < n else eInBuf e == 0 && eOutBuf e == 0)
  | 6 => bitsOf e 1023 257 == 0
  | 7 => bitsOf e 1023 344 == 0 && bitsOf e 264 259 == 0 && eCapMode e != 3
      && (eCapMode e != 1 || (eCapRing e % 4096 == 0 && eCapRing e ≤ 2 ^ 31
            && eCapRing e ≤ (planOf s).elim 0 (fun p => p.captureRegion.2)))
      && bufOk (eCapMode e == 2) n (eCapBuf e)
  | 8 => bitsOf e 1023 400 == 0 && bitsOf e 279 258 == 0
      && (!eMoveSrcHost e || eMoveSrc e / 2 ^ 36 < n) && (!eMoveDstHost e || eMoveDst e / 2 ^ 36 < n)
  | 9 => bitsOf e 1023 378 == 0 && eBarOp e != 3
  | _ => false

/-! ## The queue plan and the envelope (R309, R321) -/

def planEntry (s : State) (qn : Nat) : Option (BitVec 64) :=
  (planOf s).elim none (fun p => p.queuePlan.find? (fun w => bitsOf w 63 52 == qn))
def qpShare (w : BitVec 64) : Bool := bitOf w 51
def qpWeight (w : BitVec 64) : Nat := bitsOf w 50 35
def qpMask (w : BitVec 64) (op : Nat) : Bool := bitOf w (25 + op)
def qpModel (w : BitVec 64) : Nat := bitsOf w 24 17

/-- The direction of a carrier opcode: 0 uplink, 1 downlink. -/
def dirOf (op : Nat) : Nat := if op = 2 then 1 else 0

def envelopeOf (s : State) (c dir : Nat) : Option (BitVec 128) :=
  (planOf s).elim none (fun p => p.envelope.find? (fun w => bitsOf w 127 123 == c && bitsOf w 122 122 == dir))

def carrierPlan (s : State) (c : Nat) : Option CarrierPlan :=
  (planOf s).elim none (fun p => p.carriers.find? (fun x => x.carrier.toNat == c))
def opPlan (s : State) (op c : Nat) : Option OpPlan :=
  (carrierPlan s c).elim none (fun x => x.ops.find? (fun o => o.opcode.toNat == op))

/-- UL_LEAD or DL_LEAD of the image, in ns (R298, R319). -/
def leadOf (s : State) (op : Nat) : Nat :=
  (s.occ.image.map (fun im => (if op = 2 then bitsOf im.header 319 304 else bitsOf im.header 303 288) * 1000)).getD 0

/-- The items of a carrier, direction and slot that have passed their fetch checks and are not refused. -/
def slotItems (s : State) (c dir : Nat) (t : Time) : List Item :=
  s.items.filter (fun i => isSlotOp i.opcode && eCarrier i.fetched.entry == c && dirOf i.opcode == dir && i.slotTime == t
    && (i.phase == .waiting || i.phase == .accepted))

/-- A context is resident: where the plan holds every context resident, any below CONTEXTS is (R325). -/
def isResident (s : State) (n : Nat) : Bool :=
  (planOf s).elim false (fun p => n < p.contexts && (p.contexts ≤ p.resident || s.pool.resident.any (fun c => c.context == n)))

/-- The contexts that records name, each once. -/
def contextsOf (as : List (BitVec 256)) : List Nat := (as.map aContext).eraseDups

/-- The totals that R321 limits, over the records of a slot: PRBs of KIND 0, layers on the busiest PRB, records, code blocks,
soft-buffer allocations, contexts to swap in. -/
def slotTotals (s : State) (dir : Nat) (as : List (BitVec 256)) : List Nat :=
  let data := as.filter (fun a => aKind a == 0)
  let coded := data.filter (fun a => aTbs a != 0)
  let on (p : Nat) : Nat := ((data.filter (fun a => aPrbStart a ≤ p && p < aPrbStart a + aPrbCount a)).map aLayers).sum
  [(data.map aPrbCount).sum, ((List.range 275).map on).foldl max 0, as.length,
   (coded.map (fun a => (segOf (aTbs a) (aRate a)).blocks)).sum,
   if dir = 0 then (coded.filter aNew).length else 0,
   ((contextsOf as).filter (fun n => !isResident s n)).length]

def envelopeLimits (w : BitVec 128) : List Nat :=
  [bitsOf w 121 113, bitsOf w 112 108, bitsOf w 107 96, bitsOf w 95 80, bitsOf w 79 68, bitsOf w 67 56]

/-- A slot item keeps within its envelope record (R321). -/
def withinEnvelope (s : State) (f : Fetched) (slot : Time) : Bool :=
  let op := eOp f.entry
  match envelopeOf s (eCarrier f.entry) (dirOf op) with
  | none => false
  | some w =>
    let all := (slotItems s (eCarrier f.entry) (dirOf op) slot).flatMap (fun i => i.fetched.allocs) ++ f.allocs
    ((slotTotals s (dirOf op) all).zip (envelopeLimits w)).all (fun p => p.1 ≤ p.2)

/-! ## BARRIER (R399, R402, R403) -/

/-- The lead of a global operation in ns (R402). -/
def barLead (s : State) (e : BitVec 1024) : Nat := if eBarLead e = 0 then rwVal s 0x1221 5 5000 else eBarLead e * 10
/-- T of a global operation. -/
def barTime (s : State) (e : BitVec 1024) (arrival : Time) : Time :=
  if eBarT e = 0 then s.time.now + barLead s e else extend32 (eBarT e) arrival
/-- The least lead (R399). -/
def leastLead (s : State) : Nat := s.fabric.diameter * 350 + 40 + rwVal s 0x1221 4 1000

def armedCount (s : State) : Nat := (s.global.ops.filter (fun o => o.armed)).length

/-- The checks of R403 but for the deadline. -/
def barrierFits (s : State) (e : BitVec 1024) (arrival : Time) : Bool :=
  leastLead s ≤ barLead s e && s.time.now + barLead s e ≤ barTime s e arrival
    && (List.range 64).all (fun n => !bitOf (eBarMask e) n || n == devnum s || (routeTo s n).isSome)
    && armedCount s < 8

/-- The log entry of an operation (R418). -/
def opLogWord (o : OpSt) : BitVec 512 :=
  BitVec.ofNat 512 (o.a.t % 2 ^ 64 * 2 ^ 224 * 2 ^ 224 + o.a.participants.toNat * 2 ^ 192 * 2 ^ 192 + o.acted.toNat * 2 ^ 160 * 2 ^ 160
    + o.uncertain.toNat * 2 ^ 256 + o.missed.toNat * 2 ^ 192 + o.refused.toNat * 2 ^ 128 + o.a.op.toNat * 2 ^ 120
    + o.a.initiator.toNat * 2 ^ 112 + o.a.opNumber.toNat * 2 ^ 96 + o.role % 256 * 2 ^ 88)

/-- The log shows what is known of operation `o`, unless a newer one has taken its place. -/
def logOp (s : State) (o : OpSt) : State :=
  if o.slot + 16 < s.global.logCount then s
  else { s with global := { s.global with log := tset s.global.log (o.slot % 16) (opLogWord o) } }

/-- An operation enters the table and the log; operations done whose log entry has been replaced leave the table (R401, R406). -/
def addOp (s : State) (o : OpSt) : State :=
  let o := { o with slot := s.global.logCount }
  logOp { s with global := { s.global with
    ops := s.global.ops.filter (fun x => x.armed || !x.sent && x.role == 0 || decide (s.global.logCount < x.slot + 16)) ++ [o]
    logCount := (s.global.logCount + 1) % 2 ^ 32 } } o

/-- A global operation is started by this device (R400): the initiator always participates and arms it. -/
def startOp (s : State) (e : BitVec 1024) (t : Time) (lead : Nat) : State :=
  let n := s.global.counter
  let me := devnum s
  let o : OpSt := { a := { op := BitVec.ofNat 2 (eBarOp e), t := t, participants := eBarMask e ||| BitVec.ofNat 64 (2 ^ me)
                           initiator := BitVec.ofNat 6 me, opNumber := n, tag := BitVec.ofNat 8 (eBarTag e) }
                    lead := lead, armed := true, sent := false, acted := 0, uncertain := 0, missed := 0, refused := 0, role := 0
                    slot := 0 }
  addOp { s with global := { s.global with counter := n + 1 } } o

/-! ## Training (R84, R85, R88) -/

/-- The retention window of a carrier in slots (R84). -/
def retentionOf (s : State) (c : Nat) : Nat :=
  (planOf s).elim 0 (fun p => ((p.retention.find? (fun x => x.1 == c)).map (fun x => x.2)).getD 0)

/-- The slot is less than the window's slot numbers behind the newest that its carrier retains (R84, R387). -/
def inRetention (s : State) (r : Retained) : Bool :=
  (s.weights.retained.filter (fun x => x.carrier == r.carrier)).all (fun x => decide (x.slotNo < r.slotNo + retentionOf s r.carrier))

/-- A named slot stands within retention, on its carrier. -/
def retainedSlot (s : State) (r : Nat × Nat) : Option (Nat × Nat × Nat) :=
  (s.weights.retained.find? (fun x => x.queue == r.1 && x.seq == r.2 && inRetention s x)).map (fun x => (x.carrier, r.1, r.2))

/-- The slots that a TRAIN_STEP would pin. -/
def pinsOf (s : State) (e : BitVec 1024) : List (Nat × Nat × Nat) :=
  ((List.range (eSlotCount e)).filterMap (fun i => retainedSlot s (eSlotRef e i))).eraseDups

/-- The pin reserve of a carrier. -/
def pinReserve (s : State) (c : Nat) : Nat :=
  (planOf s).elim 0 (fun p => ((p.pinReserve.find? (fun x => x.1 == c)).map (fun x => x.2)).getD 0)

/-- Its pins would exceed no carrier's reserve. -/
def pinsFit (s : State) (e : BitVec 1024) : Bool :=
  let held := ((s.weights.pins.map (fun p => p.2.2)) ++ pinsOf s e).eraseDups
  (List.range 32).all (fun c => (pinsOf s e).all (fun p => p.1 != c) || (held.filter (fun p => p.1 == c)).length ≤ pinReserve s c)

/-! ## The checks at fetch, in order (R320) -/

/-- The times of an entry, extended with its arrival as reference (R319). -/
def slotTimeOf (e : BitVec 1024) (arrival : Time) : Time := extend32 (eSlot e) arrival
def deadlineOf (e : BitVec 1024) (arrival : Time) : Time := extend32 (eDeadline e) arrival

/-- Arrival after the admission cut, or after the limit of a MODEL_COMMIT; so is a cut that passed while nothing could be
fetched (R337, R459). -/
def tooLate (s : State) (e : BitVec 1024) (arrival : Time) : Bool :=
  let t := slotTimeOf e arrival
  if isSlotOp (eOp e) then t < max arrival s.occ.fetchFrom + leadOf s (eOp e)
  else if eOp e = 6 then t < arrival + 50000
  else false

/-- The minimum admissible deadline of R305. -/
def deadlineLeast (s : State) (e : BitVec 1024) (t : Time) : Int :=
  (baseInstant s (eOp e) (eCarrier e) t (eAllocBuf e) : Int) + ((opPlan s (eOp e) (eCarrier e)).map (fun o => o.minDeadline)).getD 0

/-- The conditions of REFUSED_ENVELOPE hold off (R320, R403). -/
def envelopeOk (s : State) (qn : Nat) (f : Fetched) (arrival : Time) : Bool :=
  let e := f.entry
  let op := eOp e
  let t := slotTimeOf e arrival
  let dl := deadlineOf e arrival
  (planEntry s qn).isSome
    && (!isSlotOp op ||
      (carEnabled s (eCarrier e) && withinEnvelope s f t && deadlineLeast s e t ≤ (dl : Int)
        && (slotItems s (eCarrier e) (dirOf op) t).all (fun i => i.opcode != op) && t ≤ arrival + 1000000000
        && f.allocs.all (fun a => aContext a < (planOf s).elim 0 (fun p => p.contexts))
        && f.rels.all (fun r => bitsOf r 31 12 < (planOf s).elim 0 (fun p => p.contexts))))
    && (!hasDeadline op || ((queueOf s qn).lastDeadline.map (fun d => decide (d ≤ dl))).getD true)
    && (op != 6 || s.weights.swaps.all (fun w => w.target != t))
    && (op != 5 || eTrainMode e || pinsFit s e)
    && (op != 7 || (planOf s).elim false (fun p => p.captureFits))
    && (op != 9 || (barrierFits s e arrival && barTime s e arrival + barLead s e ≤ dl))

/-- The first check that fails decides the refusal (R320). -/
def fetchRefusal (s : State) (qn seq : Nat) (f : Fetched) (arrival : Time) : Option Status :=
  let e := f.entry
  if s.occ.state = .none then some .refusedNotLoaded
  else if f.read ≠ .good || !headerOk f seq || !((planEntry s qn).map (fun w => qpMask w (eOp e))).getD true || !bodyOk s f
      || !onGrid s e (slotTimeOf e arrival) then some .refusedFormat
  else if tooLate s e arrival then some .refusedLateSubmit
  else if !envelopeOk s qn f arrival then some .refusedEnvelope
  else none

/-! ## Fetching -/

/-- The next entry of queue `qn` can be fetched: the queue is open and holds one, the occupancy neither loads nor drains, the
host can be read, the I/O die is in service (R318, R320, R365, R459). -/
def canFetch (s : State) (qn : Nat) : Bool :=
  let q := queueOf s qn
  q.qstate == 1 && q.fetchNext != q.tail && (s.occ.state == .none || s.occ.state == .running) && canWrite s

/-- The records of the host reads of a fetch (R348): entry, buffer list, allocation records, release entries. -/
def captureFetch (s : State) (qn seq : Nat) (f : Fetched) : State :=
  let q := queueOf s qn
  let read (s : State) (a : Nat) (bs : List Byte) : State :=
    if bs = [] then s else capRecord s 3 qn s.time.now (bytesLE 8 a ++ bs)
  let bufAt (i : Nat) : Nat := bufAddr (f.bufs.getD i 0)
  let s := read s (q.sqBase + 128 * (seq % q.depth)) (bytesLE 128 f.entry.toNat)
  let s := read s (eBufList f.entry) (f.bufs.flatMap (fun b => bytesLE 16 b.toNat))
  let s := read s (bufAt (eAllocBuf f.entry)) (f.allocs.flatMap (fun a => bytesLE 32 a.toNat))
  read s (bufAt (eRelBuf f.entry)) (f.rels.flatMap (fun r => bytesLE 4 r.toNat))

/-- The item as fetched, not decided yet. -/
def newItem (s : State) (qn seq : Nat) (f : Fetched) (arrival : Time) : Item :=
  { queue := qn, seq := seq, opcode := eOp f.entry, fetched := f, arrival := arrival, fetchedAt := s.time.now
    slotTime := slotTimeOf f.entry arrival, deadline := deadlineOf f.entry arrival, phase := .waiting, decidedAt := s.time.now
    reissued := false, doneAt := none, inputMissing := false, erased := 0, unsent := 0, sat := false, satAll := false, satUsers := [], gen := s.weights.gen
    skipped := 0, meridianUsed := 0, slipped := false, genAfter := 0, opNumber := 0, outputs := [] }

/-- The item joins the queue's items; the fetch pointer passes it. -/
def pushItem (s : State) (i : Item) : State :=
  let s := modQueue { s with items := s.items ++ [i] } i.queue (fun q => trimArrivals { q with fetchNext := seqNext i.seq })
  countFetched s i.queue

/-- The item is refused with `st` at fetch. -/
def refuseFetch (s : State) (i : Item) (st : Status) : State :=
  advanceAccept 65536 (countRefused (pushItem s { i with phase := .refused st }) i.queue) i.queue

/-- The item passed its checks: its deadline bounds the later ones of its queue (R320). -/
def noteDeadline (s : State) (i : Item) : State :=
  if hasDeadline i.opcode then modQueue s i.queue (fun q => { q with lastDeadline := some i.deadline }) else s

/-- An item without a slot is accepted at fetch (R323). -/
def acceptFetch (s : State) (i : Item) : State :=
  advanceAccept 65536 (countAccepted (pushItem s { i with phase := .accepted }) i.queue) i.queue

/-- The fetch of an entry of opcode `op` (R320): `accept` is what acceptance does, for an item without a slot; a slot item
waits for its cut. A failed read is recorded (R457). -/
def fetchItem (op : Nat) (qn : BitVec 12) (f : Fetched) (t : Time) (accept : State → Item → State) (s : State) : Out :=
  timed s t (fun s =>
    let q := queueOf s qn.toNat
    let seq := q.fetchNext
    if !canFetch s qn.toNat || (eOp f.entry ≠ op && eOp f.entry ≤ 9 && f.read = .good) then s
    else
      let s := captureFetch s qn.toNat seq f
      let s := if f.read = .good then s
        else recordFaultAt s (dieUnit 2) (if f.read = .poison then causePoison else causeEnvironment) 0 0 qn (BitVec.ofNat 32 seq) 0
      let arrival := arrivalOf q seq
      let i := newItem s qn.toNat seq f arrival
      match fetchRefusal s qn.toNat seq f arrival with
      | some st => refuseFetch s i st
      | none => accept (noteDeadline s i) i)

/-- NOP (R313): done as soon as it is accepted. -/
def execNop (qn : BitVec 12) (f : Fetched) (t : Time) (s : State) : Out :=
  fetchItem 0 qn f t (fun s i => acceptFetch s { i with doneAt := some s.time.now }) s
/-- UL_SLOT (R64, R320): waits for its cut. -/
def execUlSlot (qn : BitVec 12) (f : Fetched) (t : Time) (s : State) : Out := fetchItem 1 qn f t pushItem s
/-- DL_SLOT (R77, R320). -/
def execDlSlot (qn : BitVec 12) (f : Fetched) (t : Time) (s : State) : Out := fetchItem 2 qn f t pushItem s
/-- PRACH (R74, R320). -/
def execPrach (qn : BitVec 12) (f : Fetched) (t : Time) (s : State) : Out := fetchItem 3 qn f t pushItem s
/-- SRS_REPORT (R76, R320). -/
def execSrsReport (qn : BitVec 12) (f : Fetched) (t : Time) (s : State) : Out := fetchItem 4 qn f t pushItem s

/-- TRAIN_STEP (R85): its acceptance pins every named slot within retention, and fixes the count of those skipped. -/
def execTrainStep (qn : BitVec 12) (f : Fetched) (t : Time) (s : State) : Out :=
  fetchItem 5 qn f t (fun s i =>
    let e := i.fetched.entry
    if eTrainMode e then acceptFetch s i
    else
      let ps := pinsOf s e
      let found := (List.range (eSlotCount e)).filter (fun k => (retainedSlot s (eSlotRef e k)).isSome)
      let s := { s with weights := { s.weights with pins := s.weights.pins ++ ps.map (fun p => (i.queue, i.seq, p)) } }
      acceptFetch s { i with skipped := eSlotCount e - found.length }) s

/-! ## Model commits (R87 to R89) -/

/-- The first Meridian at or after `t`, later than `after`, that no commit of `claimed` holds; `fuel` bounds the search. -/
def freeMeridian (s : State) (claimed : List Time) (after : Time) : Nat → Time → Time
  | 0, t => meridianFrom s t
  | fuel + 1, t =>
    let m := meridianFrom s (max t (after + 1))
    if claimed.contains m then freeMeridian s claimed after fuel (m + 1) else m

/-- The commits in order, each slipped to a Meridian that R89 allows: a converted commit whose Meridian is not 50 µs after its
conversion, or does not follow the swap of every earlier commit of its queue, claims the first that is; one behind a commit
that claims none claims none. `done` are the commits already settled. -/
def settleSwaps (s : State) : List ModelSwap → List ModelSwap → List ModelSwap
  | done, [] => done
  | done, w :: rest =>
    let mine := done.filter (fun x => x.queue == w.queue)
    let after := (mine.map (fun x => x.target)).foldl max 0
    let blocked := mine.any (fun x => x.target == 0)
    let claimed := (done ++ rest).map (fun x => x.target)
    let w' : ModelSwap := match w.converted with
      | none => if blocked then { w with target := 0, slipped := true } else w
      | some c =>
        if blocked then { w with target := 0, slipped := true }
        else if w.target ≠ 0 ∧ c + 50000 ≤ w.target ∧ after < w.target then w
        else { w with target := freeMeridian s claimed after (claimed.length + 1) (max (c + 50000) s.time.now), slipped := true }
    settleSwaps s (done ++ [w']) rest

/-- An earlier TRAIN_STEP of the queue has not completed, so a conversion waits (R87). -/
def trainPending (s : State) (qn seq : Nat) : Bool :=
  s.items.any (fun i => i.queue == qn && i.opcode == 5 && i.phase == .accepted && precedes i.seq seq)

/-- Working weights as the image's formats hold them, converted from FP32 with round to nearest even (R87): `runs` name a format and how many
weights follow in it. -/
def workingBytes : List (Nat × Nat) → List (BitVec 32) → List Byte
  | [], _ => []
  | (f, n) :: runs, ws =>
    let vs := (ws.take n).map (fun w => floatVal 8 w.toNat)
    (if isQB f then (chunks 32 (ceilDiv n 32) vs).flatMap (fun g => (qbForm f g).1)
     else packElems f (vs.map (fun v => (convElem f .rne v).1))) ++ workingBytes runs (ws.drop n)

def planWorking (s : State) (ws : List (BitVec 32)) : List Byte := (planOf s).elim [] (fun p => workingBytes p.weightFmts ws)

/-- An item that started under the retired working set has not completed (R90). -/
def retiredBusy (s : State) : Bool := s.items.any (fun i => isSlotOp i.opcode && i.phase == .accepted && i.gen != s.weights.gen)

/-- The working weights in force at an item's slot start (R56): the other set, where a swap came after it. -/
def itemWeights (s : State) (i : Item) : List Byte := if i.gen = s.weights.gen then s.weights.inForce else s.weights.spare

/-- Convert the master weights into the spare set for the first commit that covers no TRAIN_STEP still running (R87 to R90): the spare set
holds no result that waits for its swap, and no item uses it; a revert restores the original weights and clears the optimiser state. -/
def convertNext (s : State) : State :=
  if s.weights.swaps.any (fun w => w.converted.isSome) || retiredBusy s then s
  else
    match s.weights.swaps.find? (fun w => !trainPending s w.queue w.seq) with
    | none => s
    | some w =>
      let x := s.weights
      let m := if w.revert then x.original else x.master
      let ws := x.swaps.map (fun y => if y.queue = w.queue ∧ y.seq = w.seq then { y with converted := some s.time.now } else y)
      { s with weights := { x with
          swaps := settleSwaps s [] ws, spare := planWorking s m, master := m, optimiser := if w.revert then [] else x.optimiser } }

/-- Conversions run one after another as long as one can. -/
def convertAll (s : State) : State := (List.range (s.weights.swaps.length)).foldl (fun s _ => convertNext s) s

/-- MODEL_COMMIT (R87, R88): accepted, it claims its Meridian, and its conversion starts once earlier TRAIN_STEPs are done. -/
def execModelCommit (qn : BitVec 12) (f : Fetched) (t : Time) (s : State) : Out :=
  fetchItem 6 qn f t (fun s i =>
    let w : ModelSwap := { queue := i.queue, seq := i.seq, target := i.slotTime, revert := eRevert i.fetched.entry
                           slipped := false, converted := none }
    convertAll (acceptFetch { s with weights := { s.weights with swaps := s.weights.swaps ++ [w] } } i)) s

/-- The settings of a CAPTURE body. -/
def capSetOf (f : Fetched) : CapSet :=
  let e := f.entry
  let b := f.bufs.getD (eCapBuf e) 0
  { bufBase := bufAddr b, bufBytes := bufLen b, carriers := BitVec.ofNat 32 (eCapCarriers e), ringBytes := eCapRing e
    kinds := BitVec.ofNat 5 (eCapKinds e), wrap := eCapWrap e, mode := eCapMode e }

/-- A capture that records nothing (R346). -/
def capEmpty (c : CapSet) : Bool := c.mode != 0 && (c.kinds == 0 || (c.mode == 1 && c.ringBytes == 0))

/-- CAPTURE (R346): it takes effect at the first Meridian at least 50 µs after acceptance. -/
def execCapture (qn : BitVec 12) (f : Fetched) (t : Time) (s : State) : Out :=
  fetchItem 7 qn f t (fun s i =>
    let m := meridianFrom s (s.time.now + 50000)
    let c := capSetOf i.fetched
    let s := if capEmpty c then s else { s with cap := { s.cap with changes := s.cap.changes ++ [(m, c)] } }
    acceptFetch s { i with meridianUsed := m }) s

/-- The bytes of a MOVE, transfer by transfer (R285, R286, R316): a source that does not read good stops it. The mover is a
linear mover of cluster 0 (log entry 22). -/
def moveRun (s : State) (i : Item) (ext : List Byte) : State × Bool :=
  let e := i.fetched.entry
  let u := moverUnit 0 2
  let bufs := i.fetched.bufs
  let step (p : State × List Byte × Bool) (t : Nat × Nat) : State × List Byte × Bool :=
    let (s, ext, ok) := p
    if !ok then p
    else
      let a := addrPlus (eMoveSrc e) (t.1 : Nat)
      let b := addrPlus (eMoveDst e) (t.1 : Nat)
      let host (x : Nat) : Nat := insideLen (bufLen (bufs.getD (x / 2 ^ 36) 0)) (x % 2 ^ 36) t.2
      let got : List Byte × List Byte × Bool :=
        if eMoveSrcHost e then
          ((ext.take (host a)) ++ List.replicate (t.2 - (ext.take (host a)).length) 0, ext.drop (host a), true)
        else if a / 2 ^ 36 = devnum s then
          let g := busRead s (a % 2 ^ 36) t.2
          (g.bytes, ext, !g.poisoned && !g.uncorrectable)
        else if (routeTo s (a / 2 ^ 36)).isSome then
          ((ext.take t.2) ++ List.replicate (t.2 - (ext.take t.2).length) 0, ext.drop t.2, true)
        else (List.replicate t.2 0, ext, true)
      if !got.2.2 then
        let g := busRead s (a % 2 ^ 36) t.2
        (engineFault s u (if g.poisoned then causePoison else causeUncorrectable) g.at_, got.2.1, false)
      else
        let s := if eMoveDstHost e then
            let s := hostOut s (some { pos := 0, queue := BitVec.ofNat 12 i.queue, seq := BitVec.ofNat 32 i.seq })
              (bufAddr (bufs.getD (b / 2 ^ 36) 0) + b % 2 ^ 36) (got.1.take (host b))
            if host b < t.2 then dropWrite s u b else s
          else if b / 2 ^ 36 = devnum s then busWrite s u (b % 2 ^ 36) got.1 false
          else remoteWrite s u (some { pos := 0, queue := BitVec.ofNat 12 i.queue, seq := BitVec.ofNat 32 i.seq })
            (if eMoveSrcHost e || a / 2 ^ 36 != devnum s then none else some (a % 2 ^ 36)) b got.1
        (s, got.2.1, true)
  let r := (lineTransfers (eMoveSrc e) (eMoveDst e) (eMoveLen e)).foldl step (s, ext, true)
  (r.1, r.2.2)

/-- MOVE (R316): accepted, its bytes move; `ext` holds what the reads of the host and of peers return. -/
def execMove (qn : BitVec 12) (f : Fetched) (ext : List Byte) (t : Time) (s : State) : Out :=
  fetchItem 8 qn f t (fun s i =>
    let s := acceptFetch s i
    let (s, ok) := moveRun s i ext
    if ok then
      { s with items := s.items.map (fun x => if x.queue = i.queue ∧ x.seq = i.seq then { x with doneAt := some s.time.now } else x) }
    else s) s

/-- BARRIER (R402, R403): accepted at fetch, its operation is started and armed here. -/
def execBarrier (qn : BitVec 12) (f : Fetched) (t : Time) (s : State) : Out :=
  fetchItem 9 qn f t (fun s i =>
    let e := i.fetched.entry
    let tt := barTime s e i.arrival
    let n := s.global.counter
    acceptFetch (startOp s e tt (barLead s e)) { i with meridianUsed := tt, opNumber := n.toNat }) s

end Sys2Proof.Machine
end

