-- ==== Sys2Proof/Machine/Admission.lean ====
section
/-! DEFINITION. Machine/Admission.lean: doorbells, admission cuts, soft buffers, contexts and their swaps, Share dispatch, moderation
(R254 to R259 of spec/08_channel_coding.md; R310, R317, R322 to R327, R334 of spec/10_occupancies_and_queues.md; R457, R469). -/

namespace Sys2Proof.Machine

/-- DOORBELL (R317, R318). -/
def execDoorbell (qn : BitVec 12) (value : BitVec 64) (t : Time) (s : State) : Out :=
  timed s t (fun s => liveDoorbell s qn.toNat value.toNat)

/-- MOD_TIME_EXPIRY (R334): the timer has run for MOD_TIME; the vector fires and clears the count and the timer. -/
def execModTimeExpiry (qn : BitVec 12) (t : Time) (s : State) : Out :=
  timed s t (fun s =>
    let q := queueOf s qn.toNat
    match q.timer with
    | none => s
    | some w =>
      if q.modTime ≠ 0 ∧ w + q.modTime * 1000 ≤ s.time.now then
        raiseVector (modQueue s qn.toNat (fun q => { q with pendCount := 0, timer := none })) q.vector
      else s)

/-! ## Items of a cut -/

/-- `x` goes before the first element that it does not follow. -/
def insertBy {α : Type} (le : α → α → Bool) (x : α) : List α → List α
  | [] => [x]
  | y :: t => if le x y then x :: y :: t else y :: insertBy le x t
/-- Stable insertion sort. -/
def sortBy {α : Type} (le : α → α → Bool) (xs : List α) : List α := xs.foldr (insertBy le) []

/-- The admission cut of a slot item (R319). -/
def cutOf (s : State) (i : Item) : Int := (i.slotTime : Int) - (leadOf s i.opcode : Int)

def isItem (q seq : Nat) (i : Item) : Bool := i.queue == q && i.seq == seq
def sameItem (i j : Item) : Bool := isItem i.queue i.seq j
def modItem (s : State) (i : Item) (f : Item → Item) : State :=
  { s with items := s.items.map (fun j => if sameItem i j then f j else j) }

/-- Slot items that wait for their cut. -/
def waitingItems (s : State) : List Item := s.items.filter (fun i => i.phase == .waiting && isSlotOp i.opcode)

/-- Decide an item as refused (R322, R323). -/
def refuseItem (s : State) (i : Item) (st : Status) : State :=
  countRefused (modItem s i (fun j => { j with phase := .refused st, decidedAt := s.time.now })) i.queue

/-- The data allocations of an uplink item: those that use a HARQ process (R254, R260). -/
def dataAllocs (i : Item) : List (BitVec 256) :=
  if i.opcode = 1 then i.fetched.allocs.filter (fun a => aKind a == 0 && aTbs a != 0) else []

def harqKey (a : BitVec 256) : Nat := 32 * aContext a + aProcess a

/-! ## HARQ checks (R257) -/

/-- The buffer that a process holds. -/
def bufOf (s : State) (context process : Nat) : Option SoftBuf :=
  s.pool.bufs.find? (fun b => b.context == context && b.process == process && !b.released)

/-- A retransmission finds a buffer of other code-block sizes. -/
def sizeDiffers (s : State) (a : BitVec 256) : Bool :=
  if aNew a then false
  else
    match bufOf s (aContext a) (aProcess a) with
    | none => false
    | some b => segOf b.tbs b.rate != segOf (aTbs a) (aRate a)

/-- The process of `a` was used fewer slots back than the reuse distance: by an accepted item, or by one of `used`, which holds the
processes and slot starts of this cut's earlier items. -/
def reusedEarly (s : State) (i : Item) (used : List (Nat × Time)) (a : BitVec 256) : Bool :=
  let mu := carMu s (eCarrier i.fetched.entry)
  let dist := (planOf s).elim 1 (fun p => p.reuseDistance)
  let near (t : Time) : Bool := t ≤ i.slotTime && slotNumber s mu i.slotTime - slotNumber s mu t < dist
  ((tget s.pool.lastUse (harqKey a)).map near).getD false || used.any (fun u => u.1 == harqKey a && near u.2)

/-- Step 1 of R322 over the items of a cut, in order: the items that stay. -/
def harqChecks : State → List (Nat × Time) → List Item → State × List Item
  | s, _, [] => (s, [])
  | s, used, i :: rest =>
    let as := dataAllocs i
    if as.any (reusedEarly s i used) then harqChecks (refuseItem s i .refusedEnvelope) used rest
    else if as.any (sizeDiffers s) then harqChecks (refuseItem s i .refusedFormat) used rest
    else
      let r := harqChecks s (used ++ as.map (fun a => (harqKey a, i.slotTime))) rest
      (r.1, i :: r.2)

/-! ## Soft buffers (R255, R259) -/

/-- Pages of a soft buffer for a transport block and its circular-buffer length. -/
def bufPages (tbs rate ncb : Nat) : Nat := ceilDiv (2 * halfBytes (segOf tbs rate) ncb) 4096

/-- The `n` lowest pages of the pool that no buffer holds (R255 names no order; log entry 216). -/
def freePageList (s : State) (n : Nat) : List Nat :=
  let held := s.pool.bufs.flatMap (fun b => b.at_)
  ((List.range (n + held.length)).filter (fun k => !held.contains k)).take n

/-- The die that holds the working copies of a carrier's soft buffers: that of the cluster that runs the carrier (R255, R258). -/
def softDie (s : State) (c : Nat) : Nat := servingCluster s (carField s c 8) / 4

/-- A copy on die `d` may be written: the die has passed Dawn and is not held out (R258). -/
def dieTakes (s : State) (d : Nat) : Bool := inService s (dieUnit d)

/-- The bytes `off` to `off` + `n` of a soft buffer as its working copy holds them. -/
def bufRead (s : State) (b : SoftBuf) (off n : Nat) : List Byte :=
  let d := softDie s b.carrier
  (List.range n).map (fun k =>
    ((readLocal s (poolPage s d (b.at_.getD ((off + k) / 4096) 0) + (off + k) % 4096) 1).bytes).headD 0)

/-- Write bytes of a soft buffer from `off` in the copy on die `d`. -/
def bufWriteAt (s : State) (master : UAddr) (b : SoftBuf) (d off : Nat) (bs : List Byte) : State :=
  b.at_.zipIdx.foldl (fun s p =>
    let lo := max off (4096 * p.2)
    let hi := min (off + bs.length) (4096 * (p.2 + 1))
    if lo < hi then writeLocal s master (poolPage s d p.1 + (lo - 4096 * p.2)) ((bs.drop (lo - off)).take (hi - lo)) false else s) s

/-- Write bytes of a soft buffer in both copies, leaving out a die that has not completed Dawn (R256, R258). -/
def bufWrite (s : State) (master : UAddr) (b : SoftBuf) (off : Nat) (bs : List Byte) : State :=
  let d := softDie s b.carrier
  let s := bufWriteAt s master b d off bs
  if dieTakes s (1 - d) then bufWriteAt s master b (1 - d) off bs else s

/-- Both halves of a new buffer are zero in both copies (R255). -/
def bufClear (s : State) (b : SoftBuf) : State :=
  [0, 1].foldl (fun s d => if dieTakes s d then b.at_.foldl (fun s n => wipeRange s (poolPage s d n) 4096) s else s) s

/-- A process gives up its buffer: its pages return now, or when the last item that uses it completes. -/
def releaseBuf (s : State) (context process : Nat) : State :=
  match bufOf s context process with
  | none => s
  | some b =>
    let others := s.pool.bufs.erase b
    if b.users.isEmpty then
      { s with pool := { s.pool with bufs := others, freePages := s.pool.freePages + b.pages } }
    else { s with pool := { s.pool with bufs := others ++ [{ b with released := true }] } }

/-- Release entries (R254), then the releases that new transmissions imply. -/
def cutReleases (s : State) (group : List Item) : State :=
  let s := (group.flatMap (fun i => i.fetched.rels)).foldl (fun s r => releaseBuf s (bitsOf r 31 12) (bitsOf r 11 7)) s
  ((group.flatMap dataAllocs).filter aNew).foldl (fun s a => releaseBuf s (aContext a) (aProcess a)) s

/-- One allocation of an item: a new buffer, both halves zero with half 0 current (R255), or, for a retransmission, the buffer its process holds. `bad` are the items refused so
far. -/
def cutAllocate (p : State × List Item) (x : Item × BitVec 256) : State × List Item :=
  let (s, bad) := p
  let (i, a) := x
  if bad.any (sameItem i) then p
  else
    match bufOf s (aContext a) (aProcess a) with
    | some b =>
      ({ s with pool := { s.pool with bufs := s.pool.bufs.erase b ++ [{ b with users := b.users ++ [(i.queue, i.seq)] }] } }, bad)
    | none =>
      let c := eCarrier i.fetched.entry
      let ncb := aNcb s c a i.slotTime
      let n := bufPages (aTbs a) (aRate a) ncb
      if n ≤ s.pool.freePages then
        let b : SoftBuf := { context := aContext a, process := aProcess a, pages := n, at_ := freePageList s n, carrier := c, ncb := ncb
                             half := 0, lastSeq := none, tbs := aTbs a, rate := aRate a, users := [(i.queue, i.seq)], released := false }
        (bufClear { s with pool := { s.pool with freePages := s.pool.freePages - n, bufs := s.pool.bufs ++ [b] } } b, bad)
      else (s, bad ++ [i])

/-- An item leaves the buffers it uses at this cut: one that only it uses and that was made for it here (no completed item has
changed it) goes back to the free pages. -/
def dropAllocs (s : State) (i : Item) : State :=
  let mine := s.pool.bufs.filter (fun b => b.users == [(i.queue, i.seq)] && b.lastSeq.isNone && !b.released)
  { s with pool := { s.pool with
      freePages := s.pool.freePages + (mine.map (fun b => b.pages)).sum
      bufs := (s.pool.bufs.filter (fun b => !mine.contains b)).map (fun b => { b with users := b.users.erase (i.queue, i.seq) }) } }

/-- One allocation of step 2; an item that fails gives its pages back before the next is tried. -/
def cutAllocStep (p : State × List Item) (x : Item × BitVec 256) : State × List Item :=
  let r := cutAllocate p x
  if r.2.length = p.2.length then r else (dropAllocs r.1 x.1, r.2)

/-- Step 2 of R322: the items that stay. -/
def softChecks (s : State) (group : List Item) : State × List Item :=
  let s := cutReleases s group
  let xs := group.flatMap (fun i => (dataAllocs i).map (fun a => (i, a)))
  let r := (sortBy (fun x y => decide (harqKey x.2 ≤ harqKey y.2)) xs).foldl cutAllocStep (s, [])
  (r.2.foldl (fun s i => refuseItem s i .refusedSoftbuf) r.1, group.filter (fun i => !r.2.any (sameItem i)))

/-! ## Contexts (R325, R326) -/

/-- Step 3 of R322. -/
def contextChecks (s : State) (group : List Item) : State × List Item :=
  let bad := group.filter (fun i => (contextsOf i.fetched.allocs).any (fun n => !isResident s n))
  (bad.foldl (fun s i => refuseItem (dropAllocs s i) i .refusedContext) s, group.filter (fun i => !bad.any (sameItem i)))

def ctxOf (s : State) (n : Nat) : CtxSt :=
  (s.pool.resident.find? (fun c => c.context == n)).getD { context := n, lastUse := 0, hasEstimate := false, block := [] }
def setCtx (s : State) (c : CtxSt) : State :=
  { s with pool := { s.pool with resident := s.pool.resident.filter (fun x => x.context != c.context) ++ [c] } }

/-! ## C-plane (R469) -/

/-- A run of an item's allocations: the item's opcode, first PRB, PRBs, first symbol, symbols. -/
structure Run where
  op : Nat
  first : Nat
  count : Nat
  sym : Nat
  nsym : Nat
deriving DecidableEq, Repr

/-- The runs of an item, each once; in the time-domain profile a run covers the whole carrier (R472). -/
def itemRuns (s : State) (i : Item) : List Run :=
  let c := eCarrier i.fetched.entry
  let runs : List Run := if i.opcode = 3 then
      let w := prachConfig s c (eAllocBuf i.fetched.entry) i.slotTime
      let idx := bitsOf w 63 56
      [{ op := 3, first := bitsOf w 39 31, count := Config.prachPrbs idx (carField s c 3) * 2 ^ bitsOf w 30 28, sym := 0
         nsym := Config.prachLastSymbol idx (carField s c 3) + 1 }]
    else (i.fetched.allocs.filter (fun a => aPrbCount a != 0 && aSymCount a != 0)).map
      (fun a => { op := i.opcode, first := aPrbStart a, count := aPrbCount a, sym := aSymStart a, nsym := aSymCount a })
  (if carField s c 2 = 2 then runs.map (fun r => { r with first := 0, count := carField s c 5 }) else runs).eraseDups

/-- One section of a run for stream `i`, number `k`: it is sent if its port is up, and for the uplink its symbols expect it. -/
def sendSection (s : State) (c dir : Nat) (t : Time) (i k : Nat) (r : Run) : State :=
  let port := streamPort s c dir i t
  let ax := streamEaxc s c dir i t
  let s := if (fhPort s port).up then
      (modFh s port (fun p => nextSeqid p (65536 + ax))).emit (.cplane port (BitVec.ofNat 16 ax) t r.sym r.first r.count)
    else s
  if dir = 1 then s
  else
    let secs : List CSection := (List.range r.nsym).map (fun j =>
      { op := r.op, carrier := c, slot := t, symbol := r.sym + j, port := port, eaxc := BitVec.ofNat 16 ax
        sectionId := BitVec.ofNat 12 k, first := r.first, count := r.count, got := [] })
    { s with fh := { s.fh with sections := s.fh.sections ++ secs } }

/-- The C-plane of one carrier, direction and slot: every run of its accepted items on every stream. -/
def sendCplane (s : State) (c dir : Nat) (t : Time) (is : List Item) : State :=
  ((is.flatMap (itemRuns s)).zipIdx).foldl (fun s r =>
    (List.range (streamsOf s c dir)).foldl (fun s i => sendSection s c dir t i r.2 r.1) s) s

/-- The bursts of a cut. -/
def cutCplane (s : State) (group : List Item) : State :=
  let keys := (group.map (fun i => (eCarrier i.fetched.entry, dirOf i.opcode, i.slotTime))).eraseDups
  keys.foldl (fun s k => sendCplane s k.1 k.2.1 k.2.2
    (group.filter (fun i => (eCarrier i.fetched.entry, dirOf i.opcode, i.slotTime) == k))) s

/-! ## Acceptance (R322 step 4, R323) -/

/-- An item is accepted: its processes and contexts are in use. -/
def acceptItem (s : State) (i : Item) : State :=
  let s := modItem s i (fun j => { j with phase := .accepted, decidedAt := s.time.now, gen := s.weights.gen })
  let s := { s with pool := { s.pool with lastUse := (dataAllocs i).foldl (fun t a => tset t (harqKey a) i.slotTime) s.pool.lastUse } }
  let s := (contextsOf i.fetched.allocs).foldl (fun s n => setCtx s { ctxOf s n with lastUse := max (ctxOf s n).lastUse i.slotTime }) s
  countAccepted s i.queue

/-- The items of one cut are decided together (R322). -/
def decideGroup (s : State) (group : List Item) : State :=
  let byQueue (i j : Item) : Bool := decide (i.queue < j.queue) || (i.queue == j.queue && (i.seq == j.seq || precedes i.seq j.seq))
  let bySlot (i j : Item) : Bool := decide (i.slotTime < j.slotTime) || (i.slotTime == j.slotTime && byQueue i j)
  let (s, g) := harqChecks s [] (sortBy bySlot group)
  let (s, g) := softChecks s (sortBy byQueue g)
  let (s, g) := contextChecks s g
  cutCplane (g.foldl acceptItem s) g

/-! ## Swaps (R326, R327) -/

/-- The items fetched for the next cut of each carrier. -/
def nextCutItems (s : State) : List Item :=
  let w := waitingItems s
  w.filter (fun i => w.all (fun j => eCarrier j.fetched.entry != eCarrier i.fetched.entry || decide (cutOf s i ≤ cutOf s j)))

/-- A resident context may give up its slot. -/
def isBlocked (s : State) (n : Nat) : Bool :=
  !(s.items.any (fun i => i.phase == .accepted && (contextsOf i.fetched.allocs).contains n))
    && !((nextCutItems s).any (fun i => (contextsOf i.fetched.allocs).contains n))

/-- The blocked context with the oldest last use, the lowest number among equals. -/
def victimOf (s : State) : Option CtxSt :=
  (s.pool.resident.filter (fun c => isBlocked s c.context)).foldl (fun b c =>
    match b with
    | none => some c
    | some d => if c.lastUse < d.lastUse ∨ (c.lastUse = d.lastUse ∧ c.context < d.context) then some c else b) none

/-- The backing-store address of a context (R325). -/
def backingAt (s : State) (n : Nat) : Nat := rwVal s 0x1408 1 0 + n * (planOf s).elim 0 (fun p => p.contextBytes)

/-- The block of a context as memory holds it, filled up to CONTEXT_BYTES with zeros. -/
def blockBytes (s : State) (c : CtxSt) : List Byte :=
  let n := (planOf s).elim 0 (fun p => p.contextBytes)
  (c.block ++ List.replicate (n - c.block.length) 0).take n

/-- One swap-in is planned: into a free slot, or in the place of a victim, whose block goes to the backing store. -/
def planSwap (s : State) (n : Nat) : State :=
  if s.pool.resident.length + s.pool.swaps.length < (planOf s).elim 0 (fun p => p.resident) then
    { s with pool := { s.pool with swaps := s.pool.swaps ++ [{ context := n, victim := none, landed := false }] } }
  else
    match victimOf s with
    | none => s
    | some v =>
      let s := s.emit (.hostWrite (backingAt s v.context) (blockBytes s v))
      { s with pool := { s.pool with
          resident := s.pool.resident.filter (fun c => c.context != v.context)
          backing := tset s.pool.backing v.context (v.hasEstimate, blockBytes s v)
          swaps := s.pool.swaps ++ [{ context := n, victim := some v.context, landed := false }] } }

/-- The swap-ins for the next cuts, in ascending context number. -/
def planSwaps (s : State) : State :=
  let wanted := ((nextCutItems s).flatMap (fun i => contextsOf i.fetched.allocs)).eraseDups
  let missing := wanted.filter (fun n => !isResident s n && !s.pool.swaps.any (fun w => w.context == n))
  (sortBy (fun a b => decide (a ≤ b)) missing).foldl planSwap s

/-- CONTEXT_SWAP_COMPLETE (R325, R327): both transfers of a planned swap have landed and the context is resident; one that was never
written to the backing store is zeros. `block` is what the host read returned. -/
def execContextSwapComplete (context : BitVec 20) (block : List Byte) (t : Time) (s : State) : Out :=
  timed s t (fun s =>
    let n := context.toNat
    if s.pool.swaps.any (fun w => w.context == n) then
      let c : CtxSt := match tget s.pool.backing n with
        | none => { context := n, lastUse := 0, hasEstimate := false, block := [] }
        | some m => { context := n, lastUse := 0, hasEstimate := m.1, block := block }
      setCtx { s with pool := { s.pool with swaps := s.pool.swaps.filter (fun w => w.context != n) } } c
    else s)

/-! ## The cut -/

/-- The cuts that have come, earliest first: the items of each are decided as one group; `fuel` bounds their number. -/
def decideCuts : Nat → State → State
  | 0, s => s
  | fuel + 1, s =>
    let due := (waitingItems s).filter (fun i => cutOf s i ≤ (s.time.now : Int))
    match due with
    | [] => s
    | i :: rest =>
      let first := rest.foldl (fun (m : Int) j => min m (cutOf s j)) (cutOf s i)
      decideCuts fuel (decideGroup s (due.filter (fun j => cutOf s j == first)))

/-- Every queue's ACCEPT_NEXT passes what is decided; the queues whose pointer moved write their ledgers (R322). -/
def settleAccepts (s : State) : State :=
  (openQueues s).foldl (fun s q =>
    let a := (queueOf s q).acceptNext
    let s := advanceAccept 65536 s q
    if (queueOf s q).acceptNext = a then s else writeLedger s q) s

/-- ADMISSION_CUT (R322, R327): while an occupancy runs and the host can be reached (R459). -/
def execAdmissionCut (t : Time) (s : State) : Out :=
  timed s t (fun s =>
    if s.occ.state ≠ .running || !canWrite s || !(waitingItems s).any (fun i => cutOf s i ≤ (s.time.now : Int)) then s
    else planSwaps (settleAccepts (decideCuts (waitingItems s).length s)))

/-- Waiting items whose cut passed while nothing could be decided are refused (R459). -/
def refusePassed (s : State) : State :=
  settleAccepts (((waitingItems s).filter (fun i => cutOf s i < (s.time.now : Int))).foldl
    (fun s i => refuseItem s i .refusedLateSubmit) s)

/-! ## Share dispatch (R310) -/

/-- The weight of a Share queue. -/
def weightOf (s : State) (qn : Nat) : Nat := ((planEntry s qn).map qpWeight).getD 0
def shareCost (s : State) (pos : BitVec 32) : Nat :=
  (planOf s).elim 0 (fun p => ((p.shareCosts.find? (fun c => c.1 == pos)).map (fun c => c.2)).getD 0)

/-- The accepted item of a queue whose slices run next. -/
def shareItem (s : State) (qn : Nat) : Option Item :=
  s.items.find? (fun i => i.queue == qn && i.phase == .accepted && i.doneAt.isNone)

/-- The first ready queue after `cur` in cyclic ascending order. -/
def nextReady (ready : List (BitVec 12 × BitVec 32)) (cur : Nat) : Option (BitVec 12 × BitVec 32) :=
  let far (q : Nat) : Nat := (q + 4096 - cur - 1) % 4096
  ready.foldl (fun b r => match b with
    | none => some r
    | some x => if far r.1.toNat < far x.1.toNat then some r else b) none

/-- The unit that the distribution table names for a position. -/
def nominalUnit (s : State) (pos : BitVec 32) : UAddr :=
  (planOf s).elim packageUnit (fun p =>
    (((p.dist.flatMap (fun d => d.kids)).find? (fun k => k.1 == pos)).map (fun k => k.2)).getD packageUnit)

/-- The loop of R310; `fuel` bounds its turns. -/
def shareLoop : Nat → State → List (BitVec 12 × BitVec 32) → State
  | 0, s, _ => s
  | fuel + 1, s, ready =>
    match nextReady ready s.shareCur with
    | none => s
    | some (q, pos) =>
      let qn := q.toNat
      let d := (queueOf s qn).deficit
      let d := if d ≤ 0 then d + (weightOf s qn : Int) * 64 else d
      let s := modQueue { s with shareCur := qn } qn (fun x => { x with deficit := d })
      if 0 < d then
        let s := modQueue s qn (fun x => { x with deficit := d - (shareCost s pos : Int) })
        let seq := ((shareItem s qn).map (fun i => i.seq)).getD 0
        let u := nominalUnit s pos
        sendSlice s (servingUnit s u pos) { pos := pos, queue := q, seq := BitVec.ofNat 32 seq }
      else shareLoop fuel s ready

/-- SHARE_DISPATCH (R310): `ready` holds each queue's first ready slice, `spare` the spare time in 1/256 engine-µs. -/
def execShareDispatch (spare : Nat) (ready : List (BitVec 12 × BitVec 32)) (t : Time) (s : State) : Out :=
  timed s t (fun s =>
    let s := { s with queues := s.queues.map (fun p => if (shareItem s p.1).isNone then (p.1, { p.2 with deficit := 0 }) else p) }
    let ok := ready.filter (fun r => shareCost s r.2 ≤ spare && (shareItem s r.1.toNat).isSome
      && ((planEntry s r.1.toNat).map qpShare).getD false)
    let debt := (ok.map (fun r => (-(queueOf s r.1.toNat).deficit).toNat / 64 + 2)).foldl max 0
    shareLoop (ok.length * debt) s ok)

/-! ## Failed reads of the host (R457) -/

/-- The fault record of a failed read. -/
def hostReadFault (s : State) (how : HostRead) (q : BitVec 12) (seq : Seq) : State :=
  recordFaultAt s (dieUnit 2) (if how = .poison then causePoison else causeEnvironment) 0 0 q seq 0

/-- HOST_READ_ERROR (R457): the read of an entry refuses the item, of an input counts its bytes as zero, of a context leaves the
swap-in undone, of an image spoils its copy. The opcode of an entry that was not read is a free value. -/
def execHostReadError (what : HostReadOf) (how : HostRead) (t : Time) (s : State) : Out :=
  timed s t (fun s =>
    if how = .good then s
    else
      match what with
      | .fetch q seq =>
        if canFetch s q.toNat && (queueOf s q.toNat).fetchNext = seq.toNat then
          let s := hostReadFault s how q seq
          let (op, s) := s.free 256
          let f : Fetched := { entry := BitVec.ofNat 1024 (seq.toNat * 2 ^ 64 + op), bufs := [], allocs := [], rels := [], read := how, data := [] }
          let i := { newItem s q.toNat seq.toNat f (arrivalOf (queueOf s q.toNat) seq.toNat) with opcode := op }
          refuseFetch s i (if s.occ.state = .none then .refusedNotLoaded else .refusedFormat)
        else s
      | .input q seq =>
        if s.items.any (fun i => isItem q.toNat seq.toNat i && i.phase == .accepted) then
          let s := hostReadFault s how q seq
          { s with items := s.items.map (fun i => if isItem q.toNat seq.toNat i then { i with inputMissing := true } else i) }
        else s
      | .swapIn c =>
        if s.pool.swaps.any (fun w => w.context == c.toNat) then
          let s := hostReadFault s how 0 0
          { s with pool := { s.pool with swaps := s.pool.swaps.filter (fun w => w.context != c.toNat) } }
        else s
      | .image =>
        if s.occ.state = .loading then hostReadFault { s with occ := { s.occ with copyBad := true } } how 0 0 else s)

end Sys2Proof.Machine
end

