-- ==== Sys2Proof/Machine/Flags.lean ====
section
/-! DEFINITION. Machine/Flags.lean: the sticky saturation flag of a slice (R101, R132, R182). -/

namespace Sys2Proof.Machine

/-- `n` events set bit 0 of the status word of the slice that core `k` runs (R132, R182) and count as event `ev` of engine `u`. -/
def setSat (s : State) (k : Nat) (u : UAddr) (ev n : Nat) : State :=
  if n = 0 then s
  else countUnit ((runningSlice s (coreUnit k)).elim s (fun sl => orStatus s (coreUnit k) sl 1)) u ev n

end Sys2Proof.Machine
end

