-- ==== Sys2Proof/Machine/Coding.lean ====
section
/-! DEFINITION. Machine/Coding.lean: the coding engines (R238 to R249 of spec/08_channel_coding.md). The base graphs, k0 and the
bit interleaver are those of TS 38.212, which the spec names without giving them (log entry 8). -/

namespace Sys2Proof.Machine

/-! ## Bit strings in cluster memory (R238) -/

/-- Bits of cluster memory. -/
def clusterBits : Nat := clusterBytes * 8

/-- What a read of `n` bits at bit address `bit` of cluster `c` meets. -/
def gotBits (s : State) (c bit n : Nat) : Got := readLocal s (clusterBase c + bit / 8) ((bit % 8 + n + 7) / 8)

/-- Bit `i` of bytes. -/
def bitAt (bs : List Byte) (i : Nat) : Bool := (bs.getD (i / 8) 0).toNat.testBit (i % 8)

/-- `n` bits from bit address `bit` of cluster `c`. -/
def readBits (s : State) (c bit n : Nat) : List Bool :=
  let bs := (gotBits s c bit n).bytes
  (List.range n).map (fun i => bitAt bs (bit % 8 + i))

/-- Eight bits as a byte, the first in bit 0. -/
def byteOfBits (bs : List Bool) : Byte :=
  BitVec.ofNat 8 ((List.range 8).foldl (fun acc i => acc + (if bs.getD i false then 2 ^ i else 0)) 0)

/-- Bits as bytes. -/
def bytesOfBits (bs : List Bool) : List Byte :=
  (List.range ((bs.length + 7) / 8)).map (fun i => byteOfBits (bs.drop (8 * i)))

/-- Write bits at bit address `bit` of cluster `c`, the other bits of the end bytes kept. -/
def writeBits (s : State) (master : UAddr) (c bit : Nat) (bs : List Bool) : State :=
  if bs = [] then s
  else
    let old := (gotBits s c bit bs.length).bytes
    let all := (List.range (8 * old.length)).map (fun i =>
      if bit % 8 ≤ i ∧ i < bit % 8 + bs.length then bs.getD (i - bit % 8) false else bitAt old i)
    writeLocal s master (clusterBase c + bit / 8) (bytesOfBits all) false

/-- INT8 values from a byte-aligned bit address. -/
def readLlrs (s : State) (c bit n : Nat) : List Int :=
  (readLocal s (clusterBase c + bit / 8) n).bytes.map (fun b => signedOf 8 b.toNat)

/-! ## CRC (R249) -/

/-- Length and polynomial of a CRC code of the coding engine (R238). -/
def ceCrcType : Nat → Nat × Nat
  | 1 => (24, 0x864CFB)
  | 2 => (24, 0x800063)
  | 3 => (16, 0x1021)
  | _ => (0, 0)

/-- The CRC register after the bits, from zero. -/
def crcReg (len poly : Nat) (bits : List Bool) : Nat :=
  bits.foldl (fun r b =>
    let fb := (r / 2 ^ (len - 1) % 2 == 1) != b
    let r := 2 * r % 2 ^ len
    if fb then r ^^^ poly else r) 0

/-- The CRC bits, most significant first. -/
def crcBits (len poly : Nat) (bits : List Bool) : List Bool :=
  let r := crcReg len poly bits
  (List.range len).map (fun i => r.testBit (len - 1 - i))

/-- The last CRC-length bits are the CRC of those before them. -/
def crcHolds (len poly : Nat) (bits : List Bool) : Bool :=
  len ≤ bits.length && crcBits len poly (bits.take (bits.length - len)) == bits.drop (bits.length - len)

/-! ## Ranges (R238, R240) -/

/-- `n` bits at bit address `bit` lie within cluster memory. -/
def bitsInside (bit n : Nat) : Bool := bit + n ≤ clusterBits

/-- The ranges that the opcode's fields keep (R238, R240). -/
def ceOk (c : CeCmd) : Bool :=
  let bg2 := c.bg == 1
  let code := liftSizes.contains c.z.toNat && c.kp.toNat ≤ 8448 && c.f.toNat ≤ 8447 && c.ncb.toNat ≤ 25344
    && c.kp.toNat + c.f.toNat ≤ ldpcKb bg2 * c.z.toNat && c.ncb.toNat ≤ ldpcN bg2 * c.z.toNat
  let qm := [1, 2, 4, 6, 8, 10].contains c.qm.toNat && c.e.toNat % c.qm.toNat == 0
  let crc := c.crc.toNat ≤ 3
  let res := c.resAddr.toNat % 32 == 0 && bitsInside c.resAddr.toNat 32
  c.rsvdA == 0 && c.rsvdB == 0 &&
    (match c.opcode.toNat with
     | 0 => true
     | 1 => code && qm && c.inAddr.toNat % 8 == 0 && c.outAddr.toNat % 8 == 0 && bitsInside c.inAddr.toNat (8 * c.e.toNat)
        && bitsInside c.outAddr.toNat (8 * c.ncb.toNat)
     | 2 => code && crc && c.iter.toNat ≤ 32 && c.inAddr.toNat % 8 == 0 && bitsInside c.inAddr.toNat (8 * c.ncb.toNat)
        && bitsInside c.outAddr.toNat c.kp.toNat && res
     | 3 => code && crc && qm && bitsInside c.inAddr.toNat c.kp.toNat && bitsInside c.outAddr.toNat c.e.toNat
     | 4 => crc && bitsInside c.inAddr.toNat (c.e.toNat + (ceCrcType c.crc.toNat).1) && res
     | _ => false)

/-- What the loader checks of a command in a step list (R240): reserved codes and fields, and the ranges of the fixed fields that the opcode
uses; BG, KP, F, Z, NCB, E, RV and QM come from the item at run time (R247). -/
def ceListOk (c : CeCmd) : Bool :=
  let crc := c.crc.toNat ≤ 3
  let res := c.resAddr.toNat % 32 == 0 && bitsInside c.resAddr.toNat 32
  let inside_ := bitsInside c.inAddr.toNat 0
  let out := bitsInside c.outAddr.toNat 0
  c.rsvdA == 0 && c.rsvdB == 0 &&
    (match c.opcode.toNat with
     | 0 => true
     | 1 => c.inAddr.toNat % 8 == 0 && c.outAddr.toNat % 8 == 0 && inside_ && out
     | 2 => crc && c.iter.toNat ≤ 32 && c.inAddr.toNat % 8 == 0 && inside_ && out && res
     | 3 => crc && inside_ && out
     | 4 => crc && inside_ && res
     | _ => false)

/-- The command for code block `j` of a record, its fields filled from the item (R240, R247, R254): `c` is the carrier, `t` the slot start. -/
def ceFill (s : State) (c : Nat) (t : Time) (a : BitVec 256) (j : Nat) (x : CeCmd) : CeCmd :=
  let g := segOf (aTbs a) (aRate a)
  let e := segE (dataBitPlaces s c a t).length (aLayers a) (aQm a) g.blocks j
  { x with
    bg := if g.bg2 then 1 else 0, kp := BitVec.ofNat 14 g.kp, z := BitVec.ofNat 9 g.z, f := BitVec.ofNat 14 g.f
    ncb := BitVec.ofNat 15 (aNcb s c a t), rv := BitVec.ofNat 2 (aRv a), qm := BitVec.ofNat 4 (aQm a)
    e := if x.opcode = 4 then BitVec.ofNat 22 (aTbs a)
         else BitVec.ofNat 22 e }

/-- The item whose slice cluster `c` runs. -/
def clusterItem (s : State) (c : Nat) : Option Item :=
  (runningSlice s (clusterUnit c)).bind (fun sl => s.items.find? (fun i => i.queue == sl.queue.toNat && i.seq == sl.seq.toNat))

/-- The command that the sequencer of cluster `c` issues for block `blk`: record number and code block of the running item; without one the
command as it stands. -/
def ceIssued (s : State) (c : Nat) (x : CeCmd) : Option (Nat × Nat) → CeCmd
  | none => x
  | some (r, j) =>
    match clusterItem s c with
    | none => x
    | some i => (i.fetched.allocs[r]?).elim x (fun a => ceFill s (eCarrier i.fetched.entry) i.slotTime a j x)

/-- The command completes in the cycle it starts and writes nothing (R248). -/
def ceZero (c : CeCmd) : Bool :=
  match c.opcode.toNat with
  | 0 => true
  | 2 => c.kp == 0 && c.ncb == 0
  | 4 => false
  | _ => c.kp == 0 && c.e == 0 && c.ncb == 0

/-! ## Rate matching (R241, R246) -/

/-- The starting position k0 of TS 38.212 (log entry 8). -/
def k0 (bg2 : Bool) (rv z ncb : Nat) : Nat :=
  let q (a : Nat) : Nat := a * ncb / (ldpcN bg2 * z) * z
  match rv with
  | 0 => 0
  | 1 => q (if bg2 then 13 else 17)
  | 2 => q (if bg2 then 25 else 33)
  | _ => q (if bg2 then 43 else 56)

/-- Position `p` of the circular buffer is filler (R241). -/
def isFiller (c : CeCmd) (p : Nat) : Bool :=
  c.kp.toNat ≤ p + 2 * c.z.toNat && p + 2 * c.z.toNat < c.kp.toNat + c.f.toNat

/-- The positions that carry values, from k0 around the buffer. -/
def carried (c : CeCmd) : List Nat :=
  let n := c.ncb.toNat
  let k := k0 (c.bg == 1) c.rv.toNat c.z.toNat n
  ((List.range n).map (fun i => (k + i) % n)).filter (fun p => !isFiller c p)

/-- The value at place `v` of the selected sequence stands at this place of the interleaved one. -/
def interPlace (e qm v : Nat) : Nat := v % (e / qm) * qm + v / (e / qm)

/-- DERM (R241). -/
def derm (c : CeCmd) (llrs : List Int) : List Int :=
  let e := c.e.toNat
  let ps := carried c
  let sums := (List.range e).foldl (fun (acc : Array Int) v =>
    let p := ps.getD (v % ps.length) 0
    if ps = [] then acc
    else acc.setIfInBounds p (clampInt (-127) 127 (acc.getD p 0 + llrs.getD (interPlace e c.qm.toNat v) 0)))
    (Array.replicate c.ncb.toNat (0 : Int))
  sums.toList

/-! ## LDPC decoding (R242 to R245) -/

/-- Edges of layer `l`: block column and shift, ascending columns. -/
def layerEdges (c : CeCmd) (l : Nat) : List (Nat × Nat) :=
  ((Config.ldpcEdges (c.bg == 1) (liftIndex c.z.toNat)).filter (fun e => e.1 == l)).map (fun e => (e.2.1, e.2.2 % c.z.toNat))

/-- Layers decoded (R242). -/
def activeLayers (c : CeCmd) : Nat :=
  if c.ncb = 0 then 4
  else
    let bg2 := c.bg == 1
    max 4 (min (ldpcRows bg2) (ceilDiv c.ncb.toNat c.z.toNat + 2 - ldpcKb bg2))

/-- The decoder input of a column (R242). -/
def ldpcInput (c : CeCmd) (circ : List Int) (v : Nat) : Int :=
  let z2 := 2 * c.z.toNat
  if v < z2 then 0
  else if c.kp.toNat ≤ v ∧ v < c.kp.toNat + c.f.toNat then 127
  else if v - z2 < c.ncb.toNat then circ.getD (v - z2) 0
  else 0

/-- The row group of a layer (R244). -/
def rowGroup (bg2 : Bool) (l : Nat) : Nat :=
  if bg2 then (if l < 4 then 0 else if l < 10 then 1 else if l < 22 then 2 else 3)
  else (if l < 4 then 0 else if l < 12 then 1 else if l < 26 then 2 else 3)

/-- The learned table sets in the working weights `w` (R244): 256 entries each, by base graph, iteration, row group. -/
def tableSets (p : Plan) (w : List Byte) : List (List (BitVec 16)) :=
  p.tables.map (fun t => (chunks 2 256 ((w.drop t.1).take 512)).map (fun b => BitVec.ofNat 16 (ofBytesLE b)))

/-- ALPHA and BETA of table set `t` (R244). -/
def tableEntry (tables : List (List (BitVec 16))) (t : Nat) (bg2 : Bool) (it g : Nat) : Nat × Nat :=
  let w := ((tables.getD t []).getD (((if bg2 then 32 else 0) + it) * 4 + g) 0)
  (bitsOf w 15 8, bitsOf w 7 3)

def sat511 (i : Int) : Int := clampInt (-511) 511 i

/-- Edges of check row `r` of a layer as codeword columns. -/
def checkCols (c : CeCmd) (l r : Nat) : List Nat :=
  (layerEdges c l).map (fun e => e.1 * c.z.toNat + (r + e.2) % c.z.toNat)

/-- One row of R243: the posteriors and the row's messages after it. -/
def ldpcRow (a b : Nat) (cols : List Nat) (p : Array Int) (r : List Int) : Array Int × List Int :=
  let q : List Int := cols.zipIdx.map (fun (v, i) => sat511 (p.getD v 0 - r.getD i 0))
  let mags := q.map (fun x => x.natAbs)
  let m1 := mags.foldl min 511
  let pos := mags.findIdx (fun m => m == m1)
  let m2 := (mags.eraseIdx pos).foldl min 511
  let s : Int := q.foldl (fun s x => if x < 0 then -s else s) 1
  let out : List Int := q.zipIdx.map (fun (x, i) =>
    let m := if i = pos then m2 else m1
    let v := min 127 (roundInt .rne false (a * (m - b)) (-7))
    s * (if x < 0 then -1 else 1) * v)
  (((cols.zip q).zip out).foldl (fun (p : Array Int) e => p.setIfInBounds e.1.1 (sat511 (e.1.2 + e.2))) p, out)

/-- One iteration: every row of every active layer in order. -/
def ldpcIter (c : CeCmd) (tables : List (List (BitVec 16))) (it : Nat) (st : Array Int × Array (List Int)) :
    Array Int × Array (List Int) :=
  let z := c.z.toNat
  (List.range (activeLayers c * z)).foldl (fun (st : Array Int × Array (List Int)) x =>
    let l := x / z
    let e := tableEntry tables c.table.toNat (c.bg == 1) it (rowGroup (c.bg == 1) l)
    let res := ldpcRow e.1 e.2 (checkCols c l (x % z)) st.1 (st.2.getD x [])
    (res.1, st.2.setIfInBounds x res.2)) st

/-- Every check of the active layers holds on the hard decisions. -/
def checksHold (c : CeCmd) (p : Array Int) : Bool :=
  (List.range (activeLayers c * c.z.toNat)).all (fun x =>
    (checkCols c (x / c.z.toNat) (x % c.z.toNat)).foldl (fun b v => b != decide (p.getD v 0 < 0)) false == false)

/-- Iterations until the checks hold or the budget is spent: posteriors, iterations used, syndrome flag. -/
def ldpcRun (c : CeCmd) (tables : List (List (BitVec 16))) : Nat → Nat → Array Int × Array (List Int) → Array Int × Nat × Bool
  | 0, used, st => (st.1, used, false)
  | n + 1, used, st =>
    let st := ldpcIter c tables used st
    if checksHold c st.1 then (st.1, used + 1, true) else ldpcRun c tables n (used + 1) st

/-- DECODE: bits, iterations used, syndrome flag (R243). -/
def ldpcDecode (c : CeCmd) (tables : List (List (BitVec 16))) (circ : List Int) : List Bool × Nat × Bool :=
  let cols := (ldpcN (c.bg == 1) + 2) * c.z.toNat
  let p0 : Array Int := ((List.range cols).map (ldpcInput c circ)).toArray
  let r := ldpcRun c tables c.iter.toNat 0 (p0, Array.replicate (activeLayers c * c.z.toNat) [])
  ((List.range c.kp.toNat).map (fun v => decide (r.1.getD v 0 < 0)), r.2)

/-! ## LDPC encoding (R246) -/

/-- Gaussian elimination over GF(2): an equation is the mask of its unknowns and its right side. -/
def gf2Solve : Nat → List (Nat × Bool) → List (Nat × Nat × Bool) → List (Nat × Nat × Bool)
  | 0, _, done => done
  | v + 1, eqs, done =>
    match eqs.find? (fun e => e.1.testBit v) with
    | none => gf2Solve v eqs done
    | some p =>
      let elim (e : Nat × Bool) : Nat × Bool := if e.1.testBit v then (e.1 ^^^ p.1, e.2 != p.2) else e
      gf2Solve v ((eqs.erase p).map elim)
        ((v, p) :: done.map (fun d => if d.2.1.testBit v then (d.1, d.2.1 ^^^ p.1, d.2.2 != p.2) else d))

/-- The codeword columns of systematic bits `info` (information, then zeros): H c = 0 (TS 38.212). -/
def ldpcEncode (c : CeCmd) (info : List Bool) : List Bool :=
  let bg2 := c.bg == 1
  let z := c.z.toNat
  let k := ldpcKb bg2 * z
  let sys : Array Bool := ((List.range k).map (fun i => info.getD i false)).toArray
  let eqs := (List.range (ldpcRows bg2 * z)).map (fun x =>
    (checkCols c (x / z) (x % z)).foldl (fun (e : Nat × Bool) v =>
      if v < k then (e.1, e.2 != sys.getD v false) else (e.1 ^^^ 2 ^ (v - k), e.2)) (0, false))
  let sol := gf2Solve (ldpcRows bg2 * z) eqs []
  sys.toList ++ (List.range (ldpcRows bg2 * z)).map (fun v => ((sol.find? (fun d => d.1 == v)).map (fun d => d.2.2)).getD false)

/-- The E bits that ENCODE writes (R246). -/
def encodeBits (c : CeCmd) (input : List Bool) : List Bool :=
  let kp := c.kp.toNat
  let msg := if c.crc = 2 then (input.take (kp - 24) ++ crcBits 24 0x800063 (input.take (kp - 24))).take kp else input
  let cw := (ldpcEncode c msg).toArray
  let ps := carried c
  let e := c.e.toNat
  let qm := c.qm.toNat
  (List.range e).map (fun t => cw.getD (2 * c.z.toNat + ps.getD ((t % qm * (e / qm) + t / qm) % ps.length) 0) false)

/-- The coded bits of a transport block (R77 stage 2, R85, R247): transport-block CRC, segmentation, code-block CRCs, encoding and rate matching
for its record on carrier `c` in the slot at `t`. -/
def encodeTb (s : State) (c : Nat) (t : Time) (a : BitVec 256) (bits : List Bool) : List Bool :=
  let g := segOf (aTbs a) (aRate a)
  let p := ceCrcType (tbCrcCode (aTbs a))
  let all := bits ++ crcBits p.1 p.2 bits
  let n := if 1 < g.blocks then g.kp - 24 else g.kp
  let cmd (j : Nat) : CeCmd := { ceFill s c t a j (ceCmdOfWord 0) with opcode := 3, crc := if 1 < g.blocks then 2 else 0 }
  (List.range g.blocks).flatMap (fun j => encodeBits (cmd j) ((all.drop (n * j)).take n))

/-! ## The commands -/

/-- The unit address of coding engine `k` of cluster `c`. -/
def ceUnit (c k : Nat) : UAddr := clusterEng c 7 3 k

def modCe (s : State) (c k : Nat) (f : EngSt → EngSt) : State := modCluster s c (fun x => { x with ce := lmod x.ce k f })

/-- The result word of R239. -/
def resultWord (crcOk synOk : Bool) (used : Nat) : List Byte :=
  bytesLE 4 ((if crcOk then 2 ^ 31 else 0) + (if synOk then 2 ^ 30 else 0) + used % 64 * 2 ^ 24)

/-- Cycles of R248, a DECODE's load and write terms apart. -/
def ceCost (c : CeCmd) : Nat :=
  if ceZero c then 0
  else
    match c.opcode.toNat with
    | 1 => ceilDiv c.e.toNat 256 + ceilDiv c.ncb.toNat 256 + 16
    | 2 => c.iter.toNat * (ceilDiv (7 * activeLayers c) 2 + 4)
    | 3 => max (3 * ldpcKb (c.bg == 1) + 5 * activeLayers c + 21) (ceilDiv c.e.toNat 256)
    | _ => ceilDiv c.e.toNat 512 + 8

/-- The load and write terms of a DECODE, which it pays unless it follows another one (R248). -/
def ceEnds (run : Bool) (c : CeCmd) : Nat := if c.opcode = 2 ∧ !ceZero c ∧ !run then ceilDiv c.ncb.toNat 256 + 1 + 64 else 0

/-- The engine's cycles and its run of DECODEs (R248), and the step left to be reported. -/
def ceDone (s : State) (c k : Nat) (u : UAddr) (cmd : CeCmd) : State :=
  let e := (clusterOf s c).ce.getD k {}
  let n := ceCost cmd + ceEnds e.decodeRun cmd
  let s := modCe s c k (fun e => { e with
    busy := e.busy ++ [0], cycles := e.cycles + n, decodeRun := if ceZero cmd then e.decodeRun else cmd.opcode == 2 })
  countUnit s u 0x40 n

/-- The memories of a coding or polar engine that hold messages, LLRs and paths, as codewords (R261; log entry 47). -/
def codeWords : Nat := 2 ^ 20

/-- The table sets in force at the slot start of the item that cluster `c` serves (R56, R244). -/
def tablesFor (s : State) (c : Nat) : List (List (BitVec 16)) :=
  (planOf s).elim [] (fun p => tableSets p ((clusterItem s c).elim s.weights.inForce (itemWeights s)))

/-- Address and length of the command's input in cluster memory `c`. -/
def ceInput (c : Nat) (cmd : CeCmd) : Nat × Nat :=
  let a := cmd.inAddr.toNat
  let bits (n : Nat) : Nat × Nat := (clusterBase c + a / 8, (a % 8 + n + 7) / 8)
  match cmd.opcode.toNat with
  | 1 => (clusterBase c + a / 8, cmd.e.toNat)
  | 2 => (clusterBase c + a / 8, cmd.ncb.toNat)
  | 3 => bits cmd.kp.toNat
  | _ => bits (cmd.e.toNat + (if cmd.attach = 1 then 0 else (ceCrcType cmd.crc.toNat).1))

/-- Run a command that passed its checks, on engine `u` for the list of CE `k` (R241 to R247, R261). -/
def ceRun (s : State) (c k : Nat) (u : UAddr) (cmd : CeCmd) : State :=
  let put (s : State) (bit : Nat) (bs : List Byte) : State := writeLocal s u (clusterBase c + bit / 8) bs false
  let crc := ceCrcType cmd.crc.toNat
  let inp := ceInput c cmd
  let g := readLocal s inp.1 inp.2
  if ceZero cmd then ceDone s c k u cmd
  else if g.poisoned || g.uncorrectable then engineFault s u (badCause g) g.at_
  else if cmd.opcode.toNat ≤ 2 && errBad s u 0 codeWords then engineFault s u causeUncorrectable 0
  else
    let s := countErrs (countRead (stream s u [g.bytes]).2 inp.1 inp.2) u 0 codeWords
    match cmd.opcode.toNat with
    | 1 => ceDone (put s cmd.outAddr.toNat ((derm cmd (readLlrs s c cmd.inAddr.toNat cmd.e.toNat)).map
        (fun i => BitVec.ofNat 8 (patternOf 8 i)))) c k u cmd
    | 2 =>
      let r := ldpcDecode cmd (tablesFor s c) (readLlrs s c cmd.inAddr.toNat cmd.ncb.toNat)
      let ok := cmd.crc != 0 && crcHolds crc.1 crc.2 r.1
      let s := writeBits s u c cmd.outAddr.toNat r.1
      let s := put s cmd.resAddr.toNat (resultWord ok r.2.2 r.2.1)
      let s := countUnit s u 0x41 (cmd.iter.toNat - r.2.1)
      let s := if cmd.crc != 0 && !ok then countUnit s u 0x42 1 else s
      ceDone s c k u cmd
    | 3 =>
      if cmd.e != 0 && carried cmd == [] then
        -- R246 selects from a buffer with no bit to select: what is written is open (log entry 3)
        let (v, s) := s.free (2 ^ cmd.e.toNat)
        ceDone (writeBits s u c cmd.outAddr.toNat ((List.range cmd.e.toNat).map (fun i => v.testBit i))) c k u cmd
      else ceDone (writeBits s u c cmd.outAddr.toNat (encodeBits cmd (readBits s c cmd.inAddr.toNat cmd.kp.toNat))) c k u cmd
    | _ =>
      let e := cmd.e.toNat
      if cmd.attach = 1 then
        let s := writeBits s u c (cmd.inAddr.toNat + e) (crcBits crc.1 crc.2 (readBits s c cmd.inAddr.toNat e))
        ceDone (put s cmd.resAddr.toNat (resultWord (cmd.crc != 0) false 0)) c k u cmd
      else
        let ok := cmd.crc != 0 && crcHolds crc.1 crc.2 (readBits s c cmd.inAddr.toNat (e + crc.1))
        let s := put s cmd.resAddr.toNat (resultWord ok false 0)
        let s := if cmd.crc != 0 && !ok then countUnit s u 0x42 1 else s
        ceDone s c k u cmd

/-- A command reaches coding engine `k` of cluster `c`, the sequencer having filled it for block `blk` (R240, R247): its sibling runs it when
it is retired (R358); bad ranges fault (R240). -/
def ceCommand (c : BitVec 3) (k : BitVec 1) (x : CeCmd) (blk : Option (Nat × Nat)) (s : State) : Out :=
  let u := engineFor s (ceUnit c.toNat k.toNat)
  let cmd := ceIssued s c.toNat x blk
  if stopped s || !canRun s u then .next s
  else if !ceOk cmd then .next (engineFault s u causeCommand 0)
  else .next (ceRun s c.toNat k.toNat u cmd)

/-- CE_NOP (R238, R248). -/
def execCeNop (c : BitVec 3) (k : BitVec 1) (x : CeIssue) (s : State) : Out :=
  ceCommand c k { x.cmd with opcode := 0 } x.blk s
/-- CE_DERM (R241). -/
def execCeDerm (c : BitVec 3) (k : BitVec 1) (x : CeIssue) (s : State) : Out :=
  ceCommand c k { x.cmd with opcode := 1 } x.blk s
/-- CE_DECODE (R242, R243). -/
def execCeDecode (c : BitVec 3) (k : BitVec 1) (x : CeIssue) (s : State) : Out :=
  ceCommand c k { x.cmd with opcode := 2 } x.blk s
/-- CE_ENCODE (R246). -/
def execCeEncode (c : BitVec 3) (k : BitVec 1) (x : CeIssue) (s : State) : Out :=
  ceCommand c k { x.cmd with opcode := 3 } x.blk s
/-- CE_CRC (R247). -/
def execCeCrc (c : BitVec 3) (k : BitVec 1) (x : CeIssue) (s : State) : Out :=
  ceCommand c k { x.cmd with opcode := 4 } x.blk s

/-- CE_COMMAND_COMPLETE (R248): the oldest command of the list completes; its step's tokens follow. -/
def execCeCommandComplete (c : BitVec 3) (k : BitVec 1) (t : Time) (s : State) : Out :=
  timed s t (fun s =>
    match ((clusterOf s c.toNat).ce.getD k.toNat {}).busy with
    | [] => s
    | _ :: rest =>
      let u := ceUnit c.toNat k.toNat
      if !clocked s (engineFor s u) then s else
      completeStep (modCe s c.toNat k.toNat (fun e => { e with busy := rest })) (clusterEng c.toNat 7 6 0) u [engineFor s u])

end Sys2Proof.Machine
end

