-- ==== Sys2Proof/Machine/Dsp.lean ====
section
/-! DEFINITION. Machine/Dsp.lean: the DSP engine (spec/07_dsp_engine.md). A packet is two commands, slot 0 and then slot 1; the
command of slot 1 ends the packet. -/

namespace Sys2Proof.Machine

/-- The unit address of the DSP engine of core `k`. -/
def deUnit (k : Nat) : UAddr := coreEng k 2 0

def dspOf (s : State) (k : Nat) : DspSt := (coreOf s k).dsp
def modDsp (s : State) (k : Nat) (f : DspSt → DspSt) : State := modCore s k (fun x => { x with dsp := f x.dsp })

/-- The program region of core `k` that holds packet address `p` (R203). -/
def regionAt (s : State) (k p : Nat) : Option ProgramPlan :=
  (planOf s).bind (fun pl =>
    pl.programs.find? (fun g => g.core == coreUnit ((coreOf s k).guest.getD k) && g.base ≤ p && p < g.base + g.words.length))

/-- Packet address `q` lies in the region that holds `p` (R234). -/
def sameRegion (s : State) (k p q : Nat) : Bool :=
  match regionAt s k p with
  | some g => g.base ≤ q && q < g.base + g.words.length
  | none => false

/-! ## Packets and what the loader asks of them (R209 to R222, R234) -/

/-- One DSP instruction has no reserved class, opcode or field value, and no odd register for 16 bytes (R209 to R220). -/
def dspInstrFits (w : BitVec 32) : Bool :=
  match bitsOf w 31 28 with
  | 0 => bitsOf w 27 0 == 0
  | 1 =>
    let o := bitsOf w 27 23
    o ≤ 0x11 && (bitsOf w 22 21 != 3 || o == 5 || o == 6 || o == 7 || o == 0x10)
  | 2 => bitsOf w 27 24 ≤ 6 && bitsOf w 11 10 ≤ 1 && bitsOf w 9 0 == 0
  | 3 =>
    let o := bitsOf w 27 25
    o ≤ 5 && bitsOf w 8 0 == 0 && (!(o == 2 || o == 3) || (bitsOf w 22 21 == 0 && bitsOf w 12 9 == 0)) && (o != 4 || bitsOf w 12 9 == 0)
      && (o != 5 || (bitsOf w 20 18 == 0 && bitsOf w 16 13 == 0))
  | 4 => bitsOf w 25 24 != 3 && (bitsOf w 25 24 == 2 || bitsOf w 14 4 == 0) && bitsOf w 3 0 == 0 && (bitsOf w 27 26 != 3 || !bitOf w 19)
  | 5 => bitsOf w 25 24 != 3 && (bitsOf w 25 24 == 2 || bitsOf w 14 4 == 0) && bitsOf w 3 0 == 0 && (bitsOf w 27 26 != 3 || !bitOf w 19)
  | 6 => bitsOf w 4 0 == 0
  | 7 => bitsOf w 27 25 ≤ 6 && (bitsOf w 27 25 ≤ 1 || bitsOf w 15 0 == 0)
  | 8 =>
    match bitsOf w 27 24 with
    | 0 => bitsOf w 23 20 == 0
    | 5 => bitsOf w 23 20 == 0
    | 6 => bitsOf w 19 0 == 0
    | 7 => bitsOf w 20 11 != 0 && (!bitOf w 21 || bitsOf w 5 0 == 0)
    | 8 => bitsOf w 23 0 == 0
    | 9 => bitsOf w 23 0 == 0
    | 10 => bitsOf w 23 1 == 0
    | 11 => bitsOf w 23 3 == 0
    | 12 => bitsOf w 10 0 == 0
    | n => n ≤ 4
  | 9 => bitsOf w 27 26 ≤ 1 && bitsOf w 18 16 == 0
  | 10 =>
    let o := bitsOf w 27 25
    let sel := bitsOf w 19 16
    o ≤ 5 && bitsOf w 15 0 == 0 && (1 < o || sel ≤ 3) && (o != 2 || sel ≤ 1) && (o != 3 || sel == 0)
  | _ => false

/-- What an instruction writes: data registers from 0, address registers from 100, offset registers from 200, accumulator quads from
300 (R222). -/
def dspWrites (w : BitVec 32) : List Nat :=
  let pair (d : Nat) : List Nat := [2 * d, 2 * d + 1]
  match bitsOf w 31 28 with
  | 1 => [bitsOf w 20 16]
  | 2 => pair (bitsOf w 23 20)
  | 3 => if bitsOf w 27 25 ≤ 1 ∨ bitsOf w 27 25 = 5 then pair (bitsOf w 24 21) else [300 + bitsOf w 24 24]
  | 4 => (if bitsOf w 27 26 = 3 then [bitsOf w 23 19, bitsOf w 23 19 + 1] else [bitsOf w 23 19])
      ++ (if bitsOf w 25 24 = 1 then [100 + bitsOf w 18 15] else [])
  | 5 => if bitsOf w 25 24 = 1 then [100 + bitsOf w 18 15] else []
  | 6 => (if bitOf w 27 then [] else pair (bitsOf w 24 21)) ++ (if bitOf w 25 then [100 + bitsOf w 20 17] else [])
  | 7 =>
    let o := bitsOf w 27 25
    if o ≤ 3 then [100 + bitsOf w 24 21] else if o = 4 then [200 + bitsOf w 24 21] else [bitsOf w 20 16]
  | 8 => if bitsOf w 27 24 = 5 then [115] else []
  | 9 => [bitsOf w 25 21]
  | 10 =>
    let o := bitsOf w 27 25
    if o = 0 ∨ o = 2 ∨ o = 4 then [bitsOf w 24 20] else if o = 5 then [300 + bitsOf w 19 17 / 4] else []
  | _ => []

def slot0Of (w : BitVec 64) : BitVec 32 := BitVec.ofNat 32 (w.toNat % 2 ^ 32)
def slot1Of (w : BitVec 64) : BitVec 32 := BitVec.ofNat 32 (w.toNat / 2 ^ 32)

/-- A packet on its own (R209, R222). -/
def dspPacketFits (w : BitVec 64) : Bool :=
  dspInstrFits (slot0Of w) && dspInstrFits (slot1Of w) && bitsOf (slot1Of w) 31 28 != 8 && bitsOf (slot1Of w) 31 28 != 10
    && !(dspWrites (slot0Of w)).any (fun x => (dspWrites (slot1Of w)).contains x)

/-- The control opcode of a packet: 16 none. -/
def dspControl (w : BitVec 64) : Nat := if bitsOf (slot0Of w) 31 28 = 8 then bitsOf (slot0Of w) 27 24 else 16
def dspBranches (n : Nat) : Bool := n ≤ 6
/-- The instruction moves the program counter. -/
def dspJumps (n : Nat) : Bool := n ≤ 6 || n == 9

/-- Packet `i` of a program region keeps the checks of R234: it stands by itself; its branch target or loop body lies in the region; nothing
that branches, loops or halts stands in its delay packets; it does not branch in the last two packets of a LOOP body. -/
def dspPacketAt (base : Nat) (ws : List (BitVec 64)) (i : Nat) (w : BitVec 64) : Bool :=
  let n := dspControl w
  let x := slot0Of w
  let ctl (j : Nat) : Nat := (ws[j]?).elim 16 dspControl
  let inBody (j : Nat) : Bool :=
    let y := slot0Of (ws.getD j 0)
    ctl j == 7 && decide (j < i) && (decide (j + bitsOf y 20 11 = i) || decide (j + bitsOf y 20 11 = i + 1))
  dspPacketFits w
    && (!(n ≤ 5) || (decide (base ≤ bitsOf x 19 0) && decide (bitsOf x 19 0 < base + ws.length)))
    && (!dspJumps n || [i + 1, i + 2].all (fun j => !dspJumps (ctl j) && ctl j != 7 && ctl j != 8))
    && (n != 7 || decide (i + bitsOf x 20 11 < ws.length))
    && (!dspJumps n || !(List.range i).any inBody)

/-- A fault of R237: a record, a FAULT token, and nothing further written. -/
def dspFault (s : State) (k : Nat) (cause : BitVec 8) (addr : Nat) : State :=
  engineFault (modDsp s k (fun d => { d with
    cmd := none, halted := true, flight := [], stores := [], slot0 := false, branch := none, skip := none, waiting := none }))
    (deUnit k) cause addr

/-! ## Registers -/

def dReg (d : DspSt) (n : Nat) : BitVec 64 := d.d.getD n 0
def aReg (d : DspSt) (n : Nat) : BitVec 24 := d.a.getD n 0
def mReg (d : DspSt) (n : Nat) : BitVec 32 := d.m.getD n 0

/-- STATUS (R230). -/
def dspStatus (d : DspSt) : BitVec 32 :=
  BitVec.ofNat 32 (d.pend.toNat * 2 ^ 16 + d.evmask.toNat * 2 ^ 8 + (if d.hm then 2 else 0) + (if d.ie then 1 else 0))

/-- Part `p` (0 real, 1 imaginary) of accumulator `n` of a list, replaced. -/
def setPart (l : List (BitVec 48 × BitVec 48)) (n p : Nat) (v : BitVec 48) : List (BitVec 48 × BitVec 48) :=
  lmod l n (fun x => if p = 0 then (v, x.2) else (x.1, v))

/-- A result lands (R221). -/
def land (d : DspSt) (f : Flight) : DspSt :=
  match f.dest with
  | .d n => { d with d := lmod d.d n (fun _ => f.val) }
  | .a n => { d with a := lmod d.a n (fun _ => f.val.setWidth 24) }
  | .m n => { d with m := lmod d.m n (fun _ => f.val.setWidth 32) }
  | .lp n => { d with loops := lmod d.loops n (fun _ => f.val) }
  | .acRead n => { d with acSeen := setPart d.acSeen (n / 2) (n % 2) (f.val.setWidth 48) }

/-- Every result due at cycle `c` lands, the later-issued last (R222). -/
def landAt (d : DspSt) (c : Nat) : DspSt :=
  (d.flight.filter (fun f => f.due = c)).foldl land { d with flight := d.flight.filter (fun f => f.due ≠ c) }

/-- `n` cycles pass with nothing issued. -/
def pass : Nat → DspSt → DspSt
  | 0, d => d
  | n + 1, d => pass n (landAt { d with cycle := d.cycle + 1 } (d.cycle + 1))

/-! ## What an instruction does -/

/-- The effect of one instruction: results with their latencies, stores, limitings, a fault, an update of the control state. -/
structure Fx where
  writes : List (Nat × DspDest × BitVec 64) := []
  stores : List (Nat × List Byte) := []
  sat : Nat := 0
  fault : Option (BitVec 8 × Nat) := none
  upd : Option DspSt := none
  /-- reads of core memory that count (R272): local address and bytes -/
  reads : List (Nat × Nat) := []
  signal : Option (BitVec 8 × BitVec 32) := none

def bad : Fx := { fault := some (causeCommand, 0) }

/-- Destinations that slot 0 of the same packet has written (R222). -/
def clash (d : DspSt) (slot : BitVec 1) (x : Fx) : Bool :=
  slot == 1 && x.writes.any (fun w => d.flight.any (fun f => f.issued == d.cycle && f.dest == w.2.1))

/-- The results go in flight, the stores wait for the packet's end. -/
def applyFx (s : State) (k : Nat) (x : Fx) : State :=
  let s := modDsp s k (fun d0 =>
    let d := x.upd.getD d0
    { d with
      flight := d.flight ++ x.writes.map (fun w => { due := d.cycle + w.1, issued := d.cycle, dest := w.2.1, val := w.2.2 })
      stores := d.stores ++ x.stores })
  let s := x.reads.foldl (fun s r => countRead s r.1 r.2) s
  let s := setSat s k (deUnit k) 0x23 x.sat
  match x.signal with
  | none => s
  | some (tag, v) =>
    let run := ((tget (coreOf s k).seq.running (deUnit k).toNat).getD []).head?
    match run.bind (fun n => (stepListOf s (coreEng k 6 0) (deUnit k))[n]?) with
    | none => s
    | some st => (st.emits.map (fun e => e.dst)).dedup.foldl (fun s dst =>
        sendToken s (deUnit k) dst 1 tag.toNat v.toNat) s

/-- The level that ends a body at `p`: levels 3 to 0 in turn (R229). -/
def loopNext (d : DspSt) (p : Nat) : Nat → Nat → DspSt × Nat
  | 0, dflt => (d, dflt)
  | n + 1, dflt =>
    let w := d.loops.getD n 0
    if bitOf w 63 && bitOf w 62 == d.hm && bitsOf w 19 0 == p then
      let lc := bitsOf w 61 40
      if 1 < lc then ({ d with loops := lmod d.loops n (fun w => w - BitVec.ofNat 64 (2 ^ 40)) }, bitsOf w 39 20)
      else loopNext { d with loops := lmod d.loops n (fun w =>
        BitVec.ofNat 64 (w.toNat % 2 ^ 40 + (w.toNat / 2 ^ 62 % 2) * 2 ^ 62)) } p n dflt
    else loopNext d p n dflt

/-- The next packet address after the packet at d.pc (R218, R228, R229, R233). -/
def nextPacket (d : DspSt) : DspSt :=
  let byLoops (d : DspSt) : DspSt :=
    let r := loopNext d d.pc.toNat 4 ((d.skip.map (fun p => p.toNat)).getD (d.pc.toNat + 1))
    { r.1 with pc := BitVec.ofNat 20 r.2, skip := none }
  match d.branch with
  | none => byLoops d
  | some (target, 1, reti) =>
    if reti then
      { d with
        loops := d.loops.map (fun w => if bitOf w 62 then BitVec.ofNat 64 (w.toNat % 2 ^ 63) else w)
        hm := false, pc := d.elr, branch := none, skip := none }
    else { d with pc := target, branch := none, skip := none }
  | some (target, n, reti) => byLoops { d with branch := some (target, n - 1, reti) }

/-- The packet ends: stores reach memory, slot 0's first (R221, R222); a cycle passes; after a HALT everything lands (R236). -/
def endPacket (s : State) (k : Nat) : State :=
  let s := (dspOf s k).stores.foldl (fun s p => writeLocal s (deUnit k) (coreBase s k + p.1) p.2 false) s
  let s := modDsp s k (fun d =>
    let d := nextPacket { d with stores := [], slot0 := false }
    let d := landAt { d with cycle := d.cycle + 1 } (d.cycle + 1)
    if d.halted then pass ((d.flight.map (fun f => f.due - d.cycle)).foldl max 0) d else d)
  countUnit s (deUnit k) 0x20 1

/-- An interrupt is due at this packet boundary (R232). -/
def intDue (d : DspSt) : Bool :=
  d.cmd.any (fun c => c.hen == 1) && d.ie && !d.hm && d.pend != 0 && !d.slot0 && d.branch.isNone && !d.halted

/-- Slot 0 may issue: a RUN is in progress, no packet is open, no WAIT stalls and no interrupt is due. -/
def mayOpen (d : DspSt) : Bool := d.cmd.isSome && !d.halted && !d.slot0 && d.waiting.isNone && !intDue d

/-- The packet at PC as the fetch reads it from core memory (R203, R209). -/
def fetchGot (s : State) (k : Nat) (d : DspSt) : Got := readLocal s (coreBase s k + 8 * d.pc.toNat) 8
def fetched (s : State) (k : Nat) (d : DspSt) : BitVec 64 := BitVec.ofNat 64 (ofBytesLE (fetchGot s k d).bytes)

/-- The bound of a RUN in cycles (R237). -/
def boundCycles (d : DspSt) : Nat := 16 * (d.cmd.map (fun c => c.bound.toNat)).getD 0

/-- The packet at PC stops the RUN (R203, R237): it lies outside the regions, the bound has passed, its read is bad, an uncorrectable error
stands in a register or an accumulator, or it breaks R234. -/
def fetchFault (s : State) (k : Nat) (d : DspSt) : Option (BitVec 8 × Nat) :=
  let a := coreBase s k + 8 * d.pc.toNat
  let g := fetchGot s k d
  match regionAt s k d.pc.toNat with
  | none => some (causeCommand, a)
  | some r =>
    if boundCycles d ≤ d.cycle then some (causeCommand, 0)
    else if g.uncorrectable then some (causeUncorrectable, g.at_)
    else if g.poisoned then some (causePoison, g.at_)
    else if errBad s (deUnit k) 0 76 then some (causeUncorrectable, 0)
    else if !dspPacketAt r.base r.words (d.pc.toNat - r.base) (fetched s k d) then some (causeCommand, a)
    else none

/-- An instruction in a slot of the packet at PC (R209): it is the one that the packet's word spells, and runs in its turn; out of its turn,
and where the fetched word is another, nothing issues (log entry 214). -/
def dspIssue (k : Nat) (slot : BitVec 1) (w : BitVec 32) (f : State → DspSt → Fx) (s : State) : Out :=
  if 48 ≤ k || stopped s || !canRun s (deUnit k) then .next s
  else
    let d := dspOf s k
    if slot = 0 then
      if !mayOpen d then .next s
      else
        match fetchFault s k d with
        | some (c, a) => .next (dspFault s k c a)
        | none =>
          if slot0Of (fetched s k d) ≠ w then .next s
          else
            let x := f s d
            match x.fault with
            | some (c, a) => .next (dspFault s k c a)
            | none =>
              let s := countRead s (coreBase s k + 8 * d.pc.toNat) 8
              .next (modDsp (applyFx s k x) k (fun d => { d with slot0 := d.waiting.isNone }))
    else if !(d.cmd.isSome && d.slot0) || slot1Of (fetched s k d) ≠ w then .next s
    else
      let x := f s d
      match (if clash d slot x then some (causeCommand, 0) else x.fault) with
      | some (c, a) => .next (dspFault s k c a)
      | none => .next (endPacket (applyFx s k x) k)

/-! ## Integer ALU (R210, R211, R219) -/

/-- Width of a lane. -/
def laneBits (lw : BitVec 2) : Nat := 16 * 2 ^ lw.toNat

/-- Lane `i` of width `w`, unsigned. -/
def lane (w : Nat) (x : BitVec 64) (i : Nat) : Nat := x.toNat / 2 ^ (w * i) % 2 ^ w

/-- An operation on each lane, with the count of limitings. -/
def lanes (w : Nat) (f : Int → Int → Int × Nat) (a b : BitVec 64) : BitVec 64 × Nat :=
  (List.range (64 / w)).foldl (fun acc i =>
    let r := f (signedOf w (lane w a i)) (signedOf w (lane w b i))
    (acc.1 + BitVec.ofNat 64 (patternOf w r.1 * 2 ^ (w * i)), acc.2 + r.2)) (0, 0)

def satTo (w : Nat) (i : Int) : Int × Nat :=
  let c := clampInt (-((2 : Int) ^ (w - 1))) ((2 : Int) ^ (w - 1) - 1) i
  (c, if c = i then 0 else 1)

/-- i / 2^n rounded to nearest, ties to even. -/
def shiftRne (i : Int) (n : Nat) : Int := roundInt .rne (decide (i < 0)) i.natAbs (-(n : Int))

/-- The leading zero bits of a `w`-bit lane. -/
def clz (w n : Nat) : Nat := if n = 0 then w else w - 1 - Nat.log2 n

/-- An ALU operation that writes Dd in the next cycle; LW = 3 is reserved. -/
def aluFx (f : AluF) (op : Nat → Int → Int → Int × Nat) (_ : State) (d : DspSt) : Fx :=
  if f.lw = 3 then bad
  else
    let w := laneBits f.lw
    let r := lanes w (op w) (dReg d f.da.toNat) (dReg d f.db.toNat)
    { writes := [(1, .d f.dd.toNat, r.1)], sat := r.2 }

/-- An ALU operation on whole registers, LW ignored. -/
def wholeFx (f : AluF) (op : BitVec 64 → BitVec 64 → BitVec 64) (_ : State) (d : DspSt) : Fx :=
  { writes := [(1, .d f.dd.toNat, op (dReg d f.da.toNat) (dReg d f.db.toNat))] }

/-- A lane as an unsigned number. -/
def unsignedOf (w : Nat) (i : Int) : Nat := patternOf w i

/-- One division step (R219). -/
def divStep (a b : BitVec 64) : BitVec 64 :=
  let rem := bitsOf a 63 32
  let q := bitsOf a 31 0
  let dv := bitsOf b 31 0
  let t := 2 * rem + q / 2 ^ 31
  let q2 := q * 2 % 2 ^ 32
  if dv ≤ t then BitVec.ofNat 64 ((t - dv) % 2 ^ 32 * 2 ^ 32 + (q2 + 1)) else BitVec.ofNat 64 (t % 2 ^ 32 * 2 ^ 32 + q2)

/-- NOP (R209). -/
def execDspNop (k : Nat) (slot : BitVec 1) (s : State) : Out := dspIssue k slot 0 (fun _ _ => {}) s
/-- MOV (R211). -/
def execDspMov (k : Nat) (slot : BitVec 1) (f : AluF) (s : State) : Out := dspIssue k slot (aluWord 0 f) (aluFx f (fun _ a _ => (a, 0))) s
/-- ADD (R211). -/
def execDspAdd (k : Nat) (slot : BitVec 1) (f : AluF) (s : State) : Out := dspIssue k slot (aluWord 1 f) (aluFx f (fun _ a b => (a + b, 0))) s
/-- SUB (R211). -/
def execDspSub (k : Nat) (slot : BitVec 1) (f : AluF) (s : State) : Out := dspIssue k slot (aluWord 2 f) (aluFx f (fun _ a b => (a - b, 0))) s
/-- ADDS (R211, R226). -/
def execDspAdds (k : Nat) (slot : BitVec 1) (f : AluF) (s : State) : Out := dspIssue k slot (aluWord 3 f) (aluFx f (fun w a b => satTo w (a + b))) s
/-- SUBS (R211, R226). -/
def execDspSubs (k : Nat) (slot : BitVec 1) (f : AluF) (s : State) : Out := dspIssue k slot (aluWord 4 f) (aluFx f (fun w a b => satTo w (a - b))) s
/-- AND (R211). -/
def execDspAnd (k : Nat) (slot : BitVec 1) (f : AluF) (s : State) : Out := dspIssue k slot (aluWord 5 f) (wholeFx f (fun a b => a &&& b)) s
/-- OR (R211). -/
def execDspOr (k : Nat) (slot : BitVec 1) (f : AluF) (s : State) : Out := dspIssue k slot (aluWord 6 f) (wholeFx f (fun a b => a ||| b)) s
/-- XOR (R211). -/
def execDspXor (k : Nat) (slot : BitVec 1) (f : AluF) (s : State) : Out := dspIssue k slot (aluWord 7 f) (wholeFx f (fun a b => a ^^^ b)) s
/-- SHL (R211). -/
def execDspShl (k : Nat) (slot : BitVec 1) (f : AluF) (s : State) : Out :=
  dspIssue k slot (aluWord 8 f) (aluFx f (fun w a _ => (if w ≤ f.imm6.toNat then 0 else a * 2 ^ f.imm6.toNat, 0))) s
/-- SHRA (R211). -/
def execDspShra (k : Nat) (slot : BitVec 1) (f : AluF) (s : State) : Out :=
  dspIssue k slot (aluWord 9 f) (aluFx f (fun w a _ => (a.fdiv (2 ^ min f.imm6.toNat w), 0))) s
/-- SHRR (R211). -/
def execDspShrr (k : Nat) (slot : BitVec 1) (f : AluF) (s : State) : Out :=
  dspIssue k slot (aluWord 10 f) (aluFx f (fun w a _ => (if w ≤ f.imm6.toNat then 0 else shiftRne a f.imm6.toNat, 0))) s
/-- SHRL (R211). -/
def execDspShrl (k : Nat) (slot : BitVec 1) (f : AluF) (s : State) : Out :=
  dspIssue k slot (aluWord 11 f) (aluFx f (fun w a _ => (if w ≤ f.imm6.toNat then 0 else ((unsignedOf w a / 2 ^ f.imm6.toNat : Nat) : Int), 0))) s
/-- MIN (R211). -/
def execDspMin (k : Nat) (slot : BitVec 1) (f : AluF) (s : State) : Out := dspIssue k slot (aluWord 12 f) (aluFx f (fun _ a b => (min a b, 0))) s
/-- MAX (R211). -/
def execDspMax (k : Nat) (slot : BitVec 1) (f : AluF) (s : State) : Out := dspIssue k slot (aluWord 13 f) (aluFx f (fun _ a b => (max a b, 0))) s
/-- ABSS (R211, R226). -/
def execDspAbss (k : Nat) (slot : BitVec 1) (f : AluF) (s : State) : Out :=
  dspIssue k slot (aluWord 14 f) (aluFx f (fun w a _ => satTo w (a.natAbs : Int))) s
/-- CLZ (R211). -/
def execDspClz (k : Nat) (slot : BitVec 1) (f : AluF) (s : State) : Out :=
  dspIssue k slot (aluWord 15 f) (aluFx f (fun w a _ => ((clz w (unsignedOf w a) : Int), 0))) s
/-- DIVS (R219). -/
def execDspDivs (k : Nat) (slot : BitVec 1) (f : AluF) (s : State) : Out := dspIssue k slot (aluWord 16 f) (wholeFx f divStep) s
/-- CMPLT (R211). -/
def execDspCmplt (k : Nat) (slot : BitVec 1) (f : AluF) (s : State) : Out :=
  dspIssue k slot (aluWord 17 f) (aluFx f (fun _ a b => (if a < b then -1 else 0, 0))) s

/-! ## Complex arithmetic (R212, R213, R223 to R226) -/

/-- A complex INT16 element. -/
abbrev C16 := Int × Int

/-- Element `j` of pair `n` (R223). -/
def pairElem (d : DspSt) (n j : Nat) : C16 :=
  let r := dReg d (2 * n + j / 2)
  (signedOf 16 (lane 16 r (2 * (j % 2))), signedOf 16 (lane 16 r (2 * (j % 2) + 1)))

def pairOf (d : DspSt) (n : Nat) : List C16 := (List.range 4).map (pairElem d n)

/-- Four elements as the two registers of a pair. -/
def pairBits (es : List C16) (h : Nat) : BitVec 64 :=
  let e (j : Nat) : Nat :=
    let x := es.getD (2 * h + j) (0, 0)
    patternOf 16 x.1 + 2 ^ 16 * patternOf 16 x.2
  BitVec.ofNat 64 (e 0 + 2 ^ 32 * e 1)

def pairWrite (lat n : Nat) (es : List C16) : List (Nat × DspDest × BitVec 64) :=
  [(lat, .d (2 * n), pairBits es 0), (lat, .d (2 * n + 1), pairBits es 1)]

/-- Both parts through a shift with rounding and the INT16 limits. -/
def narrow16 (sh : Nat) (x : Int × Int) : C16 × Nat :=
  let a := satTo 16 (shiftRne x.1 sh)
  let b := satTo 16 (shiftRne x.2 sh)
  ((a.1, b.1), a.2 + b.2)

def narrowAll (sh : Nat) (l : List (Int × Int)) : List C16 × Nat :=
  ((l.map (fun x => (narrow16 sh x).1)), (l.map (fun x => (narrow16 sh x).2)).sum)

/-- A complex add (R224): SH 2 and 3 are reserved. -/
def caddFx (f : CaddF) (op : C16 → C16 → Int × Int) (order : List Nat) (_ : State) (d : DspSt) : Fx :=
  if 2 ≤ f.sh.toNat then bad
  else
    let a := pairOf d f.da.toNat
    let b := pairOf d f.db.toNat
    let r := narrowAll f.sh.toNat (order.map (fun j => op (a.getD j (0, 0)) (b.getD j (0, 0))))
    { writes := pairWrite 1 f.dd.toNat r.1, sat := r.2 }

/-- CADD (R212). -/
def execDspCadd (k : Nat) (slot : BitVec 1) (f : CaddF) (s : State) : Out :=
  dspIssue k slot (caddWord 0 f) (caddFx f (fun a b => (a.1 + b.1, a.2 + b.2)) [0, 1, 2, 3]) s
/-- CSUB (R212). -/
def execDspCsub (k : Nat) (slot : BitVec 1) (f : CaddF) (s : State) : Out :=
  dspIssue k slot (caddWord 1 f) (caddFx f (fun a b => (a.1 - b.1, a.2 - b.2)) [0, 1, 2, 3]) s
/-- CADDJ (R212, R224): a + j b. -/
def execDspCaddj (k : Nat) (slot : BitVec 1) (f : CaddF) (s : State) : Out :=
  dspIssue k slot (caddWord 2 f) (caddFx f (fun a b => (a.1 - b.2, a.2 + b.1)) [0, 1, 2, 3]) s
/-- CSUBJ (R212, R224): a − j b. -/
def execDspCsubj (k : Nat) (slot : BitVec 1) (f : CaddF) (s : State) : Out :=
  dspIssue k slot (caddWord 3 f) (caddFx f (fun a b => (a.1 + b.2, a.2 - b.1)) [0, 1, 2, 3]) s
/-- CNEG (R212). -/
def execDspCneg (k : Nat) (slot : BitVec 1) (f : CaddF) (s : State) : Out :=
  dspIssue k slot (caddWord 4 f) (caddFx f (fun a _ => (-a.1, -a.2)) [0, 1, 2, 3]) s
/-- CCONJ (R212). -/
def execDspCconj (k : Nat) (slot : BitVec 1) (f : CaddF) (s : State) : Out :=
  dspIssue k slot (caddWord 5 f) (caddFx f (fun a _ => (a.1, -a.2)) [0, 1, 2, 3]) s
/-- CORD (R212): the order 0, 2, 1, 3. -/
def execDspCord (k : Nat) (slot : BitVec 1) (f : CaddF) (s : State) : Out :=
  dspIssue k slot (caddWord 6 f) (caddFx f (fun a _ => a) [0, 2, 1, 3]) s

/-- The exact product a × b, or a × conj(b) (R225). -/
def cprod (conj : Bool) (a b : C16) : Int × Int :=
  if conj then (a.1 * b.1 + a.2 * b.2, a.2 * b.1 - a.1 * b.2) else (a.1 * b.1 - a.2 * b.2, a.1 * b.2 + a.2 * b.1)

/-- CMUL4 and CMULJ4. -/
def cmulFx (f : CmulF) (conj : Bool) (_ : State) (d : DspSt) : Fx :=
  let r := narrowAll f.sh.toNat ((List.range 4).map (fun j => cprod conj (pairElem d f.da.toNat j) (pairElem d f.db.toNat j)))
  { writes := pairWrite 4 f.dd.toNat r.1, sat := r.2 }

/-- The CMAC forms: accumulators change for the next CMAC at once and for EXT and MVAD four cycles later (R221, R225). -/
def cmacFx (f : CmulF) (conj one : Bool) (_ : State) (d : DspSt) : Fx :=
  let quad := bitsOf f.dd 3 3
  let lane := bitsOf f.dd 1 0
  if f.sh != 0 || (!one && lane != 0) then bad
  else
    let rs := (List.range 4).map (fun j =>
      let p := cprod conj (pairElem d f.da.toNat j) (pairElem d f.db.toNat (if one then lane else j))
      let o := d.ac.getD (4 * quad + j) (0, 0)
      let base : Int × Int := if bitOf f.dd 2 then (0, 0) else (signedOf 48 o.1.toNat, signedOf 48 o.2.toNat)
      let x := satTo 48 (base.1 + p.1)
      let y := satTo 48 (base.2 + p.2)
      (4 * quad + j, patternOf 48 x.1, patternOf 48 y.1, x.2 + y.2))
    { writes := rs.flatMap (fun r => [(4, .acRead (2 * r.1), BitVec.ofNat 64 r.2.1), (4, .acRead (2 * r.1 + 1), BitVec.ofNat 64 r.2.2.1)])
      sat := (rs.map (fun r => r.2.2.2)).sum
      upd := some { d with ac := rs.foldl (fun l r => lmod l r.1 (fun _ => (BitVec.ofNat 48 r.2.1, BitVec.ofNat 48 r.2.2.1))) d.ac } }

/-- EXT (R225). -/
def extFx (f : CmulF) (_ : State) (d : DspSt) : Fx :=
  if bitsOf f.da 3 1 != 0 || f.db != 0 then bad
  else
    let quad := bitsOf f.da 0 0
    let r := narrowAll f.sh.toNat ((List.range 4).map (fun j =>
      let o := d.acSeen.getD (4 * quad + j) (0, 0)
      (signedOf 48 o.1.toNat, signedOf 48 o.2.toNat)))
    { writes := pairWrite 2 f.dd.toNat r.1, sat := r.2 }

/-- CMUL4 (R225). -/
def execDspCmul4 (k : Nat) (slot : BitVec 1) (f : CmulF) (s : State) : Out := dspIssue k slot (cmulWord 0 f) (cmulFx f false) s
/-- CMULJ4 (R225). -/
def execDspCmulj4 (k : Nat) (slot : BitVec 1) (f : CmulF) (s : State) : Out := dspIssue k slot (cmulWord 1 f) (cmulFx f true) s
/-- CMAC4 (R225). -/
def execDspCmac4 (k : Nat) (slot : BitVec 1) (f : CmulF) (s : State) : Out := dspIssue k slot (cmulWord 2 f) (cmacFx f false false) s
/-- CMACJ4 (R225). -/
def execDspCmacj4 (k : Nat) (slot : BitVec 1) (f : CmulF) (s : State) : Out := dspIssue k slot (cmulWord 3 f) (cmacFx f true false) s
/-- CMACS (R225). -/
def execDspCmacs (k : Nat) (slot : BitVec 1) (f : CmulF) (s : State) : Out := dspIssue k slot (cmulWord 4 f) (cmacFx f false true) s
/-- EXT (R225). -/
def execDspExt (k : Nat) (slot : BitVec 1) (f : CmulF) (s : State) : Out := dspIssue k slot (cmulWord 5 f) (extFx f) s

/-! ## Loads and stores (R207, R208, R214, R215) -/

/-- The carry of a reverse-carry addition runs from bit `b` down to bit `g` (R207). -/
def revAdd (m g : Nat) : Nat → Nat → Bool → Nat
  | 0, a, _ => a
  | b + 1, a, c =>
    if b < g then a
    else
      let x := a.testBit b
      let y := m.testBit b
      let sum := x != (y != c)
      let c' := (x && y) || (x && c) || (y && c)
      revAdd m g b (if sum = x then a else a ^^^ 2 ^ b) c'

/-- An after a post-modify by Mn (R206, R207). -/
def postMod (a : BitVec 24) (m : BitVec 32) : BitVec 24 :=
  if bitOf m 31 then BitVec.ofNat 24 (revAdd (bitsOf m 23 0) (bitsOf m 28 24) 24 a.toNat false)
  else a + m.setWidth 24

/-- The access breaks R208. -/
def badAccess (a : Int) (n : Nat) : Bool := decide (a < 0) || a.toNat % n != 0 || coreBytes < a.toNat + n

/-- The address of a load or store and the write of An that follows it: none for a reserved form. -/
def lsAddr (f : LsF) (d : DspSt) : Option (Int × List (Nat × DspDest × BitVec 64)) :=
  let a := aReg d f.ai.toNat
  let n : Nat := 2 ^ (f.size.toNat + 1)
  match f.mode.toNat with
  | 0 => if f.imm = 0 then some (a.toNat, []) else none
  | 1 => if f.imm = 0 then some (a.toNat, [(1, .a f.ai.toNat, (postMod a (mReg d f.ai.toNat)).setWidth 64)]) else none
  | 2 => some ((a.toNat : Int) + signedOf 11 f.imm.toNat * n, [])
  | _ => none

/-- A 16-byte access names an even register (R214). -/
def lsRegOk (f : LsF) : Bool := !(f.size == 3 && f.dd.toNat % 2 == 1)

def loadFx (k : Nat) (f : LsF) (s : State) (d : DspSt) : Fx :=
  let n : Nat := 2 ^ (f.size.toNat + 1)
  match lsAddr f d with
  | none => bad
  | some (a, w) =>
    if !lsRegOk f then bad
    else if badAccess a n then { fault := some (causeCommand, coreBase s k + a.toNat) }
    else
      let g := readLocal s (coreBase s k + a.toNat) n
      if g.poisoned || g.uncorrectable then { fault := some (badCause g, g.at_) }
      else
        let v (i : Nat) : BitVec 64 := BitVec.ofNat 64 (ofBytesLE ((g.bytes.drop (8 * i)).take 8))
        { reads := [(coreBase s k + a.toNat, n)]
          writes := (3, .d f.dd.toNat, v 0) :: (if f.size = 3 then [(3, .d (f.dd.toNat + 1), v 1)] else []) ++ w }

def storeFx (k : Nat) (f : LsF) (s : State) (d : DspSt) : Fx :=
  let n : Nat := 2 ^ (f.size.toNat + 1)
  match lsAddr f d with
  | none => bad
  | some (a, w) =>
    if !lsRegOk f then bad
    else if badAccess a n then { fault := some (causeCommand, coreBase s k + a.toNat) }
    else
      let bs := bytesLE 8 (dReg d f.dd.toNat).toNat ++ bytesLE 8 (dReg d (f.dd.toNat + 1)).toNat
      { writes := w, stores := [(a.toNat, bs.take n)] }

/-- σ(j) of R215. -/
def strideOrder (ord : BitVec 1) (j : Nat) : Nat := if ord = 1 then (if j = 1 then 2 else if j = 2 then 1 else j) else j

def strAddr (f : StrF) (d : DspSt) (j : Nat) : Nat := (aReg d f.ai.toNat).toNat + 4 * f.stride.toNat * strideOrder f.ord j

def strPost (f : StrF) (d : DspSt) : List (Nat × DspDest × BitVec 64) :=
  if f.post = 1 then [(1, .a f.ai.toNat, (postMod (aReg d f.ai.toNat) (mReg d f.ai.toNat)).setWidth 64)] else []

def strLoadFx (k : Nat) (f : StrF) (s : State) (d : DspSt) : Fx :=
  let adrs : List Nat := (List.range 4).map (strAddr f d)
  match adrs.find? (fun (a : Nat) => badAccess (Int.ofNat a) 4) with
  | some a => { fault := some (causeCommand, coreBase s k + (a : Nat)) }
  | none =>
    let gs := adrs.map (fun a => readLocal s (coreBase s k + a) 4)
    match badRead gs with
    | some g => { fault := some (badCause g, g.at_) }
    | none =>
      let v (i : Nat) : BitVec 64 := BitVec.ofNat 64 (ofBytesLE ((gs.getD (2 * i) ⟨[], false, false, 0⟩).bytes
        ++ (gs.getD (2 * i + 1) ⟨[], false, false, 0⟩).bytes))
      { reads := adrs.map (fun a => (coreBase s k + a, 4))
        writes := [(3, .d (2 * f.dd.toNat), v 0), (3, .d (2 * f.dd.toNat + 1), v 1)] ++ strPost f d }

def strStoreFx (k : Nat) (f : StrF) (s : State) (d : DspSt) : Fx :=
  let adrs : List Nat := (List.range 4).map (strAddr f d)
  match adrs.find? (fun (a : Nat) => badAccess (Int.ofNat a) 4) with
  | some a => { fault := some (causeCommand, coreBase s k + (a : Nat)) }
  | none =>
    { writes := strPost f d
      stores := adrs.zipIdx.map (fun (a, j) =>
        (a, ((bytesLE 8 (dReg d (2 * f.dd.toNat + j / 2)).toNat).drop (4 * (j % 2))).take 4)) }

/-- Load (R214). -/
def execDspLoad (k : Nat) (slot : BitVec 1) (f : LsF) (s : State) : Out := dspIssue k slot (lsWord 4 f) (loadFx k f) s
/-- Store (R214). -/
def execDspStore (k : Nat) (slot : BitVec 1) (f : LsF) (s : State) : Out := dspIssue k slot (lsWord 5 f) (storeFx k f) s
/-- Strided load (R215). -/
def execDspStridedLoad (k : Nat) (slot : BitVec 1) (f : StrF) (s : State) : Out := dspIssue k slot (strWord 0 f) (strLoadFx k f) s
/-- Strided store (R215). -/
def execDspStridedStore (k : Nat) (slot : BitVec 1) (f : StrF) (s : State) : Out := dspIssue k slot (strWord 1 f) (strStoreFx k f) s

/-! ## Address and immediate (R216, R217) -/

/-- An address operation; IMM16 is 0 but for SETA and ADDA. -/
def addrFx (f : AddrF) (imm : Bool) (dest : DspDest) (val : DspSt → BitVec 64) (_ : State) (d : DspSt) : Fx :=
  if !imm && f.imm16 != 0 then bad else { writes := [(1, dest, val d)] }

/-- SETA (R216). -/
def execDspSeta (k : Nat) (slot : BitVec 1) (f : AddrF) (s : State) : Out :=
  dspIssue k slot (addrWord 0 f) (addrFx f true (.a f.ai.toNat) (fun _ => BitVec.ofNat 64 (f.imm16.toNat * 128))) s
/-- ADDA (R216). -/
def execDspAdda (k : Nat) (slot : BitVec 1) (f : AddrF) (s : State) : Out :=
  dspIssue k slot (addrWord 1 f) (addrFx f true (.a f.ai.toNat) (fun d =>
    BitVec.ofNat 64 (patternOf 24 ((aReg d f.ai.toNat).toNat + signedOf 16 f.imm16.toNat)))) s
/-- MODA (R216). -/
def execDspModa (k : Nat) (slot : BitVec 1) (f : AddrF) (s : State) : Out :=
  dspIssue k slot (addrWord 2 f) (addrFx f false (.a f.ai.toNat) (fun d => (postMod (aReg d f.ai.toNat) (mReg d f.ai.toNat)).setWidth 64)) s
/-- MOVA (R216). -/
def execDspMova (k : Nat) (slot : BitVec 1) (f : AddrF) (s : State) : Out :=
  dspIssue k slot (addrWord 3 f) (addrFx f false (.a f.ai.toNat) (fun d => ((dReg d f.dd.toNat).setWidth 24).setWidth 64)) s
/-- MOVM (R216): reserved bits [30:29] taken as 0. -/
def execDspMovm (k : Nat) (slot : BitVec 1) (f : AddrF) (s : State) : Out :=
  dspIssue k slot (addrWord 4 f) (addrFx f false (.m f.ai.toNat) (fun d => dReg d f.dd.toNat &&& 0x9FFFFFFF#64)) s
/-- MOVDA (R216). -/
def execDspMovda (k : Nat) (slot : BitVec 1) (f : AddrF) (s : State) : Out :=
  dspIssue k slot (addrWord 5 f) (addrFx f false (.d f.dd.toNat) (fun d => (aReg d f.ai.toNat).setWidth 64)) s
/-- MOVDM (R216). -/
def execDspMovdm (k : Nat) (slot : BitVec 1) (f : AddrF) (s : State) : Out :=
  dspIssue k slot (addrWord 6 f) (addrFx f false (.d f.dd.toNat) (fun d => (mReg d f.ai.toNat).setWidth 64)) s

/-- Lane `l` of a register replaced by IMM16. -/
def putLane (x : BitVec 64) (l : Nat) (v : BitVec 16) : BitVec 64 :=
  BitVec.ofNat 64 (x.toNat - lane 16 x l * 2 ^ (16 * l) + v.toNat * 2 ^ (16 * l))

/-- MOVL (R217). -/
def execDspMovl (k : Nat) (slot : BitVec 1) (f : ImmF) (s : State) : Out :=
  dspIssue k slot (immWord 0 f) (fun _ d => { writes := [(1, .d f.dd.toNat, putLane (dReg d f.dd.toNat) f.lane.toNat f.imm16)] }) s
/-- MOVZ (R217). -/
def execDspMovz (k : Nat) (slot : BitVec 1) (f : ImmF) (s : State) : Out :=
  dspIssue k slot (immWord 1 f) (fun _ _ => { writes := [(1, .d f.dd.toNat, putLane 0 f.lane.toNat f.imm16)] }) s

/-! ## Control (R218, R228, R231, R233) -/

/-- A branch to `target`, taken when `c` holds (R218): two delay packets follow. It may stand neither in the delay packets of
another, and its target is in its region (R234). -/
def branchFx (k : Nat) (check : Bool) (target : Nat) (reti : Bool) (c : DspSt → Bool)
    (w : DspSt → List (Nat × DspDest × BitVec 64)) (s : State) (d : DspSt) : Fx :=
  if d.branch.isSome || (check && !sameRegion s k d.pc.toNat target) then bad
  else if c d then { writes := w d, upd := some { d with branch := some (BitVec.ofNat 20 target, 3, reti) } }
  else {}

/-- BR (R218). -/
def execDspBr (k : Nat) (target : BitVec 20) (s : State) : Out :=
  dspIssue k 0 (ctlWord 0 (0#4 ++ target)) (branchFx k true target.toNat false (fun _ => true) (fun _ => [])) s
/-- BRZ (R218). -/
def execDspBrz (k : Nat) (n : BitVec 4) (target : BitVec 20) (s : State) : Out :=
  dspIssue k 0 (ctlWord 1 (n ++ target)) (branchFx k true target.toNat false (fun d => bitsOf (dReg d n.toNat) 31 0 == 0) (fun _ => [])) s
/-- BRNZ (R218). -/
def execDspBrnz (k : Nat) (n : BitVec 4) (target : BitVec 20) (s : State) : Out :=
  dspIssue k 0 (ctlWord 2 (n ++ target)) (branchFx k true target.toNat false (fun d => bitsOf (dReg d n.toNat) 31 0 != 0) (fun _ => [])) s
/-- BRN (R218). -/
def execDspBrn (k : Nat) (n : BitVec 4) (target : BitVec 20) (s : State) : Out :=
  dspIssue k 0 (ctlWord 3 (n ++ target)) (branchFx k true target.toNat false (fun d => bitOf (dReg d n.toNat) 31) (fun _ => [])) s
/-- BRNN (R218). -/
def execDspBrnn (k : Nat) (n : BitVec 4) (target : BitVec 20) (s : State) : Out :=
  dspIssue k 0 (ctlWord 4 (n ++ target)) (branchFx k true target.toNat false (fun d => !bitOf (dReg d n.toNat) 31) (fun _ => [])) s
/-- CALL (R218): A15 takes the byte address of the packet after the two delay packets. -/
def execDspCall (k : Nat) (target : BitVec 20) (s : State) : Out :=
  dspIssue k 0 (ctlWord 5 (0#4 ++ target)) (branchFx k true target.toNat false (fun _ => true)
    (fun d => [(1, .a 15, BitVec.ofNat 64 (8 * (d.pc.toNat + 3)))])) s
/-- JMPA (R218): an address that no packet has leads outside every region. -/
def execDspJmpa (k : Nat) (n : BitVec 4) (s : State) : Out :=
  dspIssue k 0 (ctlWord 6 (n ++ 0#20)) (fun s d =>
    let a := (aReg d n.toNat).toNat
    branchFx k false (if a % 8 = 0 ∧ a / 8 < 2 ^ 20 then a / 8 else 0xFFFFF) false (fun _ => true) (fun _ => []) s d) s

/-- LOOP (R228). -/
def loopFx (k : Nat) (f : LoopF) (s : State) (d : DspSt) : Fx :=
  let p := d.pc.toNat
  let count := if f.csrc = 1 then bitsOf (dReg d (bitsOf f.count 10 6)) 21 0 else f.count.toNat
  if d.branch.isSome || f.body == 0 || (f.csrc == 1 && bitsOf f.count 5 0 != 0)
      || !(sameRegion s k p (p + 1) && sameRegion s k p (p + f.body.toNat)) then bad
  else
    let w := BitVec.ofNat 64 ((if count = 0 then 0 else 2 ^ 63) + (if d.hm then 2 ^ 62 else 0) + count * 2 ^ 40
      + (p + 1) * 2 ^ 20 + (p + f.body.toNat))
    { upd := some { d with
        loops := lmod d.loops f.level.toNat (fun _ => w)
        skip := if count = 0 then some (BitVec.ofNat 20 (p + f.body.toNat + 1)) else none } }

/-- LOOP (R218, R228). -/
def execDspLoop (k : Nat) (f : LoopF) (s : State) : Out := dspIssue k 0 (ctlWord 7 (loopBits f)) (loopFx k f) s
/-- HALT (R236). -/
def execDspHalt (k : Nat) (s : State) : Out :=
  dspIssue k 0 (ctlWord 8 0) (fun _ d => if d.branch.isSome then bad else { upd := some { d with halted := true } }) s
/-- RETI (R233). -/
def execDspReti (k : Nat) (s : State) : Out := dspIssue k 0 (ctlWord 9 0) (branchFx k false 0 true (fun _ => true) (fun _ => [])) s
/-- IEN (R218). -/
def execDspIen (k : Nat) (ie : BitVec 1) (s : State) : Out :=
  dspIssue k 0 (ctlWord 10 (0#23 ++ ie)) (fun _ d => { upd := some { d with ie := ie == 1 } }) s
/-- WAIT (R231): the bit clears if it is set; else the packet stalls. -/
def execDspWait (k : Nat) (line : BitVec 3) (s : State) : Out :=
  dspIssue k 0 (ctlWord 11 (0#21 ++ line)) (fun _ d =>
    if bitOf d.pend line.toNat then { upd := some { d with pend := d.pend &&& ~~~(BitVec.ofNat 8 (2 ^ line.toNat)) } }
    else { upd := some { d with waiting := some line } }) s
/-- SIGNAL (R218): a READY token to the receivers that the running step names. -/
def execDspSignal (k : Nat) (tag : BitVec 8) (dd : BitVec 5) (s : State) : Out :=
  dspIssue k 0 (ctlWord 12 (tag ++ dd ++ 0#11)) (fun _ d => { signal := some (tag, (dReg d dd.toNat).setWidth 32) }) s

/-! ## System (R220) -/

/-- MVLS (R220). -/
def execDspMvls (k : Nat) (f : SysF) (s : State) : Out :=
  dspIssue k 0 (sysWord 0 f) (fun _ d => if 4 ≤ f.sel.toNat then bad else { writes := [(1, .d f.dd.toNat, d.loops.getD f.sel.toNat 0)] }) s
/-- MVSL (R220). -/
def execDspMvsl (k : Nat) (f : SysF) (s : State) : Out :=
  dspIssue k 0 (sysWord 1 f) (fun _ d => if 4 ≤ f.sel.toNat then bad else { writes := [(1, .lp f.sel.toNat, dReg d f.dd.toNat)] }) s
/-- MVSD (R220): STATUS or ELR. -/
def execDspMvsd (k : Nat) (f : SysF) (s : State) : Out :=
  dspIssue k 0 (sysWord 2 f) (fun _ d =>
    if f.sel = 0 then { writes := [(1, .d f.dd.toNat, (dspStatus d).setWidth 64)] }
    else if f.sel = 1 then { writes := [(1, .d f.dd.toNat, d.elr.setWidth 64)] }
    else bad) s
/-- MVDS (R220, R230): IE is written, ones in PEND clear. -/
def execDspMvds (k : Nat) (f : SysF) (s : State) : Out :=
  dspIssue k 0 (sysWord 3 f) (fun _ d =>
    if f.sel = 0 then
      let v := dReg d f.dd.toNat
      { upd := some { d with ie := bitOf v 0, pend := d.pend &&& ~~~(BitVec.ofNat 8 (bitsOf v 23 16)) } }
    else bad) s
/-- MVAD (R220): an accumulator part, sign-extended. -/
def execDspMvad (k : Nat) (f : SysF) (s : State) : Out :=
  dspIssue k 0 (sysWord 4 f) (fun _ d =>
    let o := d.acSeen.getD (f.sel.toNat / 2) (0, 0)
    { writes := [(2, .d f.dd.toNat, (if f.sel.toNat % 2 = 0 then o.1 else o.2).signExtend 64)] }) s
/-- MVDA (R220): an accumulator part takes Dd[47:0]. -/
def execDspMvda (k : Nat) (f : SysF) (s : State) : Out :=
  dspIssue k 0 (sysWord 5 f) (fun _ d =>
    let v := (dReg d f.dd.toNat).setWidth 48
    { writes := [(1, .acRead f.sel.toNat, v.setWidth 64)]
      upd := some { d with ac := setPart d.ac (f.sel.toNat / 2) (f.sel.toNat % 2) v } }) s

/-! ## Commands and events (R230 to R237) -/

/-- The command's own fields (R234). -/
def dspCmdOk (c : DspCmd) : Bool := c.opcode.toNat ≤ 1 && c.rsvdA == 0 && c.rsvdB == 0 && (c.opcode != 1 || c.bound != 0)

/-- DSP NOP command: it completes in the cycle it starts (R236). -/
def execDspNopCommand (k : Nat) (c : DspCmd) (s : State) : Out :=
  if 48 ≤ k || stopped s || !canRun s (deUnit k) || (dspOf s k).cmd.isSome || (dspOf s k).halted then .next s
  else if !dspCmdOk { c with opcode := 0 } then .next (engineFault s (deUnit k) causeCommand 0)
  else .next (completeStep s (coreEng k 6 0) (deUnit k) [deUnit k])

/-- DSP RUN (R235): the settings of a run that starts. -/
def execDspRun (k : Nat) (c : DspCmd) (s : State) : Out :=
  if 48 ≤ k || stopped s || !canRun s (deUnit k) || (dspOf s k).cmd.isSome || (dspOf s k).halted then .next s
  else if !dspCmdOk { c with opcode := 1 } then .next (engineFault s (deUnit k) causeCommand 0)
  else .next (modDsp s k (fun d => { d with
    cmd := some { c with opcode := 1 }, d := lmod d.d 0 (fun _ => c.arg.setWidth 64), pc := c.entry, ie := false, hm := false,
    pend := 0, evmask := c.evmask, cycle := 0, flight := [], slot0 := false, stores := [], branch := none, skip := none,
    waiting := none }))

/-- DSP_RUN_COMPLETE (R236, R237): after HALT and the last result, within the bound. -/
def execDspRunComplete (k : Nat) (t : Time) (s : State) : Out :=
  timed s t (fun s =>
    let d := dspOf s k
    if 48 ≤ k || !(d.cmd.isSome && d.halted) || d.slot0 || !clocked s (deUnit k) then s
    else if boundCycles d ≤ d.cycle then dspFault s k causeCommand 0
    else completeStep (modDsp s k (fun d => { d with cmd := none, halted := false })) (coreEng k 6 0) (deUnit k) [deUnit k])

/-- DSP_BOUND_EXPIRY (R237): BOUND × 16 cycles have passed before the RUN completes. -/
def execDspBoundExpiry (k : Nat) (t : Time) (s : State) : Out :=
  timed s t (fun s =>
    let d := dspOf s k
    match d.cmd with
    | none => s
    | some _ => if 48 ≤ k || d.cycle < boundCycles d then s else dspFault s k causeCommand 0)

/-- DSP_INTERRUPT (R232). -/
def execDspInterrupt (k : Nat) (s : State) : Out :=
  let d := dspOf s k
  match d.cmd with
  | none => .next s
  | some c =>
    if 48 ≤ k || stopped s || !canRun s (deUnit k) || !intDue d then .next s
    else .next (countUnit (modDsp s k (fun d => pass 4 { d with
      elr := d.pc, hm := true, pc := c.handler, waiting := none })) (deUnit k) 0x22 1)

/-- DSP_WAIT_RESUME (R231): the event has come; the WAIT clears its bit and its packet issues. How many cycles it stalled is a
free value (log entry 3): results in flight come that much nearer. -/
def execDspWaitResume (k : Nat) (s : State) : Out :=
  let d := dspOf s k
  match d.waiting with
  | none => .next s
  | some line =>
    if 48 ≤ k || stopped s || !bitOf d.pend line.toNat then .next s
    else
      let (n, s) := s.free 4
      .next (modDsp s k (fun d =>
        let e := pass (n + 1) d
        { e with
          cycle := d.cycle, flight := e.flight.map (fun f => { f with due := f.due - (n + 1) })
          waiting := none, slot0 := true, pend := d.pend &&& ~~~(BitVec.ofNat 8 (2 ^ line.toNat)) }))

end Sys2Proof.Machine
end

