-- ==== Sys2Proof/Machine/Grid.lean ====
section
/-! DEFINITION. Machine/Grid.lean: what a received symbol expects and misses, and the grid that the fronthaul region writes (R60 to R62 of
spec/02_slot_work.md; R470, R472 of spec/14_external_interfaces.md). -/

namespace Sys2Proof.Machine

/-! ## What a symbol expects (R61, R470, R472) -/

/-- Samples of the cyclic prefix of symbol `sym` of a slot (R81): 144 of 2,048, and 16 × 2^μ more in the first of each half subframe. -/
def prefixSamples (s : State) (c : Nat) (slot : Time) (sym : Nat) : Nat :=
  let mu := carMu s c
  let l := (14 * slotWithin mu (inSubframe s slot) + sym) % (14 * 2 ^ mu)
  (144 + (if l = 0 ∨ l = 7 * 2 ^ mu then 16 * 2 ^ mu else 0)) * carField s c 12 / 2048

/-- Samples of symbol `sym` of a slot in the time-domain profile, cyclic prefix included, as a multiple of 12. -/
def symbolSamples (s : State) (c : Nat) (slot : Time) (sym : Nat) : Nat :=
  ceilDiv (carField s c 12 + prefixSamples s c slot sym) 12 * 12

def timeDomain (s : State) (c : Nat) : Bool := carField s c 2 == 2
/-- Samples of one unit of a section's range: a PRB, or a sample. -/
def unitSamples (s : State) (c : Nat) : Nat := if timeDomain s c then 1 else 12

/-- The range that a section expects: PRBs, or samples. -/
def secRange (s : State) (x : CSection) : Nat × Nat :=
  if timeDomain s x.carrier then (0, symbolSamples s x.carrier x.slot x.symbol) else (x.first, x.count)

/-- The sections expected of a symbol. -/
def symbolSections (s : State) (c : Nat) (slot : Time) (sym : Nat) : List CSection :=
  s.fh.sections.filter (fun x => x.carrier == c && x.slot == slot && x.symbol == sym)

/-- Two sections lie on one row: the same stream, PRACH apart from the other channels. -/
def sameRow (x y : CSection) : Bool := x.port == y.port && x.eaxc == y.eaxc && (x.op == 3) == (y.op == 3)

/-- What has been received of a row. -/
def rowGot (xs : List CSection) (x : CSection) : List (Nat × Nat × List Int) := (xs.filter (sameRow x)).flatMap (fun y => y.got)

/-- Unit `u` lies in one of the ranges. -/
def covered (rs : List (Nat × Nat × List Int)) (u : Nat) : Bool := rs.any (fun r => r.1 ≤ u && u < r.1 + r.2.1)

/-- The rows that sections of opcode `op` expect, one section of each. -/
def rowsOf (xs : List CSection) (op : Nat) : List CSection :=
  (xs.filter (fun x => x.op == op)).foldl (fun ys x => if ys.any (sameRow x) then ys else ys ++ [x]) []

/-- Resource elements of one row of opcode `op` not received: a missing sample spoils the whole row's symbol. -/
def rowMissing (s : State) (xs : List CSection) (op : Nat) (x : CSection) : Nat :=
  let want := (xs.filter (fun y => sameRow x y && y.op == op)).map (secRange s)
  let top := (want.map (fun r => r.1 + r.2)).foldl max 0
  let got := rowGot xs x
  let miss := ((List.range top).filter (fun u => want.any (fun r => r.1 ≤ u && u < r.1 + r.2) && !covered got u)).length
  if timeDomain s x.carrier then (if miss = 0 then 0 else 12 * carField s x.carrier 5) else 12 * miss

/-- Resource elements of a symbol missing for opcode `op`. -/
def missingRes (s : State) (c : Nat) (slot : Time) (sym op : Nat) : Nat :=
  let xs := symbolSections s c slot sym
  ((rowsOf xs op).map (rowMissing s xs op)).sum

/-! ## The grid in cluster memory (R60, R62) -/

/-- Where the Almanac keeps a carrier's grid. -/
def gridOf (s : State) (c : Nat) (prach : Bool) : Option GridPlan :=
  (planOf s).elim none (fun p => p.grids.find? (fun g => g.carrier.toNat == c && g.prach == prach))

/-- The address of a row: a stream's symbol of the slot at `slot`. -/
def gridRow (s : State) (g : GridPlan) (slot : Time) (stream sym : Nat) : Nat :=
  g.base + slotNumber s (carMu s g.carrier.toNat) slot % max g.slots 1 * g.slotBytes + stream * g.streamBytes + sym * g.symbolBytes

/-- A complex number. -/
abbrev Cx := Rat × Rat

/-- The exact number of a finite value; others give 0. -/
def valRat : Val → Rat
  | .fin neg m e =>
    let x : Rat := if 0 ≤ e then ((m * 2 ^ e.toNat : Nat) : Rat) else ((m : Nat) : Rat) / ((2 ^ (-e).toNat : Nat) : Rat)
    if neg then -x else x
  | _ => 0

/-- The first `n` QB12 values of a row. -/
def rowValues (s : State) (g : GridPlan) (slot : Time) (stream sym n : Nat) : List Cx :=
  (rowElems 10 true (readLocal s (gridRow s g slot stream sym) (rowBytes 10 true n)).bytes n).map (fun e => (valRat e.1, valRat e.2))

/-- A stream's values on the subcarriers of a symbol (R60, R62): as written, or, in the time-domain profile, the FFT of the samples without
their cyclic prefix. -/
def streamSymbol (s : State) (c : Nat) (prach : Bool) (slot : Time) (stream sym : Nat) : List Cx :=
  match gridOf s c prach with
  | none => []
  | some g =>
    let k := 12 * carField s c 5
    if timeDomain s c then
      let n := carField s c 12
      let cp := prefixSamples s c slot sym
      Config.fftSymbol s.occ.digest (carMu s c) n k (((rowValues s g slot stream sym (cp + n)).drop cp).take n)
    else rowValues s g slot stream sym k

/-- Resource element (`sym`, `sc`) of an item was not received on every stream (R61). -/
def reErased (s : State) (i : Item) (sym sc : Nat) : Bool :=
  let c := eCarrier i.fetched.entry
  let xs := (symbolSections s c i.slotTime sym).filter (fun x => x.op == i.opcode)
  (List.range (streamsOf s c 0)).any (fun k =>
    xs.all (fun x => !(x.port == streamPort s c 0 k i.slotTime && x.eaxc.toNat == streamEaxc s c 0 k i.slotTime)
      || !(if timeDomain s c then rowMissing s xs i.opcode x == 0 else covered (rowGot xs x) (sc / 12))))

end Sys2Proof.Machine
end

