-- ==== Sys2Proof/Machine/Polar.lean ====
section
/-! DEFINITION. Machine/Polar.lean: the polar engine (R249 to R251, R359). The reliability sequence, interleavers and rate
matching are those of TS 38.212, which the spec names without giving them (log entry 8). -/

namespace Sys2Proof.Machine

/-- The unit address of the polar engine of cluster `c`. -/
def peUnit (c : Nat) : UAddr := clusterEng c 7 4 0

/-- Length and polynomial of a CRC code of the polar engine (R249, R250). -/
def peCrcType : Nat → Nat × Nat
  | 1 => (6, 0x21)
  | 2 => (11, 0x621)
  | 3 => (24, 0xB2B117)
  | _ => (0, 0)

/-- Message bits, K less the CRC. -/
def peMsg (c : PeCmd) : Nat := c.k.toNat - (peCrcType c.crc.toNat).1

def peN (c : PeCmd) : Nat := 2 ^ c.logn.toNat

/-- The bit address of the result word: the next 32-bit boundary after the output (R250). -/
def peResAddr (c : PeCmd) : Nat := ceilDiv (c.outAddr.toNat + peMsg c) 32 * 32

/-- Zero K or E (R260). -/
def peZero (c : PeCmd) : Bool := c.opcode == 0 || c.k == 0 || c.e == 0

/-- Ranges (R240, R250). -/
def peOk (c : PeCmd) : Bool :=
  c.rsvd == 0 && c.opcode.toNat ≤ 2 &&
    (c.opcode == 0 ||
      (5 ≤ c.logn.toNat && c.logn.toNat ≤ 10 && c.crc.toNat ≤ 3 && c.k.toNat ≤ peN c && c.k.toNat ≤ 1023 &&
        (if c.opcode = 1 then c.inAddr.toNat % 8 == 0 && bitsInside c.inAddr.toNat (8 * c.e.toNat)
            && bitsInside (peResAddr c) 32
         else bitsInside c.inAddr.toNat (peMsg c) && bitsInside c.outAddr.toNat c.e.toNat)))

/-! ## Rate matching and bit positions (TS 38.212; log entry 8) -/

/-- The sub-block interleaver pattern. -/
def subBlock : List Nat :=
  [0, 1, 2, 4, 3, 5, 6, 7, 8, 16, 9, 17, 10, 18, 11, 19, 12, 20, 13, 21, 14, 22, 15, 23, 24, 25, 26, 28, 27, 29, 30, 31]

/-- J(n): the coded bit at place `n` after sub-block interleaving. -/
def subPlace (n i : Nat) : Nat := subBlock.getD (32 * i / n) 0 * (n / 32) + i % (n / 32)

/-- How the mother code is matched to E bits: 0 repetition, 1 puncturing, 2 shortening. -/
def peMatch (c : PeCmd) : Nat :=
  if peN c ≤ c.e.toNat then 0 else if 16 * c.k.toNat ≤ 7 * c.e.toNat then 1 else 2

/-- The interleaved place that matched bit `k` comes from. -/
def matchPlace (c : PeCmd) (k : Nat) : Nat :=
  match peMatch c with
  | 0 => k % peN c
  | 1 => k + (peN c - c.e.toNat)
  | _ => k

/-- Bits frozen by puncturing or shortening. -/
def peFrozen (c : PeCmd) (i : Nat) : Bool :=
  let n := peN c
  let e := c.e.toNat
  match peMatch c with
  | 0 => false
  | 1 => ((List.range (n - e)).map (subPlace n)).contains i
      || (if 3 * n ≤ 4 * e then i < ceilDiv (3 * n - 2 * e) 4 else i < ceilDiv (9 * n - 4 * e) 16)
  | _ => ((List.range (n - e)).map (fun j => subPlace n (e + j))).contains i

/-- Parity-check bits of UCI. -/
def pePc (c : PeCmd) : Nat := if c.pc = 1 then 3 else 0

/-- The K + n_PC most reliable places, most reliable first. -/
def peInfo (c : PeCmd) : List Nat :=
  (((Config.polarSequence.filter (fun q => decide (q < peN c) && !peFrozen c q)).reverse).take (c.k.toNat + pePc c))

/-- The number of ones of `n`. -/
def onesOf (n : Nat) : Nat := ((List.range 10).filter (fun i => n.testBit i)).length

/-- The places of the parity-check bits: the least reliable, and one of least row weight where E − K + 3 exceeds
192. -/
def pePcPlaces (c : PeCmd) : List Nat :=
  let info := peInfo c
  if pePc c = 0 then []
  else if c.k.toNat + 189 < c.e.toNat then
    let cand := info.take (info.length - 3)
    let least := cand.foldl (fun m q => min m (onesOf q)) 10
    info.reverse.take 2 ++ (cand.filter (fun q => onesOf q == least)).take 1
  else info.reverse.take 3

/-- The distributed-CRC interleaver of `k` bits for DCI and PBCH. -/
def crcInterleave (k : Nat) : List Nat :=
  (Config.polarCrcInterleaver.filter (fun p => decide (164 - k ≤ p))).map (fun p => p - (164 - k))

/-- The places of the UCI channel interleaver: bits enter a triangle by rows and leave by columns. -/
def triangle (e : Nat) : List Nat :=
  let t := ((List.range (e + 1)).find? (fun t => decide (e ≤ t * (t + 1) / 2))).getD 0
  let row (i : Nat) : Nat := i * t - i * (i - 1) / 2
  (List.range t).flatMap (fun j => ((List.range (t - j)).map (fun i => row i + j)).filter (fun p => decide (p < e)))

/-- The message with its CRC in transmission order (R249): 24 ones before a DCI's bits, its last 16 CRC bits scrambled. -/
def peAttach (c : PeCmd) (msg : List Bool) : List Bool :=
  let p := peCrcType c.crc.toNat
  if c.crc = 0 then msg
  else if c.crc = 3 then
    let crc := crcBits 24 p.2 ((if c.rnti = 0 then [] else List.replicate 24 true) ++ msg)
    let scr := crc.zipIdx.map (fun (b, i) => if 8 ≤ i then b != bitOf c.rnti (23 - i) else b)
    let all := msg ++ scr
    (crcInterleave all.length).map (fun i => all.getD i false)
  else msg ++ crcBits p.1 p.2 msg

/-- A decoded block in transmission order back in message order, and whether its CRC holds. -/
def peCheck (c : PeCmd) (blk : List Bool) : List Bool × Bool :=
  let plain := if c.crc = 3 then
      let pi := crcInterleave blk.length
      (List.range blk.length).map (fun i => blk.getD (pi.idxOf i) false)
    else blk
  let msg := plain.take (peMsg c)
  (msg, c.crc != 0 && peAttach c msg == blk)

/-! ## Encoding -/

/-- The polar transform. -/
def polarXform : Nat → List Bool → List Bool
  | 0, u => u
  | n + 1, u =>
    let h := 2 ^ n
    let a := polarXform n (u.take h)
    let b := polarXform n (u.drop h)
    List.zipWith (fun x y => x != y) a b ++ b

/-- The input vector of the transform: information at its places in ascending order, parity-check bits from the register of
five. -/
def peInputs (c : PeCmd) (blk : List Bool) : List Bool :=
  let info := peInfo c
  let pcs := pePcPlaces c
  let step (acc : List Bool × List Bool × List Bool) (i : Nat) : List Bool × List Bool × List Bool :=
    let y := acc.2.2.drop 1 ++ acc.2.2.take 1
    let y0 := y.headD false
    if pcs.contains i then (acc.1 ++ [y0], acc.2.1, y)
    else if info.contains i then
      let b := acc.2.1.headD false
      (acc.1 ++ [b], acc.2.1.drop 1, (if pePc c = 0 then y else (y0 != b) :: y.drop 1))
    else (acc.1 ++ [false], acc.2.1, y)
  ((List.range (peN c)).foldl step ([], blk, List.replicate 5 false)).1

/-- The E bits that ENCODE writes. -/
def peEncodeBits (c : PeCmd) (msg : List Bool) : List Bool :=
  let d := polarXform c.logn.toNat (peInputs c (peAttach c msg))
  let e := (List.range c.e.toNat).map (fun k => d.getD (subPlace (peN c) (matchPlace c k)) false)
  if c.ibil = 1 then (triangle c.e.toNat).map (fun i => e.getD i false) else e

/-! ## Successive-cancellation list decoding (R251) -/

def lim16 (i : Int) : Int := clampInt (-32767) 32767 i

/-- f: sign product and minimum magnitude. -/
def fNode (a b : Int) : Int :=
  let m : Int := min a.natAbs b.natAbs
  if (a < 0) != (b < 0) then -m else m

/-- g: b plus or minus a, limited. -/
def gNode (u : Bool) (a b : Int) : Int := lim16 (if u then b - a else b + a)

/-- The LLR of bit `u.length` after the bits `u` are decided. -/
def bitLlr : Nat → List Int → List Bool → Int
  | 0, l, _ => l.headD 0
  | n + 1, l, u =>
    let h := 2 ^ n
    let a := l.take h
    let b := l.drop h
    if u.length < h then bitLlr n (List.zipWith fNode a b) u
    else
      let x := polarXform n (u.take h)
      bitLlr n (List.zipWith (fun q ab => gNode q ab.1 ab.2) x (a.zip b)) (u.drop h)

/-- A path: its metric, its decided bits, the register of the parity-check bits. -/
structure PolarPath where
  metric : Nat
  bits : List Bool
  reg : List Bool
deriving DecidableEq, Repr

def extendPath (n : Nat) (l : List Int) (p : PolarPath) (b : Bool) (reg : List Bool) : PolarPath :=
  let x := bitLlr n l p.bits
  { metric := if (x < 0) != b then min (p.metric + x.natAbs) (2 ^ 32 - 1) else p.metric, bits := p.bits ++ [b], reg := reg }

/-- Insert a path after those of the same or a lower metric. -/
def insertPath (p : PolarPath) : List PolarPath → List PolarPath
  | [] => [p]
  | q :: t => if p.metric < q.metric then p :: q :: t else q :: insertPath p t

/-- One bit of every path. -/
def polarStep (c : PeCmd) (l : List Int) (info pcs : List Nat) (ps : List PolarPath) (i : Nat) : List PolarPath :=
  let n := c.logn.toNat
  let turn (p : PolarPath) : List Bool := p.reg.drop 1 ++ p.reg.take 1
  if pcs.contains i then ps.map (fun p => extendPath n l p ((turn p).headD false) (turn p))
  else if info.contains i then
    let cand := ps.flatMap (fun p => [false, true].map (fun b =>
      let y := turn p
      extendPath n l p b (if pePc c = 0 then y else ((y.headD false) != b) :: y.drop 1)))
    (cand.foldl (fun acc p => insertPath p acc) []).take (2 ^ c.list.toNat)
  else ps.map (fun p => extendPath n l p false (turn p))

/-- LLRs of the mother code from the E received ones: repeated ones add, punctured ones are 0, shortened ones are certain. -/
def peLlrs (c : PeCmd) (rx : List Int) : List Int :=
  let e := c.e.toNat
  let n := peN c
  let tri := triangle e
  let y := if c.ibil = 1 then (List.range e).map (fun i => rx.getD (tri.idxOf i) 0) else rx
  let at_ (place : Nat) : Int :=
    match peMatch c with
    | 0 => lim16 (((List.range e).filter (fun k => k % n = place)).map (fun k => y.getD k 0)).sum
    | 1 => if place < n - e then 0 else y.getD (place - (n - e)) 0
    | _ => if place < e then y.getD place 0 else 32767
  let places := (List.range n).map (subPlace n)
  (List.range n).map (fun i => at_ (places.idxOf i))

/-- DECODE: message bits and CRC_OK (R251). -/
def peDecodeBits (c : PeCmd) (rx : List Int) : List Bool × Bool :=
  let info := peInfo c
  let pcs := pePcPlaces c
  let l := peLlrs c rx
  let start : List PolarPath := [{ metric := 0, bits := [], reg := List.replicate 5 false }]
  let ps := (List.range (peN c)).foldl (polarStep c l info pcs) start
  let blockOf (p : PolarPath) : List Bool :=
    (p.bits.zipIdx.filter (fun b => info.contains b.2 && !pcs.contains b.2)).map (fun b => b.1)
  let ranked := ps.foldl (fun acc p => insertPath p acc) []
  match (ranked.map (fun p => peCheck c (blockOf p))).find? (fun r => r.2) with
  | some r => r
  | none =>
    match (if c.crc = 0 then ranked else ps).head? with
    | some p => ((peCheck c (blockOf p)).1, false)
    | none => ([], false)

/-! ## The commands -/

/-- Cycles of R251. -/
def peCost (c : PeCmd) : Nat :=
  if peZero c then 0
  else if c.opcode = 1 then ceilDiv (2 ^ c.list.toNat) 4 * (peN c * c.logn.toNat / 32 + c.k.toNat + 40)
  else peN c / 16 + 24

def modPe (s : State) (c : Nat) (f : EngSt → EngSt) : State := modCluster s c (fun x => { x with pe := f x.pe })

/-- Address and length of the command's input in cluster memory `c`. -/
def peInput (c : Nat) (cmd : PeCmd) : Nat × Nat :=
  (clusterBase c + cmd.inAddr.toNat / 8, if cmd.opcode = 1 then cmd.e.toNat else (cmd.inAddr.toNat % 8 + peMsg cmd + 7) / 8)

/-- Run a command that passed its checks on the PE of cluster `c` (R250, R251, R260, R261): none where an input read is bad. -/
def peRun (s : State) (c : Nat) (cmd : PeCmd) : Option State :=
  let u := peUnit c
  let res (s : State) (ok : Bool) : State :=
    let s := writeLocal s u (clusterBase c + peResAddr cmd / 8) (resultWord ok false 0) false
    if cmd.crc != 0 && !ok then countUnit s u 0x42 1 else s
  let inp := peInput c cmd
  let g := readLocal s inp.1 inp.2
  if peZero cmd then some (if cmd.opcode = 1 ∧ cmd.crc ≠ 0 then res s false else s)
  else if g.poisoned || g.uncorrectable || (cmd.opcode = 1 && errBad s u 0 codeWords) then none
  else
  let s := countErrs (countRead (stream s u [g.bytes]).2 inp.1 inp.2) u 0 codeWords
  if cmd.opcode = 1 then
    let r := peDecodeBits cmd (readLlrs s c cmd.inAddr.toNat cmd.e.toNat)
    some (res (writeBits s u c cmd.outAddr.toNat r.1) r.2)
  else some (writeBits s u c cmd.outAddr.toNat (peEncodeBits cmd (readBits s c cmd.inAddr.toNat (peMsg cmd))))

/-- The PE of cluster `h` runs a command for the list of cluster `c`. -/
def peServe (s : State) (h c : Nat) (cmd : PeCmd) (k : State → State) : State :=
  let u := peUnit h
  if !peOk cmd then engineFault s u causeCommand 0
  else
    match peRun s h cmd with
    | none =>
      let g := readLocal s (peInput h cmd).1 (peInput h cmd).2
      engineFault s u (if g.poisoned && !g.uncorrectable then causePoison else causeUncorrectable) (if g.uncorrectable || g.poisoned then g.at_ else 0)
    | some s =>
      countUnit (modPe (k s) c (fun e => { e with busy := e.busy ++ [0], cycles := e.cycles + peCost cmd })) u 0x40 (peCost cmd)

/-- A polar command of cluster `c`'s own PE; none runs while that PE is out of service. -/
def peCommand (c : BitVec 3) (cmd : PeCmd) (s : State) : Out :=
  if stopped s || !canRun s (peUnit c.toNat) then .next s else .next (peServe s c.toNat c.toNat cmd (fun s => s))

/-- PE_NOP (R250). -/
def execPeNop (c : BitVec 3) (cmd : PeCmd) (s : State) : Out := peCommand c { cmd with opcode := 0 } s
/-- PE_DECODE (R250, R251). -/
def execPeDecode (c : BitVec 3) (cmd : PeCmd) (s : State) : Out := peCommand c { cmd with opcode := 1 } s
/-- PE_ENCODE (R250). -/
def execPeEncode (c : BitVec 3) (cmd : PeCmd) (s : State) : Out := peCommand c { cmd with opcode := 2 } s

/-- Bit address of half `i` of the exchange area: 32 KiB each, at the top of cluster memory (R359; log entry 18). -/
def exchangeBits (i : Nat) : Nat := (clusterBytes - 65536 + 32768 * i) * 8

/-- A borrowed command with its addresses in half `i` of the exchange area: input at its start, output 16 KiB on. -/
def borrowedCmd (cmd : PeCmd) (i : Nat) : PeCmd :=
  { cmd with inAddr := BitVec.ofNat 29 (exchangeBits i), outAddr := BitVec.ofNat 29 (exchangeBits i + 131072) }

/-- Copy `n` bits from one cluster memory to another. -/
def copyBits (s : State) (master : UAddr) (c bit h bit' n : Nat) : State := writeBits s master h bit' (readBits s c bit n)

/-- The borrowed command of cluster `c` runs on helper `h` in half `i`: input copied in, result copied back (R359). -/
def borrowRun (s : State) (c h i : Nat) (cmd : PeCmd) : State :=
  let lm := moverUnit c 2
  let b := borrowedCmd cmd i
  let inBits := if cmd.opcode = 1 then 8 * cmd.e.toNat else peMsg cmd
  let outBits := if cmd.opcode = 1 then peMsg cmd else cmd.e.toNat
  let s := copyBits s lm c cmd.inAddr.toNat h b.inAddr.toNat inBits
  peServe s h c b (fun s =>
    if peZero cmd then
      (if cmd.opcode = 1 ∧ cmd.crc ≠ 0 then copyBits s lm h (peResAddr b) c (peResAddr cmd) 32 else s)
    else
      let s := copyBits s lm h b.outAddr.toNat c cmd.outAddr.toNat outBits
      if cmd.opcode = 1 then copyBits s lm h (peResAddr b) c (peResAddr cmd) 32 else s)

/-- The half of the exchange area that no borrowed command holds. -/
def freeHalf (l : List (BitVec 3 × PeCmd × Nat)) : Nat := if l.any (fun b => b.2.2 == 0) then 1 else 0

/-- PE_BORROWED_COMMAND (R359): the PE of cluster `c` is retired; the helper takes the command if its exchange area holds fewer
than two, else the command waits. -/
def execPeBorrowedCommand (c : BitVec 3) (cmd : PeCmd) (s : State) : Out :=
  if stopped s || !canRun s (clusterUnit c.toNat) || !unitGone s (peUnit c.toNat) then .next s
  else
    match peHelper s c.toNat with
    | none => .next s
    | some h =>
      if !canRun s (peUnit h) then .next s
      else if 2 ≤ (clusterOf s h).borrowed.length then
        .next (modCluster s h (fun x => { x with borrowWait := x.borrowWait ++ [(c, cmd)] }))
      else
        let i := freeHalf (clusterOf s h).borrowed
        .next (borrowRun (modCluster s h (fun x => { x with borrowed := x.borrowed ++ [(c, cmd, i)] })) c.toNat h i cmd)

/-- A borrowed command of cluster `c` has completed: its half of the exchange area is free, and a waiting command runs. -/
def borrowEnd (s : State) (c h : Nat) : State :=
  let x := clusterOf s h
  match x.borrowed.findIdx? (fun b => b.1.toNat == c) with
  | none => s
  | some i =>
    match x.borrowWait with
    | [] => modCluster s h (fun x => { x with borrowed := x.borrowed.eraseIdx i })
    | w :: rest =>
      let half := freeHalf (x.borrowed.eraseIdx i)
      let s := modCluster s h (fun x => { x with borrowed := (x.borrowed.eraseIdx i) ++ [(w.1, w.2, half)], borrowWait := rest })
      borrowRun s w.1.toNat h half w.2

/-- PE_COMMAND_COMPLETE (R251): the oldest polar command of the list of cluster `c` completes. -/
def execPeCommandComplete (c : BitVec 3) (t : Time) (s : State) : Out :=
  timed s t (fun s =>
    match (clusterOf s c.toNat).pe.busy with
    | [] => s
    | _ :: rest =>
      let u := peUnit c.toNat
      if !clocked s (engineFor s u) then s else
      let s := completeStep (modPe s c.toNat (fun e => { e with busy := rest })) (clusterEng c.toNat 7 6 0) u [engineFor s u]
      if unitGone s u then (peHelper s c.toNat).elim s (fun h => borrowEnd s c.toNat h) else s)

end Sys2Proof.Machine
end

