-- ==== Sys2Proof/Machine/Func.lean ====
section
/-! DEFINITION. Machine/Func.lean: the functions of R134 (spec/04_vector_engine.md), each the exact mathematical value
rounded to nearest, ties to even. A value that is not a ratio of powers of two is enclosed between two fixed-point numbers
of 960 fraction bits; both ends are rounded, and where they round alike that is the rounded exact value. -/

namespace Sys2Proof.Machine

/-- Fraction bits of the fixed-point enclosures. -/
def fxP : Nat := 960
def fxOne : Nat := 2 ^ fxP

/-- Product and quotient of fixed-point magnitudes. -/
def fxMul (a b : Nat) : Nat := a * b / fxOne
def fxDiv (a b : Nat) : Nat := a * fxOne / b

/-- The integer square root of `n`, one bit from each step; `bit` is the power of two tried. -/
def isqrtAux : Nat → Nat → Nat → Nat
  | 0, _, r => r
  | k + 1, n, r => if (r + 2 ^ k) * (r + 2 ^ k) ≤ n then isqrtAux k n (r + 2 ^ k) else isqrtAux k n r
def isqrt (n : Nat) : Nat := isqrtAux (Nat.log2 n / 2 + 1) n 0

/-- Σ z^(2i+1) / (2i+1) over `k` terms, with alternating signs for an arc tangent: `num` is z^(2i+1). -/
def arcSeries : Nat → Nat → Nat → Nat → Bool → Int
  | 0, _, _, _, _ => 0
  | k + 1, zz, num, d, alt =>
    (num / d : Nat) + (if alt then -(arcSeries k zz (fxMul num zz) (d + 2) alt) else arcSeries k zz (fxMul num zz) (d + 2) alt)

/-- atanh z for 0 ≤ z ≤ 1/3. -/
def fxAtanh (z : Nat) : Nat := (arcSeries 320 (fxMul z z) z 1 false).toNat
def fxLn2 : Nat := 2 * fxAtanh (fxOne / 3)
def fxAtan (z : Nat) : Nat := (arcSeries 480 (fxMul z z) z 1 true).toNat
def fxPi : Nat := 16 * fxAtan (fxOne / 5) - 4 * fxAtan (fxOne / 239)

/-- Σ r^i / i! from term `t` = r^i / i!. -/
def expSeries : Nat → Nat → Nat → Nat → Nat
  | 0, _, _, _ => 0
  | k + 1, r, t, i => t + expSeries k r (fxMul t r / (i + 1)) (i + 1)
/-- e^r for 0 ≤ r < 1. -/
def fxExp1 (r : Nat) : Nat := expSeries 220 r fxOne 0

/-- e^x for the signed fixed-point x, as mantissa (in [1, 2) for the enclosure's precision) and power of two. -/
def fxExp (x : Int) : Nat × Int :=
  let n := x / (fxLn2 : Int)
  (fxExp1 (x - n * fxLn2).toNat, n)

/-- sin and cos series of an angle 0 ≤ a < 1: term `t` = a^i / i!. -/
def trigSeries : Nat → Nat → Nat → Nat → Int
  | 0, _, _, _ => 0
  | k + 1, aa, t, i => (t : Int) - trigSeries k aa (fxMul t aa / ((i + 1) * (i + 2))) (i + 2)
def fxSin (a : Nat) : Nat := (trigSeries 110 (fxMul a a) a 1).toNat
def fxCos (a : Nat) : Nat := (trigSeries 110 (fxMul a a) fxOne 0).toNat

/-- Σ x^(2n+1) / (1·3·…·(2n+1)). -/
def phiSeries : Nat → Nat → Nat → Nat → Nat
  | 0, _, _, _ => 0
  | k + 1, xx, t, d => t + phiSeries k xx (fxMul t xx / (d + 2)) (d + 2)

/-- The fixed-point magnitude of m × 2^e, rounded down; exact when e ≥ −960. -/
def fxOf (m : Nat) (e : Int) : Nat := (splitAt2 m (e + fxP) 0).1

/-- The rounded result of an enclosure ± [v − 2^k, v + 2^k] × 2^(e) in format `f`, with what overflow sets; the fallback of
log entry 12 where the two ends round apart. -/
def roundBetween (f fn arg : Nat) (neg : Bool) (v k : Nat) (e : Int) : Val × Bool :=
  let lo := arith f (.fin neg (2 * (v - 2 ^ k) + 1) (e - 1))
  let hi := arith f (.fin neg (2 * (v + 2 ^ k) + 1) (e - 1))
  if lo = hi then lo else (floatVal f (Config.funcValue fn f arg % 2 ^ fmtBits f), false)

/-- A quotient n / d × 2^e rounded once. -/
def roundRatio (f : Nat) (neg : Bool) (n d : Nat) (e : Int) : Val × Bool :=
  -- the shift gives the quotient at least 64 bits; a lost remainder is a sticky last bit
  let sh := Nat.log2 d + 66
  let q := n * 2 ^ sh / d
  let r := n * 2 ^ sh % d
  arith f (.fin neg (2 * q + (if r = 0 then 0 else 1)) (e - sh - 1))

/-- √(m × 2^e) rounded once. -/
def roundSqrt (f m : Nat) (e : Int) : Val × Bool :=
  let (m, e) := if e % 2 = 0 then (m, e) else (2 * m, e - 1)
  let n := m * 2 ^ 128
  let r := isqrt n
  arith f (.fin false (2 * r + (if r * r = n then 0 else 1)) (e / 2 - 65))

/-- 1 / √(m × 2^e) rounded once. -/
def roundRsqrt (f m : Nat) (e : Int) : Val × Bool :=
  let (m, e) := if e % 2 = 0 then (m, e) else (2 * m, e - 1)
  let k := 2 * Nat.log2 m + 160
  let k := k + k % 2
  let n := 2 ^ k / m
  let r := isqrt n
  let exact := r * r * m = 2 ^ k
  arith f (.fin false (2 * r + (if exact then 0 else 1)) (-(e / 2) - (k / 2 : Nat) - 1))

def one (neg : Bool) : Val × Bool := (.fin neg 1 0, false)

/-- m × 2^e is at least 2^k. -/
def geePow (m : Nat) (e k : Int) : Bool := decide (k ≤ (Nat.log2 m : Int) + e)

/-- m × 2^e is an integer. -/
def isIntMag (m : Nat) (e : Int) : Bool := (splitAt2 m e 0).2.1 == 0

/-- The signed fixed-point number of a finite value. -/
def fxSigned (s : Bool) (m : Nat) (e : Int) : Int := if s then -(fxOf m e : Int) else fxOf m e

/-- A result tinier than any subnormal, of sign `s`, rounded. -/
def tiny (f : Nat) (s : Bool) : Val × Bool := arith f (.fin s 1 (-2000))

/-- EXP of a finite non-zero value. -/
def fnExp (f arg : Nat) (s : Bool) (m : Nat) (e : Int) : Val × Bool :=
  if geePow m e 8 then (if s then tiny f false else (.inf false, true))
  else if !geePow m e (-200) then
    -- 1 ± a difference far below half an ulp
    arith f (if s then .fin false (2 ^ 200 - 1) (-200) else .fin false (2 ^ 200 + 1) (-200))
  else
    let (v, n) := fxExp (fxSigned s m e)
    roundBetween f 6 arg false v 40 (n - fxP)

/-- EXP2 of a finite non-zero value: exact at integers. -/
def fnExp2 (f arg : Nat) (s : Bool) (m : Nat) (e : Int) : Val × Bool :=
  if geePow m e 8 then (if s then tiny f false else (.inf false, true))
  else if !geePow m e (-200) then
    arith f (if s then .fin false (2 ^ 200 - 1) (-200) else .fin false (2 ^ 200 + 1) (-200))
  else
    let x := fxSigned s m e
    let n := x / (fxOne : Int)
    let r := (x - n * fxOne).toNat
    if r = 0 then arith f (.fin false 1 n)
    else roundBetween f 7 arg false (fxExp1 (fxMul r fxLn2)) 40 (n - fxP)

/-- ln of m × 2^e > 0 as a signed fixed-point number. -/
def fxLn (m : Nat) (e : Int) : Int :=
  -- y = m × 2^-k lies in [2/3, 4/3]
  let t := Nat.log2 m
  let k : Int := if 3 * m < 4 * 2 ^ t then t else t + 1
  let y := fxOf m (-k)
  let a := if fxOne ≤ y then (fxAtanh (fxDiv (y - fxOne) (y + fxOne)) : Int) else -(fxAtanh (fxDiv (fxOne - y) (y + fxOne)) : Int)
  2 * a + (k + e) * fxLn2

def fnLog (f arg : Nat) (m : Nat) (e : Int) : Val × Bool :=
  if m = 2 ^ Nat.log2 m ∧ (Nat.log2 m : Int) + e = 0 then (zeroVal, false)
  else
    let v := fxLn m e
    roundBetween f 8 arg (v < 0) v.natAbs 60 (-fxP)

def fnLog2 (f arg : Nat) (m : Nat) (e : Int) : Val × Bool :=
  if m = 2 ^ Nat.log2 m then arith f (ofInt ((Nat.log2 m : Int) + e))
  else
    let v := fxLn m e
    roundBetween f 9 arg (v < 0) (fxDiv v.natAbs fxLn2) 62 (-fxP)

def fnTanh (f arg : Nat) (s : Bool) (m : Nat) (e : Int) : Val × Bool :=
  if geePow m e 6 then arith f (.fin s (2 ^ 90 - 1) (-90))
  else
    let (v, n) := fxExp (-2 * (fxOf m e : Int))
    let u := (splitAt2 v n 0).1
    roundBetween f 10 arg s (fxDiv (fxOne - u) (fxOne + u)) 45 (-fxP)

/-- sigmoid of a value of magnitude below 2^8, as mantissa and power of two. -/
def fxSigmoid (s : Bool) (m : Nat) (e : Int) : Nat × Int :=
  if s then
    let (v, n) := fxExp (-(fxOf m e : Int))
    let u := (splitAt2 v n 0).1
    (fxDiv v (fxOne + u), n)
  else
    let (v, n) := fxExp (-(fxOf m e : Int))
    let u := (splitAt2 v n 0).1
    (fxDiv fxOne (fxOne + u), 0)

def fnSigmoid (f arg : Nat) (s : Bool) (m : Nat) (e : Int) : Val × Bool :=
  if geePow m e 8 then (if s then tiny f false else arith f (.fin false (2 ^ 90 - 1) (-90)))
  else
    let (v, n) := fxSigmoid s m e
    roundBetween f 11 arg false v 45 (n - fxP)

def fnSilu (f arg : Nat) (s : Bool) (m : Nat) (e : Int) : Val × Bool :=
  if geePow m e 8 then (if s then tiny f true else arith f (.fin s (m * 2 ^ 90 - 1) (e - 90)))
  else
    let (v, n) := fxSigmoid s m e
    roundBetween f 12 arg s (m * v) (45 + Nat.log2 m) (e + n - fxP)

/-- Φ of a value of magnitude below 16, as a fixed-point number. -/
def fxPhi (s : Bool) (m : Nat) (e : Int) : Nat :=
  let x := fxOf m e
  let xx := fxMul x x
  let (v, n) := fxExp (-(xx / 2 : Nat))
  let dens := (splitAt2 (fxDiv v (isqrt (2 * fxPi * fxOne))) n 0).1
  let half := fxMul dens (phiSeries 900 xx x 1)
  if s then fxOne / 2 - half else fxOne / 2 + half

def fnGelu (f arg : Nat) (s : Bool) (m : Nat) (e : Int) : Val × Bool :=
  if geePow m e 4 then (if s then tiny f true else arith f (.fin s (m * 2 ^ 90 - 1) (e - 90)))
  else roundBetween f 13 arg s (m * fxPhi s m e) (300 + Nat.log2 m) (e - fxP)

/-- sin(π r) for 0 ≤ r ≤ 1/2 in fixed point. -/
def fxSinPi (r : Nat) : Nat :=
  if 4 * r ≤ fxOne then fxSin (fxMul r fxPi) else fxCos (fxMul (fxOne / 2 - r) fxPi)

/-- SINPI of a finite non-zero value. -/
def fnSinpi (f arg : Nat) (s : Bool) (m : Nat) (e : Int) : Val × Bool :=
  if isIntMag m e then (.fin s 0 0, false)
  else if !geePow m e (-200) then
    -- π x, the next term being far below half an ulp
    roundBetween f 14 arg s (m * fxPi) (45 + Nat.log2 m) (e - fxP)
  else
    let x := fxOf m e % (2 * fxOne)
    let neg := s != decide (fxOne < x)
    let r := x % fxOne
    let r := if 2 * r ≤ fxOne then r else fxOne - r
    if 2 * r = fxOne then one neg else roundBetween f 14 arg neg (fxSinPi r) 45 (-fxP)

/-- COSPI of a finite value. -/
def fnCospi (f arg : Nat) (m : Nat) (e : Int) : Val × Bool :=
  if m = 0 then one false
  else if !geePow m e (-200) then arith f (.fin false (2 ^ 200 - 1) (-200))
  else
    let x := fxOf m e % (2 * fxOne)
    let neg := decide (fxOne < 2 * x ∧ 2 * x < 3 * fxOne)
    let r := x % fxOne
    let r := if 2 * r ≤ fxOne then r else fxOne - r
    if r = 0 then one (decide (x = fxOne))
    else if 2 * r = fxOne then (zeroVal, false)
    else roundBetween f 15 arg neg (fxSinPi (fxOne / 2 - r)) 45 (-fxP)

/-- IEEE 754 division (R134). -/
def divVal (f : Nat) : Val → Val → Val × Bool
  | .nan, _ => (.nan, false)
  | _, .nan => (.nan, false)
  | .inf _, .inf _ => (.nan, false)
  | .inf s, .fin t _ _ => (.inf (s != t), false)
  | .fin s _ _, .inf t => (.fin (s != t) 0 0, false)
  | .fin s m e, .fin t n g =>
    if n = 0 then (if m = 0 then (.nan, false) else (.inf (s != t), false))
    else if m = 0 then (.fin (s != t) 0 0, false)
    else roundRatio f (s != t) m n (e - g)

/-- The function that SUBOP `fn` selects, of `x` (and `y` for DIV), both in format `f`; the flag is that of R132. -/
def funcVal (f fn : Nat) (x y : Val) : Val × Bool :=
  let arg := (convFloat f .rne x).1
  if fn = 5 then divVal f x y
  else
    match x with
    | .nan => (.nan, false)
    | .inf s =>
      (match fn with
      | 2 => .fin s 0 0
      | 3 => if s then .nan else zeroVal
      | 4 => if s then .nan else .inf false
      | 6 => if s then zeroVal else .inf false
      | 7 => if s then zeroVal else .inf false
      | 8 => if s then .nan else .inf false
      | 9 => if s then .nan else .inf false
      | 10 => .fin s 1 0
      | 11 => if s then zeroVal else oneVal
      | 12 => if s then negZero else .inf false
      | 13 => if s then negZero else .inf false
      | _ => .nan, false)
    | .fin s m e =>
      if m = 0 then
        (match fn with
        | 2 => .inf s
        | 3 => .inf s
        | 4 => .fin s 0 0
        | 6 => oneVal
        | 7 => oneVal
        | 8 => .inf true
        | 9 => .inf true
        | 10 => .fin s 0 0
        | 11 => .fin false 1 (-1)
        | 12 => .fin s 0 0
        | 13 => .fin s 0 0
        | 14 => .fin s 0 0
        | _ => oneVal, false)
      else
        match fn with
        | 2 => roundRatio f s 1 m (-e)
        | 3 => if s then (.nan, false) else roundRsqrt f m e
        | 4 => if s then (.nan, false) else roundSqrt f m e
        | 6 => fnExp f arg s m e
        | 7 => fnExp2 f arg s m e
        | 8 => if s then (.nan, false) else fnLog f arg m e
        | 9 => if s then (.nan, false) else fnLog2 f arg m e
        | 10 => fnTanh f arg s m e
        | 11 => fnSigmoid f arg s m e
        | 12 => fnSilu f arg s m e
        | 13 => fnGelu f arg s m e
        | 14 => fnSinpi f arg s m e
        | _ => fnCospi f arg m e

end Sys2Proof.Machine
end

