-- ==== Sys2Proof/Machine/Vector.lean ====
section
/-! DEFINITION. Machine/Vector.lean: the vector engine (spec/04_vector_engine.md), R296 for its queue. -/

namespace Sys2Proof.Machine

/-- The unit address of the vector engine of core `k`. -/
def veUnit (k : Nat) : UAddr := coreEng k 1 0

/-! ## Checks (R142, R143) -/

/-- The command uses operand B (R133 to R135, R140, R143). -/
def veUsesB (c : VeCmd) : Bool :=
  let op := c.opcode.toNat
  op == 0x10 || op == 0x11 || op == 0x12 || op == 0x14 || op == 0x15 || op == 0x1A || op == 0x50
    || (op == 0x20 && c.subop == 5) || (op == 0x02 && (c.srcB != 0 || c.bcast == 3))

/-- B is complex (R129). -/
def veBCplx (c : VeCmd) : Bool :=
  c.cplx == 1 && c.opcode != 0x02 && c.opcode != 0x50 && !(c.opcode == 0x12 && c.breal == 1)

/-- Bits per symbol of a DEMAP constellation (R140). -/
def demapQm : Nat → Nat
  | 0 => 1
  | n => 2 * n

/-- Destination rows, elements per row, format, complex flag. -/
def veDest (c : VeCmd) : Nat × Nat × Nat × Bool :=
  let rows := c.rows.toNat
  let cols := c.cols.toNat
  if c.opcode = 0x40 then
    let f := if c.subop = 5 then 3 else c.fmtD.toNat
    let cx := c.cplx == 1 && c.subop == 0
    if c.axis = 0 then (rows, 1, f, cx) else (1, cols, f, cx)
  else if c.opcode = 0x50 then (rows, cols * demapQm c.subop.toNat, 2, false)
  else (rows, cols, c.fmtD.toNat, c.cplx == 1 && c.opcode != 0x19)

/-- Rows and elements of B that BCAST reads (R129). -/
def veBShape (c : VeCmd) : Nat × Nat :=
  match c.bcast.toNat with
  | 0 => (c.rows.toNat, c.cols.toNat)
  | 1 => (1, c.cols.toNat)
  | 2 => (1, c.rows.toNat)
  | _ => (1, 1)

/-- SUBOP is one that the opcode defines (R134, R135, R137, R139, R140, R143). -/
def veSubopOk (op sub : Nat) : Bool :=
  if op = 0x20 then 2 ≤ sub && sub ≤ 0x0F
  else if op = 0x02 then sub ≤ 1 || (6 ≤ sub && sub ≤ 0x0F)
  else if op = 0x31 then sub ≤ 4
  else if op = 0x40 then sub ≤ 5
  else if op = 0x50 then sub ≤ 5
  else sub == 0

/-- COMPLEX and OPFMT that the opcode allows (R133, R134, R135, R139, R140). -/
def veModeOk (c : VeCmd) : Bool :=
  let op := c.opcode.toNat
  let cx := c.cplx == 1
  let fp := c.opfmt == 6 || c.opfmt == 7 || c.opfmt == 8
  if op = 0x12 then fp
  else if op = 0x14 ∨ op = 0x15 ∨ op = 0x16 then !cx
  else if op = 0x18 ∨ op = 0x19 then cx && fp
  else if op = 0x1A then
    -- inputs and output are INT8 or INT16 (R133); a scalar from IMM is FP32 by R129
    let ok (src : BitVec 2) (f : BitVec 4) : Bool := src == 0 || (src != 1 && (f == 2 || f == 3))
    !cx && c.opfmt == 3 && (c.fmtD == 2 || c.fmtD == 3) && ok c.srcA c.fmtA && ok c.srcB c.fmtB
  else if op = 0x20 then !cx && fp
  else if op = 0x02 then (!cx || c.subop == 0) && (c.subop.toNat < 6 || fp) && c.bcast != 2
  else if op = 0x40 then !cx || c.subop == 0 || c.subop == 1 || c.subop == 4
  else if op = 0x50 then cx && c.opfmt == 8 && c.fmtD == 2 && (c.bcast == 0 || c.bcast == 2)
  else true

/-- No format field names INT4 or a QB format outside PACK and UNPACK (R138, R143); the field of a tile operand is ignored (R127, R142). -/
def veBlockOk (c : VeCmd) : Bool :=
  let plain (f : BitVec 4) : Bool := !(f == 1 || isQB f.toNat)
  c.opcode == 0x32 || c.opcode == 0x33 ||
    ((c.srcA == 1 || plain c.fmtA) && ((c.srcB == 1 && !(c.opcode == 0x02 && c.bias == 1)) || plain c.fmtB) && plain c.fmtD)

/-- Format codes of the operands that the command uses (R138, R143). -/
def veFmtOk (c : VeCmd) : Bool :=
  let ok (f : Nat) (block : Bool) : Bool :=
    1 ≤ f && f ≤ 10 && (block || !(f == 1 || isQB f)) && (!isQB f || c.cplx == 1)
  let op := c.opcode.toNat
  let d := veDest c
  (c.srcA.toNat < 2 || ok c.fmtA.toNat (op == 0x33)) && (!(veUsesB c && 2 ≤ c.srcB.toNat) || ok c.fmtB.toNat false)
    && (!(op == 0x02 && c.bias == 1) || ok c.fmtB.toNat false) && (c.dst == 0 || ok d.2.2.1 (op == 0x32))

/-- Bytes of the space that an SRC (2 core memory, 3 registers) or DST (1 core, 2 cluster, 3 registers) code names. -/
def srcLimit (src : Nat) : Nat := if src = 2 then coreBytes else 16384
def dstLimit (dst : Nat) : Nat := if dst = 1 then coreBytes else if dst = 2 then clusterBytes else 16384

/-- A base address lies in the space that its SRC or DST code names, whatever the command's size (R142). -/
def veBasesOk (c : VeCmd) : Bool :=
  (c.srcA.toNat < 2 || c.aAddr.toNat * 64 < srcLimit c.srcA.toNat) && (c.srcB.toNat < 2 || c.bAddr.toNat * 64 < srcLimit c.srcB.toNat)
    && (c.dst == 0 || c.dAddr.toNat * 64 < dstLimit c.dst.toNat)
    && (!(c.opcode == 0x02 && c.bias == 1 || c.opcode == 0x30) || c.auxAddr.toNat * 64 < coreBytes)

/-- Every operand lies within its memory or register space (R142, R143). -/
def veRangeOk (c : VeCmd) : Bool :=
  let d := veDest c
  let b := veBShape c
  let cx := c.cplx == 1
  (c.srcA.toNat < 2 ||
      extent c.aAddr.toNat c.pitchA.toNat c.rows.toNat (rowBytes c.fmtA.toNat cx c.cols.toNat) ≤ srcLimit c.srcA.toNat)
    && (!(veUsesB c && 2 ≤ c.srcB.toNat) ||
      extent c.bAddr.toNat c.pitchB.toNat b.1 (rowBytes c.fmtB.toNat (veBCplx c) b.2) ≤ srcLimit c.srcB.toNat)
    && (!(c.opcode == 0x02 && c.bias == 1) || c.auxAddr.toNat * 64 + rowBytes c.fmtB.toNat cx c.cols.toNat ≤ coreBytes)
    && (!(c.opcode == 0x30) || c.auxAddr.toNat * 64 + 2 * c.cols.toNat ≤ coreBytes)
    && (c.dst == 0 ||
      extent c.dAddr.toNat c.pitchD.toNat d.1 (rowBytes d.2.2.1 d.2.2.2 d.2.1) ≤ dstLimit c.dst.toNat)

/-- The opcodes of R142. -/
def veOpcodes : List Nat :=
  [0x00, 0x01, 0x02, 0x10, 0x11, 0x12, 0x14, 0x15, 0x16, 0x17, 0x18, 0x19, 0x1A, 0x20, 0x30, 0x31, 0x32, 0x33, 0x40, 0x50]

/-- The loader's checks of R143, which an engine applies to what it receives. A NOP uses no operand; the rest of the table holds for it too,
OPFMT 0 being its plain form (log entry 210). -/
def veOk (c : VeCmd) : Bool :=
  c.rsvdA == 0 && c.rsvdB == 0 && c.rsvdC == 0 && c.rsvdD == 0 && veOpcodes.contains c.opcode.toNat
    && veSubopOk c.opcode.toNat c.subop.toNat
    && (c.opfmt == 3 || c.opfmt == 6 || c.opfmt == 7 || c.opfmt == 8 || c.opcode == 0 && c.opfmt == 0)
    && c.round != 3 && c.fmtA.toNat ≤ 10 && c.fmtB.toNat ≤ 10 && c.fmtD.toNat ≤ 10 && veBlockOk c
    && !(c.acc == 1 && c.dst == 0) && !((c.bcast == 1 || c.bcast == 2) && c.srcB == 0)
    && !(c.breal == 1 && !(c.opcode == 0x12 && c.cplx == 1)) && c.rows.toNat ≤ 64 && c.cols.toNat ≤ 256 && veBasesOk c
    && !(c.srcA == 1 && (if c.cplx = 1 then 32 else 64) < c.cols.toNat)
    && !(c.srcB == 1 && (if veBCplx c then 32 else 64) < c.cols.toNat)
    && (c.opcode == 0 ||
      (veModeOk c && veFmtOk c && c.srcA != 0 && !(veUsesB c && c.srcB == 0 && c.bcast != 3) && veRangeOk c))

/-! ## Cost (R145, R146) -/

/-- Elements per cycle and latency of a command's class (R145). -/
def veRate (c : VeCmd) : Nat × Nat :=
  let op := c.opcode.toNat
  let sub := c.subop.toNat
  let cx := c.cplx == 1
  let wide := c.opfmt == 8
  let pick (a b d e : Nat) : Nat := if cx then (if wide then d else e) else (if wide then a else b)
  if op = 0x50 then (if sub = 5 then 32 else 64, 16)
  else if op = 0x19 ∨ (op = 0x12 ∧ cx ∧ c.breal = 0) then (pick 32 64 32 64, 12)
  else if op = 0x20 ∧ sub ≤ 5 then (pick 64 128 64 128, 18)
  else if op = 0x20 ∨ (op = 0x02 ∧ 6 ≤ sub) then (pick 32 64 32 64, 18)
  else if op = 0x40 then (pick 128 256 64 128, if c.axis = 0 then 17 else 10)
  else (pick 128 256 64 128, 10)

/-- Bytes that operand A or B moves, with a tile's elements at 4 bytes each. -/
def srcBytes (src f : Nat) (cx : Bool) (rows n : Nat) : Nat :=
  if src = 0 then 0 else if src = 1 then rows * n * (if cx then 8 else 4) else rows * rowBytes f cx n

/-- The cycles N that a command occupies the engine (R146). -/
def veCost (c : VeCmd) : Nat :=
  if c.opcode = 0 ∨ c.rows = 0 ∨ c.cols = 0 then 0
  else
    let cx := c.cplx == 1
    let b := veBShape c
    let d := veDest c
    let aB := srcBytes c.srcA.toNat c.fmtA.toNat cx c.rows.toNat c.cols.toNat
    let bB := if veUsesB c then srcBytes c.srcB.toNat c.fmtB.toNat (veBCplx c) b.1 b.2 else 0
    let dB := if c.dst = 0 then 0 else d.1 * rowBytes d.2.2.1 d.2.2.2 d.2.1
    let aux := (if c.opcode = 0x02 ∧ c.bias = 1 then rowBytes c.fmtB.toNat cx c.cols.toNat else 0)
      + (if c.opcode = 0x30 then 2 * c.cols.toNat else 0)
    let rd (src dst : Nat) : Nat := (if c.srcA.toNat = src then aB else 0) + (if c.srcB.toNat = src then bB else 0)
      + (if c.acc = 1 ∧ c.dst.toNat = dst then dB else 0)
    let wr (dst : Nat) : Nat := if c.dst.toNat = dst then dB else 0
    [ceilDiv (c.rows.toNat * c.cols.toNat) (veRate c).1, ceilDiv (rd 1 9) 512, ceilDiv (rd 2 1 + aux) 512, ceilDiv (wr 1) 512,
     ceilDiv (rd 3 3) 1024, ceilDiv (wr 3) 512, ceilDiv (rd 8 2) 256, ceilDiv (wr 2) 256].foldl max 0

/-! ## Reading operands (R125 to R130) -/

/-- Bytes of core memory (2) or of the vector registers (3). -/
def veBytes (s : State) (k src addr n : Nat) : Got :=
  if src = 3 then { bytes := cgets (coreOf s k).veRegs addr n, poisoned := false, uncorrectable := false, at_ := 0 }
  else readLocal s (coreBase s k + addr) n

/-- Row `r` of a tile-queue slot: rows beyond the valid count read as zero (R127). A complex row longer than the 32 values of a tile row reads
on into the words of the next one (log entry 226). -/
def slotElems (sl : Slot) (cplx : Bool) (r n : Nat) : List Elem :=
  let at_ (i : Nat) : Val := if r < sl.valid then accVal sl.fmt ((tget sl.vals (64 * r + i)).getD 0) else zeroVal
  (List.range n).map (fun i => if cplx then (at_ (2 * i), at_ (2 * i + 1)) else (at_ i, zeroVal))

/-- Rows of an operand: from a slot, from core memory or from the registers; a pitch of 0 repeats one row (R128). -/
def operandRows (s : State) (k src f addr pitch : Nat) (cplx : Bool) (slot : Option Slot) (rows n : Nat) : List (List Elem) :=
  (List.range rows).map (fun r =>
    if src = 1 then (slot.map (fun sl => slotElems sl cplx r n)).getD []
    else rowElems f cplx (veBytes s k src (addr * 64 + r * pitch * 64) (rowBytes f cplx n)).bytes n)

/-- Every read of memory that the command makes: local address and bytes. -/
def veCounted (s : State) (k : Nat) (c : VeCmd) : List (Nat × Nat) :=
  let cx := c.cplx == 1
  let b := veBShape c
  let d := veDest c
  let core := coreBase s k
  let a := if c.srcA = 2 then (List.range c.rows.toNat).map (fun r =>
      (core + (c.aAddr.toNat * 64 + r * c.pitchA.toNat * 64), rowBytes c.fmtA.toNat cx c.cols.toNat)) else []
  let bs := if veUsesB c && c.srcB == 2 then (List.range b.1).map (fun r =>
      (core + (c.bAddr.toNat * 64 + r * c.pitchB.toNat * 64), rowBytes c.fmtB.toNat (veBCplx c) b.2)) else []
  let aux := if c.opcode = 0x02 ∧ c.bias = 1 then [(core + c.auxAddr.toNat * 64, rowBytes c.fmtB.toNat cx c.cols.toNat)]
    else if c.opcode = 0x30 then [(core + c.auxAddr.toNat * 64, 2 * c.cols.toNat)] else []
  let old := if c.acc = 1 ∧ c.dst ≠ 3 ∧ c.dst ≠ 0 then (List.range d.1).map (fun r =>
      ((if c.dst = 1 then core else clusterBase (k / 6)) + c.dAddr.toNat * 64 + r * c.pitchD.toNat * 64,
        rowBytes d.2.2.1 d.2.2.2 d.2.1)) else []
  a ++ bs ++ aux ++ old

/-- What they find. -/
def veReads (s : State) (k : Nat) (c : VeCmd) : List Got := (veCounted s k c).map (fun p => readLocal s p.1 p.2)

/-! ## Operations -/

/-- A value with a count of flag-setting events (R132). -/
abbrev Sat (α : Type) := α × Nat

def satB (p : Val × Bool) : Sat Val := (p.1, if p.2 then 1 else 0)

/-- An arithmetic step in OPFMT. -/
def stp (f : Nat) (v : Val) : Sat Val := satB (arith f v)

def enterE (f : Nat) (e : Elem) : Sat Elem :=
  let a := satB (enter f e.1)
  let b := satB (enter f e.2)
  ((a.1, b.1), a.2 + b.2)

/-- Apply a real operation to both parts, or to the real part alone. -/
def both (cplx : Bool) (op : Val → Val → Sat Val) (x y : Elem) : Sat Elem :=
  let a := op x.1 y.1
  if cplx then
    let b := op x.2 y.2
    ((a.1, b.1), a.2 + b.2)
  else ((a.1, zeroVal), a.2)

/-- A complex product as in R99 from an accumulator of +0: `a` is A, `b` is B. -/
def cmulE (f : Nat) (a b : Elem) : Sat Elem :=
  let r1 := stp f (zeroVal.add (a.1.mul b.1))
  let r2 := stp f (r1.1.add (a.2.mul b.2).neg)
  let i1 := stp f (zeroVal.add (a.1.mul b.2))
  let i2 := stp f (i1.1.add (a.2.mul b.1))
  ((r2.1, i2.1), r1.2 + r2.2 + i1.2 + i2.2)

/-- re² + im², rounded after each step (R133). -/
def abs2E (f : Nat) (a : Elem) : Sat Val :=
  let x := stp f (a.1.mul a.1)
  let y := stp f (a.2.mul a.2)
  let z := stp f (x.1.add y.1)
  (z.1, x.2 + y.2 + z.2)

/-- The elementwise opcodes of R133 and FUNC of R134. -/
def elementwise (c : VeCmd) (a b : Elem) : Sat Elem :=
  let f := c.opfmt.toNat
  let cx := c.cplx == 1
  let re (p : Sat Val) : Sat Elem := ((p.1, zeroVal), p.2)
  match c.opcode.toNat with
  | 0x10 => both cx (fun x y => stp f (x.add y)) a b
  | 0x11 => both cx (fun x y => stp f (x.add y.neg)) a b
  | 0x12 => if cx && c.breal == 0 then cmulE f a b else both cx (fun x y => stp f (x.mul y)) a (b.1, b.1)
  | 0x14 => re (a.1.minv b.1, 0)
  | 0x15 => re (a.1.maxv b.1, 0)
  | 0x16 => re (stp f a.1.absv)
  | 0x17 => both cx (fun x _ => stp f x.neg) a a
  | 0x18 => ((a.1, a.2.neg), 0)
  | 0x19 => re (abs2E f a)
  | 0x1A =>
    let lim := if c.fmtD = 2 then 127 else 32767
    match a.1.add b.1 with
    | .fin s m e => re (ofInt (clampInt (-lim) lim (roundInt .rne s m e)), 0)
    | v => re (v, 0)
  | 0x20 => re (satB (funcVal f c.subop.toNat a.1 b.1))
  | _ => (a, 0)

/-- The scaled epilogue of R135. -/
def epilogue (c : VeCmd) (a : Elem) (b : Option Elem) (bias : Option Elem) : Sat Elem :=
  let f := c.opfmt.toNat
  let cx := c.cplx == 1
  let x := match b with
    | some y => both cx (fun x y => stp f (x.mul y)) a (y.1, y.1)
    | none => (a, 0)
  let y := match bias with
    | some q =>
      let r := both cx (fun x y => stp f (x.add y)) x.1 q
      (r.1, x.2 + r.2)
    | none => x
  if c.subop = 1 then ((y.1.1.maxv zeroVal, y.1.2), y.2)
  else if 6 ≤ c.subop.toNat then
    let r := satB (funcVal f c.subop.toNat y.1.1 zeroVal)
    ((r.1, zeroVal), y.2 + r.2)
  else y

/-- The patterns of R137. -/
def shuffleRow (sub imm : Nat) (row : List Elem) : List Elem :=
  let n := row.length
  let get (i : Nat) : Elem := row.getD i (zeroVal, zeroVal)
  match sub with
  | 0 => ((List.range n).filter (fun i => i % 2 = 0)).map get ++ ((List.range n).filter (fun i => i % 2 = 1)).map get
  | 1 =>
    let h := (n + 1) / 2
    (List.range n).map (fun i => if i % 2 = 0 then get (i / 2) else get (h + i / 2))
  | 2 => row.reverse
  | 3 => (List.range n).map (fun i => if i % 2 = 0 then (if i + 1 < n then get (i + 1) else get i) else get (i - 1))
  | _ => (List.range n).map (fun i => get ((i + imm) % n))

/-- Pairs (2i, 2i + 1) combined. -/
def pairUp {α : Type} (f : α → α → Sat α) : List α → Sat (List α)
  | a :: b :: t =>
    let c := f a b
    let r := pairUp f t
    (c.1 :: r.1, c.2 + r.2)
  | l => (l, 0)

/-- Level by level until one value remains (R139). -/
def treeFold {α : Type} (f : α → α → Sat α) : Nat → List α → Sat (List α)
  | 0, l => (l, 0)
  | n + 1, l =>
    let r := pairUp f l
    let q := treeFold f n r.1
    (q.1, r.2 + q.2)

/-- The exponent of the next power of two at or above `n`. -/
def ceilLog2 (n : Nat) : Nat := if n ≤ 1 then 0 else Nat.log2 (n - 1) + 1

/-- Combination and identity of a reduction (R139); INT16 has no infinities and takes its limits. -/
def reduceOp (f sub : Nat) (x y : Val) : Sat Val :=
  match sub with
  | 0 => stp f (x.add y)
  | 1 => stp f (x.add y)
  | 3 => (x.minv y, 0)
  | _ => (x.maxv y, 0)
def reduceId (f sub : Nat) : Val :=
  match sub with
  | 2 => if isInt f then ofInt (intMin f) else .inf true
  | 3 => if isInt f then ofInt (intMax f) else .inf false
  | _ => zeroVal

/-- The value that enters a reduction for one element. -/
def reduceIn (f sub : Nat) (cplx : Bool) (a : Elem) : Sat Elem :=
  match sub with
  | 1 =>
    if cplx then
      let r := abs2E f a
      ((r.1, zeroVal), r.2)
    else
      let r := stp f (a.1.mul a.1)
      ((r.1, zeroVal), r.2)
  | 4 =>
    let x := stp f a.1.absv
    if cplx then
      let y := stp f a.2.absv
      ((x.1.maxv y.1, zeroVal), x.2 + y.2)
    else ((x.1, zeroVal), x.2)
  | _ => (a, 0)

/-- Add up the counts of a list. -/
def collect {α : Type} (l : List (Sat α)) : Sat (List α) := (l.map (fun p => p.1), (l.map (fun p => p.2)).sum)

/-- The index of the first maximum, NaN skipped, −1 when every element is NaN (R139). Among zeros +0 ranks above −0, as MAX has it (log entry
228). -/
def argmax : List Val → Nat → Int → Val → Int
  | [], _, best, _ => best
  | v :: t, i, best, bv =>
    if v = .nan then argmax t (i + 1) best bv
    else if best < 0 || bv.lt v || (v.isZero && bv.isZero && bv.isNeg && !v.isNeg) then argmax t (i + 1) i v
    else argmax t (i + 1) best bv

/-- One line reduced: along a row by the tree, along a column in row order from `start` (R139). ARGMAX along a column gives the row's place in
the column and takes no start from the destination (log entry 227). -/
def reduceLine (f sub axis : Nat) (cplx : Bool) (start : Option Elem) (line : List Elem) : Sat Elem :=
  if sub = 5 then ((ofInt (argmax (line.map (fun e => e.1)) 0 (-1) zeroVal), zeroVal), 0)
  else
    let ins := collect (line.map (reduceIn f sub cplx))
    let op (x y : Elem) : Sat Elem := both (cplx && sub == 0) (reduceOp f sub) x y
    if axis = 0 then
      let n := ceilLog2 ins.1.length
      let idt : Elem := (reduceId f sub, reduceId f sub)
      let r := treeFold op n (ins.1 ++ List.replicate (2 ^ n - ins.1.length) idt)
      (r.1.getD 0 (zeroVal, zeroVal), ins.2 + r.2)
    else
      let (z, rest) := match start with
        | some z => (z, ins.1)
        | none => (ins.1.getD 0 (zeroVal, zeroVal), ins.1.drop 1)
      rest.foldl (fun acc x =>
        let r := op acc.1 x
        (r.1, acc.2 + r.2)) (z, ins.2)

/-! ## DEMAP (R140, R141) -/

/-- The FP32 value nearest n / √d. -/
def coord (n : Int) (d : Nat) : Val :=
  let a := n.natAbs
  let q := a * a * 2 ^ 240 / d
  let r := isqrt q
  (arith 8 (.fin (n < 0) (2 * r + 1) (-121))).1

/-- The odd amplitude that the bits of one axis label (TS 38.211): sign bit first. -/
def amplitude : List Bool → Int
  | [] => 1
  | [b] => if b then -1 else 1
  | b :: t => (if b then -1 else 1) * ((2 : Int) ^ t.length - amplitude t)

/-- The bits of a label at even or odd positions of its `qm` bits. -/
def axisBits (label qm par : Nat) : List Bool :=
  ((List.range qm).filter (fun i => i % 2 = par)).map (fun i => label.testBit i)

/-- The points of a constellation with their labels, bit k of a label being bit k of the symbol (R140). -/
def constellation (sub : Nat) : List (Nat × Val × Val) :=
  let qm := demapQm sub
  (List.range (2 ^ qm)).map (fun l =>
    if sub = 0 then
      let a := coord (if l.testBit 0 then -1 else 1) 2
      (l, a, a)
    else
      let d := 2 * (4 ^ (qm / 2) - 1) / 3
      (l, coord (amplitude (axisBits l qm 0)) d, coord (amplitude (axisBits l qm 1)) d))

/-- e(s) of R140 for each point. -/
def demapDist (sub : Nat) (y : Elem) : Sat (List (Nat × Val)) :=
  collect ((constellation sub).map (fun p =>
    let dr := stp 8 (y.1.add p.2.1.neg)
    let di := stp 8 (y.2.add p.2.2.neg)
    let r := stp 8 (dr.1.mul dr.1)
    let i := stp 8 (di.1.mul di.1)
    let e := stp 8 (r.1.add i.1)
    ((p.1, e.1), dr.2 + di.2 + r.2 + i.2 + e.2)))

/-- The Qm LLRs of one symbol (R140, R141). -/
def demapSym (sub : Nat) (imm : Val) (y : Elem) (v : Val) : Sat (List Int) :=
  let qm := demapQm sub
  let erased := v = .nan || (v.isNeg && !v.isZero) || v = .inf false || !y.1.isFin || !y.2.isFin
  if erased then (List.replicate qm 0, 0)
  else
    let ds := demapDist sub y
    let rv := satB (funcVal 8 2 v zeroVal)
    let bits := collect ((List.range qm).map (fun k =>
      let m (b : Bool) : Val := ((ds.1.filter (fun p => p.1.testBit k == b)).map (fun p => p.2)).foldl Val.minv (.inf false)
      if v.isZero then ((if (m false).lt (m true) then 127 else if (m true).lt (m false) then -127 else 0), 0)
      else
        let a := stp 8 ((m true).add (m false).neg)
        let b := stp 8 (a.1.mul imm)
        let c := stp 8 (b.1.mul rv.1)
        let llr := match c.1 with
          | .nan => (0 : Int)
          | .inf s => if s then -127 else 127
          | .fin s m e => clampInt (-127) 127 (roundInt .rne s m e)
        (llr, a.2 + b.2 + c.2)))
    (bits.1, ds.2 + bits.2 + (if v.isZero then 0 else rv.2))

/-! ## The result rows of a command -/

/-- B as element (r, c) of A meets it (R129). -/
def bAt (c : VeCmd) (rows : List (List Elem)) (r i : Nat) : Elem :=
  let get (r i : Nat) : Elem := (rows.getD r []).getD i (zeroVal, zeroVal)
  match c.bcast.toNat with
  | 0 => get r i
  | 1 => get 0 i
  | 2 => get 0 r
  | _ => get 0 0

/-- Rows of elements entered into OPFMT. -/
def enterRows (f : Nat) (rows : List (List Elem)) : Sat (List (List Elem)) :=
  collect (rows.map (fun r => collect (r.map (enterE f))))

/-- The result rows of a command of non-zero size, in OPFMT, with the events that set the flag (R130 to R141). -/
def veCompute (s : State) (k : Nat) (c : VeCmd) (old : List (List Elem)) : Sat (List (List Elem)) :=
  let f := c.opfmt.toNat
  let cx := c.cplx == 1
  let cols := c.cols.toNat
  let tq := (coreOf s k).tq
  let a : Sat (List (List Elem)) := enterRows f (operandRows s k c.srcA.toNat c.fmtA.toNat c.aAddr.toNat c.pitchA.toNat cx tq.head? c.rows.toNat cols)
  let b : Sat (List (List Elem)) := if !veUsesB c then ([], 0)
    else if c.srcB = 0 then
      let x := satB (enter f (floatVal 8 c.imm.toNat))
      ([[(x.1, zeroVal)]], x.2)
    else
      let sh := veBShape c
      let slot := if c.srcA = 1 then tq[1]? else tq.head?
      enterRows f (operandRows s k c.srcB.toNat c.fmtB.toNat c.bAddr.toNat c.pitchB.toNat (veBCplx c) slot sh.1 sh.2)
  let each (g : Nat → Nat → Elem → Sat Elem) : Sat (List (List Elem)) :=
    collect (a.1.zipIdx.map (fun (row, r) => collect (row.zipIdx.map (fun (x, i) => g r i x))))
  let res : Sat (List (List Elem)) := match c.opcode.toNat with
    | 0x02 =>
      let bias : Option (Sat (List Elem)) := if c.bias = 1 then
          let row := rowElems c.fmtB.toNat cx (veBytes s k 2 (c.auxAddr.toNat * 64) (rowBytes c.fmtB.toNat cx cols)).bytes cols
          some (collect (row.map (enterE f)))
        else none
      let r := each (fun r i x => epilogue c x (if veUsesB c then some (bAt c b.1 r i) else none)
        (bias.map (fun q => q.1.getD i (zeroVal, zeroVal))))
      (r.1, r.2 + (bias.map (fun q => q.2)).getD 0)
    | 0x30 =>
      let tab : List Byte := (veBytes s k 2 (c.auxAddr.toNat * 64) (2 * cols)).bytes
      (a.1.map (fun (row : List Elem) => (List.range cols).map (fun i =>
        let p := elemAt 3 tab i
        if p < cols then row.getD p (zeroVal, zeroVal) else (zeroVal, zeroVal))), 0)
    | 0x31 => (a.1.map (shuffleRow c.subop.toNat c.imm.toNat), 0)
    | 0x40 =>
      let axis := c.axis.toNat
      if axis = 0 then
        let r := collect (a.1.map (reduceLine f c.subop.toNat 0 cx none))
        (r.1.map (fun e => [e]), r.2)
      else
        let st : Sat (List (List Elem)) := if c.acc = 1 then enterRows f old else ([], 0)
        let r := collect ((List.range cols).map (fun i =>
          reduceLine f c.subop.toNat 1 cx (if c.acc = 1 then some ((st.1.getD 0 []).getD i (zeroVal, zeroVal)) else none)
            (a.1.map (fun (row : List Elem) => row.getD i (zeroVal, zeroVal)))))
        ([r.1], r.2 + st.2)
    | 0x50 =>
      let imm := floatVal 8 c.imm.toNat
      collect (a.1.zipIdx.map (fun (row, r) =>
        let q := collect (row.zipIdx.map (fun (x, i) => demapSym c.subop.toNat imm x (bAt c b.1 r i).1))
        (q.1.flatten.map (fun l => (ofInt l, zeroVal)), q.2)))
    | _ => each (fun r i x => elementwise c x (bAt c b.1 r i))
  (res.1, a.2 + b.2 + res.2)

/-! ## Writing the destination (R130) -/

/-- The rounding of part `p` of element (r, i): ROUND 2 draws under R179 and acts as 0 when FMT_D equals OPFMT. -/
def veRnd (c : VeCmd) (key : BitVec 64) (r i p : Nat) : Rnd :=
  if c.round = 1 then .rtz
  else if c.round = 2 ∧ c.fmtD ≠ c.opfmt then .sto (stoDraw key ((r * c.cols.toNat + i) * 2 + p))
  else .rne

/-- One part converted to FMT_D and, with ACC, added to the old value in FMT_D and rounded once (R130). The sum of an LLR, `llr`, is limited
as LLRs are and never takes the minimum code (R171). A sum beyond a floating format becomes an infinity, 448 in E4M3, as an arithmetic step
does, under ROUND = 1 too (log entry 229). -/
def putPart (f : Nat) (llr : Bool) (mode : Rnd) (old : Option Val) (v : Val) : Sat Nat :=
  let c := convElem f mode v
  match old with
  | none => (c.1, if c.2 then 1 else 0)
  | some o =>
    let sum := o.add (elemVal f c.1)
    match sum with
    | .fin s m e =>
      if isInt f && llr then (patternOf (fmtBits f) (clampInt (-(intMax f)) (intMax f) (roundInt mode s m e)), if c.2 then 1 else 0)
      else if isInt f then
        let r := convElem f mode (.fin s m e)
        (r.1, (if c.2 then 1 else 0) + (if r.2 then 1 else 0))
      else
        -- an addition overflows to an infinity (R100, R132)
        let (k, q) := roundMag f mode m e
        if beyondMax f k q then ((if f = 4 then packMag f s 7 6 else infBits f s), (if c.2 then 1 else 0) + 1)
        else (packMag f s k q, if c.2 then 1 else 0)
    | w =>
      let r := convElem f mode w
      (r.1, (if c.2 then 1 else 0) + (if r.2 then 1 else 0))

/-- The blocks of a row of a QB format (R176), with the events that set the flag. -/
def qbRow (f : Nat) (row : List Elem) : Sat (List Byte) :=
  let all := collect ((List.range (ceilDiv row.length 16)).map (fun b =>
    let parts := (List.range 16).flatMap (fun i =>
      let e := row.getD (16 * b + i) (zeroVal, zeroVal)
      [e.1, e.2])
    let q := qbForm f parts
    (q.1, if q.2 then 1 else 0)))
  (all.1.flatten, all.2)

/-- The opcode's results are LLRs (R133, R140, R171). -/
def veLlr (c : VeCmd) : Bool := c.opcode == 0x1A || c.opcode == 0x50

/-- The bytes of one destination row: the row converted to FMT_D and, with ACC, added there to the old one and rounded once (R130). -/
def putRow (c : VeCmd) (key : BitVec 64) (f : Nat) (cplx : Bool) (r : Nat) (row : List Elem) (old : Option (List Elem)) :
    Sat (List Byte) :=
  if isQB f then
    let new := qbRow f row
    match old with
    | none => new
    | some o =>
      let sums := (rowElems f true new.1 row.length).zipIdx.map (fun (x, i) =>
        let p := o.getD i (zeroVal, zeroVal)
        (p.1.add x.1, p.2.add x.2))
      let q := qbRow f sums
      (q.1, new.2 + q.2)
  else
    let parts := collect ((row.zipIdx).flatMap (fun (x, i) =>
      let o := old.map (fun o => o.getD i (zeroVal, zeroVal))
      let a := putPart f (veLlr c) (veRnd c key r i 0) (o.map (fun e => e.1)) x.1
      if cplx then [a, putPart f (veLlr c) (veRnd c key r i 1) (o.map (fun e => e.2)) x.2] else [a]))
    (packElems f parts.1, parts.2)

/-- The destination row's address and its present elements. -/
def dstAddr (c : VeCmd) (r : Nat) : Nat := c.dAddr.toNat * 64 + r * c.pitchD.toNat * 64
def dstRow (s : State) (k : Nat) (c : VeCmd) (r : Nat) : List Elem :=
  let d := veDest c
  let n := rowBytes d.2.2.1 d.2.2.2 d.2.1
  let bs := if c.dst = 3 then cgets (coreOf s k).veRegs (dstAddr c r) n
    else (readLocal s ((if c.dst = 1 then coreBase s k else clusterBase (k / 6)) + dstAddr c r) n).bytes
  rowElems d.2.2.1 d.2.2.2 bs d.2.1

/-- The bytes of a destination row as they are stored: the second half of a byte that an odd count of INT4 elements leaves over
keeps what it holds, for nothing is written there (R97, R138; log entry 28). -/
def keepNibble (s : State) (k : Nat) (c : VeCmd) (r : Nat) (bs : List Byte) : List Byte :=
  let d := veDest c
  let parts := d.2.1 * (if d.2.2.2 then 2 else 1)
  if d.2.2.1 = 1 ∧ parts % 2 = 1 then
    let a := dstAddr c r + parts / 2
    let old := if c.dst = 3 then cget (coreOf s k).veRegs a
      else (readLocal s ((if c.dst = 1 then coreBase s k else clusterBase (k / 6)) + a) 1).bytes.headD 0
    lmod bs (parts / 2) (fun b => BitVec.ofNat 8 (b.toNat % 16 + old.toNat / 16 * 16))
  else bs

/-- Write one destination row. -/
def writeDst (s : State) (k : Nat) (c : VeCmd) (r : Nat) (bs : List Byte) : State :=
  match c.dst.toNat with
  | 1 => writeLocal s (veUnit k) (coreBase s k + dstAddr c r) bs false
  | 2 => writeLocal s (veUnit k) (clusterBase (k / 6) + dstAddr c r) bs false
  | 3 => clearErrs (modCore s k (fun x => { x with veRegs := cputs x.veRegs (dstAddr c r) bs })) (veUnit k)
      (ceilDiv (dstAddr c r) 32) ((dstAddr c r + bs.length) / 32 - ceilDiv (dstAddr c r) 32)
  | _ => s

/-- The salt of the running image (R298). -/
def imageSalt (s : State) : BitVec 64 := (s.occ.image.map (fun im => im.header.extractLsb' 192 64)).getD 0

/-- The key of a command of the slice that core `k` runs (R179). -/
def veKey (s : State) (k step : Nat) : BitVec 64 :=
  let sl := ((unitOf s (coreUnit k)).held.head?).getD { pos := 0, queue := 0, seq := 0 }
  stoKey (imageSalt s) sl.queue.toNat sl.seq.toNat sl.pos.toNat step

/-- Tile-queue slots a command names (R125). -/
def veSlots (c : VeCmd) : Nat := (if c.srcA = 1 then 1 else 0) + (if c.srcB = 1 then 1 else 0)

/-- The slots that a command names are reserved and written (R126, R144). -/
def slotsReady (s : State) (k : Nat) (c : VeCmd) : Bool :=
  decide (veSlots c ≤ (coreOf s k).tq.length) && ((coreOf s k).tq.take (veSlots c)).all (fun sl => sl.written != 0)

/-- POP frees the slots named (R126). -/
def popSlots (s : State) (k : Nat) (c : VeCmd) : State :=
  if c.pop = 1 then modCore s k (fun x => { x with tq := x.tq.drop (veSlots c) }) else s

/-- The codewords of the registers, first and number, that row `r` of an operand in the registers touches (R123, R147). -/
def regWords (addr pitch r n : Nat) : Nat × Nat :=
  let a := addr * 64 + r * pitch * 64
  (a / 32, if n = 0 then 0 else (a + n - 1) / 32 - a / 32 + 1)

/-- The register codewords that a command reads: operand A, operand B and, with ACC, the destination. -/
def veRegReads (c : VeCmd) : List (Nat × Nat) :=
  let cx := c.cplx == 1
  let b := veBShape c
  let d := veDest c
  (if c.srcA = 3 then (List.range c.rows.toNat).map (fun r =>
      regWords c.aAddr.toNat c.pitchA.toNat r (rowBytes c.fmtA.toNat cx c.cols.toNat)) else [])
    ++ (if veUsesB c && c.srcB == 3 then (List.range b.1).map (fun r =>
      regWords c.bAddr.toNat c.pitchB.toNat r (rowBytes c.fmtB.toNat (veBCplx c) b.2)) else [])
    ++ (if c.acc = 1 ∧ c.dst = 3 then (List.range d.1).map (fun r =>
      regWords c.dAddr.toNat c.pitchD.toNat r (rowBytes d.2.2.1 d.2.2.2 d.2.1)) else [])

/-- An uncorrectable error in a register or a tile-queue slot that the command reads (R147). -/
def veErrBad (s : State) (k : Nat) (c : VeCmd) : Bool :=
  (veRegReads c).any (fun p => errBad s (veUnit k) p.1 p.2)
    || ((coreOf s k).tq.take (veSlots c)).any (fun sl => sl.errs.any (fun e => decide (e.1 < 8 * c.rows.toNat) && e.2))

/-- The rows of operand A as they stream into the engine (R291); of a tile each row is 256 bytes. -/
def veStreamed (s : State) (k : Nat) (c : VeCmd) : List (List Byte) :=
  if c.srcA = 1 then List.replicate c.rows.toNat []
  else (List.range c.rows.toNat).map (fun r =>
    (veBytes s k c.srcA.toNat (c.aAddr.toNat * 64 + r * c.pitchA.toNat * 64) (rowBytes c.fmtA.toNat (c.cplx == 1) c.cols.toNat)).bytes)

/-- A command that has its slots runs to its end: results written row by row, the flag gathered, slots freed, the step left to
be reported complete (R130, R132, R144, R146, R147). Every operand and old value is read before anything is written (log entry 211). -/
def veRun (s : State) (k step : Nat) (c : VeCmd) : State :=
  let done (s : State) : State := modCore s k (fun x => { x with
    veBusy := x.veBusy ++ [step], veCycles := x.veCycles + veCost c })
  if c.opcode = 0 ∨ c.rows = 0 ∨ c.cols = 0 then done (popSlots s k c)
  else
    match badRead (veReads s k c) with
    | some g => engineFault s (veUnit k) (badCause g) g.at_
    | none =>
      if veErrBad s k c then engineFault s (veUnit k) causeUncorrectable 0
      else
        let d := veDest c
        let old := if c.acc = 1 then (List.range d.1).map (dstRow s k c) else []
        let res := veCompute s k c old
        let key := veKey s k step
        let fold1 := c.acc = 1 ∧ ¬ (c.opcode = 0x40 ∧ c.axis = 1)
        let rows := collect (res.1.zipIdx.map (fun (row, r) =>
          putRow c key d.2.2.1 d.2.2.2 r row (if fold1 then old[r]? else none)))
        let s := (veRegReads c).foldl (fun s p => countErrs s (veUnit k) p.1 p.2) (stream s (veUnit k) (veStreamed s k c)).2
        let s := (veCounted s k c).foldl (fun s r => countRead s r.1 r.2) s
        let s := if c.dst = 0 then s else rows.1.zipIdx.foldl (fun s (bs, r) => writeDst s k c r (keepNibble s k c r bs)) s
        let s := setSat s k (veUnit k) 0x13 (res.2 + (if c.dst = 0 then 0 else rows.2))
        countUnit (done (popSlots s k c)) (veUnit k) 0x10 (veCost c)

/-- The vector engine receives a command (R126, R143, R144): one that breaks R143 faults; one whose slots are not there waits,
and those behind it with it. -/
def veIssue (s : State) (k step : Nat) (c : VeCmd) : State :=
  if !veOk c then engineFault s (veUnit k) causeCommand 0
  else if (coreOf s k).veWait.isEmpty && slotsReady s k c then veRun s k step c
  else modCore s k (fun x => { x with veWait := x.veWait ++ [(step, c)] })

/-- Waiting commands run while their slots are there (R126). -/
def veResume : Nat → State → Nat → State
  | 0, s, _ => s
  | fuel + 1, s, k =>
    match (coreOf s k).veWait with
    | [] => s
    | (step, c) :: rest =>
      if slotsReady s k c then
        veResume fuel (veRun (modCore s k (fun x => { x with veWait := rest })) k step c) k
      else s

/-- A command sent to the vector engine of core `k`; none reaches one that runs nothing (R358) or is stopped. -/
def veCommand (k step : Nat) (c : VeCmd) (s : State) : Out :=
  if 48 ≤ k || stopped s || !canRun s (veUnit k) then .next s
  else .next (veIssue s k step c)

/-- The command with the opcode and SUBOP that its row of the table fixes. -/
def veWith (c : VeCmd) (op sub : Nat) : VeCmd := { c with opcode := BitVec.ofNat 8 op, subop := BitVec.ofNat 8 sub }

def execVeNop (k step : Nat) (c : VeCmd) (s : State) : Out := veCommand k step { c with opcode := 0 } s
def execVeCopy (k step : Nat) (c : VeCmd) (s : State) : Out := veCommand k step { c with opcode := 0x01 } s
def execVeAdd (k step : Nat) (c : VeCmd) (s : State) : Out := veCommand k step { c with opcode := 0x10 } s
def execVeSub (k step : Nat) (c : VeCmd) (s : State) : Out := veCommand k step { c with opcode := 0x11 } s
def execVeMul (k step : Nat) (c : VeCmd) (s : State) : Out := veCommand k step { c with opcode := 0x12 } s
def execVeMin (k step : Nat) (c : VeCmd) (s : State) : Out := veCommand k step { c with opcode := 0x14 } s
def execVeMax (k step : Nat) (c : VeCmd) (s : State) : Out := veCommand k step { c with opcode := 0x15 } s
def execVeAbs (k step : Nat) (c : VeCmd) (s : State) : Out := veCommand k step { c with opcode := 0x16 } s
def execVeNeg (k step : Nat) (c : VeCmd) (s : State) : Out := veCommand k step { c with opcode := 0x17 } s
def execVeConj (k step : Nat) (c : VeCmd) (s : State) : Out := veCommand k step { c with opcode := 0x18 } s
def execVeAbs2 (k step : Nat) (c : VeCmd) (s : State) : Out := veCommand k step { c with opcode := 0x19 } s
def execVeLlradd (k step : Nat) (c : VeCmd) (s : State) : Out := veCommand k step { c with opcode := 0x1A } s
def execVeRecip (k step : Nat) (c : VeCmd) (s : State) : Out := veCommand k step (veWith c 0x20 0x02) s
def execVeRsqrt (k step : Nat) (c : VeCmd) (s : State) : Out := veCommand k step (veWith c 0x20 0x03) s
def execVeSqrt (k step : Nat) (c : VeCmd) (s : State) : Out := veCommand k step (veWith c 0x20 0x04) s
def execVeDiv (k step : Nat) (c : VeCmd) (s : State) : Out := veCommand k step (veWith c 0x20 0x05) s
def execVeExp (k step : Nat) (c : VeCmd) (s : State) : Out := veCommand k step (veWith c 0x20 0x06) s
def execVeExp2 (k step : Nat) (c : VeCmd) (s : State) : Out := veCommand k step (veWith c 0x20 0x07) s
def execVeLog (k step : Nat) (c : VeCmd) (s : State) : Out := veCommand k step (veWith c 0x20 0x08) s
def execVeLog2 (k step : Nat) (c : VeCmd) (s : State) : Out := veCommand k step (veWith c 0x20 0x09) s
def execVeTanh (k step : Nat) (c : VeCmd) (s : State) : Out := veCommand k step (veWith c 0x20 0x0A) s
def execVeSigmoid (k step : Nat) (c : VeCmd) (s : State) : Out := veCommand k step (veWith c 0x20 0x0B) s
def execVeSilu (k step : Nat) (c : VeCmd) (s : State) : Out := veCommand k step (veWith c 0x20 0x0C) s
def execVeGelu (k step : Nat) (c : VeCmd) (s : State) : Out := veCommand k step (veWith c 0x20 0x0D) s
def execVeSinpi (k step : Nat) (c : VeCmd) (s : State) : Out := veCommand k step (veWith c 0x20 0x0E) s
def execVeCospi (k step : Nat) (c : VeCmd) (s : State) : Out := veCommand k step (veWith c 0x20 0x0F) s
def execVeEpi (k step : Nat) (c : VeCmd) (s : State) : Out := veCommand k step { c with opcode := 0x02 } s
def execVePermute (k step : Nat) (c : VeCmd) (s : State) : Out := veCommand k step { c with opcode := 0x30 } s
def execVeDeinterleave (k step : Nat) (c : VeCmd) (s : State) : Out := veCommand k step (veWith c 0x31 0x00) s
def execVeInterleave (k step : Nat) (c : VeCmd) (s : State) : Out := veCommand k step (veWith c 0x31 0x01) s
def execVeReverse (k step : Nat) (c : VeCmd) (s : State) : Out := veCommand k step (veWith c 0x31 0x02) s
def execVeSwapPairs (k step : Nat) (c : VeCmd) (s : State) : Out := veCommand k step (veWith c 0x31 0x03) s
def execVeRotate (k step : Nat) (c : VeCmd) (s : State) : Out := veCommand k step (veWith c 0x31 0x04) s
def execVePack (k step : Nat) (c : VeCmd) (s : State) : Out := veCommand k step { c with opcode := 0x32 } s
def execVeUnpack (k step : Nat) (c : VeCmd) (s : State) : Out := veCommand k step { c with opcode := 0x33 } s
def execVeReduceSum (k step : Nat) (c : VeCmd) (s : State) : Out := veCommand k step (veWith c 0x40 0x00) s
def execVeReduceSumsq (k step : Nat) (c : VeCmd) (s : State) : Out := veCommand k step (veWith c 0x40 0x01) s
def execVeReduceMax (k step : Nat) (c : VeCmd) (s : State) : Out := veCommand k step (veWith c 0x40 0x02) s
def execVeReduceMin (k step : Nat) (c : VeCmd) (s : State) : Out := veCommand k step (veWith c 0x40 0x03) s
def execVeReduceMaxabs (k step : Nat) (c : VeCmd) (s : State) : Out := veCommand k step (veWith c 0x40 0x04) s
def execVeReduceArgmax (k step : Nat) (c : VeCmd) (s : State) : Out := veCommand k step (veWith c 0x40 0x05) s
def execVeDemap (k step : Nat) (c : VeCmd) (s : State) : Out := veCommand k step { c with opcode := 0x50 } s

/-- VE_COMMAND_COMPLETE (R146): the oldest command of the engine completes and its step's tokens follow. -/
def execVeCommandComplete (k : Nat) (t : Time) (s : State) : Out :=
  timed s t (fun s =>
    if 48 ≤ k || !clocked s (veUnit k) then s
    else
      match (coreOf s k).veBusy with
      | [] => s
      | _ :: rest =>
        let s := modCore s k (fun x => { x with veBusy := rest })
        completeStep s (coreEng k 6 0) (veUnit k) [veUnit k])

end Sys2Proof.Machine
end

