-- ==== Sys2Proof/Machine/Receiver.lean ====
section
/-! DEFINITION. Machine/Receiver.lean: what the uplink stages compute from the received grid (R64 to R76 of spec/02_slot_work.md; R249, R252,
R253, R256 of spec/08_channel_coding.md). The programs and networks of an image are opaque constants of Config (log entry 215); pilots and
resource mapping are those of TS 38.211 (log entry 8). -/

namespace Sys2Proof.Machine

/-! ## Complex numbers and matrices -/

def cxAdd (a b : Cx) : Cx := (a.1 + b.1, a.2 + b.2)
def cxSub (a b : Cx) : Cx := (a.1 - b.1, a.2 - b.2)
def cxMul (a b : Cx) : Cx := (a.1 * b.1 - a.2 * b.2, a.1 * b.2 + a.2 * b.1)
def cxConj (a : Cx) : Cx := (a.1, -a.2)
def cxAbs2 (a : Cx) : Rat := a.1 * a.1 + a.2 * a.2
def cxScale (r : Rat) (a : Cx) : Cx := (r * a.1, r * a.2)
/-- The quotient by a number that is not 0. -/
def cxDiv (a b : Cx) : Cx := cxScale (1 / cxAbs2 b) (cxMul a (cxConj b))
def cxSum (xs : List Cx) : Cx := xs.foldl cxAdd (0, 0)

/-- Σ aᵢ bᵢ. -/
def cxDot (a b : List Cx) : Cx := cxSum ((a.zip b).map (fun p => cxMul p.1 p.2))

/-- Column `j` of a matrix given by rows. -/
def matCol (m : List (List Cx)) (j : Nat) : List Cx := m.map (fun r => r.getD j (0, 0))

/-- One step of Gauss–Jordan elimination in column `k`: none without a pivot. -/
def gaussStep (rows : List (List Cx)) (k : Nat) : Option (List (List Cx)) :=
  ((rows.drop k).findIdx? (fun r => r.getD k (0, 0) != (0, 0))).map (fun j =>
    let p := (rows.drop k).getD j []
    let p := p.map (fun x => cxDiv x (p.getD k (0, 0)))
    let clear (r : List Cx) : List Cx := (r.zip p).map (fun x => cxSub x.1 (cxMul (r.getD k (0, 0)) x.2))
    (rows.take k).map clear ++ [p] ++ (((rows.drop k).eraseIdx j).map clear))

/-- X with A X = B, for a square A of `n` rows: none where A has no inverse. -/
def matSolve (n : Nat) (a b : List (List Cx)) : Option (List (List Cx)) :=
  ((List.range n).foldl (fun o k => o.bind (fun rows => gaussStep rows k)) (some ((a.zip b).map (fun r => r.1 ++ r.2)))).map
    (fun rows => rows.map (fun r => r.drop n))

/-! ## Formats -/

/-- A number rounded to format `f`, to nearest even. -/
def ratVal (f : Nat) (q : Rat) : Val :=
  if q = 0 then zeroVal else (roundRatio f (decide (q < 0)) q.num.natAbs q.den 0).1

/-- An FP16 value nearest a number. -/
def fp16 (q : Rat) : Rat := valRat (ratVal 6 q)

/-- A value of stage `k` as the image's programs round it. -/
def stageVal (s : State) (k : Nat) (a : Cx) : Cx := (Config.imageRound s.occ.digest k a.1, Config.imageRound s.occ.digest k a.2)

/-- The nearest integer to `a / b`, ties to even. -/
def ratInt (q : Rat) : Int :=
  let n := (q.num.natAbs * 2 + q.den) / (2 * q.den)
  let n := if (q.num.natAbs * 2 + q.den) % (2 * q.den) = 0 && n % 2 == 1 then n - 1 else n
  if q < 0 then -(n : Int) else n

/-! ## Stage 2: projection (R64) -/

/-- The projected grid of a symbol: for each subcarrier its beams, FP16 complex. -/
def projSymbol (s : State) (i : Item) (sym : Nat) : List (List Cx) :=
  let c := eCarrier i.fetched.entry
  let rows := (List.range (streamsOf s c 0)).map (fun k => streamSymbol s c (i.opcode == 3) i.slotTime k sym)
  (List.range (12 * carField s c 5)).map (fun sc =>
    (Config.projection s.occ.digest c).map (fun w =>
      let x := stageVal s 2 (cxDot w (matCol rows sc))
      (fp16 x.1, fp16 x.2)))

/-- The projected grid of a slot: by symbol, subcarrier and beam. -/
def projGrid (s : State) (i : Item) : List (List (List Cx)) := (List.range 14).map (projSymbol s i)

def gridAt (g : List (List (List Cx))) (sym sc : Nat) : List Cx := (g.getD sym []).getD sc []

/-! ## Pilots (R65, R428; TS 38.211) -/

/-- The slot number in its frame. -/
def slotInFrame (s : State) (c : Nat) (t : Time) : Nat :=
  subframeAt s t * 2 ^ carMu s c + slotWithin (carMu s c) (inSubframe s t)

/-- The subcarrier offset of a DMRS port. -/
def dmDelta (w : BitVec 64) (port : Nat) : Nat := if dmType w = 2 then port % 6 / 2 * 2 else port % 4 / 2

/-- 1 / √2 as the image's FP32 constants hold it. -/
def halfRoot : Rat := valRat (coord 1 2)

/-- The DMRS sequence of a symbol. -/
def dmSequence (s : State) (c : Nat) (w : BitVec 64) (a : BitVec 256) (t : Time) (sym : Nat) : List Cx :=
  let n := (aPrbStart a + aPrbCount a) * 6
  let ns := slotInFrame s c t
  if aDfts a then Config.lowPapr (dmScrambling w) ns sym n
  else
    let b := goldBits (2 ^ 17 * (14 * ns + sym + 1) * (2 * dmScrambling w + 1) + 2 * dmScrambling w) (2 * n)
    let part (k : Nat) : Rat := if b.getD k false then -halfRoot else halfRoot
    (List.range n).map (fun k => (part (2 * k), part (2 * k + 1)))

/-- The pilot of `port` on subcarrier `sc` of a DMRS symbol, the `l`-th of its pair. -/
def pilotAt (seq : List Cx) (w : BitVec 64) (port l sc : Nat) : Option Cx :=
  let two := dmType w = 2
  let at_ := if two then sc % 6 / 2 * 2 else sc % 2
  let k := if two then sc % 2 else sc % 4 / 2
  let n := if two then sc / 6 else sc / 4
  let late := if two then 6 ≤ port else 4 ≤ port
  if at_ ≠ dmDelta w port then none
  else
    let x := seq.getD (2 * n + k) (0, 0)
    let x := if port % 2 = 1 && k == 1 then cxScale (-1) x else x
    some (if late && l == 1 then cxScale (-1) x else x)

/-- The DMRS symbols of a record, each alone or, for double-symbol DMRS, in pairs. -/
def dmGroups (w : BitVec 64) (a : BitVec 256) : List (List Nat) :=
  let d := dmSyms w a
  if dmDouble w then chunks 2 d.length d else d.map (fun x => [x])

/-- The ports of a record's layers. -/
def aPorts (a : BitVec 256) : List Nat := (List.range (aLayers a)).map (fun l => aPort a + l)

/-- The subcarriers of a record. -/
def aScs (a : BitVec 256) : List Nat := (List.range (12 * aPrbCount a)).map (fun k => 12 * aPrbStart a + k)

/-- What a DMRS group receives and sends on a subcarrier: symbol, projected grid, pilot of a port. -/
def dmPairs (s : State) (c : Nat) (w : BitVec 64) (a : BitVec 256) (t : Time) (g : List (List (List Cx))) (grp : List Nat) (port sc : Nat) :
    List (List Cx × Cx) :=
  grp.zipIdx.filterMap (fun x => (pilotAt (dmSequence s c w a t x.1) w port x.2 sc).map (fun p => (gridAt g x.1 sc, p)))

/-- Subcarriers of the same code-division group as `sc`: those that one least-squares estimate covers. -/
def cdmScs (w : BitVec 64) (sc : Nat) : List Nat := if dmType w = 2 then [sc / 2 * 2, sc / 2 * 2 + 1] else [sc / 4 * 4 + sc % 2, sc / 4 * 4 + sc % 2 + 2]

/-- The least-squares estimate of a port at a DMRS resource element, by beam (R65). -/
def lsEstimate (s : State) (c : Nat) (w : BitVec 64) (a : BitVec 256) (t : Time) (g : List (List (List Cx))) (grp : List Nat) (port sc : Nat) :
    List Cx :=
  let ps := (cdmScs w sc).flatMap (dmPairs s c w a t g grp port)
  let e := (ps.map (fun p => cxAbs2 p.2)).sum
  (List.range (Config.projection s.occ.digest c).length).map (fun b =>
    let x := cxSum (ps.map (fun p => cxMul (p.1.getD b (0, 0)) (cxConj p.2)))
    stageVal s 3 (if e = 0 then (0, 0) else cxScale (1 / e) x))

/-- Linear interpolation between the nearest places at or around `k`; outside their span the value is open (log entry 217). -/
def interpAt (s : State) (pts : List (Nat × Cx)) (k : Nat) : Cx :=
  match pts.find? (fun p => p.1 == k), (pts.filter (fun p => decide (p.1 < k))).getLast?, pts.find? (fun p => decide (k < p.1)) with
  | some p, _, _ => p.2
  | none, some a, some b =>
    stageVal s 3 (cxAdd a.2 (cxScale ((((k - a.1 : Nat) : Rat)) / ((b.1 - a.1 : Nat) : Rat)) (cxSub b.2 a.2)))
  | none, _, _ => Config.edgeEstimate s.occ.digest (pts.map (fun p => (p.1, p.2.1, p.2.2))) k

/-- The channel estimate of a layer at (`sym`, `sc`), by beam (R65): over the DMRS subcarriers of the PRB, then across the DMRS symbols, or
held where there is one. -/
def channelAt (s : State) (c : Nat) (w : BitVec 64) (a : BitVec 256) (t : Time) (g : List (List (List Cx))) (port sym sc : Nat) : List Cx :=
  let grps := dmGroups w a
  let prb := sc / 12
  let places := ((List.range 12).map (fun k => 12 * prb + k)).filter (fun k => (pilotAt [] w port 0 k).isSome)
  let ests := grps.map (fun grp => (grp, places.map (fun k => (k, lsEstimate s c w a t g grp port k))))
  (List.range (Config.projection s.occ.digest c).length).map (fun b =>
    let freq := ests.map (fun e => (e.1, interpAt s (e.2.map (fun p => (p.1, p.2.getD b (0, 0)))) sc))
    match freq with
    | [] => (0, 0)
    | [e] => e.2
    | _ => interpAt s (freq.flatMap (fun e => e.1.map (fun d => (d, e.2)))) sym)

/-- The noise covariance of a record from the residuals at its DMRS resource elements (R65). -/
def noiseCov (s : State) (c : Nat) (w : BitVec 64) (a : BitVec 256) (t : Time) (g : List (List (List Cx))) : List (List Cx) :=
  let nb := (Config.projection s.occ.digest c).length
  let places := (dmGroups w a).flatMap (fun grp => grp.zipIdx.flatMap (fun x => (aScs a).map (fun sc => (grp, x.1, x.2, sc))))
  let res := places.filterMap (fun p =>
    let terms := (aPorts a).filterMap (fun port => (pilotAt (dmSequence s c w a t p.2.1) w port p.2.2.1 p.2.2.2).map (fun x =>
      (lsEstimate s c w a t g p.1 port p.2.2.2).map (fun h => cxMul h x)))
    if terms = [] then none
    else some ((List.range nb).map (fun b => cxSub ((gridAt g p.2.1 p.2.2.2).getD b (0, 0)) (cxSum (terms.map (fun x => x.getD b (0, 0)))))))
  (List.range nb).map (fun i => (List.range nb).map (fun j =>
    stageVal s 3 (if res = [] then (0, 0)
      else cxScale (1 / (res.length : Rat)) (cxSum (res.map (fun r => cxMul (r.getD i (0, 0)) (cxConj (r.getD j (0, 0)))))))))

/-! ## Stage 3: LMMSE (R65) -/

/-- LMMSE weights X with (H Hᴴ + R) X = H, by beam and layer: `h` holds a column of beams for each layer. -/
def lmmse (h : List (List Cx)) (r : List (List Cx)) : List (List Cx) :=
  let nb := r.length
  let hm := (List.range nb).map (fun b => matCol h b)
  let a := (List.range nb).map (fun i => (List.range nb).map (fun j =>
    cxAdd ((r.getD i []).getD j (0, 0)) (cxDot (hm.getD i []) ((hm.getD j []).map cxConj))))
  (matSolve nb a hm).getD (Config.openWeights h r)

/-- The equalised symbols of a resource element with their noise variances, by layer: the weights and one tap for each layer, 1 over the gain
that they leave it (log entry 217); none where that gain is 0. -/
def equalise (s : State) (y : List Cx) (h : List (List Cx)) (r : List (List Cx)) : List (Option (Cx × Rat)) :=
  let x := lmmse h r
  h.zipIdx.map (fun (hl, l) =>
    let w := (matCol x l).map (fun z => cxConj (stageVal s 3 z))
    let mu := (cxDot w hl).1
    if mu = 0 then none
    else
      let tap := 1 / mu
      some (stageVal s 3 (cxScale tap (cxDot w y)), Config.imageRound s.occ.digest 3 ((1 - mu) * tap)))

/-! ## Symbols, figures and LLRs (R65 to R67, R73) -/

/-- One symbol of a layer: value, noise variance, confidence. -/
structure Soft where
  re : Rat
  im : Rat
  noise : Rat
  conf : Rat
deriving DecidableEq, Repr

/-- What the two paths take in of a user (R65, R66, R84). -/
def userIn (s : State) (i : Item) (g : List (List (List Cx))) (a : BitVec 256) : UserIn :=
  let c := eCarrier i.fetched.entry
  let w := profileOf s c a i.slotTime
  let res := dataRes w a
  { context := aContext a, record := a
    grid := res.map (fun x => gridAt g x.1 x.2)
    estimates := res.map (fun x => (aPorts a).map (fun p => channelAt s c w a i.slotTime g p x.1 x.2))
    noise := noiseCov s c w a i.slotTime g, passed := none }

/-- The symbols of the classical path, by resource element and layer (R65). -/
def classicalSymbols (s : State) (u : UserIn) : List (List (Option Soft)) :=
  let rows := (u.grid.zip u.estimates).map (fun p => (equalise s p.1 p.2 u.noise).map (fun o =>
    o.map (fun x => ({ re := x.1.1, im := x.1.2, noise := x.2, conf := 0 } : Soft))))
  if aDfts u.record then
    let n := 12 * aPrbCount u.record
    (chunks n rows.length rows).flatMap (fun sym =>
      let xs := sym.map (fun r => ((r.head?.join).map (fun x => (x.re, x.im))).getD (0, 0))
      let nv : Rat := (sym.map (fun r => ((r.head?.join).map (fun x => x.noise)).getD (0 : Rat))).sum / ((max sym.length 1 : Nat) : Rat)
      (Config.dftDespread s.occ.digest xs).map (fun z => [some { re := z.1, im := z.2, noise := nv, conf := 0 }]))
  else rows

/-- The symbols of the learned path: the networks of the image over the grid of the allocation, with the weights in force at the slot start
(R56, R66). -/
def learnedSymbols (s : State) (i : Item) (u : UserIn) : List (List (Option Soft)) :=
  (Config.network s.occ.digest (itemWeights s i) (eCarrier i.fetched.entry) u.record (u.grid.zip u.estimates) u.noise).map (fun r =>
    r.map (fun x => some { re := x.1, im := x.2.1, noise := x.2.2.1, conf := x.2.2.2 }))

/-- The code of a constellation in DEMAP's SUBOP (R140). -/
def demapCode (qm : Nat) : Nat := qm / 2

/-- A symbol as the DEMAP command takes it; π/2-BPSK is turned back by its alternating rotation (R140). -/
def demapIn (a : BitVec 256) (r : Nat) (x : Soft) : Elem :=
  if aQm a = 1 && r % 2 == 1 then (ratVal 6 x.im, ratVal 6 (-x.re)) else (ratVal 6 x.re, ratVal 6 x.im)

/-- The LLRs of a record (R64 stage 5, R67): resource element, layer, bit; 0 for an erasure; descrambled. -/
def llrsOf (s : State) (i : Item) (a : BitVec 256) (xs : List (List (Option Soft))) : List Int :=
  let c := eCarrier i.fetched.entry
  let res := dataRes (profileOf s c a i.slotTime) a
  let imm := floatVal 8 (Config.llrScale s.occ.digest).toNat
  let raw := res.zipIdx.flatMap (fun (p, r) => (List.range (aLayers a)).flatMap (fun l =>
    match ((xs.getD r []).getD l none), reErased s i p.1 p.2 with
    | some x, false => (demapSym (demapCode (aQm a)) imm (demapIn a r x) (ratVal 6 x.noise)).1
    | _, _ => List.replicate (aQm a) 0))
  (raw.zip (scrambling (aRnti a) (aNid a) raw.length)).map (fun x => if x.2 then -x.1 else x.1)

/-- The constellation point nearest a symbol. -/
def hardPoint (qm : Nat) (x : Cx) : Cx :=
  let ps := (constellation (demapCode qm)).map (fun p => (valRat p.2.1, valRat p.2.2))
  match ps with
  | [] => (0, 0)
  | p :: rest => rest.foldl (fun b q => if cxAbs2 (cxSub x q) < cxAbs2 (cxSub x b) then q else b) p

/-- 10 log10 of a positive number as signed Q8.8 dB, limited to ±127.996 (R73). -/
def dbQ88 (q : Rat) : BitVec 16 :=
  let ln := fxLn q.num.natAbs 0 - fxLn q.den 0
  BitVec.ofInt 16 (clampInt (-32767) 32767 (ratInt ((2560 * ln : Int) / (fxLn 10 0 : Rat))))

/-- 10,000 times the root of a ratio, rounded to nearest; 0xFFFF from 655.35 % on (R73). -/
def evmOf (num den : Rat) : BitVec 16 :=
  if den = 0 then 0xFFFF
  else
    let q := num / den
    let n := isqrt (4 * 100000000 * q.num.natAbs / q.den)
    BitVec.ofNat 16 (min 65535 ((n + 1) / 2))

/-- The figures of a path (R73): SINR, EVM, confidence, over the data resource elements and layers. -/
def figures (qm : Nat) (xs : List (List (Option Soft))) : BitVec 16 × BitVec 16 × BitVec 8 :=
  let zs := xs.flatten.filterMap (fun x => x)
  if zs = [] then (0x8000, 0xFFFF, 0)
  else
    let n : Rat := (zs.length : Nat)
    let snr := (zs.map (fun z => if z.noise = 0 then 2 ^ 100 else cxAbs2 (z.re, z.im) / z.noise)).sum / n
    let hard := zs.map (fun z => ((z.re, z.im), hardPoint qm (z.re, z.im)))
    (if snr = 0 then 0x8001 else dbQ88 snr,
     evmOf ((hard.map (fun h => cxAbs2 (cxSub h.1 h.2))).sum) ((hard.map (fun h => cxAbs2 h.2)).sum),
     BitVec.ofInt 8 (clampInt 0 255 (ratInt (255 * (zs.map (fun z => z.conf)).sum / n))))

/-! ## Stages 6 and 7: combining, decoding, CRC (R64, R247, R249, R256) -/

/-- What a path makes of a user's transport block: CRC, failed code blocks, figures, the block's bits, the combined values of each code
block. -/
structure PathOut where
  ok : Bool
  cbFail : Nat
  sinr : BitVec 16
  evm : BitVec 16
  conf : BitVec 8
  bits : List Bool
  soft : List (List Int)
deriving DecidableEq, Repr

/-- The outcome of one user on both paths (R68, R69). -/
structure UserOut where
  learned : PathOut
  classical : PathOut
deriving DecidableEq, Repr

/-- The DECODE command of the image's lists for the cluster that runs a carrier: it fixes the iteration budget and the table set. -/
def decodeCmd (s : State) (c : Nat) : CeCmd :=
  let all := (planOf s).elim [] (fun p => p.lists.filter (fun l => uLevel l.eng == 0 && uCluster l.eng == carField s c 8))
  (((all.flatMap (fun l => l.steps)).filterMap (fun st => match st.cmd with
    | .ce w => some (ceCmdOfWord w)
    | _ => none)).find? (fun x => x.opcode == 2)).getD (ceCmdOfWord 0)

/-- The current half of a buffer for code block `j` (R255, R256). -/
def softHalf (s : State) (b : SoftBuf) (half : BitVec 1) (j : Nat) : List Int :=
  let g := segOf b.tbs b.rate
  (bufRead s b (half.toNat * halfBytes g b.ncb + j * blockPitch b.ncb) b.ncb).map (fun x => signedOf 8 x.toNat)

/-- The buffer that an item's record uses, also while it is released (R259). -/
def itemBuf (s : State) (i : Item) (a : BitVec 256) : Option SoftBuf :=
  s.pool.bufs.find? (fun b => b.context == aContext a && b.process == aProcess a && b.users.contains (i.queue, i.seq))

/-- LLRADD of two values (R133, R256). -/
def llrAdd (a b : Int) : Int := clampInt (-127) 127 (a + b)

/-- Stages 6 and 7 for a record on one path's LLRs: rate dematching, combining with the soft buffer as it stood before the item, decoding
and CRC. With every resource element missing the block fails (R61). -/
def decodeBlock (s : State) (i : Item) (a : BitVec 256) (lost : Bool) (llrs : List Int) (fig : BitVec 16 × BitVec 16 × BitVec 8) : PathOut :=
  let c := eCarrier i.fetched.entry
  let g := segOf (aTbs a) (aRate a)
  let data := (dataBitPlaces s c a i.slotTime).map (fun p => llrs.getD p 0)
  let cmd (j : Nat) : CeCmd := ceFill s c i.slotTime a j (decodeCmd s c)
  let starts (j : Nat) : Nat := ((List.range j).map (fun k => (cmd k).e.toNat)).sum
  let buf := itemBuf s i a
  let tables := (planOf s).elim [] (fun p => tableSets p (itemWeights s i))
  let soft := (List.range g.blocks).map (fun j =>
    let d := derm (cmd j) ((data.drop (starts j)).take (cmd j).e.toNat)
    buf.elim d (fun b => (d.zip (softHalf s b b.half j)).map (fun p => llrAdd p.1 p.2)))
  let dec := soft.zipIdx.map (fun (x, j) => (ldpcDecode (cmd j) tables x).1)
  let cb := if 1 < g.blocks then dec.map (crcHolds 24 0x800063) else []
  let tb := if 1 < g.blocks then dec.flatMap (fun b => b.take (b.length - 24)) else dec.flatten
  let p := ceCrcType (tbCrcCode (aTbs a))
  let tbOk := !lost && crcHolds p.1 p.2 tb
  { ok := tbOk && cb.all (fun b => b)
    cbFail := if 1 < g.blocks then (if lost then g.blocks else (cb.filter (fun b => !b)).length) else (if tbOk then 0 else 1)
    sinr := fig.1, evm := fig.2.1, conf := fig.2.2, bits := tb.take (aTbs a), soft := soft }

/-- Every data resource element of a record is missing (R61). -/
def allLost (s : State) (i : Item) (a : BitVec 256) : Bool :=
  (dataRes (profileOf s (eCarrier i.fetched.entry) a i.slotTime) a).all (fun p => reErased s i p.1 p.2)

/-- The transport block of a record on both paths. -/
def userOut (s : State) (i : Item) (g : List (List (List Cx))) (a : BitVec 256) : UserOut :=
  let u := userIn s i g a
  let lost := allLost s i a
  let run (xs : List (List (Option Soft))) : PathOut := decodeBlock s i a lost (llrsOf s i a xs) (figures (aQm a) xs)
  { learned := run (learnedSymbols s i u), classical := run (classicalSymbols s u) }

/-! ## UCI (R250 to R253) -/

/-- A UCI result (R253). -/
structure UciOut where
  context : BitVec 20
  kind : BitVec 4
  result : BitVec 2
  payload : List Bool
deriving DecidableEq, Repr

/-- The `k` bits of a message, most significant first. -/
def msgBits (k m : Nat) : List Bool := (List.range k).map (fun j => m.testBit (k - 1 - j))

/-- The INT32 correlation of LLRs with a codeword: a positive LLR favours bit 0 (R67, R252). -/
def correlation (llrs : List Int) (cw : List Bool) : Int :=
  BitVec.toInt (BitVec.ofInt 32 (((llrs.zip cw).map (fun p => if p.2 then -p.1 else p.1)).sum))

/-- The first message of greatest metric: ties go to the lowest value (R252). -/
def bestMessage (ms : List Int) : Nat × Int :=
  match ms with
  | [] => (0, 0)
  | m :: rest => rest.zipIdx.foldl (fun b x => if b.2 < x.1 then (x.2 + 1, x.1) else b) (0, m)

/-- The decision of a short code: DTX where the best metric lies below the carrier's threshold (R252). -/
def shortDecision (s : State) (c : Nat) (t : Time) (k e : Nat) (ms : List Int) : Nat × List Bool :=
  let b := bestMessage ms
  if Config.metricDb s.occ.digest e b.2 < signedOf 16 (carFieldAt s c 15 t) then (2, []) else (0, msgBits k b.1)

/-- The polar command for `k` information bits, CRC apart, in `e` coded bits (R250; TS 38.212). -/
def uciPolar (s : State) (k e : Nat) : PeCmd :=
  let crc := if k < 20 then 1 else 2
  let kk := k + (peCrcType crc).1
  let up (n : Nat) : Nat := if n ≤ 1 then 0 else Nat.log2 (n - 1) + 1
  let n1 := if 8 * e ≤ 9 * 2 ^ (up e - 1) && 16 * kk < 9 * e then up e - 1 else up e
  { opcode := 1, logn := BitVec.ofNat 4 (max 5 (min 10 (min n1 (up (8 * kk))))), list := Config.polarList s.occ.digest
    crc := BitVec.ofNat 3 crc, pc := if k < 20 then 1 else 0, ibil := 1, k := BitVec.ofNat 11 kk, e := BitVec.ofNat 14 e, rnti := 0
    inAddr := 0, outAddr := 0, rsvd := 0 }

/-- UCI of `k` bits from its LLRs: RESULT and payload (R250 to R253). More than 360 bits in 1,088 coded bits or more are two segments. -/
def uciDecode (s : State) (c : Nat) (t : Time) (k qm : Nat) (llrs : List Int) : Nat × List Bool :=
  let e := llrs.length
  if k ≤ 11 then
    shortDecision s c t k e ((List.range (2 ^ k)).map (fun m => correlation llrs (Config.shortCodeword k qm e m)))
  else if 360 < k && 1088 ≤ e then
    let half := ceilDiv k 2
    let a := peDecodeBits (uciPolar s half (e / 2)) (llrs.take (e / 2))
    let b := peDecodeBits (uciPolar s half (e / 2)) ((llrs.drop (e / 2)).take (e / 2))
    (if a.2 && b.2 then 0 else 1, (a.1 ++ b.1).drop (2 * half - k))
  else
    let r := peDecodeBits (uciPolar s k e) llrs
    (if r.2 then 0 else 1, r.1)

/-- The UCI profile of a record. -/
def uciProfile (s : State) (c : Nat) (a : BitVec 256) (t : Time) : BitVec 64 := BitVec.ofNat 64 (carObjAt s c 9 (aUciProfile a + 1) t)

/-- The UCI that a record carries (R252, R253): on the shared channel each KIND by itself, on PUCCH HARQ-ACK, SR and CSI part 1 together. -/
def uciOf (s : State) (i : Item) (g : List (List (List Cx))) (path : Nat) (a : BitVec 256) : List UciOut :=
  let c := eCarrier i.fetched.entry
  let t := i.slotTime
  let mk (kind : Nat) (r : Nat × List Bool) : UciOut :=
    { context := BitVec.ofNat 20 (aContext a), kind := BitVec.ofNat 4 kind, result := BitVec.ofNat 2 r.1, payload := r.2 }
  if !aUci a then []
  else if aKind a = 0 then
    let u := userIn s i g a
    let llrs := llrsOf s i a (if path = 2 then classicalSymbols s u else learnedSymbols s i u)
    ([(0, aAckBits a), (2, aCsi1Bits a), (3, aCsi2Bits a)].filter (fun x => x.2 != 0)).map (fun x =>
      mk x.1 (uciDecode s c t x.2 (aQm a) ((uciOnData s c a t x.1).map (fun p => llrs.getD p 0))))
  else
    let w := uciProfile s c a t
    let sr := if aSr a then 1 else 0
    let k := aAckBits a + sr + aCsi1Bits a
    let d := s.occ.digest
    let r := if bitsOf w 63 61 ≤ 1 then shortDecision s c t k (bitsOf w 56 53) (Config.pucchMetrics d w a k g)
      else uciDecode s c t k 2 (Config.pucchLlrs d w a false g)
    let cut (kind lo n : Nat) : List UciOut := if n = 0 then [] else [mk kind (r.1, (r.2.drop lo).take n)]
    (if k = 0 then [] else cut 0 0 (aAckBits a) ++ cut 1 (aAckBits a) sr ++ cut 2 (aAckBits a + sr) (aCsi1Bits a))
      ++ (if aCsi2Bits a = 0 then [] else [mk 3 (uciDecode s c t (aCsi2Bits a) 2 (Config.pucchLlrs d w a true g))])

/-- Every UCI result of an item. -/
def uciResults (s : State) (i : Item) (path : Nat) : List UciOut :=
  let as := i.fetched.allocs.filter (fun a => aUci a && aKind a ≤ 1)
  if as = [] then [] else as.flatMap (uciOf s i (projGrid s i) path)

/-! ## PRACH (R74, R75) -/

/-- A detected preamble (R75). -/
structure Detection where
  preamble : BitVec 6
  ta : BitVec 12
  power : BitVec 16
  peakNoise : BitVec 16
deriving DecidableEq, Repr

/-- The correlation peaks that reach the configuration's threshold, by preamble (R74). -/
def prachDetections (s : State) (i : Item) : List Detection :=
  let c := eCarrier i.fetched.entry
  let w := prachConfig s c (eAllocBuf i.fetched.entry) i.slotTime
  let last := Config.prachLastSymbol (bitsOf w 63 56) (carField s c 3)
  let rows := (List.range (streamsOf s c 0)).map (fun k => (List.range (last + 1)).map (streamSymbol s c true i.slotTime k))
  (List.range 64).flatMap (fun p => ((Config.prachPeaks s.occ.digest w p rows).filter (fun x =>
      decide ((bitsOf w 27 12 : Int) ≤ signedOf 16 x.2.2.toNat))).map (fun x =>
    { preamble := BitVec.ofNat 6 p, ta := x.1, power := x.2.1, peakNoise := x.2.2 }))

/-! ## SRS (R76) -/

/-- The estimate of a user's SRS: FP16 parts of its matrices, SINR, timing offset; none without an SRS resource element received. -/
def srsOf (s : State) (i : Item) (a : BitVec 256) : Option (List (BitVec 16) × BitVec 16 × BitVec 16) :=
  let c := eCarrier i.fetched.entry
  if (aSyms a).all (fun sym => (aScs a).all (fun sc => reErased s i sym sc)) then none
  else some (Config.srsEstimate s.occ.digest (carFieldAt s c 21 i.slotTime) a (projGrid s i))

/-- The SRS records of an item, in ascending context. -/
def srsUsers (i : Item) : List (BitVec 256) := i.fetched.allocs.filter (fun a => aKind a == 2)

/-- FP16 parts as QB blocks with 12-bit mantissas (R76). -/
def qb12Copy (xs : List (BitVec 16)) : List Byte :=
  (chunks 32 (ceilDiv xs.length 32) (xs.map (fun x => floatVal 6 x.toNat))).flatMap (fun g => (qbForm 10 g).1)

end Sys2Proof.Machine
end

