-- ==== Sys2Proof/Machine/Completion.lean ====
section
/-! DEFINITION. Machine/Completion.lean: the forming and writing of completions (R57, R68 to R80, R84, R85, R253, R256, R260 of
spec/02_slot_work.md and spec/08_channel_coding.md; R328 to R333 of spec/10_occupancies_and_queues.md; R369, R403). -/

namespace Sys2Proof.Machine

/-! ## When an item is ready (R260, R369) -/

/-- An uplink or downlink item with nothing to do (R80, R260). R315 has no KIND for SSB and CSI-RS and no field schedules them: an item whose
records are all of KIND 0 and of size 0 counts as having none (log entry 218). -/
def isEmptySlot (i : Item) : Bool :=
  let as := i.fetched.allocs
  if i.opcode = 1 then as.all (fun a => aPrbCount a == 0) || as.all (fun a => aTbs a == 0 && !aUci a)
  else if i.opcode = 2 then as.all (fun a => aKind a == 0 && aTbs a == 0)
  else false

/-- The budgeted release instant of a slot item (R305, R542). -/
def releaseAt (s : State) (i : Item) : Int :=
  let c := eCarrier i.fetched.entry
  (baseInstant s i.opcode c i.slotTime (eAllocBuf i.fetched.entry) : Int) + ((opPlan s i.opcode c).map (fun o => o.release)).getD 0

/-! ## The TICK plan (R22, R47, R376, R387) -/

/-- The slots of carrier `c` that start from two subframes before `t` to one after. -/
def slotsNear (s : State) (c : Nat) (t : Time) : List Time :=
  let m := t - inSubframe s t
  (List.range 4).flatMap (fun k => (List.range (2 ^ carMu s c)).map (fun j => m + k * 1000000 + symbolStart (carMu s c) (14 * j) - 2000000))

/-- An entry of the TICK plan falls due now. -/
def tickDue (s : State) (a : TickAt) : Bool :=
  let back (off : Int) : Int := (s.time.now : Int) - off
  match a with
  | .meridian off => decide (0 ≤ back off) && isMeridian s (back off).toNat
  | .slot c off => decide (0 ≤ back off) && onSlotGrid s c.toNat (back off).toNat
  | .window c up sym closes => (slotsNear s c.toNat s.time.now).any (fun t =>
      let w := if up then ulWindow s c.toNat t sym.toNat else dlWindow s c.toNat t sym.toNat
      s.time.now == (if closes then w.2 else w.1))
  | .release c op => s.items.any (fun i => i.opcode == op.toNat && eCarrier i.fetched.entry == c.toNat && i.phase == .accepted
      && releaseAt s i == (s.time.now : Int))

/-- The copy of network time that a unit's TICKs fire from runs (R375, R376). -/
def copyRuns (s : State) (u : UAddr) : Bool := 3 ≤ uLevel u && u != dieUnit 0 && u != dieUnit 1 || !(s.time.copyStopped.getD (uDie u) false)

/-- The latest TICK of a receiver and TAG. -/
def lastTick (s : State) (dst : UAddr) (tag : BitVec 8) : Option Time :=
  (s.time.ticked.find? (fun x => x.1 == dst && x.2.1 == tag)).map (fun x => x.2.2)

/-- TICK_FIRE (R22, R47, R387): the time unit, which stands in the I/O die, fires a TICK token at an instant that the TICK plan gives its
receiver and TAG, once; its VALUE is the low 32 bits of network time, and it counts at the unit that stands for the receiver. -/
def execTickFire (dst : UAddr) (tag : BitVec 8) (t : Time) (s : State) : Out :=
  timed s t (fun s =>
    let due := (planOf s).elim false (fun p => p.ticks.any (fun x => x.dst == dst && x.tag == tag && tickDue s x.at_))
    let u := homeOf s dst
    if due && copyRuns s u && lastTick s dst tag != some s.time.now then
      let s := { s with time := { s.time with
        ticked := (dst, tag, s.time.now) :: s.time.ticked.filter (fun x => !(x.1 == dst && x.2.1 == tag)) } }
      tokenEffect s u (mkToken (dieUnit 2) 5 tag.toNat s.time.now)
    else s)

/-- T + LEAD of a BARRIER (R403). -/
def barrierEnd (s : State) (i : Item) : Time := i.meridianUsed + barLead s i.fetched.entry

/-- The item's completion can be formed now, its predecessor's being formed. -/
def isReady (s : State) (i : Item) : Bool :=
  match i.phase with
  | .waiting => false
  | .refused _ => true
  | .accepted =>
    let done := i.doneAt.isSome
    if isSlotOp i.opcode then
      if isEmptySlot i then i.deadline ≤ s.time.now else done && decide (releaseAt s i ≤ (s.time.now : Int))
    else if i.opcode = 9 then barrierEnd s i ≤ s.time.now
    else done

/-! ## Users of an uplink slot (R68 to R73) -/

/-- What the completion says of one user: context, layers, path, CRC passed, saturated, SINR, EVM, confidence, failed and all code
blocks. -/
structure UserRec where
  context : Nat
  layers : Nat
  path : Nat
  crcOk : Bool
  sat : Bool
  sinr : BitVec 16
  evm : BitVec 16
  conf : BitVec 8
  cbFail : Nat
  cbTotal : Nat
  bits : List Bool := []
  soft : List (List Int) := []
deriving DecidableEq, Repr

/-- The receiver path of the item (R68). -/
def pathOf (s : State) (i : Item) : Nat :=
  if (planOf s).elim false (fun p => p.learned) then ePath i.fetched.entry else 2

/-- The fallback budget of a carrier in code blocks (R69). -/
def fallbackBudget (s : State) (c : Nat) : Nat :=
  (planOf s).elim 0 (fun p => ((p.fallback.find? (fun x => x.1 == c)).map (fun x => x.2)).getD 0)

/-- One user, with the fallback budget left before it and after it (R68 to R73): `out` gives a record's outcome on both paths. -/
def userStep (path : Nat) (i : Item) (out : BitVec 256 → UserOut) (p : Nat × List UserRec) (n : Nat) : Nat × List UserRec :=
  let as := i.fetched.allocs.filter (fun a => aContext a == n && aKind a == 0)
  let sat := i.satAll || i.satUsers.contains n
  match as.find? (fun a => aTbs a != 0) with
  | none =>
    (p.1, p.2 ++ [{ context := n, layers := (as.head?.map aLayers).getD 0, path := 0, crcOk := false, sat := sat, sinr := 0x8000
                    evm := 0xFFFF, conf := 0, cbFail := 0, cbTotal := 0 }])
  | some a =>
    let u := out a
    let blocks := (segOf (aTbs a) (aRate a)).blocks
    let tryFallback := path == 0 && !u.learned.ok && p.1 != 0 && decide (blocks ≤ p.1)
    let way := if path = 2 then 2 else if tryFallback && u.classical.ok then 3 else 1
    let r := if way = 1 then u.learned else u.classical
    (if tryFallback then p.1 - blocks else p.1,
     p.2 ++ [{ context := n, layers := aLayers a, path := way, crcOk := r.ok, sat := sat, sinr := r.sinr, evm := r.evm
               conf := if way = 1 then r.conf else 0, cbFail := min r.cbFail 255, cbTotal := blocks, bits := r.bits, soft := r.soft }])

/-- The users of an uplink item, in ascending context number. -/
def usersOf (s : State) (i : Item) : List UserRec :=
  ((contextsOf i.fetched.allocs).foldl (userStep (pathOf s i) i (userOut s i (projGrid s i)))
    (fallbackBudget s (eCarrier i.fetched.entry), [])).2

/-- The data record of a user of an uplink item. -/
def recordOf (i : Item) (n : Nat) : Option (BitVec 256) := (dataAllocs i).find? (fun a => aContext a == n)

/-- A quality record (R72). -/
def qualityRecord (slot : Time) (u : UserRec) : BitVec 128 :=
  BitVec.ofNat 128 (u.context % 2 ^ 20 * 2 ^ 108 + u.layers % 32 * 2 ^ 103 + u.path % 4 * 2 ^ 101 + (if u.sat then 2 ^ 100 else 0)
    + (if u.crcOk then 2 ^ 99 else 0) + u.sinr.toNat * 2 ^ 80 + u.evm.toNat * 2 ^ 64 + u.conf.toNat * 2 ^ 56
    + u.cbFail % 256 * 2 ^ 48 + u.cbTotal % 65536 * 2 ^ 32 + slot % 2 ^ 32)

/-! ## Records that an item writes -/

/-- The bits of a list as a number, first bit lowest. -/
def bitsNat : List Bool → Nat
  | [] => 0
  | b :: t => (if b then 1 else 0) + 2 * bitsNat t

/-- A UCI record and its payload (R253). -/
def uciBytes (u : UciOut) : List Byte :=
  let bits := if u.result = 2 then [] else u.payload
  bytesLE 8 (u.context.toNat * 2 ^ 44 + u.kind.toNat * 2 ^ 40 + u.result.toNat * 2 ^ 38 + bits.length % 2048 * 2 ^ 27)
    ++ bytesLE (ceilDiv bits.length 64 * 8) (bitsNat bits)

/-- Every UCI record of an item, in ascending context and KIND. -/
def uciAll (us : List UciOut) : List Byte :=
  (sortBy (fun a b => decide (a.context.toNat * 16 + a.kind.toNat ≤ b.context.toNat * 16 + b.kind.toNat)) us).flatMap uciBytes

/-- The detections of a PRACH item in order, at most 64 (R75). -/
def detectionsIn (ds : List Detection) : List Detection :=
  (sortBy (fun a b => decide (a.preamble.toNat * 4096 + a.ta.toNat ≤ b.preamble.toNat * 4096 + b.ta.toNat)) ds).take 64
def detectionsOf (s : State) (i : Item) : List Detection := detectionsIn (prachDetections s i)
def detectionWord (d : Detection) : Nat :=
  d.preamble.toNat * 2 ^ 58 + d.ta.toNat * 2 ^ 46 + d.power.toNat * 2 ^ 30 + d.peakNoise.toNat * 2 ^ 14

/-- The part of `bs` written at offset `off` of host buffer `b` that lies inside it (R284). -/
def bufOut (i : Item) (b off : Nat) (bs : List Byte) : Nat × List Byte :=
  let w := i.fetched.bufs.getD b 0
  (bufAddr w + off, bs.take (bufLen w - off))

/-- The reports of an SRS item, in ascending context (R76). -/
def srsReports (s : State) (i : Item) : List Byte :=
  (srsUsers i).flatMap (fun a =>
    let r := (srsOf s i a).getD ([], 0x8000, 0)
    Config.srsReport (aContext a) r.2.1 r.2.2)

/-- The estimates that COPY writes (R76): a user without SRS resource elements keeps the one its context holds. -/
def srsCopies (s : State) (i : Item) : List Byte :=
  (srsUsers i).flatMap (fun a => qb12Copy ((srsOf s i a).elim (Config.blockEstimate (ctxOf s (aContext a)).block) (fun r => r.1)))

/-- What the model of a Share queue writes in a TRAIN_STEP of mode 1 (R91): it reads IN_BUF, `more` bytes that the image has it read from host
memory, and the contexts. -/
def inferBytes (s : State) (i : Item) (more : List Byte) : List Byte :=
  Config.modelPass s.occ.digest (((planEntry s i.queue).map qpModel).getD 0) (i.fetched.data.getD (eInBuf i.fetched.entry) [] ++ more)
    (s.pool.resident.map (fun c => (c.context, c.block)))

/-- The outputs that the completion of an accepted item writes: its records, its transport blocks whether or not they passed CRC (R71), and
what its release slice wrote. -/
def outputsOf (s : State) (i : Item) (more : List Byte) : List (Nat × List Byte) :=
  let e := i.fetched.entry
  let own := match i.opcode with
    | 1 =>
      let us := usersOf s i
      us.flatMap (fun u => ((recordOf i u.context).map (fun a => bufOut i (aDataBuf a) (aDataOff a) (bytesOfBits u.bits))).toList)
        ++ [bufOut i (eReportBuf e) 0 (us.flatMap (fun u => bytesLE 16 (qualityRecord i.slotTime u).toNat)),
            bufOut i (eCtrlBuf e) 0 (uciAll (uciResults s i (pathOf s i)))]
    | 3 => [bufOut i (eReportBuf e) 0 ((detectionsOf s i).flatMap (fun d => bytesLE 8 (detectionWord d)))]
    | 4 => bufOut i (eReportBuf e) 0 (srsReports s i) :: (if eCopy e then [bufOut i (eAuxBuf e) 0 (srsCopies s i)] else [])
    | 5 => if eTrainMode e then [bufOut i (eOutBuf e) 0 (inferBytes s i more)] else []
    | _ => []
  (i.outputs ++ own).filter (fun x => x.2 != [])

/-! ## Training (R84 to R86) -/

/-- The pins of a TRAIN_STEP. -/
def pinsHeld (s : State) (i : Item) : List (Nat × Nat) :=
  (s.weights.pins.filter (fun p => p.1 == i.queue && p.2.1 == i.seq)).map (fun p => (p.2.2.2.1, p.2.2.2.2))

/-- The users of the slots that a TRAIN_STEP pinned, in the order of its pins, each with its slot. -/
def trainUsers (s : State) (i : Item) : List (Retained × UserIn) :=
  (pinsHeld s i).flatMap (fun p => ((s.weights.retained.find? (fun r => r.queue == p.1 && r.seq == p.2)).toList).flatMap
    (fun r => r.users.map (fun u => (r, u))))

/-- Its transport blocks that passed CRC, re-encoded, with the inputs and weights of their slots (R85). -/
def trainInputs (s : State) (i : Item) :
    List (List Byte × BitVec 256 × List (List Cx) × List (List (List Cx)) × List (List Cx) × List Bool) :=
  (trainUsers s i).filterMap (fun x => x.2.passed.map (fun bits =>
    (x.1.weights, x.2.record, x.2.grid, x.2.estimates, x.2.noise, encodeTb s x.1.carrier x.1.slotTime x.2.record bits)))

/-- What its update makes: master weights, optimiser state, mean loss. -/
def trainResult (s : State) (i : Item) : List (BitVec 32) × List Byte × BitVec 32 :=
  Config.trainUpdate s.occ.digest ((planOf s).elim [] (fun p => p.optimiser)) s.weights.master s.weights.optimiser (trainInputs s i)

/-- Resource elements used and transport blocks skipped. -/
def reUsed (s : State) (i : Item) : Nat := ((trainInputs s i).map (fun x => x.2.2.1.length)).sum
def tbsSkipped (s : State) (i : Item) : Nat := ((trainUsers s i).filter (fun x => x.2.passed.isNone)).length

/-! ## Status (R57, R78, R85, R89, R346, R369, R403) -/

/-- Every participant of a BARRIER's operation has answered ACTED or ACTED_UNCERTAIN. -/
def barrierMet (s : State) (i : Item) : Bool :=
  s.global.ops.any (fun o => o.a.initiator.toNat == devnum s && o.a.opNumber.toNat == i.opNumber && o.a.t == i.meridianUsed
    && o.a.participants &&& ~~~(o.acted ||| o.uncertain) == 0)

/-- A user of a downlink item is precoded by a stored channel that its context does not hold (R78). R78 names no instant at which the estimate
must be there: for the status the context is asked when the completion is formed (log entry 219). -/
def channelMissing (s : State) (i : Item) : Bool :=
  i.opcode == 2 && i.fetched.allocs.any (fun a => aKind a == 0 && aTbs a != 0 && aPrecode a && !(ctxOf s (aContext a)).hasEstimate)

/-- The conditions of R57 that hold for an accepted item, in its order: LATE first, EMPTY last. -/
def conditions (s : State) (i : Item) : List Bool :=
  let us := if i.opcode = 1 then usersOf s i else []
  let late := (hasDeadline i.opcode && decide (i.deadline < s.time.now)) || i.unsent != 0 || i.slipped
  let empty := isEmptySlot i
    || (i.opcode == 5 && !eTrainMode i.fetched.entry && (trainInputs s i).isEmpty)
    || (i.opcode == 7 && capEmpty (capSetOf i.fetched))
  [late, i.reissued,
   i.inputMissing || i.erased != 0 || channelMissing s i || (i.opcode == 9 && !barrierMet s i),
   us.any (fun u => u.path != 0 && !u.crcOk), us.any (fun u => u.path == 3), i.sat, empty]

/-- The first condition that holds names the status. -/
def statusOf (cs : List Bool) : Status :=
  (((cs.zip [Status.late, .replayed, .inputIncomplete, .crcFail, .fallbackUsed, .saturated, .empty]).find? (fun p => p.1)).map
    (fun p => p.2)).getD .ok

/-- The number that stands for a status: its place in R57, then in R320 and R322. -/
def Status.index : Status → Nat
  | .ok => 0
  | .late => 1
  | .replayed => 2
  | .inputIncomplete => 3
  | .crcFail => 4
  | .fallbackUsed => 5
  | .saturated => 6
  | .empty => 7
  | .refusedNotLoaded => 8
  | .refusedFormat => 9
  | .refusedLateSubmit => 10
  | .refusedEnvelope => 11
  | .refusedSoftbuf => 12
  | .refusedContext => 13

/-- FLAGS: LATE in its highest bit (R328). -/
def flagsOf : List Bool → Nat
  | [] => 0
  | b :: t => (if b then 2 ^ t.length else 0) + flagsOf t

/-! ## The entry (R328, R329) -/

/-- RESULT of an accepted item. -/
def resultOf (s : State) (i : Item) : Nat :=
  match i.opcode with
  | 1 =>
    let us := usersOf s i
    i.gen % 2 ^ 32 * 2 ^ 320 + us.length % 65536 * 2 ^ 304 + (us.filter (fun u => u.crcOk)).length % 65536 * 2 ^ 288
      + (us.filter (fun u => u.path == 3)).length % 65536 * 2 ^ 272 + i.erased % 2 ^ 32 * 2 ^ 240
  | 2 => i.gen % 2 ^ 32 * 2 ^ 320 + i.unsent % 2 ^ 32 * 2 ^ 288
  | 3 => (detectionsOf s i).length % 65536 * 2 ^ 304
  | 4 => (contextsOf i.fetched.allocs).length % 65536 * 2 ^ 304
  | 5 =>
    if eTrainMode i.fetched.entry then 0
    else (if (trainInputs s i).isEmpty then 0 else (trainResult s i).2.2.toNat * 2 ^ 320) + reUsed s i % 2 ^ 32 * 2 ^ 288
      + i.skipped % 65536 * 2 ^ 272 + tbsSkipped s i % 65536 * 2 ^ 256
  | 6 => i.meridianUsed % 2 ^ 32 * 2 ^ 320 + i.genAfter % 2 ^ 32 * 2 ^ 288
  | _ => 0

/-- A completion entry. -/
def entryOf (s : State) (i : Item) (st : Status) (flags result : Nat) : BitVec 512 :=
  BitVec.ofNat 512 (i.seq % 2 ^ 32 * 2 ^ 480 + (Config.statusCode st.index).toNat * 2 ^ 472 + i.opcode % 256 * 2 ^ 464
    + i.queue % 4096 * 2 ^ 452 + flags % 128 * 2 ^ 441 + eDeadline i.fetched.entry * 2 ^ 384 + s.time.now % 2 ^ 32 * 2 ^ 352 + result)

/-! ## What a completion changes -/

/-- The combine that a user's outcome keeps goes to the other half of its soft buffer, in both copies (R70, R256); not again for an item that
has changed the half already. -/
def writeSoft (s : State) (i : Item) (u : UserRec) : State :=
  match (recordOf i u.context).bind (itemBuf s i) with
  | none => s
  | some b =>
    if b.lastSeq = some (i.queue, i.seq) then s
    else
      let base := (~~~b.half).toNat * halfBytes (segOf b.tbs b.rate) b.ncb
      u.soft.zipIdx.foldl (fun s x =>
        bufWrite s (moverUnit (carField s b.carrier 8) 2) b (base + x.2 * blockPitch b.ncb)
          (x.1.map (fun v => BitVec.ofNat 8 (patternOf 8 v)))) s

/-- Soft buffers (R256, R259): the other half becomes current once, the item no longer uses the buffer, and a released buffer that
nothing uses goes. -/
def settleBuffers (s : State) (i : Item) : State :=
  let me := (i.queue, i.seq)
  let used (b : SoftBuf) : Bool := b.users.contains me
  let flip (b : SoftBuf) : SoftBuf :=
    if used b then
      { b with half := if b.lastSeq = some me then b.half else ~~~b.half, lastSeq := some me, users := b.users.filter (fun u => u != me) }
    else b
  let bufs := s.pool.bufs.map flip
  let gone := bufs.filter (fun b => b.released && b.users.isEmpty)
  { s with pool := { s.pool with
      bufs := bufs.filter (fun b => !(b.released && b.users.isEmpty)), freePages := s.pool.freePages + (gone.map (fun b => b.pages)).sum } }

/-- Slots beyond their retention window that no TRAIN_STEP pins leave the DRAM (R84, R85). -/
def pruneRetained (s : State) : State :=
  { s with weights := { s.weights with
      retained := s.weights.retained.filter (fun r => inRetention s r || s.weights.pins.any (fun p => p.2.2.2 == (r.queue, r.seq))) } }

/-- What an uplink slot leaves for adaptation (R84): the inputs of its users, with the blocks that passed CRC. -/
def retainedOf (s : State) (i : Item) (us : List UserRec) : Retained :=
  let c := eCarrier i.fetched.entry
  { carrier := c, queue := i.queue, seq := i.seq, slotTime := i.slotTime, slotNo := slotNumber s (carMu s c) i.slotTime
    weights := itemWeights s i
    users := us.flatMap (fun u => ((recordOf i u.context).map (fun a =>
      { userIn s i (projGrid s i) a with passed := if u.crcOk then some u.bits else none })).toList) }

/-- A completed uplink slot is retained, where its carrier has a retention window (R84). -/
def retain (s : State) (i : Item) (us : List UserRec) : State :=
  if retentionOf s (eCarrier i.fetched.entry) = 0 then s
  else pruneRetained { s with weights := { s.weights with retained := retainedOf s i us :: s.weights.retained } }

/-- The estimates of an SRS item go to the contexts of the users that had SRS resource elements (R76). -/
def storeEstimates (s : State) (i : Item) : State :=
  (srsUsers i).foldl (fun s a =>
    match srsOf s i a with
    | none => s
    | some r =>
      let c := ctxOf s (aContext a)
      setCtx s { c with hasEstimate := true, block := Config.srsBlock c.block r.1 }) s

/-- A TRAIN_STEP in mode 0 (R85): one optimiser update unless it is empty; its pins go. -/
def trainDone (s : State) (i : Item) (empty : Bool) : State :=
  let w := s.weights
  let pins := w.pins.filter (fun p => !(p.1 == i.queue && p.2.1 == i.seq))
  pruneRetained (if empty then { s with weights := { w with pins := pins } }
    else { s with weights := { w with pins := pins, master := (trainResult s i).1, optimiser := (trainResult s i).2.1 } })

/-- The lasting effects of the completion of an accepted item. -/
def settleItem (s : State) (i : Item) (empty : Bool) : State :=
  match i.opcode with
  | 1 =>
    let us := usersOf s i
    let s' := settleBuffers (us.foldl (fun s u => writeSoft s i u) s) i
    let dtx := ((uciResults s i (pathOf s i)).filter (fun u => u.result == 2)).length
    let s' := if dtx = 0 then s' else countUnit s' (clusterUnit (carField s (eCarrier i.fetched.entry) 8)) 0x43 dtx
    retain s' i us
  | 4 => storeEstimates s i
  | 5 => if eTrainMode i.fetched.entry then s else trainDone s i empty
  | _ => s

/-! ## Forming -/

/-- A completion is formed: captured, counted and put in line; then what can be written is written (R331 to R333, R348). -/
def formCompletion (s : State) (i : Item) (e : BitVec 512) (outs : List (Nat × List Byte)) (flags : Nat) : State :=
  let mine (sl : Slice) : Bool := sl.queue.toNat == i.queue && sl.seq.toNat == i.seq
  let s := { s with
    items := s.items.filter (fun j => !sameItem i j)
    fabric := { s.fabric with
      satSlices := s.fabric.satSlices.filter (fun x => !mine x), fixedScales := s.fabric.fixedScales.filter (fun x => !mine x.slice) } }
  let s := capRecord s 5 i.queue s.time.now (bytesLE 64 e.toNat)
  let s := countCompleted s i.queue
  let s := if flags.testBit 6 then countEvent s 0x3800 0x72 0 1 else s
  let s := if flags.testBit 5 then countEvent s 0x3800 0x73 0 1 else s
  let s := modQueue s i.queue (fun q => { q with
    formNext := seqNext i.seq, formed := q.formed ++ [{ seq := i.seq, entry := e, outputs := outs }] })
  flushQueue s i.queue

/-- COMPLETION_FORM (R369): the completion of the item next in order is formed once it is ready; `more` are the bytes that a forward pass of it
has read from host memory beside IN_BUF (R91). -/
def execCompletionForm (qn : BitVec 12) (more : List Byte) (t : Time) (s : State) : Out :=
  timed s t (fun s =>
    let n := (queueOf s qn.toNat).formNext
    match s.items.find? (isItem qn.toNat n) with
    | none => s
    | some i =>
      if !isReady s i then s
      else
        match i.phase with
        | .refused st => formCompletion s i (entryOf s i st 0 0) [] 0
        | _ =>
          let cs := conditions s i
          let e := entryOf s i (statusOf cs) (flagsOf cs) (resultOf s i)
          let outs := outputsOf s i more
          let empty := cs.getLastD false
          convertAll (formCompletion (settleItem s i empty) i e outs (flagsOf cs)))

end Sys2Proof.Machine
end

