-- ==== Sys2Proof/Machine/Dictionary.lean ====
section
/-! DEFINITION. Machine/Dictionary.lean: the object dictionary: every object's type, access, range and value, and the domains
(R409 to R434 of spec/13_object_dictionary.md; R499, R500 of spec/15_lifecycle_and_trust.md; R504 to R515 of
spec/16_performance_counters.md). -/

namespace Sys2Proof.Machine

/-- Access codes (R411). -/
inductive Acc where
  | const
  | ro
  | rw
  | wo
  | rws
deriving DecidableEq, Repr

/-- An object at one subindex: type code of R410, size in bytes, access, value (staged for RWS), value in force, lowest and highest
value that a write may carry. -/
structure Entry where
  ty : Nat
  size : Nat
  acc : Acc
  val : Nat
  view : Nat
  lo : Nat
  hi : Nat
deriving DecidableEq, Repr

/-- What an index and subindex name (R409, R413). -/
inductive Found where
  | noObject
  | noUnit
  | noSub
  | entry (e : Entry)
deriving DecidableEq, Repr

/-! ## Types (R410) -/

def tBool : Nat := 1
def tU8 : Nat := 2
def tU16 : Nat := 3
def tU32 : Nat := 4
def tU64 : Nat := 5
def tI8 : Nat := 6
def tI16 : Nat := 7
def tI32 : Nat := 8
def tI64 : Nat := 9
def tTime : Nat := 11
def tText : Nat := 12
def tOctets : Nat := 13
def tDomain : Nat := 14
def tUnit : Nat := 15

/-- The size of a type of fixed size. -/
def tySize (ty : Nat) : Nat :=
  if ty = 1 ∨ ty = 2 ∨ ty = 6 then 1
  else if ty = 3 ∨ ty = 7 ∨ ty = 15 then 2
  else if ty = 4 ∨ ty = 8 ∨ ty = 10 then 4
  else if ty = 5 ∨ ty = 9 ∨ ty = 11 then 8
  else 0

def topOf (n : Nat) : Nat := 2 ^ (8 * n) - 1
/-- The highest value that a write of a type may carry: BOOL takes 0 or 1 (R410). -/
def tyTop (ty : Nat) : Nat := if ty = 1 then 1 else topOf (tySize ty)

def constE (ty v : Nat) : Entry := ⟨ty, tySize ty, .const, v, v, 0, 0⟩
def roE (ty v : Nat) : Entry := ⟨ty, tySize ty, .ro, v % 2 ^ (8 * tySize ty), v % 2 ^ (8 * tySize ty), 0, 0⟩
def woE (ty : Nat) : Entry := ⟨ty, tySize ty, .wo, 0, 0, 0, tyTop ty⟩
/-- An RW object whose value is `v`. -/
def rwE (ty v lo hi : Nat) : Entry := ⟨ty, tySize ty, .rw, v, v, lo, hi⟩
/-- An RW object of any value of its type. -/
def rwAny (ty v : Nat) : Entry := rwE ty v 0 (tyTop ty)
def octE (acc : Acc) (n v : Nat) : Entry := ⟨tOctets, n, acc, v % 2 ^ (8 * n), v % 2 ^ (8 * n), 0, topOf n⟩
def textE (bs : List Byte) : Entry := ⟨tText, bs.length, .const, ofBytesLE bs, ofBytesLE bs, 0, 0⟩
def domE (acc : Acc) : Entry := ⟨tDomain, 0, acc, 0, 0, 0, 0⟩

/-- The staged value of an RWS object (R434). -/
def stagedVal (s : State) (idx sub dflt : Nat) : Nat := (tget s.obj.staged (256 * idx + sub)).getD dflt
def rwsE (s : State) (idx sub ty dflt lo hi : Nat) : Entry :=
  ⟨ty, tySize ty, .rws, stagedVal s idx sub dflt, inForce s idx sub dflt, lo, hi⟩
def rwsOct (s : State) (idx sub n : Nat) : Entry :=
  ⟨tOctets, n, .rws, stagedVal s idx sub 0, inForce s idx sub 0, 0, topOf n⟩

/-- A plain RW setting (R412). -/
def setE (s : State) (idx sub ty dflt lo hi : Nat) : Entry := rwE ty (rwVal s idx sub dflt) lo hi
def setAny (s : State) (idx sub ty dflt : Nat) : Entry := rwAny ty (rwVal s idx sub dflt)

def ofBool (b : Bool) : Nat := if b then 1 else 0

/-- ASCII text as bytes. -/
def textBytes (t : List Char) : List Byte := t.map (fun c => BitVec.ofNat 8 c.toNat)
def orderingCode : List Byte := textBytes ['U', 'L', 'N', '-', 'Q', '4', '8', '-', 'A', '1']
def steppingText : List Byte := textBytes ['A', '1']

/-! ## Values that several objects share -/

/-- Level of the patch record in force (R414). -/
def patchLevel (s : State) : Nat := (s.life.patch.map (fun p => p.1.toNat)).getD 0
/-- FIRMWARE_VERSION (R414). -/
def firmwareVersion (s : State) : Nat := Config.romRevision.toNat * 2 ^ 32 + patchLevel s

/-- The key hash fused in owner slot `n`; 0 where none is (R415). -/
def ownerHashOf (s : State) (n : Nat) : BitVec 512 :=
  if bitOf s.life.ownerFused n then (s.life.ownerHash.getD n none).getD (Config.ownerKeyHash n) else 0

/-- FUSE_SETTINGS (R499). -/
def fuseSettings (s : State) : Nat :=
  (2 ^ min s.life.requests 128 - 1) * 2 ^ 128 + (2 ^ min s.life.patchFloor 16 - 1) * 2 ^ 48 + s.life.ownerRevoked.toNat * 2 ^ 36
    + s.life.ownerFused.toNat * 2 ^ 32 + ofBool s.life.certified * 16 + ofBool s.life.keyDestroyed * 8 + s.life.state % 8

/-- OCC_STATE (R421). -/
def occCode (s : State) : Nat :=
  match s.occ.state with
  | .none => 0
  | .loading => 1
  | .running => 2
  | .twilight => 3

/-- TIME_STATE (R382). -/
def servoCode (s : State) : Nat :=
  match s.time.servo with
  | .freerun => 0
  | .acquiring => 1
  | .locked => 2
  | .holdover => 3

/-- The priority list of sources: entries up to the first 0, each once (R378, R416). -/
def sourceList (s : State) : List Nat :=
  ([(1, 1), (2, 2), (3, 4), (4, 5), (5, 6), (6, 0)].map (fun p => rwVal s 0x1202 p.1 p.2)).takeWhile (fun v => v != 0) |>.eraseDups

/-- The phase source in use (R378): PTP, PPS_IN or Vrelol. -/
def phaseSource (s : State) : Option Nat := (sourceList s).find? (fun v => v ≤ 3 && s.time.available.contains v)
/-- The frequency source in use. -/
def freqSource (s : State) : Nat := ((sourceList s).find? (fun v => v != 2 && s.time.available.contains v)).getD 6

/-- CONSTELLATION_TIME (R398): the phase source is Vrelol, or this device is the root, and the servo is locked. -/
def constellationTime (s : State) : Bool :=
  s.time.servo == .locked &&
    (phaseSource s == some 3 ||
      s.fabric.known.all (fun k => k.timeFromLinks || decide (devnum s ≤ k.dev.toNat)))

/-- Ports of an FH_MODE (R463). -/
def fhPorts (s : State) : Nat :=
  let m := rwVal s 0x1310 0 3
  if m = 1 then 4 else if m = 2 then 8 else 16

/-- LASER_SOURCE (R464). -/
def laserSource (s : State) : Nat :=
  if s.fh.lasers.any (fun l => l == 1) then 1 else if s.fh.lasers.any (fun l => l == 2) then 2 else 0

/-- USTATE (R424). -/
def ustate (s : State) (u : UAddr) : Nat :=
  let x := unitOf s u
  match x.phase with
  | .dusk => 2
  | .dawn => 3
  | .retired => 4
  | .heldOut => 5
  | .live => if x.watchdog.isSome then 1 else 0

/-! ## Unit indices (R423) -/

/-- The unit whose record an index of 0x3000 to 0x37FF is. -/
def unitOfIndex (i : Nat) : Option UAddr :=
  if i = 0x3000 then some packageUnit
  else if 0x3001 ≤ i ∧ i ≤ 0x3003 then some (dieUnit (i - 0x3001))
  else if 0x3010 ≤ i ∧ i < 0x3018 then some (clusterUnit (i - 0x3010))
  else if 0x3020 ≤ i ∧ i < 0x3060 then
    if (i - 0x3020) % 8 < 6 then some (coreUnit (6 * ((i - 0x3020) / 8) + (i - 0x3020) % 8)) else none
  else if 0x3100 ≤ i ∧ i < 0x3400 then (coreEngines ((i - 0x3100) / 16))[(i - 0x3100) % 16]?
  else if 0x3400 ≤ i ∧ i < 0x3480 then (clusterEngines ((i - 0x3400) / 16))[(i - 0x3400) % 16]?
  else none

/-- The unit whose counters an index of 0x3800 to 0x38FF holds (R504). -/
def counterUnitOf (i : Nat) : Option UAddr :=
  if i = 0x3800 then some packageUnit
  else if 0x3801 ≤ i ∧ i ≤ 0x3803 then some (dieUnit (i - 0x3801))
  else if 0x3808 ≤ i ∧ i < 0x3810 then some (clusterUnit (i - 0x3808))
  else if 0x3810 ≤ i ∧ i < 0x3840 then some (coreUnit (i - 0x3810))
  else none

/-- The cycles of an island over `n` nanoseconds from `t0`, `f` of each. -/
def cyclesFrom (f : Nat → Nat) (t0 : Time) : Nat → Nat
  | 0 => 0
  | n + 1 => cyclesFrom f t0 n + f (t0 + n)

/-- CYCLES (R39, R505, R506): island cycles since the unit's Dawn. -/
def cyclesOf (s : State) (u : UAddr) : Nat :=
  if uLevel u = 1 ∨ uLevel u = 2 then
    cyclesFrom (Config.islandTicks (recordIndex u)) (unitOf s u).dawnAt (s.time.now - (unitOf s u).dawnAt)
  else s.time.up

/-- CROSSING_WAIT (R39, R505): of a core's island cycles since its Dawn those that waited for another island. -/
def crossingOf (s : State) (u : UAddr) : Nat :=
  if uLevel u = 1 then
    cyclesFrom (fun x => min (Config.islandTicks (recordIndex u) x) (Config.crossingTicks (recordIndex u) x)) (unitOf s u).dawnAt
      (s.time.now - (unitOf s u).dawnAt)
  else 0

def counterOf (s : State) (i : Nat) : CounterSt := (tget s.pmu.recs i).getD {}

/-! ## The objects -/

/-- Highest subindex of a record object; `some 0` a simple object; none an index that the dictionary does not define. -/
def objTop (i : Nat) : Option Nat :=
  if i = 0x1004 ∨ i = 0x1022 ∨ i = 0x1300 ∨ i = 0x1360 then some 3
  else if i = 0x1020 ∨ i = 0x1203 ∨ i = 0x1208 ∨ i = 0x1221 then some 5
  else if i = 0x1102 ∨ i = 0x1206 ∨ i = 0x1209 ∨ i = 0x1404 then some 4
  else if i = 0x1202 ∨ i = 0x1401 ∨ i = 0x38F0 then some 6
  else if i = 0x1204 ∨ i = 0x1224 then some 0x11
  else if 0x1210 ≤ i ∧ i < 0x1218 then some 2
  else if 0x1218 ≤ i ∧ i < 0x121C then some 0x1F
  else if 0x1320 ≤ i ∧ i < 0x1330 then some 6
  else if 0x1340 ≤ i ∧ i < 0x1348 then some 4
  else if i = 0x1400 then some 0x0C
  else if i = 0x1403 ∨ i = 0x1408 ∨ i = 0x3700 then some 2
  else if 0x2000 ≤ i ∧ i < 0x3000 then some 0x11
  else if 0x3000 ≤ i ∧ i < 0x3800 then (unitOfIndex i).map (fun u => if uLevel u = 2 then 0x7F else 9)
  else if 0x3800 ≤ i ∧ i < 0x3900 then
    if i = 0x38F1 then some 0 else (counterUnitOf i).map (fun _ => 0x0B)
  else if 0x3900 ≤ i ∧ i < 0x3A00 then some 0
  else if 0x4000 ≤ i ∧ i < 0x5000 then
    let k := i % 0x80
    if k = 0 then some 0x15
    else if k ≤ 4 then some 0x40
    else if k ≤ 6 then some 0x0E
    else if k = 7 then some 2
    else if k = 8 then some 0x10
    else if k ≤ 10 then some 0x40
    else none
  else if i ∈ [0x1000, 0x1001, 0x1002, 0x1003, 0x1005, 0x1006, 0x1007, 0x1008, 0x1010, 0x1011, 0x1021, 0x1023, 0x1100, 0x1101,
      0x1103, 0x1104, 0x1105, 0x1106, 0x1107, 0x1200, 0x1201, 0x1205, 0x1207, 0x120A, 0x1220, 0x1222, 0x1223, 0x1225, 0x1310,
      0x1330, 0x1350, 0x1351, 0x1352, 0x1353, 0x1354, 0x1355, 0x1356, 0x1357, 0x1402, 0x1405, 0x1406, 0x1407] then some 0
  else none

/-- Identity and communication (R414). -/
def idEntry (s : State) (i sub : Nat) : Option Entry :=
  match i, sub with
  | 0x1000, 0 => some (constE tU32 0x1E5C0348)
  | 0x1001, 0 => some (textE orderingCode)
  | 0x1002, 0 => some (textE steppingText)
  | 0x1003, 0 => some (octE .const 16 Config.serial.toNat)
  | 0x1004, 1 => some (constE tU32 Config.romRevision.toNat)
  | 0x1004, 2 => some (roE tU32 (patchLevel s))
  | 0x1004, 3 => some (roE tU64 (firmwareVersion s))
  | 0x1005, 0 => some (constE tU64 s.life.eclipse.toNat)
  | 0x1006, 0 => some (constE tU8 128)
  | 0x1007, 0 => some (roE tU8 (devnum s))
  | 0x1008, 0 => some (constE tU16 1)
  | 0x1010, 0 => some (woE tBool)
  | 0x1011, 0 => some (roE tU32 s.lastFault)
  | 0x1020, 1 => some (octE .const 6 (Config.mac 16).toNat)
  | 0x1020, 2 => some (setAny s 0x1020 2 tU32 0)
  | 0x1020, 3 => some (setE s 0x1020 3 tU8 24 0 32)
  | 0x1020, 4 => some (setAny s 0x1020 4 tU32 0)
  | 0x1020, 5 => some (octE .rw 16 (rwVal s 0x1020 5 0))
  | 0x1021, 0 => some (setAny s 0x1021 0 tU16 0xFFFF)
  | 0x1022, 1 => some (setE s 0x1022 1 tU8 0x4C 0 127)
  | 0x1022, 2 => some (roE tU8 s.bus.eid.toNat)
  | 0x1022, 3 => some (roE tU32 s.bus.busClears)
  | 0x1023, 0 => some (roE tU8 s.obj.subs.length)
  | _, _ => none

/-- Lifecycle and trust (R415). -/
def lifeEntry (s : State) (i sub : Nat) : Option Entry :=
  match i, sub with
  | 0x1100, 0 => some (roE tU8 s.life.state)
  | 0x1101, 0 => some (domE .wo)
  | 0x1103, 0 => some (roE tU8 s.life.ownerRevoked.toNat)
  | 0x1104, 0 => some (octE .ro 1952 (if s.life.keyGen = 0 then 0 else ofBytesLE (Config.identityKey s.life.keyGen)))
  | 0x1105, 0 => some (domE .ro)
  | 0x1106, 0 => some (octE .ro 32 (fuseSettings s))
  | 0x1107, 0 => some (domE .ro)
  | 0x1102, n + 1 => some (octE .ro 64 (ownerHashOf s n).toNat)
  | _, _ => none

/-- Time (R416). -/
def timeEntry (s : State) (i sub : Nat) : Option Entry :=
  match i, sub with
  | 0x1200, 0 => some (roE tTime s.time.now)
  | 0x1201, 0 => some (roE tU8 (servoCode s))
  | 0x1202, 1 => some (setE s 0x1202 1 tU8 1 0 6)
  | 0x1202, 2 => some (setE s 0x1202 2 tU8 2 0 6)
  | 0x1202, 3 => some (setE s 0x1202 3 tU8 4 0 6)
  | 0x1202, 4 => some (setE s 0x1202 4 tU8 5 0 6)
  | 0x1202, 5 => some (setE s 0x1202 5 tU8 6 0 6)
  | 0x1202, 6 => some (setE s 0x1202 6 tU8 0 0 6)
  | 0x1203, 1 => some (setE s 0x1203 1 tU8 0 0 16)
  | 0x1203, 2 => some (setE s 0x1203 2 tU8 1 1 2)
  | 0x1203, 3 => some (if rwVal s 0x1203 2 1 = 2 then setE s 0x1203 3 tU8 24 44 63 else setE s 0x1203 3 tU8 24 24 43)
  | 0x1203, 4 => some (setE s 0x1203 4 tU8 0 0 1)
  | 0x1203, 5 => some (setE s 0x1203 5 tU8 0 0 15)
  | 0x1205, 0 => some (woE tU64)
  | 0x1206, 1 => some (setE s 0x1206 1 tU32 50 1 1000000)
  | 0x1206, 2 => some (setE s 0x1206 2 tU32 200 10 10000)
  | 0x1206, 3 => some (setE s 0x1206 3 tU32 100 10 1000000)
  | 0x1206, 4 => some (setE s 0x1206 4 tU32 1100 10 1000000)
  | 0x1207, 0 => some (roE tI64 (patternOf 64 s.time.lastOffset))
  | 0x1208, 1 => some (rwAny tBool (ofBool s.time.stepRefused))
  | 0x1208, 2 => some (woE tBool)
  | 0x1208, 3 => some (rwAny tBool (ofBool s.time.teExceeded))
  | 0x1208, 4 => some (rwAny tBool (ofBool s.time.ppsInverted))
  | 0x1208, 5 => some (roE tI64 (patternOf 64 s.time.refusedOffset))
  | 0x1209, 1 => some (setE s 0x1209 1 tU32 0 0 999999)
  | 0x1209, 2 => some (setE s 0x1209 2 tU16 0 0 1023)
  | 0x1209, 3 => some (roE tU16 s.time.sfn)
  | 0x1209, 4 => some (roE tU8 s.time.subframe)
  | 0x120A, 0 => some (setE s 0x120A 0 tU32 100000000 1000 500000000)
  | 0x1204, n => some (setAny s 0x1204 n tI32 0)
  | _, _ => none

/-- Triggers and event inputs (R417). -/
def trigEntry (s : State) (i sub : Nat) : Option Entry :=
  if i < 0x1218 then
    match sub with
    | 1 => some (rwsOct s i 1 16)
    | 2 => some (rwAny tBool (ofBool (s.time.trigMissed.getD (i - 0x1210) false)))
    | _ => none
  else
    let e := s.time.evt.getD (i - 0x1218) {}
    match sub with
    | 1 => some (setE s i 1 tU8 0 0 3)
    | 2 => some (roE tU32 e.count)
    | 3 => some (setAny s i 3 tU32 0)
    | 4 => some (roE tU32 e.lost)
    | n => if 0x10 ≤ n then some (roE tTime ((tget e.ring (n - 0x10)).getD 0)) else none

/-- Constellation (R418). -/
def constEntry (s : State) (i sub : Nat) : Option Entry :=
  match i, sub with
  | 0x1220, 0 => some (setAny s 0x1220 0 tU32 0)
  | 0x1221, 1 => some (roE tU8 s.fabric.diameter)
  | 0x1221, 2 => some (roE tU8 s.fabric.eccentricity)
  | 0x1221, 3 => some (roE tBool (ofBool (constellationTime s)))
  | 0x1221, 4 => some (setE s 0x1221 4 tU32 1000 400 100000)
  | 0x1221, 5 => some (setE s 0x1221 5 tU32 5000 1000 655350)
  | 0x1222, 0 => some (domE .ro)
  | 0x1223, 0 => some (octE .wo 16 0)
  | 0x1224, 0x11 => some (roE tU32 s.global.logCount)
  | 0x1224, n + 1 => some (octE .ro 64 ((tget s.global.log n).getD 0).toNat)
  | 0x1225, 0 => some (domE .ro)
  | _, _ => none

/-- Interfaces (R419). -/
def ifEntry (s : State) (i sub : Nat) : Option Entry :=
  if 0x1320 ≤ i ∧ i < 0x1330 then
    let p := i - 0x1320
    let f := fhPort s p
    match sub with
    | 1 => if p < fhPorts s then some (roE tBool (ofBool f.up)) else none
    | 2 => some (octE .const 6 (Config.mac p).toNat)
    | 3 => some (roE tU64 f.rx)
    | 4 => some (roE tU64 f.tx)
    | 5 => some (roE tU64 f.late)
    | 6 => some (roE tU16 f.faults.toNat)
    | _ => none
  else if 0x1340 ≤ i ∧ i < 0x1348 then
    let v := vlPort s (i - 0x1340)
    match sub with
    | 1 => some (roE tU8 v.state)
    | 2 => some (roE tU16 ((v.peer.map (fun p => p.1.toNat * 256 + p.2.toNat)).getD 0))
    | 3 => some (roE tU64 v.retries)
    | 4 => some (roE tU16 v.faults.toNat)
    | _ => none
  else if 0x1350 ≤ i ∧ i < 0x1358 then (if sub = 0 then some (domE .ro) else none)
  else
    match i, sub with
    | 0x1300, 1 => some (roE tU8 s.pcie.speed)
    | 0x1300, 2 => some (roE tU8 s.pcie.width)
    | 0x1300, 3 => some (roE tU64 s.pcie.retries)
    | 0x1310, 0 => some (setE s 0x1310 0 tU8 3 1 3)
    | 0x1330, 0 => some (roE tU8 (laserSource s))
    | 0x1360, 1 => some (setE s 0x1360 1 tU8 1 1 2)
    | 0x1360, 2 => some (roE tBool (ofBool s.bus.mgmtUp))
    | 0x1360, 3 => some (roE tU64 s.obj.mgmtDropped)
    | _, _ => none

/-- Occupancies and commits (R421, R433). -/
def occEntry (s : State) (i sub : Nat) : Option Entry :=
  match i, sub with
  | 0x1400, 1 => some (roE tU8 (occCode s))
  | 0x1400, 2 => some (setAny s 0x1400 2 tU64 0)
  | 0x1400, 3 => some (setAny s 0x1400 3 tU64 0)
  | 0x1400, 4 => some ⟨tU8, 1, .wo, 0, 0, 1, 3⟩
  | 0x1400, 5 => some (roE tU8 s.occ.reason)
  | 0x1400, 6 => some (roE tU16 s.occ.section_)
  | 0x1400, 7 => some (roE tU16 s.occ.step)
  | 0x1400, 8 => some (roE tUnit s.occ.unit.toNat)
  | 0x1400, 9 => some (roE tU32 s.occ.number)
  | 0x1400, 10 => some (roE tU32 s.weights.gen)
  | 0x1400, 11 => some (octE .ro 64 s.occ.digest.toNat)
  | 0x1400, 12 => some (roE tBool (ofBool s.occ.locked))
  | 0x1401, 1 => some (woE tBool)
  | 0x1401, 2 => some (setAny s 0x1401 2 tU64 0)
  | 0x1401, 3 => some (roE tTime s.obj.commitMeridian)
  | 0x1401, 4 => some (roE tU64 (s.obj.commits.foldl (fun (m : BitVec 64) c => m ||| c.mask) 0).toNat)
  | 0x1401, 5 => some (roE tU64 s.obj.refused.toNat)
  | 0x1401, 6 => some (roE tU32 s.obj.firstFault.toNat)
  | 0x1402, 0 => some (octE .rw 16 (rwVal s 0x1402 0 0))
  | 0x1403, 1 => some (roE tU64 s.cap.producer)
  | 0x1403, 2 => some (setAny s 0x1403 2 tU64 0)
  | 0x1404, 1 => some (setAny s 0x1404 1 tU64 0)
  | 0x1404, 2 => some (setAny s 0x1404 2 tU64 0)
  | 0x1404, 3 => some (setAny s 0x1404 3 tBool 0)
  | 0x1404, 4 => some (roE tU8 s.occ.replayStatus)
  | 0x1405, 0 => some (domE .ro)
  | 0x1406, 0 => some (domE .ro)
  | 0x1407, 0 => some (domE .ro)
  | 0x1408, 1 => some (setAny s 0x1408 1 tU64 0)
  | 0x1408, 2 => some (setAny s 0x1408 2 tU64 0)
  | _, _ => none

/-- A queue record (R422). -/
def queueEntry (s : State) (q sub : Nat) : Option Entry :=
  let x := queueOf s q
  match sub with
  | 1 => some (rwAny tU64 x.sqBase)
  | 2 => some (rwAny tU64 x.cqBase)
  | 3 => some (rwAny tU64 x.ledger)
  | 4 => some (rwE tU32 x.depth 0 65536)
  | 5 => some (rwAny tU32 x.firstSeq)
  | 6 => some (rwAny tU16 x.client)
  | 7 => some (rwE tU16 x.vector 0 2047)
  | 8 => some (rwAny tU8 x.modCount)
  | 9 => some (rwAny tU16 x.modTime)
  | 0x0A => some (roE tU32 x.tail)
  | 0x0B => some (roE tU32 x.acceptNext)
  | 0x0C => some (roE tU32 x.completeNext)
  | 0x0D => some (roE tU8 x.qstate)
  | 0x0E => some (roE tU8 ((planEntry s q).elim 0xFF (fun w => ofBool (qpShare w))))
  | 0x0F => some (roE tU16 ((planEntry s q).elim 0 qpWeight))
  | 0x10 => some (roE tI32 (patternOf 32 x.deficit))
  | 0x11 => some (roE tU32 x.dbFaults)
  | _ => none

/-- A unit record (R424); TIMEOUT's range is checked by its commit. -/
def unitEntry (s : State) (i : Nat) (u : UAddr) (sub : Nat) : Option Entry :=
  let x := unitOf s u
  match sub with
  | 1 => some (constE tUnit u.toNat)
  | 2 => some (roE tU8 (ustate s u))
  | 3 => some (rwsE s i 3 tU32 (timeoutDefault u) 0 (topOf 4))
  | 4 => some (roE tU32 x.faults)
  | 5 => some (roE tU64 x.corrected)
  | 6 => some (roE tU32 x.reissues)
  | 7 => some (roE tU32 x.lastFault)
  | 8 => some (constE tU8 (if uLevel u = 1 then physOf s (uCluster u) (uCore u) else 0xFF))
  | 9 => some (roE tU16 (counterIndex u))
  | n =>
    if uLevel u = 2 ∧ 0x40 ≤ n then
      some (octE .ro 16 (qWord s (uCluster u) (qrecOf s (uCluster u) (n - 0x40))).toNat)
    else none

/-- Counter records and their control (R505, R514). -/
def pmuEntry (s : State) (i sub : Nat) : Option Entry :=
  match counterUnitOf i with
  | some u =>
    let r := counterOf s i
    match sub with
    | 1 => some (roE tU64 (cyclesOf s u))
    | 2 => some (roE tU64 (crossingOf s u))
    | 0x0B => some (rwE tU8 r.overflow.toNat 0 255)
    | n =>
      if 3 ≤ n ∧ n ≤ 6 then some (rwAny tU32 (r.config.getD (n - 3) 0).toNat)
      else if 7 ≤ n ∧ n ≤ 10 then some (rwAny tU64 (r.count.getD (n - 7) 0).toNat)
      else none
  | none =>
    match i, sub with
    | 0x38F0, 1 => some (setAny s 0x38F0 1 tBool 0)
    | 0x38F0, 2 => some (setAny s 0x38F0 2 tU16 0xFFFF)
    | 0x38F0, 3 => some (roE tU32 s.pmu.written)
    | 0x38F0, 4 => some (setAny s 0x38F0 4 tU32 0)
    | 0x38F0, 5 => some (roE tU32 s.pmu.lost)
    | 0x38F0, 6 => some (roE tTime s.pmu.windowTime)
    | 0x38F1, 0 => some (domE .ro)
    | _, _ => none

/-- The bytes of a fault record as a number (R371). -/
def faultWord (r : FaultRec) : BitVec 256 :=
  BitVec.ofNat 256 (r.number % 2 ^ 32 * 2 ^ 224 + r.time % 2 ^ 64 * 2 ^ 160 + r.unit.toNat * 2 ^ 144 + r.cause.toNat * 2 ^ 136
    + r.action.toNat * 2 ^ 132 + r.retry % 4 * 2 ^ 128 + r.queue.toNat * 2 ^ 116 + r.seq.toNat * 2 ^ 84 + r.address % 2 ^ 42 * 2 ^ 42
    + r.count % 65536 * 2 ^ 26)

/-- The range of a CARRIER field (R427). -/
def carrierRange (sub : Nat) : Nat × Nat × Nat :=
  match sub with
  | 1 => (tBool, 0, 1)
  | 2 => (tU8, 1, 2)
  | 3 => (tU8, 1, 2)
  | 4 => (tU8, 0, 3)
  | 5 => (tU16, 1, 275)
  | 6 => (tU8, 0, 64)
  | 7 => (tU8, 0, 64)
  | 8 => (tU8, 0, 7)
  | 9 => (tU8, 0, 1)
  | 10 => (tU32, 0, topOf 4)
  | 11 => (tU16, 0, 1007)
  | 12 => (tU16, 256, 4096)
  | 13 => (tU16, 0, 256)
  | 14 => (tBool, 0, 1)
  | 15 => (tI16, 0, topOf 2)
  | 16 => (tU8, 0, 255)
  | 17 => (tU8, 0, 255)
  | 18 => (tU8, 0, 255)
  | 19 => (tU8, 0, 255)
  | 20 => (tU8, 0, 255)
  | _ => (tU8, 1, 16)

/-- A carrier object (R426). -/
def carrierEntry (s : State) (i sub : Nat) : Option Entry :=
  let k := i % 0x80
  if sub = 0 then none
  else if k = 0 then
    let r := carrierRange sub
    some (rwsE s i sub r.1 (carrierDefaults.getD (sub - 1) 0) r.2.1 r.2.2)
  else if k ≤ 2 then some (rwsE s i sub tI8 0 0 255)
  else if k ≤ 6 then some (rwsE s i sub tU32 0 0 (topOf 4))
  else if k = 7 then (if sub = 1 then some (rwsE s i 1 tU16 0 1 160) else some (rwsOct s i 2 560))
  else some (rwsOct s i sub 8)

/-- The object at an index and a subindex. -/
def findObj (s : State) (i sub : Nat) : Found :=
  match objTop i with
  | none => if 0x3000 ≤ i ∧ i < 0x3800 then .noUnit else .noObject
  | some top =>
    if top ≠ 0 ∧ sub = 0 then .entry (constE tU8 top)
    else if top < sub then .noSub
    else
      let e := if i < 0x1100 then idEntry s i sub
        else if i < 0x1200 then lifeEntry s i sub
        else if i < 0x1210 then timeEntry s i sub
        else if i < 0x121C then trigEntry s i sub
        else if i < 0x1300 then constEntry s i sub
        else if i < 0x1400 then ifEntry s i sub
        else if i < 0x2000 then occEntry s i sub
        else if i < 0x3000 then queueEntry s (i - 0x2000) sub
        else if i < 0x3800 then
          (match unitOfIndex i with
          | some u => unitEntry s i u sub
          | none =>
            if sub = 1 then some (rwAny tUnit (rwVal s 0x3700 1 0x8000))
            else some (roE tU16 (recordIndex (BitVec.ofNat 16 (rwVal s 0x3700 1 0x8000)))))
        else if i < 0x3900 then pmuEntry s i sub
        else if i < 0x4000 then some (octE .ro 32 (((tget s.faults (i - 0x3900)).map faultWord).getD 0).toNat)
        else carrierEntry s i sub
      match e with
      | some e => .entry e
      | none => .noSub

/-- The bytes of an entry's value, least significant first. -/
def entryBytes (e : Entry) (view : Bool) : List Byte := bytesLE e.size (if view then e.view else e.val)

/-! ## Domains -/

/-- The attestation report for a nonce (R500, R501): its body from the lowest field up, then the signature. -/
def attestReport (s : State) (nonce : Nat) : List Byte :=
  let live := s.occ.state == .running || s.occ.state == .twilight
  let body := bytesLE 32 0 ++ bytesLE 64 ((s.life.patch.elim 0 (fun p => p.2))).toNat ++ bytesLE 2 1 ++ bytesLE 1 (occCode s)
    ++ bytesLE 1 s.life.state ++ bytesLE 4 s.weights.gen ++ bytesLE 4 s.occ.number ++ bytesLE 4 nonce
    ++ bytesLE 16 Config.serial.toNat ++ bytesLE 8 0 ++ bytesLE 8 s.life.eclipse.toNat ++ bytesLE 8 (firmwareVersion s)
    ++ bytesLE 8 s.time.now ++ bytesLE 32 (fuseSettings s) ++ bytesLE 64 (if live then s.occ.digest.toNat else 0)
  body ++ Config.mldsaSign s.life.keyGen (Config.shake256 body)

/-- The routing domain: hops, next-hop device, next-hop port, 1 if reachable (R418). -/
def routeBytes (s : State) (d : Nat) : List Byte :=
  match routeTo s d with
  | some r => [r.hops, r.next, r.port, 1].map (BitVec.ofNat 8)
  | none => if d = devnum s then [BitVec.ofNat 8 0, BitVec.ofNat 8 d, 0, 1] else [0, 0, 0, 0]

/-- The snapshot domain (R418). -/
def snapshotBytes (x : Snapshot) : List Byte :=
  bytesLE 8 x.t ++ bytesLE 4 x.number ++ bytesLE 4 x.gen
    ++ (List.range 8).flatMap (fun p =>
        let v := x.ports.getD p (0, 0, 0, 0)
        bytesLE 4 v.1 ++ bytesLE 4 v.2.1 ++ bytesLE 4 v.2.2.1 ++ bytesLE 4 v.2.2.2)
    ++ (List.range 4096).flatMap (fun q =>
        match x.queues.find? (fun e => e.1 == q) with
        | some e => bytesLE 4 e.2.1 ++ bytesLE 4 e.2.2.1 ++ bytesLE 4 e.2.2.2
        | none => bytesLE 12 0)
    ++ x.counters

/-- A / B as FP32 bits; 0 where B is 0 (R201). -/
def ratio32 (a b : BitVec 32) : Nat :=
  if (floatVal 8 b.toNat).isZero then 0 else (fp32Bits (divVal 8 (floatVal 8 a.toNat) (floatVal 8 b.toNat)).1).toNat

/-- A narrowing record of a port and tensor (R201, R420): zeros where no transfer has completed on that port. -/
def narrowBytes (s : State) (port tensor : Nat) : List Byte :=
  match s.fabric.narrowPorts.find? (fun n => n.tensor == tensor && n.port == port) with
  | none => List.replicate 80 0
  | some n =>
    let m := n.last
    let c (i : Nat) : Nat := m.counts.getD i 0
    bytesLE 4 m.eErr.toNat ++ bytesLE 4 m.eSig.toNat
      ++ bytesLE 4 (ratio32 m.eErr (fp32Bits (ofInt (c 0)))) ++ bytesLE 4 (ratio32 m.eErr m.eSig)
      ++ bytesLE 4 (c 0) ++ bytesLE 4 (c 1) ++ bytesLE 4 (c 2) ++ bytesLE 4 (c 3) ++ bytesLE 4 (c 4) ++ bytesLE 4 0
      ++ n.totals.flatMap (bytesLE 8)

/-- The minimum admissible deadlines of a carrier (R305, R421). -/
def deadlineBytes (s : State) (c : Nat) : List Byte :=
  [1, 2, 3, 4].flatMap (fun op => bytesLE 4 (patternOf 32 (((opPlan s op c).map (fun o => o.minDeadline)).getD 0)))

/-- The block of a context, resident or backed (R421). -/
def contextBytes (s : State) (n : Nat) : List Byte :=
  match s.pool.resident.find? (fun c => c.context == n) with
  | some c => blockBytes s c
  | none =>
    blockBytes s { context := n, lastUse := 0, hasEstimate := false, block := (tget s.pool.backing n).elim [] (fun p => p.2) }

/-- A tensor number that a loaded descriptor uses. -/
def tensorUsed (s : State) (t : Nat) : Bool := (planOf s).elim false (fun p => p.narrowing.any (fun d => ndTensor d == t))

/-- A domain's bytes, or none where the selector names nothing (R445). Fields of several bytes stand little-endian on every transport, the
big-endian management port too, for R10 does not say whether its order reaches inside a block (log entry 225). -/
def domainBytes (s : State) (i sel : Nat) : Option (List Byte) :=
  if i = 0x1105 then some (if s.life.certified then s.life.certificate.getD Config.deviceCertificate else [])
  else if i = 0x1107 then some (attestReport s sel)
  else if i = 0x1222 then (if sel < 64 then some (routeBytes s sel) else none)
  else if i = 0x1225 then (if sel = 0 then some ((s.global.snapshot.map snapshotBytes).getD []) else none)
  else if 0x1350 ≤ i ∧ i < 0x1358 then (if tensorUsed s sel then some (narrowBytes s (i - 0x1350) sel) else none)
  else if i = 0x1405 then (if sel < 32 then some (deadlineBytes s sel) else none)
  else if i = 0x1406 then
    (if sel < 65536 then
      let c := clientOf s sel
      some (bytesLE 8 c.1 ++ bytesLE 8 c.2.1 ++ bytesLE 8 c.2.2.1 ++ bytesLE 8 c.2.2.2)
     else none)
  else if i = 0x1407 then (if sel < (planOf s).elim 0 (fun p => p.contexts) then some (contextBytes s sel) else none)
  else if i = 0x38F1 then
    (if sel = 0 then some ((List.range 256).flatMap (fun k => bytesLE 32 ((tget s.pmu.samples k).getD 0).toNat)) else none)
  else none

end Sys2Proof.Machine
end

