-- ==== Sys2Proof/Machine/Routes.lean ====
section
/-! DEFINITION. Machine/Routes.lean: the Constellation's link state and routes (R393 to R397 of
spec/12_time_and_constellations.md). -/

namespace Sys2Proof.Machine

/-- The digest of the device's identity key (R393). -/
def ownKeyHash (s : State) : BitVec 512 := Config.shake256 (Config.identityKey s.life.keyGen)

/-- The joined ports of the device with the neighbours on them. -/
def joinedPorts (s : State) : List (Nat × BitVec 6) :=
  (List.range 8).filterMap (fun p =>
    let v := vlPort s p
    if v.state = 2 then v.peer.map (fun x => (p, x.1)) else none)

/-- The link state that the device floods of itself (R395). -/
def ownLinks (s : State) : LinkState :=
  { dev := s.pins.devnum, keyHash := ownKeyHash s, fseq := s.fabric.floodSeq, timeFromLinks := phaseSource s == some 3
    links := joinedPorts s }

/-- The link states known, the device's own included. -/
def allLinks (s : State) : List LinkState := ownLinks s :: s.fabric.known.filter (fun k => k.keyHash != ownKeyHash s)

/-- The neighbours of device `d`. -/
def neighbours (ks : List LinkState) (d : Nat) : List Nat :=
  ((ks.filter (fun k => k.dev.toNat == d)).flatMap (fun k => k.links.map (fun l => l.2.toNat))).eraseDups

/-- Every device reached from a frontier, with its distance: breadth first. -/
def reach (ks : List LinkState) : Nat → Nat → List Nat → List Nat → List (Nat × Nat)
  | 0, _, _, _ => []
  | fuel + 1, d, front, seen =>
    let next := ((front.flatMap (neighbours ks)).eraseDups).filter (fun x => !seen.contains x)
    front.map (fun x => (x, d)) ++ (if next.isEmpty then [] else reach ks fuel (d + 1) next (seen ++ next))

/-- The hop counts from device `d`. -/
def hopsFrom (ks : List LinkState) (d : Nat) : List (Nat × Nat) := reach ks 65 0 [d] [d]
def hopsTo (h : List (Nat × Nat)) (e : Nat) : Option Nat := (h.find? (fun p => p.1 == e)).map (fun p => p.2)

/-- The lowest element of a list. -/
def leastOf : List Nat → Option Nat
  | [] => none
  | x :: t => match leastOf t with
    | none => some x
    | some y => some (min x y)

/-- The device numbers that more than one identity key carries (R393). -/
def duplicateNumbers (s : State) : List Nat :=
  let ks := allLinks s
  ((ks.filter (fun k => ks.any (fun j => j.dev == k.dev && j.keyHash != k.keyHash))).map (fun k => k.dev.toNat)).eraseDups

/-- The routes that the known link state gives (R395). -/
def computeRoutes (s : State) : List Route :=
  let ks := allLinks s
  let me := devnum s
  let near := (joinedPorts s).map (fun p => p.2.toNat)
  let fromNear := near.eraseDups.map (fun n => (n, hopsFrom ks n))
  (hopsFrom ks me).filterMap (fun p =>
    if p.1 = me then none
    else
      let next := leastOf ((fromNear.filter (fun x => hopsTo x.2 p.1 == some (p.2 - 1))).map (fun x => x.1))
      match next with
      | none => none
      | some n =>
        (leastOf (((joinedPorts s).filter (fun x => x.2.toNat == n)).map (fun x => x.1))).map (fun port =>
          { dev := p.1, hops := p.2, next := n, port := port }))

/-- The diameter and the device's eccentricity (R397). -/
def constellationShape (s : State) : Nat × Nat :=
  let ks := allLinks s
  let mine := hopsFrom ks (devnum s)
  let far (h : List (Nat × Nat)) : Nat := (h.map (fun p => p.2)).foldl max 0
  ((mine.map (fun p => far (hopsFrom ks p.1))).foldl max 0, far mine)

/-- What this device kept of devices that it no longer reaches is forgotten: their link state, and the sequence numbers to and from them
(log entry 25). -/
def forgetLost (s : State) : State :=
  let reached (d : Nat) : Bool := d == devnum s || s.fabric.routes.any (fun r => r.dev == d)
  { s with fabric := { s.fabric with
      known := s.fabric.known.filter (fun k => reached k.dev.toNat)
      nextE2e := s.fabric.nextE2e.filter (fun p => reached p.1)
      landed := s.fabric.landed.filter (fun p => reached p.1)
      newHop := s.fabric.newHop.filter (fun p => reached p.1)
      partIn := s.fabric.partIn.filter (fun p => reached p.src) } }

/-- A held write whose destination has become unreachable is dropped as R263 says; its narrowed transfer never completes. -/
def dropHeld (s : State) (w : HeldWrite) : State :=
  let s := { s with fabric := { s.fabric with narrow := s.fabric.narrow.map (fun n =>
    if n.dst = w.dst.toNat then { n with sent := n.sent.filter (fun x => x.1 != w.e2e) } else n) } }
  if segType w.header = 1 then dropWrite s (dieUnit 2) (2 ^ 42 + segAddr w.header) else s

/-- A held write waits for the writes before it, its destination having a new next hop (R396). -/
def hopWaits (s : State) (w : HeldWrite) : Bool := (tget s.fabric.newHop w.dst.toNat).any (fun n => decide ((w.e2e - n).toNat < 32768))

/-- The held writes and tokens after a route change (R480): to an unreachable device dropped, the others resent in order. -/
def resendHeld (s : State) : State :=
  let gone := s.fabric.held.filter (fun w => (routeTo s w.dst.toNat).isNone)
  let stay := s.fabric.held.filter (fun w => (routeTo s w.dst.toNat).isSome)
  let s := gone.foldl dropHeld { s with fabric := { s.fabric with held := stay } }
  (stay.filter (fun w => !hopWaits s w)).foldl (fun s w => routeSegment s w.dst.toNat w.header w.data) s

/-- The outstanding reads after a route change (R480): to an unreachable device answered with zeros, the others issued again. -/
def reissueReads (s : State) : State :=
  (s.fabric.reads.filter (fun r => r.got.isNone)).foldl (fun s r =>
    let d := r.addr / 2 ^ 36 % 64
    match routeTo s d with
    | none => answerRead s r.tag (List.replicate r.len 0) false
    | some _ => routeSegment s d (segHeader 2 (devnum s) d 0 r.tag 0 r.len 0 r.addr 0 0) []) s

/-- The route tables take the link state known now (R396, R397), and what was sent by the old routes goes again (R480);
new writes to a device with a new next hop wait for those (R396). -/
def applyRoutes (s : State) : State :=
  let shape := constellationShape s
  let now := computeRoutes s
  let moved (d : Nat) : Bool := (now.find? (fun r => r.dev == d)).map (fun r => r.next) != (routeTo s d).map (fun r => r.next)
  let hop (t : Tbl (BitVec 16)) (w : HeldWrite) : Tbl (BitVec 16) :=
    let d := w.dst.toNat
    if moved d && (tget t d).isNone then tset t d ((tget s.fabric.nextE2e d).getD 0) else t
  let s := { s with fabric := { s.fabric with
      routes := now, diameter := shape.1, eccentricity := shape.2, changeAt := none
      newHop := s.fabric.held.foldl hop s.fabric.newHop } }
  reissueReads (forgetLost (resendHeld s))

/-- The link state has changed: the flood goes on every joined port but the one it came from, and the change waits for the first
Meridian at least 50 µs from now, later changes starting that time again (R395, R396). -/
def linkStateChanged (s : State) : State :=
  let s := { s with fabric := { s.fabric with duplicates := duplicateNumbers s } }
  { s with fabric := { s.fabric with changeAt := some (meridianFrom s (s.time.now + 50000)) } }

/-- The device floods its own links anew. -/
def floodOwn (s : State) : State :=
  let s := { s with fabric := { s.fabric with floodSeq := s.fabric.floodSeq + 1 } }
  let ls := ownLinks s
  linkStateChanged ((joinedPorts s).foldl (fun s p => s.emit (.flood p.1 ls)) s)

end Sys2Proof.Machine
end

