-- ==== Sys2Proof/Machine/TimeUnit.lean ====
section
/-! DEFINITION. Machine/TimeUnit.lean: the servo, triggers, pulses, event inputs, and what happens at a Meridian (R375 to R391 of
spec/12_time_and_constellations.md; R89, R346, R363, R396, R437, R448, R515, R525, R536). -/

namespace Sys2Proof.Machine

def modTime (s : State) (f : TimeSt → TimeSt) : State := { s with time := f s.time }

/-! ## The servo (R378, R382 to R385) -/

/-- A fault record of the I/O die with CAUSE ENVIRONMENT and ACTION 0. -/
def envFault (s : State) : State := recordFaultAt s (dieUnit 2) causeEnvironment 0 0 0 0 0

/-- The servo enters HOLDOVER, or stays in it. -/
def enterHoldover (s : State) : State :=
  if s.time.servo = .holdover then modTime s (fun x => { x with agreeing := 0 })
  else modTime s (fun x => { x with servo := .holdover, holdoverSince := x.now, agreeing := 0, belowSince := none })

/-- A measured offset of `q` quarter ns is refused (R384). -/
def refuseOffset (s : State) (q : Int) : State :=
  let s := modTime s (fun x => { x with stepRefused := true, refusedOffset := q / 4 })
  let s := if s.time.refusalRun then s else modTime (envFault s) (fun x => { x with refusalRun := true })
  enterHoldover s

/-- A measured offset is accepted (R382). -/
def acceptOffset (s : State) (q : Int) : State :=
  let s := modTime s (fun x => { x with refusalRun := false })
  let near := q.natAbs < 4 * rwVal s 0x1206 1 50
  match s.time.servo with
  | .freerun => modTime s (fun x => { x with servo := .acquiring, belowSince := if near then some x.now else none })
  | .acquiring => modTime s (fun x => { x with belowSince := if near then some (x.belowSince.getD x.now) else none })
  | .locked => s
  | .holdover =>
    if 16 ≤ s.time.agreeing + 1 then modTime s (fun x => { x with servo := .locked, agreeing := 0 })
    else modTime s (fun x => { x with agreeing := x.agreeing + 1 })

/-- A phase measurement: the device's time is `q` quarter ns ahead of the source's. In FREERUN without an occupancy the first sets the
time (R383). -/
def measureOffset (s : State) (q : Int) : State :=
  let s := modTime s (fun x => { x with lastOffset := q })
  if s.time.servo = .freerun ∧ s.occ.state = .none then
    acceptOffset (modTime s (fun x => { x with now := ((4 * (x.now : Int) - q) / 4).toNat })) 0
  else if 4 * rwVal s 0x1206 3 100 < q.natAbs then refuseOffset s q
  else acceptOffset s q

def setAvailable (s : State) (src : Nat) : State :=
  modTime s (fun x => { x with available := if x.available.contains src then x.available else x.available ++ [src] })
/-- A source is lost: where it was the phase source in use, the servo goes to HOLDOVER (R378, R382). -/
def setUnavailable (s : State) (src : Nat) : State :=
  let used := phaseSource s == some src && (s.time.servo == .locked || s.time.servo == .acquiring)
  let s := modTime s (fun x => { x with available := x.available.filter (fun y => y != src) })
  if used then enterHoldover s else s

/-- PPS_IN_EDGE (R378, R390): an edge at network time now, `quarterNs` quarter ns into it, is the start of the second that TOD_NEXT
gave. -/
def execPpsInEdge (quarterNs : Int) (highLonger : Bool) (t : Time) (s : State) : Out :=
  timed s t (fun s =>
    let s := setAvailable (modTime s (fun x => { x with lastPps := some x.now, ppsInverted := x.ppsInverted || highLonger })) 2
    match s.time.todNext with
    | none => s
    | some sec =>
      let s := modTime s (fun x => { x with todNext := none })
      if phaseSource s = some 2 then measureOffset s (4 * ((s.time.now : Int) - (sec * 1000000000 : Nat)) + quarterNs) else s)

/-- PHASE_SOURCE_LOSS (R382): the phase source in use is lost. -/
def execPhaseSourceLoss (t : Time) (s : State) : Out :=
  timed s t (fun s =>
    match phaseSource s with
    | none => s
    | some src => setUnavailable s src)

/-- SERVO_LOCK (R382): the offset has stayed below LOCK_THRESHOLD for 10 s. -/
def execServoLock (t : Time) (s : State) : Out :=
  timed s t (fun s =>
    match s.time.servo, s.time.belowSince with
    | .acquiring, some b =>
      if b + 10000000000 ≤ s.time.now then modTime s (fun x => { x with servo := .locked, belowSince := none }) else s
    | _, _ => s)

/-- HOLDOVER_LIMIT_EXCEEDED (R385): the estimate exceeds HOLDOVER_LIMIT. -/
def execHoldoverLimitExceeded (t : Time) (s : State) : Out :=
  timed s t (fun s =>
    if s.time.servo = .holdover ∧ s.time.teExceeded = false
        ∧ rwVal s 0x1206 4 1100 < Config.holdoverError (freqSource s) (s.time.now - s.time.holdoverSince) then
      envFault (modTime s (fun x => { x with teExceeded := true }))
    else s)

/-! ## Triggers (R388 to R390) -/

/-- The record of trigger `n`, in force. -/
def trigRecord (s : State) (n : Nat) : BitVec 128 := BitVec.ofNat 128 (inForce s (0x1210 + n) 1 0)
def trMode (w : BitVec 128) : Nat := bitsOf w 127 125
def trCarrier (w : BitVec 128) : Nat := bitsOf w 123 119
def trA (w : BitVec 128) : Nat := bitsOf w 95 64
def trB (w : BitVec 128) : Nat := bitsOf w 63 32
def trC (w : BitVec 128) : Nat := bitsOf w 31 0

/-- PPS_OUT is high at `t` (R390). -/
def ppsHigh (s : State) (t : Time) : Bool := t % 1000000000 < rwVal s 0x120A 0 100000000

/-- The direction of symbol `k`, counted from the frame of system frame number 0, of a carrier (R426): 1 downlink, 2 uplink; an FDD
carrier always does both. -/
def symbolDir (s : State) (c k : Nat) : Nat :=
  let n := carObj s c 7 1 * 14
  if n = 0 then 0 else carObj s c 7 2 / 4 ^ (k % n) % 4

/-- The symbols of 20 ms of a carrier that go in direction `want`. -/
def symbolsIn (s : State) (c want : Nat) : List Bool :=
  (List.range (20 * 14 * 2 ^ carMu s c)).map (fun k => symbolDir s c k == want)

/-- The bursts of 20 ms, cyclically: first symbol and one past the last. -/
def burstsAux : Nat → List Bool → List Bool → Bool → List (Nat × Nat)
  | _, [], _, _ => []
  | k, b :: rest, whole, prev =>
    let more := burstsAux (k + 1) rest whole b
    if b && !prev then (k, k + (((b :: rest) ++ whole).takeWhile (fun x => x)).length) :: more else more
def bursts (xs : List Bool) : List (Nat × Nat) :=
  (burstsAux 0 xs xs (xs.getLastD false)).map (fun p => (p.1, min p.2 (p.1 + xs.length)))

/-- Mode 3 (R389): a burst of the trigger's carrier and direction, widened by its lead and lag, covers `t`. A carrier's ENABLE does not enter:
its pattern stands in the configuration whatever ENABLE holds, and an FDD carrier's bursts never end (log entry 220). -/
def burstHigh (s : State) (w : BitVec 128) (t : Time) : Bool :=
  let c := trCarrier w
  let mu := carMu s c
  let want := if bitOf w 118 then 2 else 1
  let here : Int := ((sfnAt s t % 2 * 10000000 + subframeAt s t * 1000000 + inSubframe s t : Nat) : Int)
  let ramp : Nat := if bitOf w 118 ∨ carField s c 2 ≠ 2 then 0
    else carField s c 13 * 1000000000 / (carField s c 12 * 15000 * 2 ^ mu)
  if carField s c 9 = 1 then true
  else
    let xs := symbolsIn s c want
    if xs.all (fun b => b) && !xs.isEmpty then true
    else (bursts xs).any (fun b =>
      let start : Int := (symbolTime mu b.1 : Nat) - signedOf 32 (trA w)
      let stop : Int := (symbolTime mu b.2 + ramp : Nat) + signedOf 32 (trB w)
      decide (start < stop) && (decide (20000000 ≤ stop - start) || decide ((here - start) % 20000000 < stop - start)))

/-- The output of trigger `n` is at its active level at `t` (R389). -/
def trigHigh (s : State) (n : Nat) (t : Time) : Bool :=
  let w := trigRecord s n
  match trMode w with
  | 1 =>
    let a := extend32 (trA w) (s.time.trigRef.getD n 0)
    s.time.trigRef.getD n 0 ≤ a && a ≤ t && t < a + trB w
  | 2 =>
    trA w ≠ 0 && decide (((t : Int) - (meridianOffset s : Nat) - (trC w : Nat)) % ((trA w : Nat) : Int) < ((trB w : Nat) : Int))
  | 3 => burstHigh s w t
  | 4 => ppsHigh s t
  | _ => false

/-- The level at the ball (R388, R389). -/
def trigBall (s : State) (n : Nat) (t : Time) : Bool := trigHigh s n t != bitOf (trigRecord s n) 124

def setTrigLevel (s : State) (n : Nat) : State :=
  modTime s (fun x => { x with trigLevel := lmod x.trigLevel n (fun _ => trigBall s n x.now) })

/-- TRIG_OUT_EDGE (R389): the output takes the level that its record gives it now. -/
def execTrigOutEdge (n : BitVec 3) (t : Time) (s : State) : Out := timed s t (fun s => setTrigLevel s n.toNat)

/-- PPS_OUT_EDGE (R390). -/
def execPpsOutEdge (t : Time) (s : State) : Out :=
  timed s t (fun s => modTime s (fun x => { x with ppsOut := ppsHigh s x.now }))

/-! ## Event inputs (R391) -/

/-- EVT_IN_EDGE (R391, R417): a pulse below 5 ns is ignored; an edge from the tracked level is captured if EDGE selects it. -/
def execEvtInEdge (n : BitVec 2) (level : Bool) (widthPs : Nat) (t : Time) (s : State) : Out :=
  timed s t (fun s =>
    let e := s.time.evt.getD n.toNat {}
    if widthPs < 5000 || e.level == level then s
    else
      let sel := rwVal s (0x1218 + n.toNat) 1 0
      let wanted := sel = 3 || (sel = 1 && level) || (sel = 2 && !level)
      let read := rwVal s (0x1218 + n.toNat) 3 0
      let e := { e with level := level }
      let e := if !wanted then e
        else if seqSub e.count read = 16 then { e with lost := (e.lost + 1) % 2 ^ 32 }
        else { e with ring := tset e.ring (e.count % 16) s.time.now, count := (e.count + 1) % 2 ^ 32 }
      modTime s (fun x => { x with evt := lmod x.evt n.toNat (fun _ => e) }))

/-! ## Commits at a Meridian (R435, R437) -/

/-- A pending commit takes effect at the Meridian `m`: never while the I/O die is out, and where its Meridian passed during a
recovery of that die not before 50 µs after the Dawn. -/
def commitDue (s : State) (m : Time) (c : Commit) : Bool :=
  let io := unitOf s (dieUnit 2)
  io.phase == .live && decide (c.target ≤ m) && (decide (io.dawnAt ≤ c.target) || decide (io.dawnAt + 50000 ≤ m))

/-- The triggers whose records a commit carries. -/
def commitTriggers (c : Commit) : List Nat := (List.range 8).filter (fun n => (tget c.vals (256 * (0x1210 + n) + 1)).isSome)

/-- One commit takes effect: every captured value at once. -/
def applyCommit (s : State) (c : Commit) : State :=
  let s := { s with obj := { s.obj with
    inForce := c.vals.foldl (fun t p => tset t p.1 p.2) s.obj.inForce, commitMeridian := s.time.now
    past := s.obj.past ++ [(s.time.now, c.vals.map (fun p => (p.1, tget s.obj.inForce p.1)))] } }
  let s := (commitTriggers c).foldl (fun s n =>
    let w := trigRecord s n
    let past := trMode w = 1 && trB w ≠ 0 && extend32 (trA w) s.time.now < s.time.now
    modTime s (fun x => { x with
      trigRef := lmod x.trigRef n (fun _ => x.now), trigMissed := lmod x.trigMissed n (fun b => b || past) })) s
  let s := (commitTriggers c).foldl setTrigLevel s
  timingEvent s 11 (dieUnit 2) c.mask.toNat

def applyCommits (s : State) : State :=
  let due := s.obj.commits.filter (commitDue s s.time.now)
  let rest := s.obj.commits.filter (fun c => !commitDue s s.time.now c)
  due.foldl applyCommit { s with obj := { s.obj with commits := rest } }

/-! ## Model swaps at a Meridian (R87 to R90) -/

/-- A converted commit makes the spare set the set in force: items whose slots start from now on use it; the retired set is the spare one
(R87, R90). -/
def swapModel (s : State) (w : ModelSwap) : State :=
  let g := (s.weights.gen + 1) % 2 ^ 32
  let m := s.time.now
  let s := { s with
    weights := { s.weights with
      inForce := s.weights.spare, spare := s.weights.inForce, gen := g, swaps := s.weights.swaps.filter (fun x => !(x.queue == w.queue && x.seq == w.seq)) }
    items := s.items.map (fun i =>
      if i.queue = w.queue ∧ i.seq = w.seq then
        { i with doneAt := some m, meridianUsed := m, genAfter := g, slipped := w.slipped }
      else if isSlotOp i.opcode ∧ m ≤ i.slotTime then { i with gen := g } else i) }
  timingEvent s 10 (dieUnit 2) g

/-- The swaps that claim this Meridian; one whose conversion is not ready slips. -/
def applySwaps (s : State) : State :=
  let due := s.weights.swaps.filter (fun w => w.target != 0 && w.target ≤ s.time.now)
  let s := due.foldl (fun s w =>
    match w.converted with
    | some c => if c + 50000 ≤ s.time.now then swapModel s w else s
    | none => s) s
  let late (w : ModelSwap) : Bool := w.target != 0 && decide (w.target ≤ s.time.now)
  if s.weights.swaps.any late then
    let ws := s.weights.swaps.map (fun w => if late w then { w with target := 0, slipped := true } else w)
    { s with weights := { s.weights with swaps := settleSwaps s [] ws } }
  else s

/-! ## Capture (R346 to R350) -/

/-- The payload of a Start record (R348). -/
def startPayload (s : State) : List Byte :=
  bytesLE 8 (firmwareVersion s) ++ bytesLE 8 s.life.eclipse.toNat ++ bytesLE 64 s.occ.digest.toNat ++ bytesLE 4 s.occ.number
    ++ bytesLE 4 (ofBool s.occ.locked)

/-- Capture starts with settings `c`: its ring is empty, and a Start record opens it. -/
def startCapture (s : State) (c : CapSet) : State :=
  let s := { s with cap := { s.cap with running := some c, written := 0, lens := [], lost := 0, lostAt := 0 } }
  capRecord s 7 0 s.time.now (startPayload s)

/-- Capture stops with an End record. -/
def stopCapture (s : State) : State :=
  let s := capRecord s 9 0 s.time.now []
  { s with cap := { s.cap with running := none } }

def applyCapture (s : State) : State :=
  let due := s.cap.changes.filter (fun c => c.1 ≤ s.time.now)
  let s := { s with cap := { s.cap with changes := s.cap.changes.filter (fun c => !(decide (c.1 ≤ s.time.now))) } }
  let s := due.foldl (fun s c => if c.2.mode = 0 then stopCapture s else startCapture s c.2) s
  { s with items := s.items.map (fun i =>
      if i.opcode = 7 ∧ i.phase = .accepted ∧ i.doneAt = none ∧ i.meridianUsed ≤ s.time.now then { i with doneAt := some s.time.now }
      else i) }

/-! ## Dies (R363) -/

/-- Slices return to a die whose Dawn lies at least 50 µs back. -/
def returnDies (s : State) : State :=
  { s with dies := s.dies.map (fun d =>
      match d.returnFrom with
      | some f => if f ≤ s.time.now then { d with out := false, returnFrom := none } else d
      | none => d) }

/-! ## Windows (R515, R536) -/

/-- The non-zero bytes of values of `n` bytes at offsets from `base`. -/
def windowCells (base : Nat) (vals : List (Nat × Nat × Nat)) : List Host.Cell :=
  vals.flatMap (fun v => ((bytesLE v.2.1 v.2.2).zipIdx.map (fun b => (base + v.1 + b.2, b.1))).filter (fun c => c.2 != 0))

/-- The window of `size` bytes from `base` holds exactly `cells`, all with valid check bytes. -/
def putWindow (s : State) (base size : Nat) (cells : List Host.Cell) : State :=
  { s with mem := { s.mem with
      cells := cells.foldl (fun m c => cput m c.1 c.2) (cwipe s.mem.cells base size)
      check := s.mem.check.filter (fun p => 32 * p.1 + 31 < base || base + size ≤ 32 * p.1) } }

def counterWindow : Nat := 0xD01FF0000
def envWindow : Nat := 0xD01FEF000

/-- Every counter record's index and its highest subindex. -/
def counterRecords : List (Nat × Nat) :=
  [(0x3800, 11), (0x3801, 11), (0x3802, 11), (0x3803, 11)] ++ (List.range 8).map (fun c => (0x3808 + c, 11))
    ++ (List.range 48).map (fun k => (0x3810 + k, 11)) ++ [(0x38F0, 6)]

/-- The values of the counter window: offset, bytes, value. -/
def counterVals (s : State) : List (Nat × Nat × Nat) :=
  counterRecords.flatMap (fun r => (List.range (r.2 + 1)).map (fun sub =>
    (256 * (r.1 - 0x3800) + 8 * sub, 8,
     match findObj s r.1 sub with
     | .entry e => e.val
     | _ => 0)))

/-- The counter window's image as bytes, for a snapshot (R405, R515). -/
def counterImage (s : State) : List Byte := cgets (windowCells 0 (counterVals s)) 0 65536

/-- The rails in the order of R536: nominal mV and tolerance in percent; core rails are judged about their AVS target. -/
def railNominal : List (Nat × Nat) :=
  [(750, 0), (750, 0), (1050, 3), (1050, 3), (400, 3), (400, 3), (750, 3), (850, 3), (900, 3), (900, 3), (1800, 3), (1800, 3),
   (1800, 5)]

/-- The status byte of rail `r` (R523, R536). -/
def railStatus (s : State) (r : Nat) : Nat :=
  let mv := s.pins.railMv.getD r 0
  let (under, over_) := if r < 2 then
      let a := s.pins.avs.getD r 0
      (decide (mv + 10 < a), decide (a + 10 < mv))
    else
      let n := railNominal.getD r (0, 0)
      (decide (mv * 100 < n.1 * (100 - n.2)), decide (n.1 * (100 + n.2) < mv * 100))
  ofBool under + 2 * ofBool over_ + 4 * ofBool (r < 2 && s.pins.avsNoResponse.getD r false)

/-- The throttle level in force on die `d` (R537): in locked mode the highest of any die (R43). -/
def throttleOf (s : State) (d : Nat) : Nat :=
  if s.occ.locked then s.pins.throttle.foldl max 0 else s.pins.throttle.getD d 0

/-- The values of the environment window; `cur` are the core currents that the regulators report. -/
def envVals (s : State) (cur : List Nat) : List (Nat × Nat × Nat) :=
  (List.range 40).map (fun i => (2 * i, 2, (s.pins.temps.getD i none).elim 0x8000 (fun v => patternOf 16 v)))
    ++ (List.range 3).map (fun d => (0x80 + 4 * d, 4,
        throttleOf s d + (validSensors s d).length * 256 + ((hottest s d).elim 0 (fun x => x.1)) * 65536))
    ++ (List.range 13).map (fun r => (0x100 + 8 * r, 8,
        s.pins.railMv.getD r 0 % 65536 + (if r < 2 then s.pins.avs.getD r 0 % 65536 else 0) * 2 ^ 16
          + cur.getD r 0 % 65536 * 2 ^ 32 + railStatus s r * 2 ^ 48))
    ++ (List.range 40).map (fun k => (0x200 + k, 1, ((tget s.pins.status k).getD 0).toNat))

/-- Both windows are written at a Meridian; the core currents are free values (log entry 3). -/
def writeWindows (s : State) : State :=
  if (unitOf s (dieUnit 2)).phase ≠ .live then s
  else
    let (c0, s) := s.free 65536
    let (c1, s) := s.free 65536
    let s := { s with pmu := { s.pmu with windowTime := s.time.now } }
    let s := putWindow s envWindow 0x1000 (windowCells envWindow (envVals s [c0, c1]))
    putWindow s counterWindow 0x10000 (windowCells counterWindow (counterVals s))

/-! ## Frames and publications (R439 to R443, R447 to R449) -/

/-- An object's value in a transport's byte order: TEXT and OCTETS are byte strings. -/
def valueBytes (who : Requester) (e : Entry) (view : Bool) : List Byte :=
  if e.ty = tText ∨ e.ty = tOctets then entryBytes e view else numBytes who e.size (if view then e.view else e.val)

/-- The bytes of one publication. -/
def publication (s : State) (b : Sub) : List Byte :=
  let vals := b.entries.flatMap (fun e =>
    match findObj s e.1.toNat e.2.toNat with
    | .entry x => valueBytes b.who x true
    | _ => [])
  respFrame b.who 6 0 0 0 b.tid (numBytes b.who 8 s.time.now ++ numBytes b.who 4 b.seq ++ vals)

/-- One subscription at a Meridian: due, it counts one more publication, and sends it where it can. -/
def publish (s : State) (i : Nat) : State :=
  match s.obj.subs[i]? with
  | none => s
  | some b =>
    if b.period = 0 || s.time.meridians % b.period ≠ 0 then s
    else
      let b := { b with seq := (b.seq + 1) % 2 ^ 32 }
      let s := { s with obj := { s.obj with subs := lmod s.obj.subs i (fun _ => b) } }
      if (unitOf s (dieUnit 2)).phase ≠ .live then s
      else
        let f := publication s b
        match b.who with
        | .pcie =>
          if canWrite s then
            s.emit (.hostWrite (b.ringAddr + b.seq % b.ringSlots * (ceilDiv f.length 64 * 64)) f)
          else s
        | .sideband _ => s.emit (.response b.who f)
        | .mgmt _ _ => if s.bus.mgmtUp then s.emit (.response b.who f) else s

/-! ## The Meridian (R386) -/

/-- A regulator that did not answer is asked again (R525). -/
def retryAvs (s : State) : State :=
  [0, 1].foldl (fun s d => if s.pins.avsNoResponse.getD d false then s.emit (.avs d (s.pins.avs.getD d 0)) else s) s

/-- A new subframe: the retry budgets start again (R458, R479). -/
def newSubframe (s : State) : State :=
  { s with
    fabric := { s.fabric with ports := s.fabric.ports.map (fun p => { p with replayed := 0, overBudget := false }) }
    pcie := { s.pcie with replayed := 0, overBudget := false }
    time := { s.time with
      meridians := s.time.meridians + 1, lastMeridian := s.time.now, sfn := sfnAt s s.time.now, subframe := subframeAt s s.time.now } }

/-- A route change that has waited long enough takes effect (R396). -/
def changeRoutes (s : State) : State :=
  match s.fabric.changeAt with
  | some m => if m ≤ s.time.now then applyRoutes s else s
  | none => s

/-- MERIDIAN (R386): commits, model swaps, capture, routes, dies, regulators, windows and publications, in this order. -/
def execMeridian (t : Time) (s : State) : Out :=
  timed s t (fun s =>
    if !isMeridian s s.time.now || (s.time.meridians ≠ 0 && s.time.lastMeridian = s.time.now) then s
    else
      let s := applyCapture (convertAll (applySwaps (applyCommits (newSubframe s))))
      let s := writeWindows (retryAvs (returnDies (changeRoutes s)))
      (List.range s.obj.subs.length).foldl publish s)

end Sys2Proof.Machine
end

