-- ==== Sys2Proof/Machine/Transmit.lean ====
section
/-! DEFINITION. Machine/Transmit.lean: what the downlink stages compute for an item (R77, R78, R80 to R83 of spec/02_slot_work.md). What the
image's programs fix is an opaque constant of Config (log entry 215); modulation and resource mapping are those of TS 38.211 (log
entry 8). -/

namespace Sys2Proof.Machine

/-! ## Stages 1 to 7: from transport blocks to layers (R77) -/

/-- The transport block of a record as the host's buffer holds it, least significant bit of a byte first. -/
def tbBits (i : Item) (a : BitVec 256) : List Bool :=
  let bs := (i.fetched.data.getD (aDataBuf a) []).drop (aDataOff a)
  (List.range (aTbs a)).map (bitAt bs)

/-- The scrambled codeword of a record (R77 stages 2 and 4). -/
def codeword (s : State) (i : Item) (a : BitVec 256) : List Bool :=
  let bits := encodeTb s (eCarrier i.fetched.entry) i.slotTime a (tbBits i a)
  (bits.zip (scrambling (aRnti a) (aNid a) bits.length)).map (fun x => x.1 != x.2)

/-- The constellation point of `qm` bits (R77 stage 5). -/
def modulated (qm : Nat) (bits : List Bool) : Cx :=
  let l := (List.range qm).foldl (fun n k => n + (if bits.getD k false then 2 ^ k else 0)) 0
  (((constellation (demapCode qm)).find? (fun p => p.1 == l)).map (fun p => (valRat p.2.1, valRat p.2.2))).getD (0, 0)

/-- The layers of a record at a resource element (R77 stages 6 and 7): data by the order of mapping, or the DMRS of its ports. -/
def layersAt (s : State) (i : Item) (a : BitVec 256) (sym sc : Nat) : List Cx :=
  let c := eCarrier i.fetched.entry
  let w := profileOf s c a i.slotTime
  let res := dataRes w a
  if res.contains (sym, sc) then
    let r := res.idxOf (sym, sc)
    let cw := codeword s i a
    (List.range (aLayers a)).map (fun l => modulated (aQm a) ((cw.drop ((r * aLayers a + l) * aQm a)).take (aQm a)))
  else if (dmSyms w a).contains sym && (aScs a).contains sc then
    let pos := ((dmGroups w a).find? (fun g => g.contains sym)).elim 0 (fun g => g.idxOf sym)
    (aPorts a).map (fun p => (pilotAt (dmSequence s c w a i.slotTime sym) w p pos sc).getD (0, 0))
  else []

/-! ## Stage 8: precoding (R78) -/

/-- The precoder of a record for a PRB: the host's matrices, or what the image makes of the stored channel; none without an estimate. -/
def precoderOf (s : State) (i : Item) (a : BitVec 256) (prb : Nat) : Option (List (List Cx)) :=
  if aPrecode a then
    let x := ctxOf s (aContext a)
    if x.hasEstimate then some (Config.storedPrecoder s.occ.digest (Config.blockEstimate x.block) a prb) else none
  else some (Config.hostPrecoder (i.fetched.data.getD (eAuxBuf i.fetched.entry) []) a prb)

/-- What a record puts on a stream at a resource element: zeros where its stored channel is missing (R78). -/
def recordAt (s : State) (i : Item) (a : BitVec 256) (stream sym sc : Nat) : Cx :=
  match precoderOf s i a (sc / 12) with
  | none => (0, 0)
  | some p => stageVal s 8 (cxDot (p.getD stream []) (layersAt s i a sym sc))

/-- The data records of a downlink item. -/
def dlRecords (i : Item) : List (BitVec 256) := i.fetched.allocs.filter (fun a => aKind a == 0 && aTbs a != 0)

/-- A stream's value at a resource element: every record's, and the control, reference and synchronisation signals. -/
def streamAt (s : State) (i : Item) (stream sym sc : Nat) : Cx :=
  let c := eCarrier i.fetched.entry
  let extra := (Config.controlGrid s.occ.digest c (carFieldAt s c 11 i.slotTime) (slotInFrame s c i.slotTime) i.fetched.allocs
    (i.fetched.data.getD (eCtrlBuf i.fetched.entry) [])).filter (fun x => x.1 == stream && x.2.1 == sym && x.2.2.1 == sc)
  cxAdd (cxSum ((dlRecords i).map (fun a => recordAt s i a stream sym sc))) (cxSum (extra.map (fun x => (x.2.2.2.1, x.2.2.2.2))))

/-- A stream's subcarriers of a symbol. -/
def streamRow (s : State) (i : Item) (stream sym : Nat) : List Cx :=
  (List.range (12 * carField s (eCarrier i.fetched.entry) 5)).map (streamAt s i stream sym)

/-! ## Stage 9: iFFT, cyclic prefix and ramps (R81 to R83) -/

/-- A symbol with its cyclic prefix of `cp` samples (R81). -/
def withPrefix (cp : Nat) (xs : List Cx) : List Cx := xs.drop (xs.length - cp) ++ xs

/-- The ramp-up of R82 on the first `w` samples. -/
def rampUp (w : Nat) (xs : List Cx) : List Cx := xs.zipIdx.map (fun x => if x.2 < w then cxScale (Config.rampAt w x.2) x.1 else x.1)

/-- The `w` samples after a symbol of a burst's end: its cyclic extension under the ramp-down (R82). -/
def rampDown (w : Nat) (xs : List Cx) : List Cx := (xs.take w).zipIdx.map (fun x => cxScale (Config.rampAt w (w - 1 - x.2)) x.1)

/-- Symbol `sym` of the slot at `t` carries downlink by the carrier's burst pattern (R83, R389, R426). -/
def dlSymbol (s : State) (c : Nat) (t : Time) (sym : Nat) : Bool :=
  let mu := carMu s c
  let n := (sfnAt s t % 2 * 10 + subframeAt s t) * 2 ^ mu + slotWithin mu (inSubframe s t)
  carField s c 9 == 1 || (symbolsIn s c 1).getD (14 * n + sym) false

/-- The samples of a stream's symbol in the time-domain profile (R81, R82), filled up with zeros to whole groups. -/
def symbolOut (s : State) (i : Item) (stream sym : Nat) : List Cx :=
  let c := eCarrier i.fetched.entry
  let t := i.slotTime
  let w := carFieldAt s c 13 t
  let prior := if sym = 0 then dlSymbol s c (t - 1) 13 else dlSymbol s c t (sym - 1)
  let wave (k : Nat) : List Cx := Config.ifftSymbol s.occ.digest (carMu s c) (carField s c 12) (streamRow s i stream k)
  let body := withPrefix (prefixSamples s c t sym) (wave sym)
  let n := symbolSamples s c t sym
  let xs := if dlSymbol s c t sym then (if prior then body else rampUp w body)
    else if 0 < sym && prior then rampDown w (wave (sym - 1)) else []
  (xs ++ List.replicate (n - xs.length) (0, 0)).take n

/-! ## What the fronthaul region sends (R77 stage 10) -/

/-- The parts of units `first` to `first` + `count` of a stream's symbol, as FP32 values: PRBs, or samples in the time-domain profile. -/
def sectionParts (s : State) (i : Item) (stream sym first count : Nat) : List Val :=
  let c := eCarrier i.fetched.entry
  let n := unitSamples s c
  let row := if timeDomain s c then symbolOut s i stream sym else streamRow s i stream sym
  ((row.drop (n * first)).take (n * count)).flatMap (fun x => [ratVal 8 x.1, ratVal 8 x.2])

end Sys2Proof.Machine
end

