-- ==== Sys2Proof/Machine/Fronthaul.lean ====
section
/-! DEFINITION. Machine/Fronthaul.lean: fronthaul frames, uplink sections and their windows, downlink sections, links, lasers, PTP and
ESMC (R60 to R63, R79 of spec/02_slot_work.md; R379 to R381 of spec/12_time_and_constellations.md; R463 to R472, R486, R487 of
spec/14_external_interfaces.md). -/

namespace Sys2Proof.Machine

/-! ## Frames (R465 to R467) -/

/-- The first lane of port `p` (R463), which captures name as their source. -/
def firstLane (s : State) (p : Nat) : Nat := p * (16 / fhPorts s)

/-- The port's own address. -/
def fhMac (p : Nat) : BitVec 48 := Config.mac p

/-- The port can receive: it exists under FH_MODE and is up. -/
def portUp (s : State) (p : Nat) : Bool := decide (p < fhPorts s) && (fhPort s p).up
/-- The port can send: no laser input that feeds it is over-powered (R464). -/
def portSends (s : State) (p : Nat) : Bool := portUp s p && !bitOf (fhPort s p).faults 7

/-- Size, tags, FCS and source address that R465 requires of every frame. -/
def frameOk (h : FhHead) : Bool :=
  h.fcsOk && h.tags.length ≤ 1 && decide (64 ≤ h.frame.length) && decide (h.frame.length ≤ 9216) && h.src != fhMac h.port

/-- A frame that carries eCPRI to the port: common header revision 1, C 0, a message type of R467. -/
def ecpriOk (s : State) (h : FhHead) (ty : Nat) : Bool :=
  portUp s h.port && frameOk h && h.dst == fhMac h.port && h.etherType == 0xAEFE && h.revision == 1 && !h.cBit
    && h.msgType.toNat == ty && (ty == 5 || h.eBit)

/-- A PTP frame of G.8275.1 to one of its addresses (R379). -/
def ptpOk (s : State) (h : FhHead) : Bool :=
  portUp s h.port && frameOk h && h.etherType == 0x88F7 && (h.dst == 0x011B19000000 || h.dst == 0x0180C200000E)

/-- A valid frame is counted, and its source becomes the port's peer; another address than before is recorded (R466). -/
def takeFrame (s : State) (h : FhHead) : State :=
  let old := (fhPort s h.port).peer
  let s := modFh s h.port (fun p => { p with rx := (p.rx + 1) % 2 ^ 64, peer := some (h.src, h.tags.head?) })
  if old.elim false (fun x => x.1 != h.src) then envFault s else s

/-! ## Compression (R471) -/

/-- Method and mantissa width of a UDCOMP value. -/
def compMethod (c : Nat) : Nat := c / 16
def compWidth (c : Nat) : Nat := if c % 16 = 0 then 16 else c % 16
/-- Bytes of one group of 12 samples. -/
def groupBytes (c : Nat) : Nat := if compMethod c = 0 then 48 else 1 + 3 * compWidth c

/-- The 24 parts of a received group. -/
def groupParts (c : Nat) (bs : List Byte) : List Int :=
  let w := compWidth c
  let e := if compMethod c = 0 then 0 else (bs.headD 0).toNat % 16
  let n := ofBytesBE ((if compMethod c = 0 then bs else bs.tail).take (3 * w))
  (List.range 24).map (fun j => signedOf w (n / 2 ^ (w * (23 - j))) * ((2 ^ e : Nat) : Int))

/-- Bits of the gain coefficient behind its binary point: R63 gives none, and +31.75 dB fits 16 bits with at most 10 (log entry 9). -/
def gainPoint : Nat := Config.gainPoint % 11

/-- The coefficient `c` lies at or below the exact factor 10^(g / 80) with `p` bits behind the point, plus a half. -/
def gainBelow (p : Nat) (g : Int) (c : Nat) : Bool :=
  decide ((2 * c - 1) ^ 80 * 10 ^ (-g).toNat ≤ 10 ^ g.toNat * 2 ^ (80 * (p + 1)))

/-- The highest coefficient that does, bit by bit from bit `n` − 1 down. -/
def gainBits (p : Nat) (g : Int) : Nat → Nat → Nat
  | 0, c => c
  | n + 1, c => gainBits p g n (if gainBelow p g (c + 2 ^ n) then c + 2 ^ n else c)

/-- The 16-bit coefficient nearest the factor of a gain in units of 0.25 dB (R63). -/
def gainCoeff (p : Nat) (g : Int) : Nat := gainBits p g 16 0

/-- A value after gain `g`, rounded to nearest even to whole units of the sample (R63 names no resolution; log entry 221). An infinity gives a
number beyond every format, NaN 0 (R180). -/
def gained (g : Int) : Val → Int
  | .fin neg m e => roundInt .rne neg (m * gainCoeff gainPoint g) (e - (gainPoint : Int))
  | .inf neg => if neg then -2 ^ 200 else 2 ^ 200
  | .nan => 0

/-- rne(x / 2^e). -/
def rneShift (e : Nat) (x : Int) : Int := roundInt .rne (x < 0) x.natAbs (-(e : Int))

/-- A group to send: its bytes, and whether a part saturated. -/
def compressGroup (c : Nat) (xs : List Int) : List Byte × Bool :=
  let w := compWidth c
  let pack (ms : List Int) : Nat := ms.foldl (fun n m => n * 2 ^ w + patternOf w m) 0
  if compMethod c = 0 then
    (bytesBE 48 (pack (xs.map (clampInt (-32768) 32767))), xs.any (fun x => decide (x < -32768) || decide (32767 < x)))
  else
    let lim : Int := (2 : Int) ^ (w - 1) - 1
    let fits (e : Nat) : Bool := xs.all (fun x => decide ((rneShift e x).natAbs ≤ lim.natAbs))
    let e := ((List.range 16).find? fits).getD 15
    (BitVec.ofNat 8 e :: bytesBE (3 * w) (pack (xs.map (fun x => clampInt (-lim) lim (rneShift e x)))), !fits e)

/-! ## Items of a slot -/

/-- The accepted items of a carrier, slot and opcode. -/
def isSlotItem (c : Nat) (slot : Time) (op : Nat) (i : Item) : Bool :=
  i.opcode == op && eCarrier i.fetched.entry == c && i.slotTime == slot && i.phase == .accepted

def modSlotItems (s : State) (c : Nat) (slot : Time) (op : Nat) (f : Item → Item) : State :=
  { s with items := s.items.map (fun i => if isSlotItem c slot op i then f i else i) }

/-! ## Receiving a section (R60, R470) -/

/-- The carrier and uplink stream that a port's eAxC ID is mapped to in a slot. -/
def mappedStream (s : State) (port : Nat) (eaxc : BitVec 16) (slot : Time) : Option (Nat × Nat) :=
  let enabled := (List.range 32).filter (fun c => carFieldAt s c 1 slot = 1)
  (enabled.flatMap (fun c => (List.range (streamsOf s c 0)).map (fun i => (c, i)))).find? (fun p =>
    streamPort s p.1 0 p.2 slot == port && streamEaxc s p.1 0 p.2 slot == eaxc.toNat)

/-- Part `j` of a row, from what has been received of it; `n` samples a unit. -/
def partOf (got : List (Nat × Nat × List Int)) (n j : Nat) : Int :=
  (got.find? (fun r => 2 * n * r.1 ≤ j && j < 2 * n * (r.1 + r.2.1))).elim 0 (fun r => r.2.2.getD (j - 2 * n * r.1) 0)

/-- Write the QB12 blocks that units `first` to `first + count` of a row touch, formed from all that the row has received, into the
grid and its mirror; whether one saturated. -/
def writeRow (s : State) (x : CSection) (stream first count : Nat) : State × Bool :=
  match gridOf s x.carrier (x.op == 3) with
  | none => (s, false)
  | some g =>
    let n := unitSamples s x.carrier
    let got := rowGot (symbolSections s x.carrier x.slot x.symbol) x
    let base := gridRow s g x.slot stream x.symbol
    let b0 := n * first / 16
    let bs := (List.range (ceilDiv (n * (first + count)) 16 - b0)).map (fun k => b0 + k)
    bs.foldl (fun (p : State × Bool) b =>
      let q := qbForm 10 ((List.range 32).map (fun j => ofInt (partOf got n (32 * b + j))))
      (busWrite p.1 (dieUnit 2) (base + 52 * b) q.1 true, p.2 || q.2)) (s, false)

/-- Every section that the symbol expects has been received. -/
def symbolDone (s : State) (c : Nat) (slot : Time) (sym : Nat) : Bool :=
  [1, 3, 4].all (fun op => missingRes s c slot sym op = 0)

def markComplete (s : State) (c : Nat) (slot : Time) (sym : Nat) : State :=
  if s.fh.complete.contains (c, slot, sym) then s
  else { s with fh := { s.fh with complete := s.fh.complete ++ [(c, slot, sym)] } }

/-- A section matched to `x` of stream `i` is received: decompressed, its gain applied, converted and written twice. -/
def takeSection (s : State) (x : CSection) (i first count : Nat) (payload : List Byte) : State :=
  let comp := carFieldAt s x.carrier 19 x.slot
  let g := signedOf 8 (carObjAt s x.carrier 1 (i + 1) x.slot)
  let groups := count * unitSamples s x.carrier / 12
  let parts := (List.range groups).flatMap (fun k =>
    (groupParts comp ((payload.drop (k * groupBytes comp)).take (groupBytes comp))).map (fun v => gained g (ofInt v)))
  let xs := s.fh.sections.map (fun y => if y = x then { y with got := y.got ++ [(first, count, parts)] } else y)
  let r := writeRow { s with fh := { s.fh with sections := xs } } x i first count
  let s := if r.2 then modSlotItems r.1 x.carrier x.slot x.op (fun j => { j with sat := true, satAll := true }) else r.1
  let s := countEvent s 0x3803 0x60 0 1
  if symbolDone s x.carrier x.slot x.symbol then markComplete s x.carrier x.slot x.symbol else s

/-- One received section (R470): the first condition that it fails discards it. -/
def receiveSection (port : Nat) (s : State) (sec : FhSection) : State :=
  match mappedStream s port sec.eaxc sec.slot with
  | none => countEvent s 0x3803 0x61 0 1
  | some (c, i) =>
    let whole := !timeDomain s c && sec.count == 0
    let first := if whole then 0 else sec.first
    let count := if whole then carField s c 5 else sec.count
    let n := count * unitSamples s c
    let comp := carFieldAt s c 19 sec.slot
    let fits (x : CSection) : Bool :=
      x.port == port && x.eaxc == sec.eaxc && x.sectionId == sec.sectionId && decide ((secRange s x).1 ≤ first)
        && decide (first + count ≤ (secRange s x).1 + (secRange s x).2)
    let xs := symbolSections s c sec.slot sec.symbol
    match xs.find? fits with
    | none => countEvent s 0x3803 0x62 0 1
    | some x =>
      let w := ulWindow s c sec.slot sec.symbol
      if n % 12 ≠ 0 || sec.payload.length < n / 12 * groupBytes comp then countEvent s 0x3803 0x62 0 1
      else if s.time.now < w.1 || w.2 < s.time.now then modFh s port (fun p => { p with late := (p.late + 1) % 2 ^ 64 })
      else if (List.range count).any (fun u => covered (rowGot xs x) (first + u)) then countEvent s 0x3803 0x63 0 1
      else takeSection s x i first count sec.payload

/-- The capture of a U-plane frame (R345, R348): the carriers selected are those of its sections. -/
def captureFrame (s : State) (h : FhHead) (secs : List FhSection) : State :=
  let wanted := s.cap.running.elim false (fun c => secs.any (fun x =>
    (mappedStream s h.port x.eaxc x.slot).elim false (fun p => bitOf c.carriers p.1)))
  if wanted then capRecord s 1 (firstLane s h.port) s.time.now h.frame else s

/-- A U-plane frame and its sections take effect. -/
def uplaneFrame (s : State) (h : FhHead) (secs : List FhSection) : State :=
  if ecpriOk s h 0 then secs.foldl (receiveSection h.port) (captureFrame (takeFrame s h) h secs) else s

/-- FH_UPLANE_RECEIVE (R60, R470); replay ignores and counts the fronthaul ports (R352). -/
def execFhUplaneReceive (h : FhHead) (secs : List FhSection) (t : Time) (s : State) : Out :=
  timed s t (fun s =>
    if s.occ.replayStatus = 1 then { s with occ := { s.occ with replayIgnored := s.occ.replayIgnored + 1 } }
    else uplaneFrame s h secs)

/-- FH_FRAME_DISCARD (R465): nothing changes. -/
def execFhFrameDiscard (_h : FhHead) (t : Time) (s : State) : Out := timed s t (fun s => s)

/-- ECPRI_DELAY_MEASUREMENT (R467): answered as a remote node; a response (action 2) and a request that a follow-up completes
(action 1) get no answer. -/
def execEcpriDelayMeasurement (h : FhHead) (measurementId : BitVec 8) (action : BitVec 8) (t : Time) (s : State) : Out :=
  timed s t (fun s =>
    if ecpriOk s h 5 then
      let s := takeFrame s h
      if action = 1 ∨ action = 2 ∨ !portSends s h.port then s
      else (modFh s h.port (fun p => { p with tx := (p.tx + 1) % 2 ^ 64 })).emit (.ecpriReply h.port measurementId s.time.now)
    else s)

/-- FH_WINDOW_CLOSE (R61): what the symbol still misses is erased. -/
def execFhWindowClose (carrier : BitVec 5) (slot : Time) (symbol : Nat) (t : Time) (s : State) : Out :=
  timed s t (fun s =>
    let c := carrier.toNat
    if s.time.now < (ulWindow s c slot symbol).2 || s.fh.complete.contains (c, slot, symbol) then s
    else
      let s1 := [1, 3, 4].foldl (fun s1 op =>
        modSlotItems s1 c slot op (fun i => { i with erased := i.erased + missingRes s c slot symbol op })) s
      let n := ([1, 3, 4].map (fun op => missingRes s c slot symbol op)).sum
      markComplete (countEvent s1 0x3803 0x64 0 n) c slot symbol)

/-! ## Downlink sections (R77, R79, R471) -/

/-- A range of a stream's symbol has been sent. -/
def sentUnit (s : State) (c : Nat) (slot : Time) (sym stream u : Nat) : Bool :=
  s.fh.dlSent.any (fun x => x.1 == c && x.2.1 == slot && x.2.2.1 == sym && x.2.2.2.1 == stream
    && x.2.2.2.2.1 ≤ u && u < x.2.2.2.2.1 + x.2.2.2.2.2)

/-- FH_DL_SECTION_SEND (R77 stage 10, R79): `count` PRBs, or samples in whole groups of 12, of an item that is not empty (R80). Inside its
transmit window, on a port that can send, the section goes out with its gain applied and compressed; otherwise it is not sent. -/
def execFhDlSectionSend (carrier : BitVec 5) (slot : Time) (symbol stream firstPrb count : Nat) (t : Time) (s : State) : Out :=
  timed s t (fun s =>
    let c := carrier.toNat
    let w := dlWindow s c slot symbol
    let port := streamPort s c 1 stream slot
    let ax := streamEaxc s c 1 stream slot
    match s.items.find? (isSlotItem c slot 2) with
    | none => s
    | some i =>
      let vs := sectionParts s i stream symbol firstPrb count
      if isEmptySlot i || streamsOf s c 1 ≤ stream || !portSends s port || s.time.now < w.1 || w.2 < s.time.now || vs.length % 24 ≠ 0 then s
      else
        let comp := carFieldAt s c 20 slot
        let g := signedOf 8 (carObjAt s c 2 (stream + 1) slot)
        let groups := (chunks 24 (vs.length / 24) (vs.map (gained g))).map (compressGroup comp)
        let n := if timeDomain s c then 12 * groups.length else groups.length
        let s := { s with fh := { s.fh with dlSent := s.fh.dlSent ++ [(c, slot, symbol, stream, firstPrb, n)] } }
        let s := if groups.any (fun p => p.2) || vs.contains .nan then
            modSlotItems s c slot 2 (fun i => { i with sat := true, satAll := true }) else s
        (modFh s port (fun p => nextSeqid p ax)).emit
          (.uplane port (BitVec.ofNat 16 ax) slot symbol firstPrb (groups.flatMap (fun p => p.1))))

/-- Sections of an item's runs in a symbol not wholly sent; an empty item sends none (R80). -/
def unsentOf (s : State) (c : Nat) (slot : Time) (sym : Nat) (i : Item) : Nat :=
  let runs := if isEmptySlot i then [] else (itemRuns s i).filter (fun r => r.sym ≤ sym && sym < r.sym + r.nsym)
  (runs.flatMap (fun r => (List.range (streamsOf s c 1)).filter (fun k =>
    let w := if timeDomain s c then (0, symbolSamples s c slot sym) else (r.first, r.count)
    (List.range w.2).any (fun u => !sentUnit s c slot sym k (w.1 + u))))).length

/-- FH_DL_WINDOW_CLOSE (R79): the sections not sent by now make their item LATE. -/
def execFhDlWindowClose (carrier : BitVec 5) (slot : Time) (symbol : Nat) (t : Time) (s : State) : Out :=
  timed s t (fun s =>
    let c := carrier.toNat
    if s.time.now < (dlWindow s c slot symbol).2 || s.fh.dlClosed.contains (c, slot, symbol) then s
    else
      let s1 := { s with fh := { s.fh with dlClosed := s.fh.dlClosed ++ [(c, slot, symbol)] } }
      modSlotItems s1 c slot 2 (fun i => { i with unsent := i.unsent + unsentOf s c slot symbol i }))

/-! ## Links and light (R463, R464, R486, R487) -/

/-- A condition bit of FH_FAULTS is set or cleared; a change to 1 of bits 0, 1 and 5 to 10 is recorded (R486). -/
def fhCondition (s : State) (p bit : Nat) (on : Bool) : State :=
  let was := bitOf (fhPort s p).faults bit
  let m : BitVec 16 := BitVec.ofNat 16 (2 ^ bit)
  let s := modFh s p (fun x => { x with faults := if on then x.faults ||| m else x.faults &&& ~~~m })
  if on && !was && (bit ≤ 1 || 5 ≤ bit) then envFault s else s

/-- A port goes down; SyncE from it is lost (R380). -/
def portDown (s : State) (p : Nat) : State :=
  let s := modFh s p (fun x => { x with up := false })
  if rwVal s 0x1203 5 0 = p then setUnavailable s 4 else s

/-- The ports whose lanes lie in the same optical engine. -/
def enginePorts (s : State) (p : Nat) : List Nat :=
  (List.range (fhPorts s)).filter (fun q => q != p && firstLane s q / 8 == firstLane s p / 8)

/-- FH_LINK_DOWN (R470, R486): without a signal LOS is set, and SWAP_SUSPECTED while the optical engine's other lanes receive light. -/
def execFhLinkDown (port : Nat) (noSignal : Bool) (t : Time) (s : State) : Out :=
  timed s t (fun s =>
    if fhPorts s ≤ port then s
    else
      let s := portDown s port
      if noSignal then
        let lit := !(enginePorts s port).isEmpty && (enginePorts s port).all (fun q => !bitOf (fhPort s q).faults 0)
        fhCondition (fhCondition s port 0 true) port 1 lit
      else s)

/-- FH_LINK_UP (R487): the port trains again unless a laser or receive condition keeps it down. -/
def execFhLinkUp (port : Nat) (misordered : Bool) (t : Time) (s : State) : Out :=
  timed s t (fun s =>
    let f := (fhPort s port).faults
    if fhPorts s ≤ port || bitOf f 6 || bitOf f 7 || bitOf f 8 then s
    else
      let s := fhCondition (fhCondition (fhCondition s port 0 false) port 1 false) port 2 misordered
      modFh s port (fun x => { x with up := true }))

/-- The next state of a laser input at a power in mdBm, with 1 dB of hysteresis (R464). -/
def laserNext (was : Nat) (mdbm : Int) : Nat :=
  if mdbm < 12000 ∨ (was = 1 ∧ mdbm < 13000) then 1
  else if 21000 < mdbm ∨ (was = 2 ∧ 20000 < mdbm) then 2
  else 0

/-- The ports that a laser input feeds. -/
def laserPorts (s : State) (input : Nat) : List Nat := (List.range (fhPorts s)).filter (fun p => firstLane s p / 4 == input)

/-- LASER_INPUT_CHANGE (R464): without light the ports go down; over-powered, the modulators are shut off. -/
def execLaserInputChange (input : BitVec 2) (milliDbm : Int) (t : Time) (s : State) : Out :=
  timed s t (fun s =>
    let i := input.toNat
    let x := laserNext (s.fh.lasers.getD i 0) milliDbm
    let s := { s with fh := { s.fh with lasers := lmod s.fh.lasers i (fun _ => x) } }
    (laserPorts s i).foldl (fun s p =>
      let s := fhCondition (fhCondition s p 6 (x == 1)) p 7 (x == 2)
      if x = 1 then portDown s p else s) s)

/-- RX_OVER_POWER (R486, R487): above +5 dBm the port is down while the condition lasts. -/
def execRxOverPower (port : Nat) (milliDbm : Int) (t : Time) (s : State) : Out :=
  timed s t (fun s =>
    if fhPorts s ≤ port then s
    else if 5000 < milliDbm then portDown (fhCondition s port 8 true) port
    else fhCondition s port 8 false)

/-! ## PTP and ESMC (R378 to R381) -/

/-- PORT_ASYMMETRY of a port, in ns; 16 is the management port. -/
def asymmetryOf (s : State) (p : Nat) : Int := signedOf 32 (rwVal s 0x1204 (p + 1) 0)

/-- The slave port: a fronthaul port under G.8275.1, the management port under G.8275.2. -/
def isSlave (s : State) (p : Nat) : Bool := rwVal s 0x1203 1 0 == p && rwVal s 0x1203 2 1 == (if p = 16 then 2 else 1)

/-- A phase measurement on the slave port: the source is available, and measured if it is the phase source in use (R378);
a replay ignores PTP (R352). -/
def ptpMeasure (s : State) (p : Nat) (q : Int) : State :=
  if !isSlave s p || s.occ.replayStatus = 1 then s
  else
    let s := setAvailable s 1
    if phaseSource s = some 1 then measureOffset s (q + 4 * asymmetryOf s p) else s

/-- PTP_FRAME_RECEIVE (R379, R381): `quarterNs` is the offset that the frame's exchange measured, in quarter ns. -/
def execPtpFrameReceive (h : FhHead) (mgmtPort : Bool) (quarterNs : Int) (t : Time) (s : State) : Out :=
  timed s t (fun s =>
    if mgmtPort then (if s.bus.mgmtUp then ptpMeasure s 16 quarterNs else s)
    else if ptpOk s h then ptpMeasure (takeFrame s h) h.port quarterNs
    else s)

/-- ESMC_MESSAGE (R380): QL-SEC (0xB) and worse, DNU (0xF) among them, make SyncE unavailable. -/
def execEsmcMessage (port : Nat) (ql : BitVec 4) (t : Time) (s : State) : Out :=
  timed s t (fun s =>
    if !portUp s port || rwVal s 0x1203 5 0 ≠ port then s
    else if 0xB ≤ ql.toNat then setUnavailable s 4
    else setAvailable s 4)

/-- The device sends PTP messages on a port: Delay_Req as slave, Sync and Announce on the other fronthaul ports of a T-BC. -/
def ptpSends (s : State) (p : Nat) : Bool :=
  if p = 16 then s.bus.mgmtUp && isSlave s 16
  else portSends s p && (isSlave s p || (rwVal s 0x1203 4 0 == 1 && rwVal s 0x1203 1 0 != p))

/-- PTP_MESSAGE_TRANSMIT (R379). -/
def execPtpMessageTransmit (port : Nat) (t : Time) (s : State) : Out :=
  timed s t (fun s =>
    if ptpSends s port then (modFh s port (fun p => { p with tx := (p.tx + 1) % 2 ^ 64 })).emit (.ptp port) else s)

/-- ESMC_TRANSMIT (R380): on every port that sends; the quality level is a free value (log entry 3). -/
def execEsmcTransmit (t : Time) (s : State) : Out :=
  timed s t (fun s =>
    let (ql, s) := s.free 16
    ((List.range (fhPorts s)).filter (portSends s)).foldl (fun s p =>
      (modFh s p (fun x => { x with tx := (x.tx + 1) % 2 ^ 64 })).emit (.esmc p (BitVec.ofNat 4 ql))) s)

end Sys2Proof.Machine
end

