-- ==== Sys2Proof/Machine/Matrix.lean ====
section
/-! DEFINITION. Machine/Matrix.lean: the matrix arrays (spec/03_matrix_arrays.md) and the window generator
(R153 to R158 of spec/05_grid_operators.md). -/

namespace Sys2Proof.Machine

/-- The unit address of array `i` of core `k`. -/
def maUnit (k i : Nat) : UAddr := coreEng k 0 i

/-- The arrays that the mask names, ascending (R113). -/
def maArrays (c : MatCmd) : List Nat := (List.range 4).filter (fun i => bitOf c.arrays i)

/-- The accumulator format of a held operand format (R96). -/
def accFmt (f : Nat) : TileFmt := if isInt f then .int32 else .fp32

/-- The operand pairs of R96. -/
def maPairOk (cplx : Bool) (s t : Nat) : Bool :=
  (s == 2 && t == 2) || (s == 1 && t == 1 && !cplx) || (s == 3 && t == 3)
    || ((s == 4 || s == 5) && (t == 4 || t == 5)) || (s == 6 && t == 6) || (s == 7 && t == 7)
    || (cplx && (s == 6 || s == 7) && isQB t)

/-- Rows and columns of the held block (R96, R102). -/
def maDepth (f : Nat) (cplx : Bool) : Nat := if cplx then 32 else if f = 1 then 128 else 64
def maWidth (cplx : Bool) : Nat := if cplx then 32 else 64

/-- The issue interval I (R96). -/
def maInterval (f : Nat) : Nat := if f = 3 ∨ f = 6 ∨ f = 7 then 4 else 1

/-- A count of 0 completes the command at once (R117). -/
def maZero (c : MatCmd) : Bool :=
  c.arrays == 0 ||
    (match c.opcode.toNat with
     | 0 => true
     | 1 => c.depth == 0 || c.cols == 0
     | 2 => c.rows == 0 || c.depth == 0 || (c.dataflow == 2 && c.cols == 0)
     | _ => c.rows == 0)

/-- The fields of a command by themselves (R96, R105, R109, R113, R115): a reserved code is refused whatever the opcode. -/
def maFieldsOk (c : MatCmd) : Bool :=
  let cx := c.cplx == 1
  let s := c.fmtS.toNat
  let t := c.fmtT.toNat
  let tiles := c.accTile.toNat + ceilDiv c.rows.toNat 64 ≤ 8
  c.rsvd == 0 && c.opcode.toNat ≤ 3 && s ≤ 10 && t ≤ 10 && c.op != 3 &&
    (match c.opcode.toNat with
     | 0 => true
     | 1 => 1 ≤ s && s ≤ 7 && !(cx && s == 1) && c.depth.toNat ≤ maDepth s cx && c.cols.toNat ≤ maWidth cx
     | 2 =>
       maPairOk cx s t &&
         (if c.dataflow = 2 then c.op == 0 && c.rows.toNat ≤ 64 && c.cols.toNat ≤ maWidth cx
          else c.dataflow != 3 && !(c.op == 2 && !cx) && !(c.op != 0 && s == 1) && !(c.dataflow == 1 && cx)
            && c.rows.toNat ≤ 512 && c.depth.toNat ≤ maDepth s cx && tiles)
     | _ => c.rows.toNat ≤ 512 && tiles)

/-! ## The window generator (R153 to R156) -/

/-- The command is a PASS in WS. -/
def maWs (c : MatCmd) : Bool := c.opcode == 2 && c.dataflow == 0

/-- The window entry that binds the step at place `step` of the lists of core `k`; positions count from 1 (R153; log entry 212). -/
def windowFor (s : State) (k step : Nat) : Option Nat :=
  let ws := (coreOf s k).windows
  (List.range ws.length).find? (fun i =>
    match ws[i]? with
    | some w => w.desc.stepFirst != 0 && decide (w.desc.stepFirst.toNat ≤ step + 1) && decide (step + 1 ≤ w.desc.stepLast.toNat)
    | none => false)

/-- The matrix command at place `n` of a list. -/
def maCmdAt (l : List AStep) (n : Nat) : Option MatCmd :=
  (l[n]?).bind (fun st => match st.cmd with
    | .ma w => some (matCmdOfWord w)
    | _ => none)

/-- The bound passes at place `n` of the four lists of a core: a command of several arrays stands in each of their lists and counts once
(R116, R153). -/
def boundAt (lists : List (List AStep)) (n : Nat) : List MatCmd :=
  (List.range 4).filterMap (fun a =>
    (maCmdAt (lists.getD a []) n).filter (fun c => maWs c && ((maArrays c).head? == some a || c.arrays == 0)))

/-- The bound passes of a descriptor in step-list order, those at places from `first` to `last − 1`. -/
def boundPasses (lists : List (List AStep)) (first last : Nat) : List MatCmd :=
  (List.range (last - first)).flatMap (fun i => boundAt lists (first + i))

/-- The walk counters of an entry after the bound passes `cs` (R155). -/
def walkAfter (d : Window) (cs : List MatCmd) : WinSt :=
  cs.foldl (fun w c => walkNext w c.rows.toNat (maArrays c).length) { desc := d }

/-- The four matrix lists of the slice that core `k` runs. -/
def maLists (s : State) (k : Nat) : List (List AStep) := (List.range 4).map (fun a => stepListOf s (coreEng k 6 0) (maUnit k a))

/-- The window of a PASS in WS that is bound, its counters those of its place in step-list order (R153, R155). -/
def maBound (s : State) (k step : Nat) (c : MatCmd) : Option WinSt :=
  if maWs c then
    ((windowFor s k step).bind (fun i => (coreOf s k).windows[i]?)).map (fun w =>
      let ls := maLists s k
      let here := (boundAt ls step).takeWhile (fun x => (maArrays x).head? != (maArrays c).head?)
      walkAfter w.desc (boundPasses ls (w.desc.stepFirst.toNat - 1) step ++ here))
  else none

/-- The generator's counters stand at those of the bound pass that starts. -/
def setWalk (s : State) (k step : Nat) (w : Option WinSt) : State :=
  match w, windowFor s k step with
  | some w, some i => modCore s k (fun x => { x with windows := lmod x.windows i (fun _ => w) })
  | _, _ => s

/-- The address, in bytes of core memory, of streamed row `r` of array `i`, the `j`-th that the mask names: none for a zero
row (R104, R155, R156). -/
def maRowAddr (w : Option WinSt) (c : MatCmd) (i j r : Nat) : Option Nat :=
  match w with
  | none => some (64 * (c.tAddr.toNat + i * c.tStep.toNat + r * c.tPitch.toNat))
  | some w =>
    (gridSource (windowX w.desc) (windowY w.desc) (w.desc.padMode == 1) (w.q + j * c.rows.toNat + r) w.ty w.tx).map
      (fun p => 64 * (c.tAddr.toNat + w.g * w.desc.groupPitch.toNat + p.1 * w.desc.linePitch.toNat + p.2 * c.tPitch.toNat))

/-- Every operand row lies within the 6 MiB of core memory (R115, R157). -/
def maReadsOk (w : Option WinSt) (c : MatCmd) : Bool :=
  let cx := c.cplx == 1
  let sEnd := extent c.sAddr.toNat c.sPitch.toNat c.depth.toNat (rowBytes c.fmtS.toNat cx c.cols.toNat)
  match c.opcode.toNat with
  | 1 => sEnd ≤ coreBytes
  | 2 =>
    if c.dataflow = 2 then
      sEnd ≤ coreBytes && (maArrays c).all (fun i =>
        extent (c.tAddr.toNat + i * c.tStep.toNat) c.tPitch.toNat c.depth.toNat (rowBytes c.fmtT.toNat cx c.rows.toNat) ≤ coreBytes)
    else
      let n := rowBytes c.fmtT.toNat cx c.depth.toNat
      c.depth == 0 || (maArrays c).zipIdx.all (fun (i, j) =>
        (List.range c.rows.toNat).all (fun r => (maRowAddr w c i j r).all (fun a => a + n ≤ coreBytes)))
  | _ => true

/-- A PASS in WS or IS names the format and mode of the block held in array `m` (R114). -/
def maHeldOk (c : MatCmd) (m : MaSt) : Bool :=
  c.opcode != 2 || c.dataflow == 2 || (m.held.fmt == c.fmtS && m.held.cplx == (c.cplx == 1))

/-- A pass with ACC = 1 meets tiles of its accumulator format and, as R106 lets only ACC = 0 change it, of its complex flag
(R114); a tile that no pass has written since Dawn takes the pass's own. -/
def maTilesOk (c : MatCmd) (m : MaSt) : Bool :=
  let used := if c.dataflow = 2 then 1 else ceilDiv c.rows.toNat 64
  c.opcode != 2 || c.acc == 0 || (List.range used).all (fun t =>
    let x := m.tiles.getD (c.accTile.toNat + t) {}
    x.fmt == .none || (x.fmt == accFmt c.fmtS.toNat && x.cplx == (c.cplx == 1)))

/-! ## Arithmetic (R98 to R100) -/

/-- One addition of an accumulator: INT32 saturates, FP32 rounds once (R98, R101). -/
def accRound (fmt : TileFmt) (v : Val) : Sat Val :=
  match fmt, v with
  | .int32, .fin s m e =>
    let i := roundInt .rtz s m e
    let c := clampInt (-2147483648) 2147483647 i
    (ofInt c, if c = i then 0 else 1)
  | _, v => satB (arith 8 v)

/-- The 32-bit word of an accumulator value. -/
def accWord (fmt : TileFmt) (v : Val) : BitVec 32 :=
  match fmt, v with
  | .int32, .fin s m e => BitVec.ofNat 32 (patternOf 32 (roundInt .rtz s m e))
  | _, v => BitVec.ofNat 32 (convFloat 8 .rne v).1

/-- One multiply-accumulate (R98, R99): `a` streamed or own, `b` held or shared. -/
def macStep (fmt : TileFmt) (cplx : Bool) (acc a b : Elem) : Sat Elem :=
  if cplx then
    let r1 := accRound fmt (acc.1.add (a.1.mul b.1))
    let r2 := accRound fmt (r1.1.add (a.2.mul b.2).neg)
    let i1 := accRound fmt (acc.2.add (a.1.mul b.2))
    let i2 := accRound fmt (i1.1.add (a.2.mul b.1))
    ((r2.1, i2.1), r1.2 + r2.2 + i1.2 + i2.2)
  else
    let r := accRound fmt (acc.1.add (a.1.mul b.1))
    ((r.1, zeroVal), r.2)

/-- The sum of products in ascending k (R99). -/
def macLine (fmt : TileFmt) (cplx : Bool) : Elem → List (Elem × Elem) → Sat Elem
  | acc, [] => (acc, 0)
  | acc, p :: t =>
    let r := macStep fmt cplx acc p.1 p.2
    let q := macLine fmt cplx r.1 t
    (q.1, r.2 + q.2)

/-- The value an accumulator starts from with ACC = 0 (R99). -/
def accStart (fmt : TileFmt) : Elem :=
  match fmt with
  | .int32 => (zeroVal, zeroVal)
  | _ => (negZero, negZero)

/-- Entry (i, j) of the held block (R92, R103). -/
def heldAt (h : HeldBlock) (i j : Nat) : Elem :=
  match (h.vals[i]?).bind (fun row => row[j]?) with
  | some p => (elemVal h.fmt.toNat p.1.toNat, elemVal h.fmt.toNat p.2.toNat)
  | none => zeroElem

/-- Entry (i, j) of the held block as OP reads it (R109). -/
def heldRead (h : HeldBlock) (op i j : Nat) : Elem :=
  if op = 0 then heldAt h i j
  else
    let e := heldAt h j i
    if op = 2 then (e.1, e.2.neg) else e

/-! ## Tiles -/

/-- The key of value (r, j), part `p`, of a tile. -/
def tileKey (cplx : Bool) (r j p : Nat) : Nat := if cplx then 64 * r + 2 * j + p else 64 * r + j

/-- Value (r, j) of a tile as a pass of the given mode meets it. -/
def tileAt (t : Tile) (cplx : Bool) (r j : Nat) : Elem :=
  let at_ (p : Nat) : Val := accVal t.fmt ((tget t.vals (tileKey cplx r j p)).getD 0)
  (at_ 0, if cplx then at_ 1 else zeroVal)

/-- A word of a tile; a zero word is unlisted. -/
def putWord (t : Tbl (BitVec 32)) (key : Nat) (w : BitVec 32) : Tbl (BitVec 32) := if w = 0 then tdel t key else tset t key w

/-- A tile before a pass writes it (R106, R114): a pass with ACC = 0 of another format or mode zeroes it. -/
def tileFor (c : MatCmd) (t : Tile) : Tile :=
  let f := accFmt c.fmtS.toNat
  let cx := c.cplx == 1
  if t.fmt = .none ∨ (c.acc = 0 ∧ (t.fmt ≠ f ∨ t.cplx ≠ cx)) then { fmt := f, cplx := cx, vals := [] } else t

/-- Write value (r, j). -/
def tilePut (t : Tile) (cplx : Bool) (r j : Nat) (e : Elem) : Tile :=
  let v := putWord t.vals (tileKey cplx r j 0) (accWord t.fmt e.1)
  { t with vals := if cplx then putWord v (tileKey cplx r j 1) (accWord t.fmt e.2) else v }

/-- The value that a pass adds to (R99). -/
def passStart (c : MatCmd) (t : Tile) (r j : Nat) : Elem :=
  if c.acc = 1 then tileAt t (c.cplx == 1) r j else accStart t.fmt

/-- The results of a set of rows written to a tile: `res` lists (row, column, products); a count of saturations is kept. -/
def tileRun (c : MatCmd) (t : Tile) (cells : List (Nat × Nat × List (Elem × Elem))) : Tile × Nat :=
  let t0 := tileFor c t
  cells.foldl (fun acc p =>
    let r := macLine t0.fmt (c.cplx == 1) (passStart c t0 p.1 p.2.1) p.2.2
    (tilePut acc.1 (c.cplx == 1) p.1 p.2.1 r.1, acc.2 + r.2)) (t0, 0)

/-! ## Memory operands -/

/-- A row of core memory read for the arrays. -/
def maRead (s : State) (k addr n : Nat) : Got := readLocal s (coreBase s k + addr) n

/-- Elements of a row as the grid takes them, zeros beyond (R104). -/
def padTo (n : Nat) (es : List Elem) : List Elem := es ++ List.replicate (n - es.length) zeroElem

/-- A tile-queue slot reserved for tile `t` of array `i` (R119): no row is written yet. -/
def reserveSlot (s : State) (k i t : Nat) : State :=
  modCore s k (fun x => { x with tq := x.tq ++
    [{ array := i, tile := t, fmt := .none, cplx := false, valid := 0, written := 0, vals := [] }] })

/-- The first slot reserved for a tile and not written is filled. -/
def fillFirst (i t : Nat) (v : Slot) : List Slot → List Slot
  | [] => []
  | x :: rest => if x.array = i ∧ x.tile = t ∧ x.written = 0 then v :: rest else x :: fillFirst i t v rest

/-- The slot reserved for tile `t` of array `i` is filled from the tile, `valid` rows of it (R118, R119). -/
def pushSlot (s : State) (k i t valid : Nat) : State :=
  let tile := (((coreOf s k).arrays.getD i {}).tiles).getD t {}
  let slot : Slot := { array := i, tile := t, fmt := (if tile.fmt = .none then .fp32 else tile.fmt), cplx := tile.cplx,
                       valid := valid, written := valid, vals := tile.vals }
  modCore s k (fun x => { x with tq := fillFirst i t slot x.tq })

def setTile (s : State) (k i t : Nat) (tile : Tile) : State :=
  modCore s k (fun x => { x with arrays := lmod x.arrays i (fun a => { a with tiles := lmod a.tiles t (fun _ => tile) }) })

/-! ## Errors in the held-operand buffer and the accumulator store (R92, R121; log entry 47) -/

/-- The held-operand buffer is codewords 0 to 255, rows `r` of tile `t` eight codewords each from 256 + 512 t. -/
def heldWords : Nat × Nat := (0, 256)
def tileWords (t first rows : Nat) : Nat × Nat := (256 + 512 * t + 8 * first, 8 * rows)

/-- What an array read of `n` codewords from `lo` stops with. -/
def errGot (s : State) (u : UAddr) (p : Nat × Nat) : Option Got :=
  if errBad s u p.1 p.2 then some { bytes := [], poisoned := false, uncorrectable := true, at_ := 0 } else none

/-- The tile rows, first and number, that a WS or IS pass addresses, and whether it reads them: it does where it adds to them, or where it
leaves some of their values. -/
def passRows (c : MatCmd) (h : HeldBlock) (rows : Nat) (fresh : Bool) : Nat × Bool :=
  let out := if c.op = 0 then h.cols else h.depth
  if c.dataflow = 1 then (out, c.acc == 1 || !fresh)
  else (rows, c.acc == 1 || (!fresh && decide (out < maWidth (c.cplx == 1))))

/-! ## The commands on one array -/

/-- The rows that the reads of a command found, counted as reads of core memory (R272). -/
def countReads (s : State) (k n : Nat) (addrs : List Nat) : State :=
  addrs.foldl (fun s a => countRead s (coreBase s k + a) n) s

/-- LOAD on the arrays `live` (R93, R103): one fetch, written to each. -/
def maLoadRun (s : State) (k : Nat) (c : MatCmd) (live : List Nat) : State × List Nat :=
  let cx := c.cplx == 1
  let f := c.fmtS.toNat
  let n := rowBytes f cx c.cols.toNat
  let addrs := (List.range c.depth.toNat).map (fun r => 64 * (c.sAddr.toNat + r * c.sPitch.toNat))
  let gots := addrs.map (fun a => maRead s k a n)
  match badRead gots with
  | some g => (live.foldl (fun s i => engineFault s (maUnit k i) (badCause g) g.at_) s, [])
  | none =>
    let w := BitVec.ofNat 16
    let vals := gots.map (fun g => (List.range c.cols.toNat).map (fun j =>
      if cx then (w (elemAt f g.bytes (2 * j)), w (elemAt f g.bytes (2 * j + 1))) else (w (elemAt f g.bytes j), (0 : BitVec 16))))
    let h : HeldBlock := { fmt := c.fmtS, cplx := cx, depth := c.depth.toNat, cols := c.cols.toNat, vals := vals }
    (live.foldl (fun s i =>
      let s := clearErrs (modCore s k (fun x => { x with arrays := lmod x.arrays i (fun a => { a with held := h }) })) (maUnit k i)
        heldWords.1 heldWords.2
      countUnit s (maUnit k i) 0x02 64) (countReads s k n addrs),
      live)

/-- A zero row as it streams: +0 in every element, a zero block in QB (R152, R156). -/
def zeroRow (f : Nat) (cplx : Bool) (n : Nat) : List Byte :=
  if isQB f then (List.replicate (ceilDiv n 16) (bytesLE (qbBytes f) (2 ^ 23))).flatten else List.replicate (rowBytes f cplx n) 0

/-- Tile `ti` (counted from ACC_TILE) of a WS or IS pass on array `i`, the `j`-th named: none when an operand read is bad,
and then nothing of this tile is written (log entry 213). -/
def maPassTile (s : State) (k : Nat) (c : MatCmd) (w : Option WinSt) (ti i j : Nat) : Except Got (State × Nat) :=
  let cx := c.cplx == 1
  let K := maDepth c.fmtS.toNat cx
  let f := c.fmtT.toNat
  let n := rowBytes f cx c.depth.toNat
  let u := maUnit k i
  let rows := (List.range c.rows.toNat).filter (fun r => r / 64 = ti)
  let addrs := rows.map (maRowAddr w c i j)
  let a := (coreOf s k).arrays.getD i {}
  let tno := c.accTile.toNat + ti
  let old := a.tiles.getD tno {}
  let fresh := decide (tileFor c old ≠ old)
  let pr := passRows c a.held rows.length fresh
  let words := tileWords tno 0 pr.1
  match badRead ((addrs.filterMap (fun x => x)).map (fun x => maRead s k x n)),
        (errGot s u heldWords).or (if pr.2 then errGot s u words else none) with
  | some g, _ => .error g
  | none, some g => .error g
  | none, none =>
    let st := stream s u (addrs.map (fun x => x.elim (zeroRow f cx c.depth.toNat) (fun x => (maRead s k x n).bytes)))
    let s := countReads (countErrs st.2 u heldWords.1 heldWords.2) k n (addrs.filterMap (fun x => x))
    let s := if pr.2 then countErrs s u words.1 words.2 else s
    let op := c.op.toNat
    let width := if op = 0 then a.held.cols else a.held.depth
    let cols := (List.range width).map (fun j => (List.range K).map (fun x => heldRead a.held op x j))
    let cells := (rows.zip st.1).flatMap (fun (r, bs) =>
      let es := padTo K (rowElems f cx bs c.depth.toNat)
      cols.zipIdx.map (fun (col, j) =>
        if c.dataflow = 1 then (j, r % 64, es.zip col) else (r % 64, j, es.zip col)))
    let res := tileRun c old cells
    let s := setSat (setTile s k i tno res.1) k u 0x04 res.2
    let s := clearErrs s u words.1 (if fresh then 512 else words.2)
    let valid := if c.dataflow = 1 then width else rows.length
    .ok (if c.emit = 1 then pushSlot s k i tno valid else s, valid)

/-- The shadow accumulators as they stand when a tile's sums are complete (R92, R107). -/
def shadowOf (cplx : Bool) (t : Tile) : Tbl (BitVec 32) :=
  t.vals.map (fun p => if cplx then (128 * (p.1 / 64) + p.1 % 64, p.2) else (128 * (p.1 / 64) + 2 * (p.1 % 64), p.2))

/-- An OS pass on array `i` (R107): every row and column of the tile, its sums built in the shadow accumulators and written from there.
A slot that EMIT = 1 fills has ROWS valid rows (log entry 230). -/
def maOsTile (s : State) (k : Nat) (c : MatCmd) (i : Nat) : Except Got (State × Nat) :=
  let cx := c.cplx == 1
  let D := c.depth.toNat
  let u := maUnit k i
  let width := maWidth cx
  let nS := rowBytes c.fmtS.toNat cx c.cols.toNat
  let nT := rowBytes c.fmtT.toNat cx c.rows.toNat
  let shA := (List.range D).map (fun x => 64 * (c.sAddr.toNat + x * c.sPitch.toNat))
  let ownA := (List.range D).map (fun x => 64 * (c.tAddr.toNat + i * c.tStep.toNat + x * c.tPitch.toNat))
  let sh := shA.map (fun a => maRead s k a nS)
  let own := ownA.map (fun a => maRead s k a nT)
  let words := tileWords c.accTile.toNat 0 64
  match badRead (sh ++ own), (if c.acc = 1 then errGot s u words else none) with
  | some g, _ => .error g
  | none, some g => .error g
  | none, none =>
    let st := stream s u (own.map (fun g => g.bytes))
    let s := countReads (countReads st.2 k nS shA) k nT ownA
    let s := if c.acc = 1 then countErrs s u words.1 words.2 else s
    let b := sh.map (fun g => padTo width (rowElems c.fmtS.toNat cx g.bytes c.cols.toNat))
    let a := st.1.map (fun bs => padTo 64 (rowElems c.fmtT.toNat cx bs c.rows.toNat))
    let cells := (List.range 64).flatMap (fun r => (List.range width).map (fun j =>
      (r, j, (a.zip b).map (fun p => (p.1.getD r zeroElem, p.2.getD j zeroElem)))))
    let m := (coreOf s k).arrays.getD i {}
    let res := tileRun c (m.tiles.getD c.accTile.toNat {}) cells
    let s := modEngMem s u (fun x => { x with shadow := shadowOf cx res.1 })
    let s := setSat (clearErrs (setTile s k i c.accTile.toNat res.1) u words.1 words.2) k u 0x04 res.2
    .ok (if c.emit = 1 then pushSlot s k i c.accTile.toNat c.rows.toNat else s, 64)

/-- Tile `ti` of an EMIT on array `i` (R118): its rows go from the accumulator store to the slot. -/
def maEmitTile (s : State) (k : Nat) (c : MatCmd) (ti i : Nat) : Except Got (State × Nat) :=
  let n := min 64 (c.rows.toNat - 64 * ti)
  let words := tileWords (c.accTile.toNat + ti) 0 n
  match errGot s (maUnit k i) words with
  | some g => .error g
  | none => .ok (pushSlot (countErrs s (maUnit k i) words.1 words.2) k i (c.accTile.toNat + ti) n, 64)

/-- Tile `ti` of the command on array `i`. -/
def maTile (s : State) (k : Nat) (c : MatCmd) (w : Option WinSt) (ti i j : Nat) : Except Got (State × Nat) :=
  if c.opcode = 3 then maEmitTile s k c ti i
  else if c.dataflow = 2 then maOsTile s k c i
  else maPassTile s k c w ti i j

/-- Tile `ti` on every live array, ascending: those whose operands are bad stop with a fault record and a FAULT token (R121). Of a tile whose
read is bad nothing is written; the tiles before it stand (log entry 213). -/
def maTiles (k : Nat) (c : MatCmd) (w : Option WinSt) (ti : Nat) : State → List Nat → State × List Nat
  | s, [] => (s, [])
  | s, i :: rest =>
    match maTile s k c w ti i ((maArrays c).idxOf i) with
    | .ok (s', _) =>
      let r := maTiles k c w ti s' rest
      (r.1, i :: r.2)
    | .error g => maTiles k c w ti (engineFault s (maUnit k i) (badCause g) g.at_) rest

/-- Cycles of R111. -/
def maCost (c : MatCmd) : Nat :=
  if maZero c then 0
  else
    match c.opcode.toNat with
    | 1 => 64
    | 2 =>
      let i := maInterval c.fmtS.toNat
      if c.dataflow = 2 then max 134 (70 + c.depth.toNat * i) + 64 else (c.rows.toNat - 1) * i + 135
    | _ => c.rows.toNat

/-- Cycles in which a row, a LOAD or an EMIT issues (event 0x01). -/
def maIssue (c : MatCmd) : Nat :=
  if maZero c then 0
  else
    match c.opcode.toNat with
    | 1 => 64
    | 2 => (if c.dataflow = 2 then c.depth.toNat else c.rows.toNat) * maInterval c.fmtS.toNat
    | _ => c.rows.toNat

/-- The command ends on the arrays `live`: its step stays to be reported (R111) and its cycles are counted. -/
def maDone (s : State) (k step : Nat) (c : MatCmd) (live : List Nat) : State :=
  live.foldl (fun s i =>
    countUnit (modCore s k (fun x => { x with
      arrays := lmod x.arrays i (fun a => { a with busy := a.busy ++ [step], cycles := a.cycles + maCost c }) }))
      (maUnit k i) 0x01 (maIssue c)) s

/-- Tiles of a pass or EMIT. -/
def maTileCount (c : MatCmd) : Nat := if c.opcode = 2 ∧ c.dataflow = 2 then 1 else ceilDiv c.rows.toNat 64

/-- The command sends its tiles to the queue. -/
def maSends (c : MatCmd) : Bool := c.opcode == 3 || c.emit == 1

/-- The arrays reserve the slots of tile `t` one at a time, ascending, while slots are free (R119): the state and those that have theirs. -/
def maReserve (k t : Nat) : State → List Nat → List Nat → State × List Nat
  | s, got, [] => (s, got)
  | s, got, i :: rest =>
    if got.contains i then maReserve k t s got rest
    else if (coreOf s k).tq.length < 16 then maReserve k t (reserveSlot s k i t) (got ++ [i]) rest
    else (s, got)

/-- Run a pass or EMIT from tile `ti` on: each live array of a sending command reserves the slot of the tile (R119), and where one finds
none free the command waits with those it has. The result is the state and what is left to wait for: tile, arrays, those with a slot. -/
def maRunFrom (k step : Nat) (c : MatCmd) (w : Option WinSt) :
    Nat → State → Nat → List Nat → List Nat → State × Option (Nat × List Nat × List Nat)
  | 0, s, _, live, _ => (maDone s k step c live, none)
  | fuel + 1, s, ti, live, got =>
    if maTileCount c ≤ ti ∨ live = [] then (maDone s k step c live, none)
    else
      let r := if maSends c then maReserve k (c.accTile.toNat + ti) s got live else (s, live)
      if live.any (fun i => !r.2.contains i) then (r.1, some (ti, live, r.2))
      else
        let q := maTiles k c w ti r.1 live
        maRunFrom k step c w fuel q.1 (ti + 1) q.2 []

/-- Two commands name an array in common. -/
def maShare (a b : List Nat) : Bool := a.any (fun i => b.contains i)

/-- A command that waits, or comes first, runs on its live arrays from its tile (R92 to R119). -/
def maStart (s : State) (k : Nat) (x : MaWait) : State × Option MaWait :=
  let c := x.cmd
  let bad := (x.live.foldl (fun s i => engineFault s (maUnit k i) causeCommand 0) s, none)
  let each (f : MaSt → Bool) : Bool := x.live.all (fun i => f ((coreOf s k).arrays.getD i {}))
  let w := maBound s k x.step c
  if !x.begun && c.arrays != 0 && !each (maHeldOk c) then bad
  else if maZero c then (maDone (setWalk s k x.step w) k x.step c x.live, none)
  else if !x.begun && !(each (maTilesOk c) && maReadsOk w c) then bad
  else if c.opcode = 1 then
    let r := maLoadRun s k c x.live
    (maDone r.1 k x.step c r.2, none)
  else
    let r := maRunFrom k x.step c w 9 (setWalk s k x.step w) x.tile x.live x.reserved
    (r.1, r.2.map (fun p => { x with tile := p.1, live := p.2.1, reserved := p.2.2, begun := true }))

/-- Waiting commands go on in order, each while none before it that still waits names one of its arrays (R119). -/
def maResume (k : Nat) : State → List MaWait → List MaWait → State × List MaWait
  | s, [], kept => (s, kept)
  | s, w :: rest, kept =>
    if kept.any (fun v => maShare v.live w.live) then maResume k s rest (kept ++ [w])
    else
      match maStart s k w with
      | (s', some v) => maResume k s' rest (kept ++ [v])
      | (s', none) => maResume k s' rest kept

/-- The wait list is served, and the vector engine takes the slots it waited for (R126). -/
def maServe (s : State) (k : Nat) (ws : List MaWait) : State :=
  let r := maResume k s ws []
  veResume 64 (modCore r.1 k (fun x => { x with maWait := r.2 })) k

/-- The arrays whose running step `step` is a command that names none (R117): the step completes in their own lists. -/
def maNameless (s : State) (k step : Nat) : List Nat :=
  (List.range 4).filter (fun i =>
    ((tget (coreOf s k).seq.running (maUnit k i).toNat).getD []).contains step &&
      (match (stepListOf s (coreEng k 6 0) (maUnit k i))[step]? with
       | some { cmd := .ma w, .. } => bitsOf w 123 120 == 0
       | _ => false))

/-- A matrix command reaches the arrays of core `k` (R113 to R119): one with bad fields faults (R115). -/
def maIssueCmd (s : State) (k step : Nat) (c : MatCmd) : State :=
  let named := if c.arrays = 0 then maNameless s k step else maArrays c
  let live := named.filter (fun i => inService s (maUnit k i))
  if !maFieldsOk c then named.foldl (fun s i => engineFault s (maUnit k i) causeCommand 0) s
  else maServe s k ((coreOf s k).maWait ++ [{ cmd := c, step := step, tile := 0, live := live, reserved := [], begun := false }])

/-- A matrix command sent to core `k`; none runs on arrays that are stopped or out of service. -/
def maCommand (k step : Nat) (c : MatCmd) (s : State) : Out :=
  if 48 ≤ k || stopped s || !canRun s (coreUnit k) || (maArrays c).any (fun i => outStalled s (maUnit k i)) then .next s
  else .next (maIssueCmd s k step c)

/-- MA_NOP (R117). -/
def execMaNop (k step : Nat) (c : MatCmd) (s : State) : Out := maCommand k step { c with opcode := 0 } s
/-- MA_LOAD (R103, R114). -/
def execMaLoad (k step : Nat) (c : MatCmd) (s : State) : Out := maCommand k step { c with opcode := 1 } s
/-- MA_PASS_WS (R104 to R106). -/
def execMaPassWs (k step : Nat) (c : MatCmd) (s : State) : Out := maCommand k step { c with opcode := 2, dataflow := 0 } s
/-- MA_PASS_IS (R105). -/
def execMaPassIs (k step : Nat) (c : MatCmd) (s : State) : Out := maCommand k step { c with opcode := 2, dataflow := 1 } s
/-- MA_PASS_OS (R107). -/
def execMaPassOs (k step : Nat) (c : MatCmd) (s : State) : Out := maCommand k step { c with opcode := 2, dataflow := 2 } s
/-- MA_EMIT (R118). -/
def execMaEmit (k step : Nat) (c : MatCmd) (s : State) : Out := maCommand k step { c with opcode := 3 } s

/-- MA_COMMAND_COMPLETE (R111): the oldest command of array `a` completes; its step's tokens follow (R45). -/
def execMaCommandComplete (k a : Nat) (t : Time) (s : State) : Out :=
  timed s t (fun s =>
    if 48 ≤ k || 4 ≤ a || !clocked s (maUnit k a) then s
    else
      match ((coreOf s k).arrays.getD a {}).busy with
      | [] => s
      | _ :: rest =>
        let s := modCore s k (fun x => { x with arrays := lmod x.arrays a (fun m => { m with busy := rest }) })
        completeStep s (coreEng k 6 0) (maUnit k a) [maUnit k a])

/-- TILE_SLOT_RESERVE (R119): arrays that wait for a slot reserve one if it is free and go on. -/
def execTileSlotReserve (k : Nat) (s : State) : Out :=
  if 48 ≤ k || stopped s || !canRun s (coreUnit k) then .next s else .next (maServe s k (coreOf s k).maWait)

end Sys2Proof.Machine
end

