-- ==== Sys2Proof/Machine/Loader.lean ====
section
/-! DEFINITION. Machine/Loader.lean: the checks of an occupancy image (R297 to R304, R309, R321, R325 of
spec/10_occupancies_and_queues.md; R496, R497 of spec/15_lifecycle_and_trust.md; R115, R143, R157, R187, R234, R240, R289; R451,
R541, R542). -/

namespace Sys2Proof.Machine

/-! ## Header and sections (R297 to R300) -/

def hdSections (h : BitVec 2048) : Nat := bitsOf h 111 96
def hdBytes (h : BitVec 2048) : Nat := bitsOf h 191 128
def hdReserve (h : BitVec 2048) : Nat := bitsOf h 87 80
def hdKeySlot (h : BitVec 2048) : Nat := bitsOf h 89 88
def hdLocked (h : BitVec 2048) : Bool := bitOf h 72
def hdUlLead (h : BitVec 2048) : Nat := bitsOf h 303 288
def hdDlLead (h : BitVec 2048) : Nat := bitsOf h 319 304
def scType (e : BitVec 256) : Nat := bitsOf e 255 240
def scOffset (e : BitVec 256) : Nat := bitsOf e 191 128
def scBytes (e : BitVec 256) : Nat := bitsOf e 127 64
def scPlace (e : BitVec 256) : Nat := bitsOf e 34 0

/-- The bytes of an image that precede its signature block (R297). -/
def signedBytes (im : Image) : List Byte :=
  bytesLE 256 im.header.toNat ++ im.sections.flatMap (fun e => bytesLE 32 e.toNat) ++ im.body ++ im.key
/-- The digest of an image: that of its signed bytes (R297, R421). -/
def imageDigest (im : Image) : BitVec 512 := Config.shake256 (signedBytes im)

/-- Intervals (start, length) that do not overlap. -/
def disjoint : List (Nat × Nat) → Bool
  | [] => true
  | a :: t => t.all (fun b => a.2 == 0 || b.2 == 0 || decide (a.1 + a.2 ≤ b.1) || decide (b.1 + b.2 ≤ a.1)) && disjoint t

def headerFits (im : Image) : Bool :=
  let h := im.header
  bitsOf h 31 0 == 0x514C4F4E && bitsOf h 47 32 == 1 && bitsOf h 63 48 == 0x0348 && bitsOf h 71 64 == 128 && bitsOf h 79 73 == 0
    && hdReserve h ≤ 3 && bitsOf h 95 90 == 0 && 1 ≤ hdSections h && hdSections h ≤ 1024 && bitsOf h 127 112 == 0
    && bitsOf h 2047 352 == 0 && hdBytes h % 64 == 0 && im.sections.length == hdSections h
    && hdBytes h == 256 + 32 * im.sections.length + im.body.length + im.key.length + im.signature.length
    && im.key.length == 1984 && im.signature.length == 3328

/-- One section-table entry (R299). -/
def sectionFits (im : Image) (e : BitVec 256) : Bool :=
  let first := 256 + 32 * im.sections.length
  1 ≤ scType e && scType e ≤ 10 && bitsOf e 239 192 == 0 && bitsOf e 63 35 == 0 && scOffset e % 64 == 0 && scPlace e % 4096 == 0
    && scPlace e + scBytes e ≤ dramBytes
    && (scBytes e == 0 || (first ≤ scOffset e && scOffset e + scBytes e ≤ first + im.body.length))

/-- The number of sections of a type is allowed (R300). -/
def countFits (im : Image) (ty : Nat) : Bool :=
  let n := (im.sections.filter (fun e => scType e == ty)).length
  if ty = 6 then n ≤ 255 else if ty = 5 ∨ ty = 7 then n ≤ 1 else n == 1

/-- The position in the section table, from 1, of the first section of a type. -/
def sectionNo (im : Image) (ty : Nat) : Nat := (im.sections.findIdx? (fun e => scType e == ty)).elim 0 (fun i => i + 1)

/-- The envelope has one record for each carrier and direction that the Almanac plans, and no other (R321). -/
def envelopeFits (p : Plan) : Bool :=
  let key (w : BitVec 128) : Nat := bitsOf w 127 122
  let planned := p.carriers.flatMap (fun c =>
    (if c.ops.any (fun o => o.opcode != 2) then [2 * c.carrier.toNat] else [])
      ++ (if c.ops.any (fun o => o.opcode == 2) then [2 * c.carrier.toNat + 1] else []))
  p.envelope.all (fun w => bitsOf w 121 113 ≤ 275 && bitsOf w 112 108 ≤ 16 && bitsOf w 55 0 == 0 && planned.contains (key w))
    && planned.all (fun k => (p.envelope.filter (fun w => key w == k)).length == 1)

/-- The first section whose entry breaks R299 or overlaps another. -/
def badSection (im : Image) : Option Nat :=
  (List.range im.sections.length).find? (fun i =>
    let e := im.sections.getD i 0
    let others := (im.sections.take i)
    !sectionFits im e
      || others.any (fun x => !disjoint [(scOffset e, scBytes e), (scOffset x, scBytes x)]
          || !disjoint [(scPlace e, scBytes e), (scPlace x, scBytes x)]))

/-! ## Unit addresses (R32) -/

/-- Every unit address in the image names a unit. -/
def unitsFit (p : Plan) : Bool :=
  p.lists.all (fun l => unitValid l.seq && unitValid l.eng && l.steps.all (fun st => st.emits.all (fun e => unitValid e.dst)))
    && p.dist.all (fun d => d.kids.all (fun k => unitValid k.2)) && p.ticks.all (fun x => unitValid x.dst)
    && p.outerTags.all (fun x => unitValid x.1) && p.barrierTags.all (fun x => unitValid x.2) && p.programs.all (fun g => unitValid g.core)
    && p.tokenIntervals.all (fun x => unitValid x.1)
    && p.queueCfg.all (fun q => (q.2.map queueRec).all (fun r => r.depth == 0 || (unitValid r.writer && unitValid r.reader)))

/-! ## Commands (R303 code 0x03) -/

/-- The window table of the slice at `pos`, its unused entries left out (R153). -/
def windowsAt (p : Plan) (pos : BitVec 32) : List Window :=
  (p.windows.filter (fun w => w.pos == pos)).flatMap (fun w => (w.descs.map windowOfWord).filter (fun d => d.stepFirst != 0))

/-- Place `n` of a matrix list lies in the range of a window; positions count from 1 (log entry 212). -/
def inSteps (d : Window) (n : Nat) : Bool := decide (d.stepFirst.toNat ≤ n + 1) && decide (n + 1 ≤ d.stepLast.toNat)

/-- The other matrix lists that a command's ARRAYS mask names hold it at the same place with identical contents (R116). -/
def sharedOk (p : Plan) (l : StepList) (n : Nat) (st : AStep) (c : MatCmd) : Bool :=
  (maArrays c).all (fun a =>
    let eng := maUnit (coreNo l.eng) a
    eng == l.eng || p.lists.any (fun m => m.pos == l.pos && m.seq == l.seq && m.eng == eng && ((m.steps[n]?).map (fun x => x.cmd) == some st.cmd)))

/-- A command word of a step list keeps the rules of its engine. -/
def commandFits (p : Plan) (l : StepList) (n : Nat) (st : AStep) : Bool :=
  match st.cmd with
  | .ma w =>
    let c := matCmdOfWord w
    let win := (windowsAt p l.pos).any (fun d => inSteps d n)
    maFieldsOk c && (maZero c || (win && maWs c) || maReadsOk none c) && !(win && c.opcode == 2 && c.dataflow != 0) && sharedOk p l n st c
  | .ve w => (veInstrOf (coreNo l.eng) n w).isSome && veOk (veCmdOfWord w)
  | .de w =>
    let c := dspCmdOfWord w
    let inside_ (a : Nat) : Bool :=
      p.programs.any (fun g => g.core == coreUnit (coreNo l.eng) && decide (g.base ≤ a) && decide (a < g.base + g.words.length))
    dspCmdOk c && (c.opcode != 1 || (inside_ c.entry.toNat && (c.hen == 0 || inside_ c.handler.toNat)))
  | .ce w => ceListOk (ceCmdOfWord w)
  | .pe w => peOk (peCmdOfWord w)
  | .mov w g =>
    let c := movCmdOfWord w
    let depthOf (f : BitVec 42) : Bool :=
      f.toNat < 64 && ((queueRecs p (uCluster l.seq)).getD f.toNat {}).depth != 0
    c.opcode.toNat ≤ 4 && (c.opcode == 0 ||
      (c.srcSpace != 3 && c.dstSpace != 3 && (c.srcSpace != 2 || c.opcode == 2 || depthOf c.src) && (c.dstSpace != 2 || depthOf c.dst)
        && (if c.opcode = 3 then uCore l.eng == 7 && g.elim false (fun x => relayCmdOk 0 c (relayGeoOfWord x))
            else c.linePitch == 0 && c.planePitch == 0 && c.groupPitch == 0 && c.groups == 0)))
  | .child _ => true

/-- What the loader keeps of an array along its list: the formats and modes of the held block and of the tiles (R114). -/
def maTrack (c : MatCmd) (m : MaSt) : MaSt :=
  if maZero c then m
  else if c.opcode = 1 then { m with held := { fmt := c.fmtS, cplx := c.cplx == 1 } }
  else if c.opcode = 2 then
    let used := if c.dataflow = 2 then 1 else ceilDiv c.rows.toNat 64
    (List.range used).foldl (fun (m : MaSt) t =>
      { m with tiles := lmod m.tiles (c.accTile.toNat + t) (fun x => { x with fmt := accFmt c.fmtS.toNat, cplx := c.cplx == 1 }) }) m
  else m

/-- The first command of an array's list that breaks R114 along the list, counted from `n`. -/
def badAlong (m : MaSt) (n : Nat) : List AStep → Option Nat
  | [] => none
  | st :: rest =>
    match st.cmd with
    | .ma w =>
      let c := matCmdOfWord w
      if (c.arrays == 0 || maHeldOk c m) && (maZero c || maTilesOk c m) then badAlong (maTrack c m) (n + 1) rest else some n
    | _ => badAlong m (n + 1) rest

/-- The first step that breaks a rule: its position and its list's engine. -/
def badStep (p : Plan) : Option (Nat × UAddr) :=
  p.lists.foldl (fun (b : Option (Nat × UAddr)) l =>
    match b with
    | some x => some x
    | none =>
      match (List.range l.steps.length).find? (fun n =>
          !((l.steps[n]?).elim true (fun st => commandFits p l n st))) with
      | some n => some (n, l.eng)
      | none => (badAlong {} 0 l.steps).map (fun n => (n, l.eng))) none

/-- The program regions: at most eight on a core (R203), every packet under the checks of R234. -/
def programsFit (p : Plan) : Bool :=
  p.programs.all (fun g => decide ((p.programs.filter (fun h => h.core == g.core)).length ≤ 8)
    && g.words.zipIdx.all (fun x => dspPacketAt g.base g.words x.2 x.1))

/-- The matrix lists that the image keeps for the slice at `pos`, in array order. -/
def matrixLists (p : Plan) (pos : BitVec 32) : List (List AStep) :=
  (List.range 4).map (fun a => ((p.lists.find? (fun l => l.pos == pos && uLevel l.seq == 0 && uKind l.eng == 0 && uInst l.eng == a)).map
    (fun l => l.steps)).getD [])

/-- The passes of one chunk, from chunk base `q`: same ROWS and ARRAYS, and no read outside core memory (R155 to R157). -/
def chunkFits (d : Window) (q : Nat) (cs : List MatCmd) : Bool :=
  cs.zipIdx.all (fun x =>
    let g := x.2 % d.cgroups.toNat
    let tap := x.2 / d.cgroups.toNat
    let w : WinSt := { desc := d, q := q, ty := tap / d.kw.toNat, tx := tap % d.kw.toNat, g := g }
    cs.all (fun c => c.rows == x.1.rows && c.arrays == x.1.arrays) && maReadsOk (some w) x.1)

/-- Output positions that a chunk covers (R155). -/
def chunkRows (cs : List MatCmd) : Nat := (cs.head?).elim 0 (fun c => c.rows.toNat * (maArrays c).length)

/-- The chunks of a descriptor from base `q` fit, and cover `left` positions exactly. -/
def chunksFit (d : Window) (left q : Nat) : List (List MatCmd) → Bool
  | [] => left == 0
  | cs :: rest => decide (chunkRows cs ≤ left) && chunkFits d q cs && chunksFit d (left - chunkRows cs) (q + chunkRows cs) rest

/-- A descriptor's bound passes split into whole chunks that cover its output (R157). -/
def boundFit (p : Plan) (pos : BitVec 32) (d : Window) : Bool :=
  let cs := boundPasses (matrixLists p pos) (d.stepFirst.toNat - 1) d.stepLast.toNat
  let n := d.kw.toNat * d.kh.toNat * d.cgroups.toNat
  let out := (windowX d).outSize * (windowY d).outSize
  if out = 0 || n = 0 then cs.all (fun c => c.rows == 0)
  else cs.length % n == 0 && chunksFit d out 0 (chunks n (cs.length / n) cs)

/-- The window tables: at most 64 entries, each descriptor's ranges, no step position of a slice shared, and the passes it binds (R153,
R157). -/
def windowsFit (p : Plan) : Bool :=
  p.windows.all (fun w =>
    let ds := windowsAt p w.pos
    w.descs.length ≤ 64 && (w.descs.map windowOfWord).all (fun d => windowOk d && d.rsvd == 0)
      && disjoint (ds.map (fun d => (d.stepFirst.toNat, d.stepLast.toNat + 1 - d.stepFirst.toNat))) && ds.all (boundFit p w.pos))

/-- The narrowing descriptors: each one's own rules, no tensor number used twice, and the receiving device's
image has the same descriptor (R187); an entry with TENSOR 0 is unused (R186). -/
def narrowingFits (p : Plan) : Bool :=
  let used := (p.narrowing.map ndTensor).filter (fun t => t != 0)
  p.narrowing.all narrowOk && used.eraseDups.length == used.length
    && p.peerNarrowing.all (fun x => p.narrowing.all (fun d => ndTensor d != ndTensor x.2 || ndTensor d == 0 || d == x.2))

/-- Every carrier that the Almanac plans has the fixed fields in force (R431). -/
def fixedFits (s : State) (p : Plan) : Bool :=
  p.carriers.all (fun c => c.fixedFields == fixedSubs.map (carField s c.carrier.toNat))

/-! ## Memory (R303 code 0x04, R278, R541) -/

/-- The placement of command words that the model reads from the image: whole 32-byte codewords of a core's or cluster's memory, whose copy
stands in the section that holds them (R26, R277; log entry 44). -/
def placesFit (im : Image) : Bool :=
  let p := im.plan
  let held (ty at_ n : Nat) : Bool :=
    n == 0 || (im.sections.any (fun e => scType e == ty && decide (scPlace e ≤ at_) && decide (at_ + n ≤ scPlace e + scBytes e)) && at_ % 32 == 0)
  p.lists.all (fun l =>
      let n := (listBytes l.steps).length
      held 1 l.copyAt n && l.base % 32 == 0 && decide (l.base + n ≤ (if uCore l.seq ≤ 5 then coreBytes else clusterBytes)))
    && p.programs.all (fun g => held 2 g.copyAt (8 * g.words.length) && g.base % 4 == 0 && decide (8 * (g.base + g.words.length) ≤ coreBytes))
    && p.windows.all (fun w => held 1 w.copyAt (16 * w.descs.length))

/-- Bytes that adaptation takes on a die: two sets of working weights, FP32 master weights, optimiser state, the retained slots and the pin
reserve (R84). -/
def adaptBytes (p : Plan) : Nat :=
  let slotsOf (c : Nat) : Nat := ((p.retention ++ p.pinReserve).filter (fun x => x.1 == c)).foldl (fun n x => n + x.2) 0
  2 * (workingBytes p.weightFmts p.weights0).length + 4 * p.weights0.length + p.optimiserBytes
    + (p.slotBytes.map (fun x => slotsOf x.1 * x.2)).sum

/-- What the image declares for adaptation is in range, and its memory is reserved (R84, R244). -/
def adaptFits (p : Plan) : Bool :=
  (p.retention ++ p.pinReserve).all (fun x => x.1 < 32 && x.2 ≤ 64 && (x.2 == 0 || p.slotBytes.any (fun y => y.1 == x.1)))
    && adaptBytes p ≤ p.adaptRegion.2
    && p.adaptQueue.all (fun q => p.queuePlan.any (fun w => bitsOf w 63 52 == q.toNat && qpShare w))

/-- The learned table sets: at most eight, each inside the working weights and wholly in core or cluster memory (R244). -/
def tablesFit (s : State) (p : Plan) : Bool :=
  let n := (workingBytes p.weightFmts p.weights0).length
  p.tables.length ≤ 8 && p.tables.all (fun t => t.1 + 512 ≤ n
    && ((List.range 8).any (fun c => inRange (clusterBase c) clusterBytes t.2 && inRange (clusterBase c) clusterBytes (t.2 + 511))
      || (List.range 48).any (fun k => inRange (coreBase s k) coreBytes t.2 && inRange (coreBase s k) coreBytes (t.2 + 511))))

/-- What the DRAM of die `d` must hold: start and length. -/
def dramUse (s : State) (im : Image) (d : Nat) : List (Nat × Nat) :=
  let on (a : Nat) : Bool := dramBase d ≤ a && a < dramBase d + dramBytes
  im.sections.map (fun e => (dramBase d + scPlace e, scBytes e))
    ++ [(dramBase d + im.plan.poolAt, 4096 * im.plan.poolPages), (dramBase d + im.plan.adaptRegion.1, im.plan.adaptRegion.2)]
    ++ (im.plan.regions.filter (fun r => on r.base)).map (fun r => (r.base, r.bytes))
    ++ (im.plan.regions.filterMap (fun r => r.mirrorAt.elim none (fun a => if on a && dieOfAddr s r.base != d then some (a, r.bytes) else none)))

def memoryFits (s : State) (im : Image) : Bool :=
  let wide := ((im.sections.filter (fun e => scType e == 6)).map scBytes).sum
  let keep := (List.range 8).map (fun c => (clusterBase c + clusterBytes - 65536, 65536)) ++ [(envWindow, 0x1000), (counterWindow, 0x10000)]
  im.plan.restoreBytes ≤ 2 ^ 32 && wide ≤ 2 ^ 33
    && [0, 1].all (fun d =>
      let us := dramUse s im d
      disjoint us && (us.map (fun u => u.2)).sum ≤ dramBytes && us.all (fun u => u.1 + u.2 ≤ dramBase d + dramBytes))
    && im.plan.regions.all (fun r => keep.all (fun k => disjoint [(r.base, r.bytes), k]))
    && im.plan.grids.all (fun g => keep.all (fun k => disjoint [(g.base, g.slots * g.slotBytes), k]))
    && placesFit im && adaptFits im.plan && tablesFit s im.plan

/-! ## Contexts and queues (R303 code 0x05) -/

/-- One queue-plan entry (R309). -/
def queuePlanFits (im : Image) (w : BitVec 64) : Bool :=
  let wide := (im.sections.filter (fun e => scType e == 6)).length
  let timedOps := [1, 2, 3, 4, 9]
  let shareOps := [5, 6, 7, 8]
  bitsOf w 16 0 == 0
    && (if qpShare w then 1 ≤ qpWeight w && qpModel w ≤ wide && timedOps.all (fun o => !qpMask w o)
        else qpWeight w == 0 && qpModel w == 0 && shareOps.all (fun o => !qpMask w o))

def contextsFit (s : State) (im : Image) : Bool :=
  let p := im.plan
  p.contexts ≤ 1048576 && p.resident ≤ 65536 && p.resident ≤ p.contexts && p.contextBytes % 4096 == 0 && 4096 ≤ p.contextBytes
    && p.contextBytes ≤ 1048576 && p.queuePlan.all (queuePlanFits im)
    && (p.queuePlan.map (fun w => bitsOf w 63 52)).eraseDups.length == p.queuePlan.length
    && (p.contexts ≤ p.resident || p.contexts * p.contextBytes ≤ rwVal s 0x1408 2 0)

/-! ## Bandwidth, time and leads (R303 codes 0x06 to 0x08) -/

/-- The payload capacity of the host link in bit/s, each direction (R451): `pcieBudget` flits of 256 bytes a subframe are kept for
replays. -/
def hostCapacity (s : State) (p : Plan) : Nat :=
  s.pcie.speed * 1000000000 * s.pcie.width * 236 / 256 - p.pcieBudget * 256 * 8 * 1000

def bandwidthFits (s : State) (p : Plan) : Bool :=
  p.fronthaulUl ≤ 3200000000000 && p.fronthaulDl ≤ 3200000000000 && p.dramTraffic.all (fun b => b ≤ 11000000000000) && p.codingFits && p.vlFits && p.hostOut ≤ hostCapacity s p
    && p.hostIn ≤ hostCapacity s p

/-- The clock of the engine-time check in MHz (R42). -/
def checkMHz (locked : Bool) : Nat := if locked then Config.lockedMHz else Config.floorMHz

/-- The most cycles from a crossing's entry to its exit at `mhz` (R38). -/
def crossBound (mhz : Nat) (a b : UAddr) : Nat :=
  if unitIsland a = unitIsland b then 0 else if uDie a = uDie b then 5 else 5 + ceilDiv (20 * mhz) 1000

/-- The cycle at which the next matrix command may issue and that in which the last one completes, after command `c` (R103, R104, R108,
R111). -/
def maAhead (t : Nat × Nat) (c : MatCmd) : Nat × Nat :=
  if maZero c then t
  else
    match c.opcode.toNat with
    | 1 => (t.1 + maCost c, max t.2 (t.1 + maCost c))
    | 2 => (t.1 + maIssue c, max t.2 (t.1 + maCost c))
    | _ => (max t.1 t.2 + maCost c, max t.1 t.2 + maCost c)

/-- The same for the vector engine: a command that writes cluster memory completes a crossing later (R146). -/
def veAhead (t : Nat × Nat) (c : VeCmd) : Nat × Nat :=
  if c.opcode = 0 then t else (t.1 + veCost c, max t.2 (t.1 + veCost c + (veRate c).2 + (if c.dst = 2 then 5 else 0)))

/-- The same for a step of any core engine: a RUN counts its BOUND (R234); a mover's command is in the Almanac's reserve. -/
def stepAhead (t : Nat × Nat) : StepCmd → Nat × Nat
  | .ma w => maAhead t (matCmdOfWord w)
  | .ve w => veAhead t (veCmdOfWord w)
  | .de w =>
    let c := dspCmdOfWord w
    let e := if c.opcode = 1 then max t.1 t.2 + 16 * c.bound.toNat else t.1
    (e, max t.2 e)
  | _ => t

/-- The cycles of one list: its steps one after another, and the crossing bound of the tokens that they send (R38, R304). -/
def listCycles (mhz : Nat) (l : StepList) : Nat :=
  (l.steps.foldl (fun t st => stepAhead t st.cmd) (0, 0)).2
    + (l.steps.flatMap (fun st => st.emits.map (fun e => crossBound mhz l.eng e.dst))).sum

/-- The cycles of the child slice at `pos`: those of its longest list (log entry 222). -/
def sliceCycles (p : Plan) (mhz : Nat) (pos : BitVec 32) : Nat :=
  ((p.lists.filter (fun l => l.pos == pos && uCore l.seq ≤ 5)).map (listCycles mhz)).foldl max 0

/-- DRAM transfers of the cluster slice at `pos`: the mover commands of its busiest mover that read or write DRAM (R270). -/
def dramTransfers (p : Plan) (pos : BitVec 32) : Nat :=
  let inDram (space : BitVec 2) (a : BitVec 42) : Bool := space == 0 && decide (a.toNat < 2 * dramBytes)
  ((p.lists.filter (fun l => l.pos == pos)).map (fun l => (l.steps.filter (fun st =>
    match st.cmd with
    | .mov w _ =>
      let c := movCmdOfWord w
      c.opcode != 0 && (inDram c.srcSpace c.src || inDram c.dstSpace c.dst)
    | _ => false)).length)).foldl max 0

/-- The sublists of at most `n` elements. -/
def subsets : Nat → List Nat → List (List Nat)
  | _, [] => [[]]
  | n, x :: t => subsets n t ++ (if n = 0 then [] else (subsets (n - 1) t).map (fun ys => x :: ys))

/-- The cycles that core `n` gets when the cores of `gone` are retired (R54, R304). -/
def shareOf (shares : List (Nat × Nat)) (gone : List Nat) (n : Nat) : Nat :=
  let left := (List.range 6).filter (fun k => !gone.contains k)
  let own := (shares.filter (fun x => x.2 == n)).map (fun x => x.1)
  let moved := (shares.filter (fun x => gone.contains x.2)).map (fun x => x.1)
  own.sum + ((moved.zipIdx.filter (fun x => left.getD (x.2 % left.length) 6 == n)).map (fun x => x.1)).sum

/-- A cluster slice fits its budget with any `reserve` cores retired: on every core its share, and one refresh window of 160 ns for each DRAM
transfer (R269, R270, R304). -/
def timedFits (p : Plan) (mhz reserve : Nat) (x : TimedSlice) : Bool :=
  let shares := x.shares.map (fun y => (sliceCycles p mhz y.pos + y.reserve, y.core))
  (subsets reserve (List.range 6)).all (fun gone =>
    (List.range 6).all (fun n => gone.contains n
      || decide (shareOf shares gone n * 1000 + 160 * dramTransfers p x.pos * mhz ≤ x.budgetNs * mhz)))

/-- Every planned interval between tokens is at most half the unit's timeout (R355). -/
def tokensFit (s : State) (p : Plan) : Bool := p.tokenIntervals.all (fun x => 2 * x.2 ≤ timeoutOf s x.1)

def engineTimeFits (s : State) (im : Image) (locked : Bool) : Bool :=
  im.plan.timed.all (timedFits im.plan (checkMHz locked) (hdReserve im.header)) && tokensFit s im.plan
    && bitsOf im.header 287 256 ≤ 128000

/-- The deadline of every UL_SLOT item precedes the start of stage 6 of the item that lies the reuse distance later (R257). -/
def hazardFits (s : State) (p : Plan) : Bool :=
  p.carriers.all (fun c => c.ops.all (fun o => o.opcode != 1
    || decide (o.minDeadline < (p.reuseDistance * (1000000 / 2 ^ carMu s c.carrier.toNat) : Nat) + o.stage6)))

/-- Leads in range, and long enough for 40 µs and the work before slot start (R298, R542); the swaps of a cut within a slot. -/
def leadsFit (s : State) (im : Image) : Bool :=
  let ul := hdUlLead im.header
  let dl := hdDlLead im.header
  100 ≤ ul && 400 ≤ dl
    && im.plan.carriers.all (fun c =>
      c.ops.all (fun o => 40000 + o.preSlot ≤ (if o.opcode = 2 then dl else ul) * 1000)
        && im.plan.envelope.all (fun w => bitsOf w 127 123 != c.carrier.toNat ||
          decide (bitsOf w 67 56 * im.plan.contextBytes * 8 * 1000000000 ≤
            (hostCapacity s im.plan - max im.plan.hostOut im.plan.hostIn) * (1000000 / 2 ^ carMu s c.carrier.toNat - 40000))))
    && hazardFits s im.plan

/-! ## Signature (R496, R497) -/

def signatureFits (s : State) (im : Image) : Bool :=
  let key := im.key.take 1952
  let ok := Config.mldsaVerify key (imageDigest im) (im.signature.take 3309) && (im.key.drop 1952).all (fun b => b == 0)
    && (im.signature.drop 3309).all (fun b => b == 0)
  if s.life.state = 2 then
    let k := hdKeySlot im.header
    bitOf s.life.ownerFused k && !bitOf s.life.ownerRevoked k && Config.shake256 key == ownerHashOf s k && ok
  else key == Config.romDiagnosticKey && ok

/-! ## The checks in order (R303) -/

/-- The first check that fails: reason, section, step, unit. -/
def loadFault (s : State) (im : Image) (locked bad : Bool) : Option (Nat × Nat × Nat × UAddr) :=
  if bad || !headerFits im || !((List.range 10).all (fun t => countFits im (t + 1))) then some (1, 0, 0, 0)
  else if (badSection im).isSome then some (1, (badSection im).getD 0 + 1, 0, 0)
  else if !unitsFit im.plan then some (1, sectionNo im 1, 0, 0)
  else if !envelopeFits im.plan then some (1, sectionNo im 10, 0, 0)
  else if im.plan.reuseDistance = 0 then some (1, sectionNo im 8, 0, 0)
  else if !signatureFits s im then some (2, 0, 0, 0)
  else
    match badStep im.plan with
    | some x => some (3, sectionNo im 1, x.1, x.2)
    | none =>
      if !programsFit im.plan then some (3, sectionNo im 2, 0, 0)
      else if !windowsFit im.plan || im.plan.unsupported || !fixedFits s im.plan then some (3, sectionNo im 1, 0, 0)
      else if !narrowingFits im.plan then some (3, sectionNo im 7, 0, 0)
      else if !memoryFits s im then some (4, sectionNo im 8, 0, 0)
      else if !contextsFit s im then some (5, 0, 0, 0)
      else if !bandwidthFits s im.plan then some (6, 0, 0, 0)
      else if !engineTimeFits s im locked then some (7, 0, 0, 0)
      else if !leadsFit s im then some (8, 0, 0, 0)
      else none

end Sys2Proof.Machine
end

