-- ==== Sys2Proof/Machine/Occ.lean ====
section
/-! DEFINITION. Machine/Occ.lean: occupancies: loading, Twilight, the package reset, replay, and the restart of the control processor
(R301 to R305, R336, R337 of spec/10_occupancies_and_queues.md; R351, R352, R367 of spec/11_determinism_and_recovery.md; R50). -/

namespace Sys2Proof.Machine

def modOcc (s : State) (f : OccSt → OccSt) : State := { s with occ := f s.occ }

/-! ## Wiping (R25, R336, R337, R412) -/

/-- A unit port that holds nothing; recovery states, counts and retirement stay. -/
def idlePort (x : UnitSt) : UnitSt :=
  { x with
    used := 0, cmds := 0, held := [], stalled := [], kidsDone := [], watchdog := none, hold := none, status := [], failed := 0
    retrying := false }

/-- Every memory of the device is wiped, and with them what an occupancy keeps. The control block is registers, not memory; device
settings, counters, queue parameters and pointers, the fault log and the client counts stay. -/
def wipeOccupancy (s : State) : State :=
  { s with
    mem := { s.mem with cells := s.mem.cells.filter (fun c => controlBase ≤ c.1), check := [], repairs := [] }
    crossing := []
    units := s.units.map (fun p => (p.1, idlePort p.2))
    cores := [], clusters := [], engMem := [], items := [], weights := {}, shareCur := 4095
    pool := { clients := s.pool.clients }
    queues := s.queues.map (fun p => (p.1, { p.2 with deficit := 0, formed := [], lastDeadline := none }))
    fh := { s.fh with sections := [], complete := [], dlSent := [], dlClosed := [] }
    fabric := { s.fabric with
      narrow := [], narrowPorts := [], fixedScales := [], partIn := [], satNext := [], satSlices := [] }
    cap := { s.cap with running := none, changes := [] } }

/-- The occupancy state NONE, with no image and no number; what the last load reported, the count of loads and the way a replay ended
stay. -/
def emptyOcc (o : OccSt) : OccSt :=
  { reason := o.reason, section_ := o.section_, step := o.step, unit := o.unit, loads := o.loads, fetchFrom := o.fetchFrom
    replayStatus := if o.replayStatus = 1 then 2 else o.replayStatus, replayIgnored := o.replayIgnored }

/-- A Vrelol port that goes down to retrain; its conditions and its count of retries stand. -/
def downPort (p : VlPort) : VlPort := { retries := p.retries, faults := p.faults, replayed := p.replayed, overBudget := p.overBudget }

/-- The fabric region after a reset of the package: every link retrains and the Constellation forms again (R404). -/
def resetFabric (f : FabricSt) : FabricSt := { ports := f.ports.map downPort, floodSeq := f.floodSeq + 1 }

/-- The package reset of R302 and R367: every die is reset and every memory wiped; a unit that is retired or held out stays so. -/
def packageResetNow (s : State) : State :=
  let s := modOcc (wipeOccupancy s) emptyOcc
  { s with
    units := s.units.map (fun p => (p.1, { p.2 with
      phase := if p.2.phase == .retired || p.2.phase == .heldOut then p.2.phase else .live, dawnAt := s.time.now }))
    dies := s.dies.map (fun d => { d with restored := none, returnFrom := none, faultHeld := false })
    fabric := resetFabric s.fabric
    global := { s.global with ops := [], pending := [], early := [] }
    cp := { s.cp with packageStep := 0 } }

/-! ## Loading (R301, R303, R305) -/

/-- The keys of the TIMEOUT objects, which every load returns to their defaults (R353, R412). -/
def isTimeoutKey (k : Nat) : Bool := k % 256 == 3 && 0x3000 ≤ k / 256 && k / 256 < 0x3700
def dropTimeouts (t : Tbl Nat) : Tbl Nat := t.filter (fun p => !isTimeoutKey p.1)

/-- A load is refused: the state is NONE, and the result object says why (R303). -/
def refuseLoad (s : State) (reason section_ step : Nat) (unit : UAddr) : State :=
  modOcc s (fun o => { emptyOcc o with
    reason := reason, section_ := section_, step := step, unit := unit
    replayStatus := if reason = 7 ∧ o.replay then 6 else (emptyOcc o).replayStatus })

/-- A load starts (R301): the header is copied, and, where the length agrees with it, the image. -/
def beginLoad (s : State) (im : Image) (bad : Bool) : State :=
  let s := { s with obj := { s.obj with staged := dropTimeouts s.obj.staged, inForce := dropTimeouts s.obj.inForce } }
  let n := rwVal s 0x1400 3 0
  let s := modOcc s (fun o => { emptyOcc o with replay := rwVal s 0x1404 2 0 != 0, replayStatus := 0 })
  if n < 256 || n ≠ hdBytes im.header then refuseLoad s 1 0 0 0
  else modOcc s (fun o => { o with state := .loading, image := some im, copyBad := bad })

/-- A queue pair that is not disabled resumes at ACCEPT_NEXT, and its ledger returns to STATE 1 (R337). -/
def resumeQueue (s : State) (qn : Nat) : State :=
  let s := modQueue s qn (fun q => { q with
    fetchNext := q.acceptNext, formNext := q.acceptNext, qstate := 1, deficit := 0, lastDeadline := none, formed := [] })
  writeLedger s qn

/-- The settings that CAPTURE_ARM holds (R346, R421); it names no host buffer. -/
def armedCapture (s : State) : CapSet :=
  capSetOf { entry := BitVec.ofNat 1024 (rwVal s 0x1402 0 0 % 2 ^ 88 * 2 ^ 256), bufs := [], allocs := [], rels := [], read := .good, data := [] }

/-- Armed capture starts when the load succeeds: into a DRAM ring that MEMORY_PLAN has room for. -/
def startArmed (s : State) (p : Plan) : State :=
  let c := armedCapture s
  if c.mode = 1 ∧ ¬capEmpty c ∧ c.ringBytes % 4096 = 0 ∧ c.ringBytes ≤ min (2 ^ 31) p.captureRegion.2 ∧ p.captureFits then startCapture s c
  else s

/-- The image runs (R305, R324, R337, R90): sections are placed, lists and programs loaded, contexts, soft buffers and weights start
afresh, and every open queue resumes. -/
def startOccupancy (s : State) (im : Image) (locked : Bool) : State :=
  let n := (s.occ.loads + 1) % 2 ^ 32
  let w := im.plan.weights0
  let v := workingBytes im.plan.weightFmts w
  let s := modOcc s (fun o => { o with
    state := .running, image := some im, copyBad := false, number := n, loads := n, digest := imageDigest im, locked := locked
    reason := 0, section_ := 0, step := 0, unit := 0, after := .toNone, drained := false, queuedLoad := none
    fetchFrom := s.time.now })
  let s := { s with
    weights := { original := w, master := w, inForce := v, spare := v }
    pool := { freePages := im.plan.poolPages } }
  let s := placeSections (placeSections s 0) 1
  let s := (List.range 8).foldl reloadCluster s
  let s := (openQueues s).foldl resumeQueue s
  startArmed s im.plan

/-! ## Twilight (R336) -/

/-- Twilight starts: fetching and deciding stop, and what ACCEPT_NEXT has not passed is dropped. -/
def startTwilight (s : State) (after : AfterTwilight) : State :=
  let keep (qn seq : Nat) : Bool := precedes seq (queueOf s qn).acceptNext
  let s1 := modOcc s (fun o => { o with state := .twilight, after := after, drained := false, queuedLoad := none })
  { s1 with
    items := s1.items.filter (fun i => keep i.queue i.seq)
    weights := { s1.weights with
      swaps := s1.weights.swaps.filter (fun w => keep w.queue w.seq), pins := s1.weights.pins.filter (fun p => keep p.1 p.2.1) }
    queues := s1.queues.map (fun p => (p.1, { p.2 with fetchNext := p.2.acceptNext })) }

/-- A LOAD queued during this Twilight is cancelled: refused with reason 0x09 (R302). -/
def cancelQueued (s : State) : State :=
  modOcc s (fun o => if o.queuedLoad.isSome then { o with queuedLoad := none, reason := 9, section_ := 0, step := 0, unit := 0 } else o)

/-- END by the occupancy state (R302); the states in which it is aborted leave the state. -/
def endOccupancy (s : State) : State :=
  match s.occ.state with
  | .none => s
  | .loading => abandonLoad s
  | .running => startTwilight s .toNone
  | .twilight => cancelQueued s

/-- PACKAGE_RESET by the occupancy state (R302, R367). -/
def resetPackage (s : State) : State :=
  match s.occ.state with
  | .none => packageResetNow s
  | .loading => packageResetNow (abandonLoad s)
  | .running => startTwilight s .packageReset
  | .twilight => modOcc (cancelQueued s) (fun o => { o with after := if o.after = .transition then .transition else .packageReset })

/-- TWILIGHT_DRAINED (R336 steps 2 and 3): nothing accepted remains and everything formed is written, so each open queue gets its
final ledger. -/
def execTwilightDrained (t : Time) (s : State) : Out :=
  timed s t (fun s =>
    if s.occ.state = .twilight ∧ s.occ.drained = false ∧ s.items = [] ∧ canWrite s
        ∧ (openQueues s).all (fun q => (queueOf s q).formed.isEmpty) then
      modOcc ((openQueues s).foldl (fun s q => writeLedger (modQueue s q (fun x => { x with qstate := 2 })) q) s)
        (fun o => { o with drained := true })
    else s)

/-- TWILIGHT_WIPE_COMPLETE (R336 step 4): the state is NONE, or a queued load begins, or the package is reset; a transition waits for
TRANSITION_APPLY (R492). -/
def execTwilightWipeComplete (t : Time) (s : State) : Out :=
  timed s t (fun s =>
    if s.occ.state = .twilight ∧ s.occ.drained then
      let queued := s.occ.queuedLoad
      match s.occ.after with
      | .packageReset => packageResetNow s
      | .transition => modOcc (wipeOccupancy s) emptyOcc
      | .toNone =>
        let s := modOcc (wipeOccupancy s) emptyOcc
        match queued with
        | some q => beginLoad s q.1 q.2
        | none => s
    else s)

/-! ## The checks end (R303, R351, R352) -/

/-- REPLAY_STATUS after the comparison of a recording's Start record: TIME, firmware version, Eclipse map, image digest (R351). A
recording without one does not match. -/
def replayCheck (s : State) : Option (Time × BitVec 64 × BitVec 64 × BitVec 512) → Nat
  | none => 3
  | some (_, fw, ecl, dig) =>
    if fw.toNat ≠ firmwareVersion s then 3
    else if ecl.toNat ≠ s.life.eclipse.toNat then 4
    else if dig ≠ s.occ.digest then 5
    else 1

/-- The replay begins, with network time at the recording's start, or is refused and the occupancy goes through Twilight. -/
def startReplay (s : State) (recording : Option (Time × BitVec 64 × BitVec 64 × BitVec 512)) : State :=
  let c := replayCheck s recording
  let s := modOcc s (fun o => { o with replayStatus := c, replayIgnored := 0 })
  if c = 1 then
    let t0 := recording.elim s.time.now (fun r => r.1)
    modOcc { s with time := { s.time with now := t0 } } (fun o => { o with fetchFrom := t0 })
  else startTwilight s .toNone

/-- LOAD_CHECKS_COMPLETE (R303, R305, R351): the first check that fails refuses the image; one that passes them all runs. -/
def execLoadChecksComplete (recording : Option (Time × BitVec 64 × BitVec 64 × BitVec 512)) (t : Time) (s : State) : Out :=
  timed s t (fun s =>
    match s.occ.state, s.occ.image with
    | .loading, some im =>
      let locked := hdLocked im.header || s.occ.replay
      match loadFault s im locked s.occ.copyBad with
      | some (r, sec, st, u) => refuseLoad s r sec st u
      | none =>
        let s := startOccupancy s im locked
        if s.occ.replay then startReplay s recording else s
    | _, _ => s)

/-- REPLAY_INJECT (R352): a recorded input takes effect where it was recorded; after the last the replay has ended. -/
def execReplayInject (what : Replayed) (t : Time) (s : State) : Out :=
  timed s t (fun s =>
    if s.occ.replayStatus ≠ 1 then s
    else
      match what with
      | .fronthaul h secs => uplaneFrame s h secs
      | .doorbell q v => ringDoorbell (capRecord s 2 q.toNat s.time.now (bytesLE 8 v.toNat)) q.toNat v.toNat
      | .fabric a bs =>
        busWrite (capRecord s 4 0 s.time.now (bytesLE 8 a.toNat ++ bs)) (dieUnit 2) (a.toNat % 2 ^ 36) bs false
      | .hostRead _ _ => s
      | .dusk u =>
        if rwVal s 0x1404 3 0 = 1 ∧ unitValid u then recover 6 s u else s
      | .ended => modOcc s (fun o => { o with replayStatus := 2 }))

end Sys2Proof.Machine
end

