-- ==== Sys2Proof/Machine/Serve.lean ====
section
/-! DEFINITION. Machine/Serve.lean: the object server: transports, checks in the order of R445, answers (R438 to R446 of
spec/13_object_dictionary.md). -/

namespace Sys2Proof.Machine

/-- The payload limit of a transport (R442). -/
def payloadLimit : Requester → Nat
  | .pcie => 4080
  | _ => 1024

/-- The request to serve: the oldest that has landed, or, with none landed, one that lands as it is served (log entry 23). -/
def claim (s : State) (req : ObjReq) : Option State :=
  match s.obj.landed with
  | [] => some s
  | r :: rest => if r = req then some { s with obj := { s.obj with landed := rest } } else none

/-- Serve a request that `mine` says is this command's: `f` gives the new state, the abort code and the response payload; an aborted
request has no effect. -/
def serve (req : ObjReq) (mine : Bool) (f : State → State × Nat × List Byte) (s : State) : State :=
  match claim s req with
  | none => s
  | some s1 =>
    if !mine then s
    else if isBusy s1 req then answer s1 req abBusy []
    else
      let r := f s1
      if r.2.1 = 0 then answer r.1 req 0 r.2.2 else answer s1 req r.2.1 []

/-! ## Checks common to READ and WRITE -/

/-- The abort code of an object that is not there, or the object. -/
def lookup (s : State) (req : ObjReq) : Nat × Option Entry :=
  match findObj s req.index.toNat req.sub.toNat with
  | .noObject => (abUnknownObject, none)
  | .noUnit => (abUnknownUnit, none)
  | .noSub => (abUnknownSub, none)
  | .entry e => (0, some e)

/-- The first non-zero code. -/
def firstCode : List Nat → Nat
  | [] => 0
  | c :: t => if c = 0 then firstCode t else c

def codeIf (b : Bool) (c : Nat) : Nat := if b then c else 0

/-! ## READ (R434, R444) -/

/-- READ: its abort code and its payload. -/
def readObj (s : State) (req : ObjReq) : Nat × List Byte :=
  if req.opcode = 0 || 6 < req.opcode.toNat then (abUnknownOpcode, [])
  else
    match lookup s req with
    | (c, none) => (c, [])
    | (_, some e) =>
      let bs := valueBytes req.who e (req.view && e.acc == .rws)
      (firstCode [codeIf (e.acc == .wo || e.ty == tDomain) abAccess,
        codeIf (!req.payload.isEmpty || decide (payloadLimit req.who < bs.length)) abLength], bs)

/-- READ (R444); a reserved opcode is answered here. -/
def execRead (req : ObjReq) (t : Time) (s : State) : Out :=
  timed s t (serve req (req.opcode = 1 || req.opcode = 0 || 6 < req.opcode.toNat) (fun s => (s, readObj s req)))

/-! ## Blocks (R444, R445) -/

/-- The k-th 32-bit number of a payload. -/
def word32 (req : ObjReq) (k : Nat) : Nat := numOf req.who ((req.payload.drop (4 * k)).take 4)

/-- The bytes that READ_BLOCK reads from, or an abort code; SELECTOR is ignored for TEXT and OCTETS. -/
def blockOfObj (s : State) (req : ObjReq) (e : Entry) : Nat × List Byte :=
  if e.acc == .wo || !(e.ty == tDomain || e.ty == tText || e.ty == tOctets) then (abAccess, [])
  else if req.payload.length ≠ 12 then (abLength, [])
  else if e.ty ≠ tDomain then (0, entryBytes e false)
  else
    match domainBytes s req.index.toNat (word32 req 0) with
    | none => (abSelector, [])
    | some bs => (0, bs)

/-- The device can sign a report (R488). -/
def attests (s : State) : Bool := s.life.state != 0 && s.life.state != 4

/-- READ_BLOCK: its abort code and its payload. -/
def readBlock (s : State) (req : ObjReq) : Nat × List Byte :=
  match lookup s req with
  | (c, none) => (c, [])
  | (_, some e) =>
    let r := blockOfObj s req e
    let off := word32 req 1
    (firstCode [r.1, codeIf (decide (r.2.length < off)) abRange, codeIf (req.index = 0x1107 && !attests s) abLifecycle],
     (r.2.drop off).take (min (word32 req 2) (payloadLimit req.who)))

/-- READ_BLOCK (R444) of everything but the attestation report. -/
def execReadBlock (req : ObjReq) (t : Time) (s : State) : Out :=
  timed s t (serve req (req.opcode = 3 && req.index != 0x1107) (fun s => (s, readBlock s req)))

/-- ATTESTATION (R500, R501): a READ_BLOCK of object 0x1107 whose selector is the nonce. -/
def execAttestation (req : ObjReq) (t : Time) (s : State) : Out :=
  timed s t (serve req (req.opcode = 3 && req.index = 0x1107) (fun s => (s, readBlock s req)))

/-! ## Landing (R439 to R441) -/

/-- OBJ_GO (R439). -/
def execObjGo (t : Time) (s : State) : Out := timed s t objGo
/-- OBJ_DONE_CLEAR (R439). -/
def execObjDoneClear (s : State) : Out := .next (if stopped s then s else objDoneClear s)
/-- OBJ_OVERRUN_CLEAR (R439). -/
def execObjOverrunClear (s : State) : Out := .next (if stopped s then s else objOverrunClear s)

/-- The request of a frame of at least 16 bytes, and whether its LENGTH is the size of what follows. -/
def frameRequest (who : Requester) (frame : List Byte) : ObjReq × Bool :=
  let h : BitVec 128 := BitVec.ofNat 128 (numOf who (frame.take 16))
  (requestOf who h (frame.drop 16), bitsOf h 63 32 == frame.length - 16)

/-- MCTP_MESSAGE (R440): a frame of message type 0x7E and vendor 0x1E5C lands; a second request of an endpoint is aborted with BUSY. -/
def execMctpMessage (eid : BitVec 8) (msgType : BitVec 8) (vendor : BitVec 16) (frame : List Byte) (t : Time) (s : State) : Out :=
  timed s t (fun s =>
    if msgType ≠ 0x7E ∨ vendor ≠ 0x1E5C ∨ frame.length < 16 ∨ s.bus.stuck then s
    else
      let (req, fits) := frameRequest (.sideband eid) frame
      if s.obj.landed.any (fun r => r.who == .sideband eid) then answer s req abBusy []
      else if !fits then answer s req abLength []
      else landReq s req)

/-- The last 64 requests of a source. -/
def trimRecent (xs : List (Nat × BitVec 16 × BitVec 32 × Time × List Byte)) (a : Nat) (p : BitVec 16) :
    List (Nat × BitVec 16 × BitVec 32 × Time × List Byte) :=
  let n := (xs.filter (fun x => x.1 == a && x.2.1 == p)).length
  if n ≤ 64 then xs
  else
    match xs.findIdx? (fun x => x.1 == a && x.2.1 == p) with
    | some i => xs.eraseIdx i
    | none => xs

/-- A request of the management port that is outstanding. -/
def isMgmt (r : ObjReq) : Bool :=
  match r.who with
  | .mgmt _ _ => true
  | _ => false

/-- MGMT_DATAGRAM (R441): short or ill-sized datagrams are dropped and counted; a repeat within 1 s gets the stored response; beyond 64
outstanding requests the answer is LIMIT. -/
def execMgmtDatagram (addr : Nat) (port : BitVec 16) (frame : List Byte) (t : Time) (s : State) : Out :=
  timed s t (fun s =>
    let who : Requester := .mgmt addr port
    let (req, fits) := frameRequest who frame
    if !s.bus.mgmtUp then s
    else if frame.length < 16 || !fits then { s with obj := { s.obj with mgmtDropped := (s.obj.mgmtDropped + 1) % 2 ^ 64 } }
    else
      match s.obj.recent.find? (fun x => x.1 == addr && x.2.1 == port && x.2.2.1 == req.tid
          && decide (s.time.now ≤ x.2.2.2.1 + 1000000000)) with
      | some x => if x.2.2.2.2.isEmpty then s else s.emit (.response who x.2.2.2.2)
      | none =>
        if 64 ≤ (s.obj.landed.filter isMgmt).length then
          s.emit (.response who (respFrame who req.opcode.toNat req.index.toNat req.sub.toNat abLimit req.tid []))
        else
          landReq { s with obj := { s.obj with
              recent := trimRecent (s.obj.recent ++ [(addr, port, req.tid, s.time.now, [])]) addr port } } req)

/-! ## The control processor (R50) -/

/-- The control processor restarts (R50): its RAM is wiped, a load in progress is abandoned, and the requests that need it and have landed
are aborted with BUSY. -/
def restartCp (s : State) : State :=
  let busy := s.obj.landed.filter needsCp
  let s := abandonLoad (wipeCpRam { s with
    cp := { s.cp with restarting := true }, obj := { s.obj with landed := s.obj.landed.filter (fun r => !needsCp r) } })
  busy.foldl (fun s r => answer s r abBusy []) s

/-- CP_WATCHDOG_EXPIRY (R50, R372): the control processor alone is reset. -/
def execCpWatchdogExpiry (t : Time) (s : State) : Out :=
  timed s t (fun s => if s.cp.restarting then s else restartCp (recordFaultAt s (dieUnit 2) causeCp 0 0 0 0 0))

/-- A recovery that the restart interrupted begins again (R50): that of the package with the I/O die, that of a compute die with its
Dusk. -/
def restartRecovery (s : State) : State :=
  if s.cp.packageStep ≠ 0 then duskOf { s with cp := { s.cp with packageStep := 1 } } (dieUnit 2)
  else
    [0, 1, 2].foldl (fun s d =>
      let p := (unitOf s (dieUnit d)).phase
      if p == .dusk || p == .dawn then duskOf s (dieUnit d) else s) s

/-- CP_RESTART_COMPLETE (R48, R50): it runs from ROM with the patch record reloaded. -/
def execCpRestartComplete (t : Time) (s : State) : Out :=
  timed s t (fun s =>
    if s.cp.restarting then restartRecovery (loadPatch { s with cp := { s.cp with restarting := false } }) else s)

end Sys2Proof.Machine
end

