-- ==== Sys2Proof/Machine/Commits.lean ====
section
/-! DEFINITION. Machine/Commits.lean: commit groups and object streams (R432 to R437, R447 to R449 of spec/13_object_dictionary.md; R58,
R59, R82, R353, R388, R389, R428 to R431, R471). -/

namespace Sys2Proof.Machine

/-! ## Groups and their captured values (R432, R435) -/

/-- The commit group of an RWS object; a trigger record's is the one that its staged value names. -/
def groupOf (s : State) (i : Nat) : Nat :=
  if 0x4000 ≤ i then (i - 0x4000) / 0x80
  else if i < 0x1218 then
    let w : BitVec 128 := BitVec.ofNat 128 (stagedVal s i 1 0)
    if trMode w = 3 then trCarrier w else 32
  else 33

/-- Insert a key in ascending order, once. -/
def insertKey (k : Nat) : List Nat → List Nat
  | [] => [k]
  | j :: t => if k < j then k :: j :: t else if k = j then j :: t else j :: insertKey k t

/-- Every RWS object that has been written or is in force or will be, in ascending order. -/
def rwsKeys (s : State) : List Nat :=
  ((s.obj.staged.map (fun p => p.1)) ++ (s.obj.inForce.map (fun p => p.1))
    ++ s.obj.commits.flatMap (fun c => c.vals.map (fun p => p.1))).foldr insertKey []

/-- The staged values of the groups in `mask`. -/
def captureGroups (s : State) (mask : Nat) : Tbl Nat :=
  ((rwsKeys s).filter (fun k => mask.testBit (groupOf s (k / 256)))).map (fun k =>
    (k, match findObj s (k / 256) (k % 256) with
        | .entry e => e.val
        | _ => 0))

/-- The state as the checks see it: the captured values of every named group, the values in force of the rest (R435). -/
def commitView (s : State) (vals : Tbl Nat) : State :=
  { s with obj := { s.obj with inForce := vals.foldl (fun t p => tset t p.1 p.2) s.obj.inForce } }

/-! ## Consistency (R436) -/

/-- An object that fails, by index and subindex, if `bad`. -/
def failing (bad : Bool) (i sub : Nat) : List (Nat × Nat) := if bad then [(i, sub)] else []

/-- A UDCOMP method and width that R471 accepts. -/
def udcompOk (c : Nat) : Bool :=
  (compMethod c == 0 && c % 16 == 0) || (compMethod c == 1 && (c % 16 == 0 || 6 ≤ c % 16))

/-- Subcarrier spacings of a frequency range (R58). -/
def scsOk (fr mu : Nat) : Bool := if fr = 1 then mu ≤ 2 else mu == 2 || mu == 3

/-- A DMRS profile; all zero is unused (R428). -/
def dmrsOk (w : BitVec 64) : Bool :=
  w == 0 || ((bitsOf w 63 62 == 1 || bitsOf w 63 62 == 2) && bitsOf w 45 44 != 0 && bitsOf w 26 25 != 3 && bitsOf w 24 23 ≤ 1)

/-- A UCI profile; SYM_COUNT 0 marks an unused one (R429). -/
def uciOk (w : BitVec 64) : Bool :=
  bitsOf w 56 53 == 0 || (bitsOf w 63 61 ≤ 4 && bitsOf w 60 57 ≤ 13 && bitsOf w 56 53 ≤ 14 && bitsOf w 52 44 ≤ 274 && 1 ≤ bitsOf w 43 39
    && bitsOf w 43 39 ≤ 16 && bitsOf w 28 25 ≤ 11 && bitsOf w 24 22 ≤ 6 && bitsOf w 21 20 != 3)

/-- A PRACH configuration (R430). -/
def prachOk (w : BitVec 64) : Bool :=
  w == 0 || (bitsOf w 55 46 ≤ 837 && bitsOf w 41 40 != 3 && bitsOf w 39 31 ≤ 274 && bitsOf w 30 28 ≤ 3)

/-- A trigger record (R388, R389). -/
def trigOk (w : BitVec 128) : Bool :=
  match trMode w with
  | 2 => 1000 ≤ trA w && trA w ≤ 1000000000 && 1000000000 % trA w == 0 && trB w < trA w && trC w < trA w
  | m => m ≤ 4

/-- Every mapped stream of the enabled carriers in a direction: carrier, stream, port, eAxC ID. -/
def mappedStreams (v : State) (dir : Nat) : List (Nat × Nat × Nat × Nat) :=
  ((List.range 32).filter (fun c => carEnabled v c)).flatMap (fun c =>
    (List.range (streamsOf v c dir)).map (fun i =>
      let m := carObj v c (if dir = 1 then 4 else 3) (i + 1)
      (c, i, m / 65536 % 32, m % 65536)))

/-- Payload bits per second of one stream of a carrier: every symbol filled, at the UDCOMP setting of the direction. -/
def streamRate (v : State) (c dir : Nat) : Nat :=
  let g := groupBytes (carField v c (if dir = 1 then 20 else 19)) * 8
  if timeDomain v c then carField v c 12 * 15000 * 2 ^ carMu v c / 12 * g
  else carField v c 5 * g * 14 * 1000 * 2 ^ carMu v c

/-- The rate of a fronthaul port (R463). -/
def portRate (s : State) : Nat := 3200000000000 / fhPorts s

/-- The traffic of all enabled carriers on a port in a direction. -/
def portLoad (v : State) (dir p : Nat) : Nat :=
  (((mappedStreams v dir).filter (fun x => x.2.2.1 == p)).map (fun x => streamRate v x.1 dir)).sum

/-- What fails in a carrier's stream map: a port that FH_MODE does not have, an eAxC ID used twice on a port, a port with too much
traffic. -/
def mapFaults (v : State) (c dir : Nat) : List (Nat × Nat) :=
  let k := if dir = 1 then 4 else 3
  let all := mappedStreams v dir
  (List.range (streamsOf v c dir)).flatMap (fun i =>
    let m := carObj v c k (i + 1)
    let p := m / 65536 % 32
    let twice := carEnabled v c && all.any (fun x => x.2.2.1 == p && x.2.2.2 == m % 65536 && !(x.1 == c && x.2.1 == i))
    failing (decide (fhPorts v ≤ p) || twice || (carEnabled v c && decide (portRate v < portLoad v dir p))) (carrierIndex c k) (i + 1))

/-- What fails in the group of carrier `c`, in ascending order of object; `s` holds the values in force, `v` the view. -/
def carrierFaults (s v : State) (c : Nat) : List (Nat × Nat) :=
  let i0 := carrierIndex c 0
  let f := carField v c
  let fixed (sub : Nat) : Bool := s.occ.state != .none && fixedSubs.contains sub && carField s c sub != f sub
  let trigs := (List.range 8).filter (fun n => trMode (trigRecord v n) = 3 ∧ trCarrier (trigRecord v n) = c)
  trigs.flatMap (fun n => failing (!trigOk (trigRecord v n)) (0x1210 + n) 1)
    ++ (List.range 21).flatMap (fun k =>
      let sub := k + 1
      failing (fixed sub
        || (sub = 4 && !scsOk (f 3) (f 4)) || (sub = 5 && decide (Config.maxPrbs (f 3) (f 4) < f 5))
        || (sub = 12 && !([256, 512, 1024, 2048, 4096].contains (f 12)))
        || (sub = 13 && decide (144 * f 12 < f 13 * 2048)) || ((sub = 19 || sub = 20) && !udcompOk (f sub))) i0 sub)
    ++ mapFaults v c 0 ++ mapFaults v c 1
    ++ (List.range 14).flatMap (fun k =>
      let w := carObj v c 5 (k + 1)
      failing (decide (w % 65536 < w / 65536)) (carrierIndex c 5) (k + 1))
    ++ (List.range 14).flatMap (fun k =>
      let w := carObj v c 6 (k + 1)
      failing (decide (w / 65536 < w % 65536)) (carrierIndex c 6) (k + 1))
    ++ failing (carObj v c 7 1 != 0 && 20 * 2 ^ carMu v c % carObj v c 7 1 != 0) (carrierIndex c 7) 1
    ++ (List.range 16).flatMap (fun k => failing (!dmrsOk (BitVec.ofNat 64 (carObj v c 8 (k + 1)))) (carrierIndex c 8) (k + 1))
    ++ (List.range 64).flatMap (fun k => failing (!uciOk (BitVec.ofNat 64 (carObj v c 9 (k + 1)))) (carrierIndex c 9) (k + 1))
    ++ (List.range 64).flatMap (fun k => failing (!prachOk (BitVec.ofNat 64 (carObj v c 10 (k + 1)))) (carrierIndex c 10) (k + 1))

/-- The units in ascending order of their record index (R423). -/
def unitsByIndex : List UAddr :=
  packageUnit :: (List.range 3).map dieUnit ++ (List.range 8).map clusterUnit ++ (List.range 48).map coreUnit
    ++ (List.range 48).flatMap coreEngines ++ (List.range 8).flatMap clusterEngines

/-- A unit's timeout breaks R353: outside a fifth to twenty times its default, below twice a child's, or below twice a planned
interval between its tokens. -/
def timeoutBad (v : State) (u : UAddr) : Bool :=
  let t := timeoutOf v u
  t * 5 < timeoutDefault u || timeoutDefault u * 20 < t || (childrenOf u).any (fun c => decide (t < 2 * timeoutOf v c))
    || (planOf v).elim false (fun p => p.tokenIntervals.any (fun x => x.1 == u && decide (t < 2 * x.2)))

/-- What fails in a group. -/
def groupFaults (s v : State) (g : Nat) : List (Nat × Nat) :=
  if g < 32 then carrierFaults s v g
  else if g = 32 then
    ((List.range 8).filter (fun n => trMode (trigRecord v n) ≠ 3)).flatMap (fun n => failing (!trigOk (trigRecord v n)) (0x1210 + n) 1)
  else (unitsByIndex.filter (timeoutBad v)).map (fun u => (recordIndex u, 3))

def maskOf (gs : List Nat) : Nat := (gs.map (fun g => 2 ^ g)).sum

/-- A commit of the groups in `mask` is served (R435): the groups that pass become pending for their Meridian. -/
def commitGroups (s : State) (mask : Nat) : State :=
  let gs := (List.range 34).filter (fun g => mask.testBit g)
  let vals := captureGroups s (maskOf gs)
  let v := commitView s vals
  let bad := gs.filter (fun g => !(groupFaults s v g).isEmpty)
  let good := gs.filter (fun g => (groupFaults s v g).isEmpty)
  let first := ((bad.head?.map (groupFaults s v)).getD []).headD (0, 0)
  let c : Commit := { target := meridianFrom s (s.time.now + 50000), mask := BitVec.ofNat 64 (maskOf good)
                      vals := vals.filter (fun p => good.contains (groupOf s (p.1 / 256))) }
  { s with obj := { s.obj with
      commits := if good = [] then s.obj.commits else s.obj.commits ++ [c]
      refused := BitVec.ofNat 64 (maskOf bad), firstFault := BitVec.ofNat 32 (first.1 * 65536 + first.2 * 256) } }

/-- The object settings as written. -/
def setRw (s : State) (i sub v : Nat) : State := { s with obj := { s.obj with rw := tset s.obj.rw (256 * i + sub) v } }

/-- COMMIT (R433, R435, R444): the opcode, a write of its mask and of COMMIT in one. -/
def commitOpcode (s : State) (req : ObjReq) : State × Nat × List Byte :=
  if req.payload.length ≠ 8 then (s, abLength, [])
  else
    let m := numOf req.who req.payload % 2 ^ 34
    let s1 := commitGroups (setRw s 0x1401 2 m) m
    (s1, 0, numBytes req.who 8 (meridianFrom s (s.time.now + 50000)) ++ numBytes req.who 8 s1.obj.refused.toNat)

/-! ## Object streams (R447, R449) -/

/-- The entries of a SUBSCRIBE payload: index and subindex. -/
def subEntries (req : ObjReq) (n : Nat) : List (Nat × Nat) :=
  (List.range n).map (fun k =>
    let b := (req.payload.drop (4 + 4 * k)).take 4
    (numOf req.who (b.take 2), ((b.drop 2).headD 0).toNat))

/-- The codes of a subscription's checks in the order of R445. -/
def subscribeCode (s : State) (req : ObjReq) (period n : Nat) (ring : Nat × Nat) : Nat :=
  let es := subEntries req n
  let found := es.map (fun e => findObj s e.1 e.2)
  let objs := found.filterMap (fun f => match f with
    | .entry e => some e
    | _ => none)
  let pcie := req.who == .pcie
  let size := 12 + (objs.map (fun e => e.size)).sum
  firstCode
    [codeIf (found.any (fun f => f == .noObject)) abUnknownObject, codeIf (found.any (fun f => f == .noUnit)) abUnknownUnit,
     codeIf (found.any (fun f => f == .noSub)) abUnknownSub, codeIf (objs.any (fun e => e.ty == tDomain || e.acc == .wo)) abAccess,
     codeIf (req.payload.length != 4 + 4 * n + (if pcie then 12 else 0) || decide (payloadLimit req.who < size)) abLength,
     codeIf (decide (1000 < period) || n == 0 || decide (32 < n)
       || (pcie && (ring.1 % 64 != 0 || ring.2 == 0 || decide (65536 < ring.2)))) abRange,
     codeIf (decide (64 ≤ s.obj.subs.length) || decide (16 ≤ (s.obj.subs.filter (fun b => b.who == req.who)).length)) abLimit]

/-- SUBSCRIBE: creates an object stream, or, with PERIOD 0, cancels the one of the same requester and TID. -/
def subscribeObj (s : State) (req : ObjReq) : State × Nat × List Byte :=
  if req.payload.length < 4 then (s, abLength, [])
  else
    let period := numOf req.who (req.payload.take 2)
    let n := numOf req.who ((req.payload.drop 2).take 2)
    let ring := (numOf req.who ((req.payload.drop (4 + 4 * n)).take 8), numOf req.who ((req.payload.drop (12 + 4 * n)).take 4))
    if period = 0 then
      ({ s with obj := { s.obj with subs := s.obj.subs.filter (fun b => !(b.who == req.who && b.tid == req.tid)) } }, 0, [])
    else
      let c := subscribeCode s req period n ring
      let b : Sub := { who := req.who, tid := req.tid, period := period
                       entries := (subEntries req n).map (fun e => (BitVec.ofNat 16 e.1, BitVec.ofNat 8 e.2))
                       ringAddr := ring.1, ringSlots := ring.2, seq := 0 }
      (if c = 0 then { s with obj := { s.obj with subs := s.obj.subs ++ [b] } } else s, c, [])

/-- SUBSCRIBE (R447). -/
def execSubscribe (req : ObjReq) (t : Time) (s : State) : Out :=
  timed s t (serve req (req.opcode = 6) (fun s => subscribeObj s req))

end Sys2Proof.Machine
end

