-- ==== Sys2Proof/Machine/Pins.lean ====
section
/-! DEFINITION. Machine/Pins.lean: resets, rails, sensors, AVS, pin faults and JTAG (R484, R485 of spec/14_external_interfaces.md; R523 to
R538 of spec/17_package_power_and_pins.md; R376, R391, R392, R493). -/

namespace Sys2Proof.Machine

def modPins (s : State) (f : PinSt → PinSt) : State := { s with pins := f s.pins }

/-! ## Pin status (R532, R536) -/

def faultBit : PinFault → Nat
  | .shortLow => 0
  | .shortHigh => 1
  | .opened => 2
  | .inverted => 3
  | .noSignal => 4

def pinStatus (s : State) (k : Nat) : BitVec 8 := (tget s.pins.status k).getD 0

/-- A pin status bit becomes 1: a change writes a record whose ADDRESS is that of the pin's status byte. -/
def setPinBit (s : State) (k bit : Nat) : State :=
  if bitOf (pinStatus s k) bit then s
  else
    let s := modPins s (fun p => { p with status := tset p.status k (pinStatus s k ||| BitVec.ofNat 8 (2 ^ bit)) })
    recordFaultAt s (dieUnit 2) causeEnvironment 0 0 0 0 (envWindow + 0x200 + k)

/-- A pin status bit returns to 0: no record. -/
def clearPinBit (s : State) (k bit : Nat) : State :=
  if bitOf (pinStatus s k) bit then
    modPins s (fun p => { p with status := tset p.status k (pinStatus s k &&& ~~~(BitVec.ofNat 8 (2 ^ bit))) })
  else s

/-- The low-speed signals on which a fault is detected (R520, R532). -/
def detects (k : Nat) : PinFault → Bool
  | .shortLow => k == 2 || k == 3 || k == 11 || (14 ≤ k && k ≤ 21) || k == 31 || k == 33 || k == 34
  | .shortHigh => k == 2 || k == 3 || k == 11 || (14 ≤ k && k ≤ 21) || k == 31 || k == 33 || k == 34
  | .opened => k == 10 || (22 ≤ k && k ≤ 25) || k == 32
  | .inverted => k == 10
  | .noSignal => k == 10 || k == 12 || k == 13

/-- The time source that a signal feeds (R378): PPS_IN or REF_IN. -/
def pinSource (k : Nat) : Nat := if k = 10 then 2 else 5

/-- PIN_FAULT_DETECT (R532). -/
def execPinFaultDetect (k : Nat) (fault : PinFault) (t : Time) (s : State) : Out :=
  timed s t (fun s =>
    if !detects k fault then s
    else
      let s := setPinBit s k (faultBit fault)
      match fault with
      | .noSignal => setUnavailable s (pinSource k)
      | .inverted => modTime s (fun x => { x with ppsInverted := true })
      | _ => s)

/-- PIN_STATUS_CLEAR (R532): the bit returns to 0; a source whose signal is back is available again. -/
def execPinStatusClear (k : Nat) (fault : PinFault) (t : Time) (s : State) : Out :=
  timed s t (fun s =>
    if !detects k fault then s
    else
      let s := clearPinBit s k (faultBit fault)
      match fault with
      | .noSignal => setAvailable s (pinSource k)
      | _ => s)

/-- BIAS_SENSE (R534): a timing input that follows the bias is open. Straps are sensed only where they are sampled. -/
def execBiasSense (k : Nat) (followsBias : Bool) (t : Time) (s : State) : Out :=
  timed s t (fun s =>
    if !detects k .opened then s else if followsBias then setPinBit s k 2 else clearPinBit s k 2)

/-! ## Cold reset (R376, R391, R392, R493, R527, R533) -/

/-- What the pins are after a cold reset: the levels, rails and temperatures that stand outside the device, the straps as sampled, an
open one taken as 0. -/
def coldPins (p : PinSt) (straps openStraps : BitVec 6) : PinSt :=
  { porLow := p.porLow, perstLow := p.perstLow, railBad := p.railBad, thermtrip := p.thermtrip, temps := p.temps, railMv := p.railMv
    boundary := p.boundary, devnum := straps &&& ~~~openStraps, openStrap := openStraps }

/-- The device after a cold reset: its fuses and the free values taken stay, everything else is as State.reset has it. -/
def coldReset (s : State) (straps openStraps : BitVec 6) (evt : BitVec 4) : State :=
  let pins := coldPins s.pins straps openStraps
  let r := State.reset
  { r with
    pending := s.pending, out := s.out, freeCount := s.freeCount
    life := { s.life with transition := none, partialReq := [], patch := none, patchCopies := [none, none] }
    pins := pins
    pcie := { r.pcie with bar4 := pins.devnum }
    time := { r.time with evt := (List.range 4).map (fun i => ({ level := bitOf evt i } : EvtIn)) } }

/-- A Vrelol fault condition becomes 1 (R486). -/
def vlCondition (s : State) (n bit : Nat) (on : Bool) : State :=
  let was := bitOf (vlPort s n).faults bit
  let m : BitVec 16 := BitVec.ofNat 16 (2 ^ bit)
  let s := modVl s n (fun x => { x with faults := if on then x.faults ||| m else x.faults &&& ~~~m })
  if on && !was && (bit ≤ 1 || 5 ≤ bit) then envFault s else s

/-- A strap found open is reported, and no Vrelol port joins until the next cold reset (R533). -/
def reportStraps (s : State) : State :=
  let bad := (List.range 6).filter (fun i => bitOf s.pins.openStrap i)
  let s := bad.foldl (fun s i => setPinBit s (4 + i) 2) s
  if bad.isEmpty then s else (List.range 8).foldl (fun s n => vlCondition s n 10 true) s

/-- The reset ends once nothing holds it: the straps and event levels are sampled. A rail out of tolerance keeps the device in reset
and drives ALERT_N (R527). -/
def endReset (s : State) (straps openStraps : BitVec 6) (evt : BitVec 4) : State :=
  if s.pins.porLow || s.pins.perstLow then s
  else if s.pins.railBad then modPins s (fun p => { p with alert := true })
  else reportStraps (coldReset s straps openStraps evt)

/-- A cold reset starts; the number sampled last stands until the straps are sampled again. -/
def startReset (s : State) : State := coldReset s s.pins.devnum 0 0

/-- POR_N_ASSERT (R527, R538). -/
def execPorNAssert (_t : Time) (s : State) : Out :=
  .next (modPins (startReset s) (fun p => { p with porLow := true, thermtrip := false }))

/-- POR_N_DEASSERT (R527). -/
def execPorNDeassert (straps openStraps : BitVec 6) (evtLevels : BitVec 4) (_t : Time) (s : State) : Out :=
  .next (if s.pins.porLow then endReset (modPins s (fun p => { p with porLow := false })) straps openStraps evtLevels else s)

/-- PERST_N_ASSERT (R461). -/
def execPerstNAssert (_t : Time) (s : State) : Out := .next (modPins (startReset s) (fun p => { p with perstLow := true }))

/-- PERST_N_DEASSERT (R527). -/
def execPerstNDeassert (straps openStraps : BitVec 6) (evtLevels : BitVec 4) (_t : Time) (s : State) : Out :=
  .next (if s.pins.perstLow then endReset (modPins s (fun p => { p with perstLow := false })) straps openStraps evtLevels else s)

/-- RAIL_DIP (R528): a deep dip, of more than 20 µs, is an internal cold reset that drives ALERT_N; a shallow one only shows in the
rail's reading. -/
def execRailDip (rail milliVolts : Nat) (deep : Bool) (t : Time) (s : State) : Out :=
  let read (s : State) : State := modPins s (fun p => { p with railMv := lmod p.railMv rail (fun _ => milliVolts) })
  if 13 ≤ rail then .next s
  else if deep then .next (modPins (startReset (read s)) (fun p => { p with railBad := true, alert := true }))
  else .next (read (s.atTime t))

/-- RAIL_RECOVERY (R527, R528): every rail is in tolerance again. -/
def execRailRecovery (straps openStraps : BitVec 6) (evtLevels : BitVec 4) (_t : Time) (s : State) : Out :=
  let s1 := modPins s (fun p => { p with railMv := (railNominal.map (fun x => x.1)), railBad := false, alert := p.alert && !p.railBad })
  .next (if s.pins.railBad then endReset s1 straps openStraps evtLevels else s1)

/-! ## Sensors and throttle (R535, R537, R538) -/

/-- A reading in units of 1/256 °C is valid. -/
def tempValid (v : Int) : Bool := -10240 ≤ v && v ≤ 38400

/-- One reading of sensor `k` of die `d`: an invalid one is recorded when it becomes so. -/
def takeReading (d : Nat) (s : State) (x : Nat × Int) : State :=
  let k := (dieSensors d).1 + x.1
  let was := s.pins.temps.getD k none
  let s := modPins s (fun p => { p with temps := lmod p.temps k (fun _ => if tempValid x.2 then some x.2 else none) })
  if was.isSome && !tempValid x.2 then recordFaultAt s (dieUnit d) causeEnvironment 0 0 0 0 0 else s

/-- The temperature that throttle acts on: a die with fewer than half its sensors valid counts as at 100 °C. -/
def dieTemp (s : State) (d : Nat) : Int := if s.pins.tempLatched.getD d false then 25600 else (hottest s d).elim 25600 (fun x => x.2)

/-- The throttle level of die `d` follows its temperature. -/
def throttleDie (s : State) (d : Nat) : State :=
  let old := s.pins.throttle.getD d 0
  let v := dieTemp s d
  let since := if v < 24832 then some ((s.pins.below97.getD d none).getD s.time.now) else none
  let level := if 26112 ≤ v then 2 else if 25600 ≤ v then 1
    else if since.elim false (fun b => decide (b + 10000000 ≤ s.time.now)) then 0 else old
  let s := modPins s (fun p => { p with
    throttle := lmod p.throttle d (fun _ => level), below97 := lmod p.below97 d (fun _ => since) })
  if old < level then timingEvent (recordFaultAt s (dieUnit d) causeThrottle 0 0 0 0 0) 4 (dieUnit d) 0
  else if level = 0 ∧ old ≠ 0 then timingEvent s 5 (dieUnit d) 0
  else s

/-- A sensor at 105 °C trips (R538): every island clock stops, THERMTRIP_N is asserted, the package halts. -/
def tripPackage (s : State) : State :=
  let s := modPins s (fun p => { p with thermtrip := true })
  let s := { s with islands := (List.range 61).foldl (fun t i => tset t i { islandOf s i with stopped := true, since := s.time.now }) s.islands }
  haltPackage s

/-- SENSOR_SAMPLE (R535, R537, R538, R524): the sensors of a die are read, in units of 1/256 °C; a reading of an open or shorted
sensor lies outside the valid range. -/
def execSensorSample (die : BitVec 2) (readings : List Int) (t : Time) (s : State) : Out :=
  timed s t (fun s =>
    let d := die.toNat
    if 3 ≤ d then s
    else
      let band (s : State) : Option Int := (hottest s d).map (fun h => h.2 / 1280)
      let before := band s
      let n := (dieSensors d).2
      let s := (((List.range n).zip readings)).foldl (takeReading d) s
      let s := if (validSensors s d).length * 2 < n then modPins s (fun p => { p with tempLatched := lmod p.tempLatched d (fun _ => true) })
        else s
      let s := throttleDie s d
      let s := if d ≤ 1 ∧ band s ≠ before then avsRetarget s d else s
      if (validSensors s d).any (fun x => decide (26880 ≤ x.2)) then tripPackage s else s)

/-- AVS_NO_RESPONSE (R525): the target stands, the rail is marked, the regulator is asked again at each Meridian. -/
def execAvsNoResponse (die : BitVec 1) (t : Time) (s : State) : Out :=
  timed s t (fun s =>
    envFault (modPins s (fun p => { p with avsNoResponse := lmod p.avsNoResponse die.toNat (fun _ => true) })))

/-! ## The sideband's lines (R484) -/

/-- SIDEBAND_STUCK (R484): a line low for more than 35 ms; each episode writes one record, each clearing attempt is counted. -/
def execSidebandStuck (sdaLow sclLow ownDrive : Bool) (lowMicros : Nat) (t : Time) (s : State) : Out :=
  timed s t (fun s =>
    let stuck (b : Bool) (s : State) : State := { s with bus := { s.bus with stuck := b } }
    let clear (s : State) : State := { s with bus := { s.bus with busClears := (s.bus.busClears + 1) % 2 ^ 32 } }
    if !sdaLow && !sclLow then stuck false s
    else if lowMicros ≤ 35000 then s
    else
      let s := if s.bus.stuck then s else envFault s
      if ownDrive then clear { s with bus := { s.bus with stuck := false, i3cAddr := none } }
      else if !sclLow then (clear (stuck true s)).emit (.sclPulses 9)
      else stuck true s)

/-! ## JTAG (R485) -/

/-- The instruction in force: 0 BYPASS, 1 IDCODE, 2 SAMPLE/PRELOAD, 3 EXTEST, 4 EXTEST_PULSE, 5 EXTEST_TRAIN, 6 CLAMP, 7 HIGHZ. -/
def setJtag (s : State) (n : Nat) : State := modPins s (fun p => { p with jtag := n })

def bitsLE (n v : Nat) : List Bool := (List.range n).map (fun i => v.testBit i)

/-- JTAG_BYPASS: one bit of delay, captured as 0 (log entry 24). -/
def execJtagBypass (tdi : Bool) (s : State) : Out := .next ((setJtag s 0).emit (.jtag [false, tdi]))
/-- JTAG_IDCODE. -/
def execJtagIdcode (s : State) : Out := .next ((setJtag s 1).emit (.jtag (bitsLE 32 0x10348547)))
/-- JTAG_SAMPLE_PRELOAD: the boundary register is loaded; the bits it sampled are free values (log entry 3). -/
def execJtagSamplePreload (preload : List Bool) (s : State) : Out :=
  let r := s.free (2 ^ preload.length)
  .next ((setJtag (modPins r.2 (fun p => { p with boundary := preload })) 2).emit (.jtag (bitsLE preload.length r.1)))

/-- An instruction that drives pins takes effect only in occupancy state NONE; otherwise it is BYPASS, with a record. -/
def driveJtag (n : Nat) (t : Time) (s : State) : Out :=
  let s := s.atTime t
  if s.occ.state = .none then .next (setJtag s n) else .next (setJtag (envFault s) 0)

/-- JTAG_EXTEST. -/
def execJtagExtest (t : Time) (s : State) : Out := driveJtag 3 t s
/-- JTAG_EXTEST_PULSE. -/
def execJtagExtestPulse (t : Time) (s : State) : Out := driveJtag 4 t s
/-- JTAG_EXTEST_TRAIN. -/
def execJtagExtestTrain (t : Time) (s : State) : Out := driveJtag 5 t s
/-- JTAG_CLAMP. -/
def execJtagClamp (t : Time) (s : State) : Out := driveJtag 6 t s
/-- JTAG_HIGHZ. -/
def execJtagHighz (t : Time) (s : State) : Out := driveJtag 7 t s

end Sys2Proof.Machine
end

