-- ==== Sys2Proof/Machine/Lifecycle.lean ====
section
/-! DEFINITION. Machine/Lifecycle.lean: lifecycle requests, transitions, patches (R488 to R499 of spec/15_lifecycle_and_trust.md). -/

namespace Sys2Proof.Machine

def modLife (s : State) (f : LifeSt → LifeSt) : State := { s with life := f s.life }

/-! ## The header (R489) -/

def lqSerial (r : LifeReq) : BitVec 128 := BitVec.ofNat 128 (bitsOf r.header 511 384)
def lqCount (r : LifeReq) : Nat := bitsOf r.header 255 224
def lqImmediate (r : LifeReq) : Bool := bitOf r.header 208
def lqSigner (r : LifeReq) : Nat := bitsOf r.header 207 200
def lqOp (r : LifeReq) : Nat := bitsOf r.header 199 192
def lqSlot (r : LifeReq) : Nat := bitsOf r.header 191 184
def lqBodyBytes (h : BitVec 512) : Nat := bitsOf h 183 160

/-- The length of a request whose header is `h`: header, body, an owner's key, a signature except for CERTIFY. -/
def lifeLength (h : BitVec 512) : Nat :=
  64 + lqBodyBytes h + (if bitsOf h 207 200 ≤ 3 then 1952 else 0) + (if bitsOf h 199 192 = 2 then 0 else 3309)

/-- The request that bytes spell. -/
def lifeReqOf (bs : List Byte) : LifeReq :=
  let h : BitVec 512 := BitVec.ofNat 512 (ofBytesLE (bs.take 64))
  let n := lqBodyBytes h
  let k := if bitsOf h 207 200 ≤ 3 then 1952 else 0
  { header := h, body := (bs.drop 64).take n, ownerKey := (bs.drop (64 + n)).take k, signature := bs.drop (64 + n + k), length := bs.length }

/-- Operations 0x01 and 0x05 to 0x08 are transitions (R490). -/
def isTransition (op : Nat) : Bool := op == 1 || (5 ≤ op && op ≤ 8)

/-! ## The checks (R490, R491) -/

/-- A fused, unrevoked owner slot. -/
def ownerLive (s : State) (n : Nat) : Bool := n ≤ 3 && bitOf s.life.ownerFused n && !bitOf s.life.ownerRevoked n
def liveSlots (s : State) : Nat := ((List.range 4).filter (ownerLive s)).length

/-- Length, reserved fields, OPERATION and SIGNER are well formed. -/
def lifeFormOk (r : LifeReq) : Bool :=
  r.length == lifeLength r.header && bitsOf r.header 383 256 == 0 && bitsOf r.header 223 209 == 0 && bitsOf r.header 159 0 == 0
    && lqBodyBytes r.header ≤ 65600 && r.body.length == lqBodyBytes r.header
    && 1 ≤ lqOp r && lqOp r ≤ 9 && (lqSigner r ≤ 3 || lqSigner r == 0x10 || lqSigner r == 0x11 || lqSigner r == 0xFF)
    && (if lqOp r = 3 ∨ lqOp r = 4 then lqSlot r ≤ 3 else lqSlot r == 0)
    && (lqOp r == 2 || lqOp r == 9 || lqBodyBytes r.header == (if lqOp r = 3 then 64 else 0))

/-- SERIAL, and COUNT where it applies; 128 accepted requests refuse every later one. -/
def lifeCountOk (s : State) (r : LifeReq) : Bool :=
  lqSerial r == Config.serial && (lqOp r == 9 || (lqCount r == s.life.requests && decide (s.life.requests < 128)))

/-- The operation is permitted in the present state, by this signer. -/
def lifePermitted (s : State) (r : LifeReq) : Bool :=
  let st := s.life.state
  let owner := ownerLive s (lqSigner r)
  match lqOp r with
  | 1 => st == 0 && lqSigner r == 0x10
  | 2 => st == 1 && !s.life.certified && lqSigner r == 0xFF
  | 3 => ((st == 1 || st == 3) && lqSigner r == 0x10) || (st == 2 && owner)
  | 4 => (st == 2 || st == 3) && owner
  | 5 => st == 1 && s.life.certified && liveSlots s != 0 && owner
  | 6 => st == 2 && owner
  | 7 => st == 3 && owner
  | 8 => (st == 1 || st == 2 || st == 3) && (owner || lqSigner r == 0x10)
  | 9 => st ≤ 3 && s.occ.state == .none && lqSigner r == 0x11
  | _ => false

/-- ENROL_OWNER into a free slot; REVOKE_OWNER of a fused, unrevoked slot that is not the last. -/
def lifeSlotOk (s : State) (r : LifeReq) : Bool :=
  match lqOp r with
  | 3 => !bitOf s.life.ownerFused (lqSlot r)
  | 4 => ownerLive s (lqSlot r) && decide (2 ≤ liveSlots s)
  | _ => true

/-- The bytes that a request's signature covers. -/
def lifeSigned (r : LifeReq) : List Byte := bytesLE 64 r.header.toNat ++ r.body ++ r.ownerKey

/-- The owner key matches its slot, and the signature verifies; CERTIFY carries none. -/
def lifeSignedOk (s : State) (r : LifeReq) : Bool :=
  let d := Config.shake256 (lifeSigned r)
  if lqSigner r ≤ 3 then Config.shake256 r.ownerKey == ownerHashOf s (lqSigner r) && Config.mldsaVerify r.ownerKey d r.signature
  else if lqSigner r = 0x10 then Config.mldsaVerify Config.romLifecycleKey d r.signature
  else if lqSigner r = 0x11 then Config.mldsaVerify Config.romFirmwareKey d r.signature
  else true

/-- The certificate of a CERTIFY body (R495). -/
def certificateOk (s : State) (b : List Byte) : Bool :=
  let h : BitVec 512 := BitVec.ofNat 512 (ofBytesLE (b.take 64))
  b.length == 5325 && bitsOf h 511 384 == Config.serial.toNat && bitsOf h 383 368 == 1
    && (b.drop 64).take 1952 == Config.identityKey s.life.keyGen
    && Config.mldsaVerify Config.romRootKey (Config.shake256 (b.take 2016)) (b.drop 2016)

def patchHeader (b : List Byte) : BitVec 512 := BitVec.ofNat 512 (ofBytesLE (b.take 64))

/-- The patch record of an INSTALL_PATCH body (R498). -/
def patchOk (s : State) (b : List Byte) : Bool :=
  let h := patchHeader b
  let n := bitsOf h 439 416
  let level := bitsOf h 479 448
  let floor := bitsOf h 447 440
  1 ≤ n && n ≤ 65536 && b.length == 64 + n + 3309 && bitsOf h 511 480 == Config.romRevision.toNat && 1 ≤ level && floor ≤ 16
    && s.life.patchFloor ≤ level && floor ≤ level
    && patchSigned b

def lifeBodyOk (s : State) (r : LifeReq) : Bool :=
  match lqOp r with
  | 2 => certificateOk s r.body
  | 9 => patchOk s r.body
  | _ => true

/-- The abort code of the first check that fails (R491). -/
def lifeCode (s : State) (r : LifeReq) : Nat :=
  firstCode [codeIf (!lifeFormOk r) abRange, codeIf (!lifeCountOk s r) abRange, codeIf s.life.transition.isSome abState,
    codeIf (!lifePermitted s r) abLifecycle, codeIf (!lifeSlotOk s r) abLifecycle, codeIf (!lifeSignedOk s r) abLifecycle,
    codeIf (!lifeBodyOk s r) abLifecycle]

/-! ## Acceptance (R490, R492, R498) -/

/-- An accepted transition: a load is abandoned, an occupancy goes through Twilight unless IMMEDIATE is set. -/
def acceptTransition (s : State) (r : LifeReq) : State :=
  let s := modLife s (fun l => { l with transition := some (lqOp r, lqImmediate r) })
  if lqImmediate r then abandonLoad s
  else
    match s.occ.state with
    | .none => s
    | .loading => abandonLoad s
    | .running => startTwilight s .transition
    | .twilight => modOcc (cancelQueued s) (fun o => { o with after := .transition })

/-- INSTALL_PATCH: the floor rises, the record takes effect and the control processor restarts. -/
def installPatch (s : State) (b : List Byte) : State :=
  let h := patchHeader b
  restartCp (modLife s (fun l => { l with
    patchFloor := max l.patchFloor (bitsOf h 447 440), patch := some (BitVec.ofNat 32 (bitsOf h 479 448), Config.shake256 b)
    patchCopies := [some b, some b] }))

/-- An accepted request takes effect; one that is no transition is counted at once. -/
def acceptLife (s : State) (r : LifeReq) : State :=
  let one (l : LifeSt) : LifeSt := { l with requests := l.requests + 1 }
  match lqOp r with
  | 2 => modLife s (fun l => { one l with certified := true, certificate := some r.body })
  | 3 => modLife s (fun l => { one l with
      ownerFused := l.ownerFused ||| BitVec.ofNat 4 (2 ^ lqSlot r)
      ownerHash := lmod l.ownerHash (lqSlot r) (fun _ => some (BitVec.ofNat 512 (ofBytesLE r.body))) })
  | 4 => modLife s (fun l => { one l with ownerRevoked := l.ownerRevoked ||| BitVec.ofNat 4 (2 ^ lqSlot r) })
  | 9 => installPatch s r.body
  | _ => acceptTransition s r

/-- A whole request is submitted: the state after it and its abort code. -/
def submitLife (s : State) (r : LifeReq) : State × Nat :=
  let c := lifeCode s r
  (if c = 0 then acceptLife s r else s, c)

/-- The bytes of a WRITE_BLOCK to LIFECYCLE_REQUEST at `off` (R488): OFFSET 0 starts a new request, others go on; the block that
completes it submits it. -/
def writeLife (s : State) (off : Nat) (bs : List Byte) : State × Nat :=
  let have_ := if off = 0 then [] else s.life.partialReq
  if off ≠ have_.length then (s, abRange)
  else
    let all := have_ ++ bs
    let n := lifeLength (BitVec.ofNat 512 (ofBytesLE (all.take 64)))
    if all.length < 64 ∨ all.length < n then (modLife s (fun l => { l with partialReq := all }), 0)
    else submitLife (modLife s (fun l => { l with partialReq := [] })) (lifeReqOf all)

/-- A whole request of operation `op`. -/
def lifeRow (op : Nat) (r : LifeReq) (t : Time) (s : State) : Out :=
  timed s t (fun s =>
    if lqOp r ≠ op ∨ s.cp.restarting ∨ (unitOf s (dieUnit 2)).phase ≠ .live then s else (submitLife s r).1)

/-- PROVISION (R490, R494). -/
def execProvision (r : LifeReq) (t : Time) (s : State) : Out := lifeRow 1 r t s
/-- CERTIFY (R495). -/
def execCertify (r : LifeReq) (t : Time) (s : State) : Out := lifeRow 2 r t s
/-- ENROL_OWNER (R490). -/
def execEnrolOwner (r : LifeReq) (t : Time) (s : State) : Out := lifeRow 3 r t s
/-- REVOKE_OWNER (R490). -/
def execRevokeOwner (r : LifeReq) (t : Time) (s : State) : Out := lifeRow 4 r t s
/-- DEPLOY (R490). -/
def execDeploy (r : LifeReq) (t : Time) (s : State) : Out := lifeRow 5 r t s
/-- RETURN (R490). -/
def execReturnDevice (r : LifeReq) (t : Time) (s : State) : Out := lifeRow 6 r t s
/-- REDEPLOY (R490). -/
def execRedeploy (r : LifeReq) (t : Time) (s : State) : Out := lifeRow 7 r t s
/-- DECOMMISSION (R490). -/
def execDecommission (r : LifeReq) (t : Time) (s : State) : Out := lifeRow 8 r t s
/-- INSTALL_PATCH (R498). -/
def execInstallPatch (r : LifeReq) (t : Time) (s : State) : Out := lifeRow 9 r t s

/-- The fuses after a transition (R490, R494). -/
def fuseTransition (l : LifeSt) (op : Nat) : LifeSt :=
  let l := { l with requests := l.requests + 1 }
  match op with
  | 1 => { l with state := 1, keyGen := l.keyGen + 1, keyDestroyed := false }
  | 5 => { l with state := 2 }
  | 6 => { l with state := 3 }
  | 7 => { l with state := 2 }
  | 8 => { l with state := 4, keyDestroyed := true }
  | _ => l

/-- TRANSITION_APPLY (R492, R493): after any Twilight the fuses are programmed, everything is wiped, and a cold reset follows that
samples the straps again. -/
def execTransitionApply (t : Time) (s : State) : Out :=
  timed s t (fun s =>
    match s.life.transition with
    | none => s
    | some (op, imm) =>
      if imm || s.occ.state == .none then
        let s := { s with life := fuseTransition s.life op }
        reportStraps (coldReset s (s.pins.devnum ||| s.pins.openStrap) s.pins.openStrap
          (BitVec.ofNat 4 ((List.range 4).map (fun i => if (s.time.evt.getD i {}).level then 2 ^ i else 0)).sum))
      else s)

end Sys2Proof.Machine
end

