-- ==== Sys2Proof/Machine/Objects.lean ====
section
/-! DEFINITION. Machine/Objects.lean: WRITE, WRITE_BLOCK, COMMIT and the objects whose writes act (R411, R414 to R425, R444, R445 of
spec/13_object_dictionary.md; R301, R302, R306, R307, R373, R378, R384, R406, R463, R507, R514). -/

namespace Sys2Proof.Machine

/-! ## Ranges and states of particular objects -/

/-- The level of a counter record (R510): 1 core, 2 cluster, 3 compute die, 4 I/O die, 5 package. -/
def counterLevel (u : UAddr) : Nat := if uLevel u = 3 then (if uDie u = 2 then 4 else 3) else if uLevel u = 4 then 5 else uLevel u

/-- The event is defined for the level (R510); 0 counts nothing. -/
def eventAt (lvl ev : Nat) : Bool :=
  ev == 0 ||
  match lvl with
  | 1 => (1 ≤ ev && ev ≤ 4) || (0x10 ≤ ev && ev ≤ 0x13) || (0x20 ≤ ev && ev ≤ 0x23) || (0x30 ≤ ev && ev ≤ 0x34)
  | 2 => (0x30 ≤ ev && ev ≤ 0x33) || (0x40 ≤ ev && ev ≤ 0x48)
  | 3 => ev == 0x32 || ev == 0x33 || (0x50 ≤ ev && ev ≤ 0x52)
  | 4 => ev == 0x32 || ev == 0x33 || (0x60 ≤ ev && ev ≤ 0x69)
  | _ => 0x70 ≤ ev && ev ≤ 0x75

/-- The SOURCE names an instance that raises the event, or all of them. -/
def sourceAt (lvl ev k : Nat) : Bool :=
  !eventHasInst ev || k == 15 ||
    (if ev ≤ 4 then k ≤ 3
     else if ev = 0x30 ∨ ev = 0x31 then k == (if lvl = 1 then 6 else 9)
     else if ev = 0x41 then k ≤ 1
     else if ev = 0x40 ∨ ev = 0x42 then k ≤ 2
     else if ev ≤ 0x47 then 3 ≤ k && k ≤ 8
     else k ≤ 7)

/-- A counter configuration (R507). -/
def counterCfgOk (i v : Nat) : Bool :=
  match counterUnitOf i with
  | some u => eventAt (counterLevel u) (v / 2 ^ 24) && sourceAt (counterLevel u) (v / 2 ^ 24) (v / 2 ^ 20 % 16)
  | none => true

/-- DEPTH: 0, or a power of two from 2 to 65,536 (R306). -/
def depthOk (v : Nat) : Bool := v == 0 || (List.range 16).any (fun k => v == 2 ^ (k + 1))

/-- The BARRIER body that GLOBAL_OP holds (R418). -/
def globalBody (v : Nat) : BitVec 1024 := BitVec.ofNat 1024 (v % 2 ^ 122 * 2 ^ 256)

/-- The value is in range, beyond the bounds of the object's entry. -/
def rangeOk (s : State) (i sub v : Nat) : Bool :=
  if i = 0x1021 then v < 2048 || v == 0xFFFF
  else if i = 0x1221 ∧ sub = 5 then v % 10 == 0
  else if 0x1218 ≤ i ∧ i < 0x121C ∧ sub = 3 then !precedes ((s.time.evt.getD (i - 0x1218) {}).count) v
  else if i = 0x1223 then
    eBarOp (globalBody v) != 3 && barrierFits s (globalBody v) s.time.now
  else if i = 0x1400 ∧ sub = 2 then v % 64 == 0
  else if i = 0x1408 ∧ sub = 1 then v % 4096 == 0
  else if 0x2000 ≤ i ∧ i < 0x3000 then
    (if sub = 1 then v % 128 == 0 else if sub = 2 ∨ sub = 3 then v % 64 == 0 else if sub = 4 then depthOk v else true)
  else if i = 0x38F0 ∧ sub = 2 then v < 2048 || v == 0xFFFF
  else if i = 0x38F0 ∧ sub = 4 then !precedes s.pmu.written v
  else if 0x3800 ≤ i ∧ i < 0x3840 ∧ 3 ≤ sub ∧ sub ≤ 6 then counterCfgOk i v
  else if 0x4000 ≤ i ∧ i % 0x80 = 0 ∧ sub = 12 then [256, 512, 1024, 2048, 4096].contains v
  else true

/-- The write is allowed in the present occupancy or queue state. -/
def stateOk (s : State) (i sub v : Nat) : Bool :=
  let none_ := s.occ.state == .none
  if (i = 0x1209 ∧ sub ≤ 2) ∨ i = 0x1220 ∨ i = 0x1310 ∨ (i = 0x1208 ∧ sub = 2) then none_
  else if i = 0x1408 then none_ || s.occ.state == .twilight
  else if i = 0x1400 ∧ sub = 4 then
    (if v = 1 then none_ || s.occ.state == .twilight
     else if v = 2 then !none_ && (s.occ.state != .twilight || s.occ.queuedLoad.isSome)
     else true)
  else if 0x2000 ≤ i ∧ i < 0x3000 then
    let q := queueOf s (i - 0x2000)
    if sub = 4 ∧ v = 0 then q.tail == q.completeNext else q.qstate == 0
  else true

/-- The write is allowed in the present lifecycle state (R488). -/
def lifecycleOk (s : State) (i sub v : Nat) : Bool := !(i = 0x1400 ∧ sub = 4 ∧ v = 1) || s.life.state == 2 || s.life.state == 3

/-- The codes of a write of `v` to an object whose access was checked, in the order of R445. -/
def valueCode (s : State) (e : Entry) (i sub v : Nat) : Nat :=
  firstCode [codeIf (decide (v < e.lo) || decide (e.hi < v) || !rangeOk s i sub v) abRange, codeIf (!stateOk s i sub v) abState,
    codeIf (!lifecycleOk s i sub v) abLifecycle]

/-! ## What a write does -/

/-- A new FH_MODE re-divides the lanes: every port goes down to retrain (R463). -/
def setFhMode (s : State) (v : Nat) : State :=
  let s := setUnavailable (setRw s 0x1310 0 v) 4
  { s with fh := { s.fh with ports := s.fh.ports.map (fun p => { p with up := false, peer := none }) } }

/-- STEP_ACCEPT applies the refused offset (R384). -/
def acceptStep (s : State) : State :=
  modTime s (fun x => { x with now := ((x.now : Int) - x.refusedOffset).toNat, refusalRun := false })

/-- GLOBAL_OP starts a global operation without an item (R406). -/
def startGlobal (s : State) (v : Nat) : State :=
  let e := globalBody v
  startOp s e (barTime s e s.time.now) (barLead s e)

/-- A queue parameter (R306); DEPTH opens or closes the pair (R307). -/
def writeQueue (s : State) (q sub v : Nat) : State :=
  let set (f : QueueSt → QueueSt) : State := modQueue s q f
  match sub with
  | 1 => set (fun x => { x with sqBase := v })
  | 2 => set (fun x => { x with cqBase := v })
  | 3 => set (fun x => { x with ledger := v })
  | 4 => if v ≠ 0 then openQueue s q v else if (queueOf s q).qstate = 0 then s else closeQueue s q
  | 5 => set (fun x => { x with firstSeq := v })
  | 6 => set (fun x => { x with client := v })
  | 7 => set (fun x => { x with vector := v })
  | 8 => set (fun x => { x with modCount := v })
  | 9 => set (fun x => { x with modTime := v })
  | _ => s

/-- A counter's configuration, value or overflow bits (R505, R507, R509). -/
def writeCounter (s : State) (i sub v : Nat) : State :=
  let r := counterOf s i
  let r := if 3 ≤ sub ∧ sub ≤ 6 then { r with config := lmod r.config (sub - 3) (fun _ => BitVec.ofNat 32 v) }
    else if 7 ≤ sub ∧ sub ≤ 10 then { r with count := lmod r.count (sub - 7) (fun _ => BitVec.ofNat 64 v) }
    else if sub = 11 then { r with overflow := r.overflow &&& ~~~(BitVec.ofNat 4 v) }
    else r
  { s with pmu := { s.pmu with recs := tset s.pmu.recs i r } }

/-- A value is staged (R434). -/
def stage (s : State) (i sub v : Nat) : State := { s with obj := { s.obj with staged := tset s.obj.staged (256 * i + sub) v } }

/-- A write whose checks passed acts. LOAD has a command of its own, which carries the image. -/
def applyWrite (s : State) (i sub v : Nat) : State :=
  if i = 0x1010 then (if v = 1 ∧ ¬s.pins.halted then modPins s (fun p => { p with alert := false }) else s)
  else if i = 0x1205 then modTime s (fun x => { x with todNext := some v })
  else if i = 0x1208 then
    (if v = 0 then s
     else if sub = 1 then modTime s (fun x => { x with stepRefused := false })
     else if sub = 2 then acceptStep s
     else if sub = 3 then modTime s (fun x => { x with teExceeded := false })
     else modTime s (fun x => { x with ppsInverted := false }))
  else if 0x1210 ≤ i ∧ i < 0x1218 then
    (if sub = 1 then stage s i 1 v
     else if v = 1 then modTime s (fun x => { x with trigMissed := lmod x.trigMissed (i - 0x1210) (fun _ => false) }) else s)
  else if i = 0x1223 then startGlobal s v
  else if i = 0x1310 then setFhMode s v
  else if i = 0x1400 ∧ sub = 4 then (if v = 2 then endOccupancy s else if v = 3 then resetPackage s else s)
  else if i = 0x1401 ∧ sub = 1 then (if v = 1 then commitGroups s (rwVal s 0x1401 2 0) else s)
  else if 0x2000 ≤ i ∧ i < 0x3000 then writeQueue s (i - 0x2000) sub v
  else if (0x3000 ≤ i ∧ i < 0x3700) ∨ 0x4000 ≤ i then stage s i sub v
  else if 0x3800 ≤ i ∧ i < 0x38F0 then writeCounter s i sub v
  else setRw s i sub v

/-! ## WRITE (R444) -/

/-- The value that a WRITE carries. -/
def writeVal (req : ObjReq) (e : Entry) : Nat :=
  if e.ty = tText ∨ e.ty = tOctets then ofBytesLE req.payload else numOf req.who req.payload

/-- The reserved bits of an object's value: those that its field table shows as "—", and those of COMMIT_MASK (R388, R345, R432, R507, R426,
R428 to R430). -/
def reservedBits (i sub : Nat) : Nat :=
  let k := i % 0x80
  if 0x4000 ≤ i then
    (if k = 3 ∨ k = 4 then (2 ^ 11 - 1) * 2 ^ 21 else if k = 8 then 2 ^ 23 - 1 else if k = 9 then 2 ^ 9 - 1 else if k = 10 then 2 ^ 12 - 1 else 0)
  else if 0x1210 ≤ i ∧ i < 0x1218 ∧ sub = 1 then (2 ^ 22 - 1) * 2 ^ 96
  else if i = 0x1223 then 63 * 2 ^ 122
  else if i = 0x1401 ∧ sub = 2 then (2 ^ 30 - 1) * 2 ^ 34
  else if i = 0x1402 then (2 ^ 40 - 1) * 2 ^ 88 + 63 * 2 ^ 3
  else if 0x3800 ≤ i ∧ i < 0x38F0 ∧ 3 ≤ sub ∧ sub ≤ 6 then 15 * 2 ^ 16 + (2 ^ 13 - 1)
  else 0

/-- A value as an object takes it: reserved bits are ignored, and so read as 0 (R11). -/
def keepBits (i sub v : Nat) : Nat := v ^^^ (v &&& reservedBits i sub)

/-- UNIT_QUERY names a unit (R423). -/
def queryOk (req : ObjReq) : Bool :=
  !(req.index = 0x3700 ∧ req.sub = 1 ∧ req.payload.length = 2) || unitValid (BitVec.ofNat 16 (numOf req.who req.payload))

/-- The abort code of a WRITE, and the value it carries. -/
def writeCheck (s : State) (req : ObjReq) : Nat × Nat :=
  match lookup s req with
  | (c, none) => (c, 0)
  | (_, some e) =>
    let v := keepBits req.index.toNat req.sub.toNat (writeVal req e)
    let n := req.payload.length
    let sized := if e.ty = tText ∨ e.ty = tOctets then decide (n ≤ e.size) else n == e.size
    (firstCode [codeIf (!queryOk req) abUnknownUnit,
      codeIf (e.acc == .const || e.acc == .ro || e.ty == tDomain) abAccess, codeIf (!sized) abLength,
      valueCode s e req.index.toNat req.sub.toNat v], v)

/-- A WRITE is served. -/
def writeObj (s : State) (req : ObjReq) : State × Nat × List Byte :=
  let c := writeCheck s req
  (if c.1 = 0 then applyWrite s req.index.toNat req.sub.toNat c.2 else s, c.1, [])

/-- The number a WRITE carries, whatever its object. -/
def reqVal (req : ObjReq) : Nat := numOf req.who req.payload

def isWrite (req : ObjReq) (i sub : Nat) : Bool := req.opcode == 2 && req.index.toNat == i && req.sub.toNat == sub

/-- The WRITE of an object whose write is a command of its own. -/
def hasOwnRow (req : ObjReq) : Bool :=
  isWrite req 0x1010 0 || isWrite req 0x1205 0 || isWrite req 0x1208 2 || isWrite req 0x1223 0 || isWrite req 0x1310 0
    || isWrite req 0x1401 1 || isWrite req 0x3700 1 || isWrite req 0x38F0 1
    || (isWrite req 0x1400 4 && 1 ≤ reqVal req && reqVal req ≤ 3)
    || (0x2000 ≤ req.index.toNat && req.index.toNat < 0x3000 && req.sub == 4)

/-- WRITE (R444) of an object without a command of its own. -/
def execWrite (req : ObjReq) (t : Time) (s : State) : Out :=
  timed s t (serve req (req.opcode = 2 && !hasOwnRow req) (fun s => writeObj s req))

/-- ALERT_ACK (R373). -/
def execAlertAck (req : ObjReq) (t : Time) (s : State) : Out :=
  timed s t (serve req (isWrite req 0x1010 0) (fun s => writeObj s req))
/-- UNIT_QUERY (R423). -/
def execUnitQuery (req : ObjReq) (t : Time) (s : State) : Out :=
  timed s t (serve req (isWrite req 0x3700 1) (fun s => writeObj s req))
/-- FH_MODE (R463). -/
def execFhMode (req : ObjReq) (t : Time) (s : State) : Out :=
  timed s t (serve req (isWrite req 0x1310 0) (fun s => writeObj s req))
/-- TOD_NEXT (R378). -/
def execTodNext (req : ObjReq) (t : Time) (s : State) : Out :=
  timed s t (serve req (isWrite req 0x1205 0) (fun s => writeObj s req))
/-- STEP_ACCEPT (R384). -/
def execStepAccept (req : ObjReq) (t : Time) (s : State) : Out :=
  timed s t (serve req (isWrite req 0x1208 2) (fun s => writeObj s req))
/-- GLOBAL_OP (R406). -/
def execGlobalOp (req : ObjReq) (t : Time) (s : State) : Out :=
  timed s t (serve req (isWrite req 0x1223 0) (fun s => writeObj s req))
/-- FREEZE (R514). -/
def execFreeze (req : ObjReq) (t : Time) (s : State) : Out :=
  timed s t (serve req (isWrite req 0x38F0 1) (fun s => writeObj s req))

def isDepth (req : ObjReq) : Bool :=
  req.opcode == 2 && decide (0x2000 ≤ req.index.toNat) && decide (req.index.toNat < 0x3000) && req.sub == 4
/-- QUEUE_OPEN (R307): a DEPTH other than 0. -/
def execQueueOpen (req : ObjReq) (t : Time) (s : State) : Out :=
  timed s t (serve req (isDepth req && reqVal req != 0) (fun s => writeObj s req))
/-- QUEUE_CLOSE (R307): DEPTH 0. -/
def execQueueClose (req : ObjReq) (t : Time) (s : State) : Out :=
  timed s t (serve req (isDepth req && reqVal req == 0) (fun s => writeObj s req))

/-- COMMIT (R435, R444): the opcode, or a write of object 0x1401:01. -/
def execCommit (req : ObjReq) (t : Time) (s : State) : Out :=
  timed s t (serve req (req.opcode = 5 || isWrite req 0x1401 1)
    (fun s => if req.opcode = 5 then commitOpcode s req else writeObj s req))

/-! ## OCC_COMMAND (R301, R302) -/

/-- LOAD: in NONE it starts; in Twilight it waits for the wipe, a later one replacing it. -/
def loadObj (s : State) (req : ObjReq) (img : Image) (copied : HostRead) : State × Nat × List Byte :=
  let c := (writeCheck s req).1
  if c ≠ 0 then (s, c, [])
  else
    let bad := copied != .good
    let s := if bad then recordFaultAt s (dieUnit 2) (if copied = .poison then causePoison else causeEnvironment) 0 0 0 0 0 else s
    if s.occ.state = .none then (beginLoad s img bad, 0, [])
    else (modOcc s (fun o => { o with queuedLoad := some (img, bad) }), 0, [])

/-- LOAD (R301): `img` is what the host's memory holds, `copied` how its reading ended. -/
def execLoad (req : ObjReq) (img : Image) (copied : HostRead) (t : Time) (s : State) : Out :=
  timed s t (serve req (isWrite req 0x1400 4 && reqVal req == 1) (fun s => loadObj s req img copied))
/-- END (R302). -/
def execOccEnd (req : ObjReq) (t : Time) (s : State) : Out :=
  timed s t (serve req (isWrite req 0x1400 4 && reqVal req == 2) (fun s => writeObj s req))
/-- PACKAGE_RESET (R302). -/
def execPackageReset (req : ObjReq) (t : Time) (s : State) : Out :=
  timed s t (serve req (isWrite req 0x1400 4 && reqVal req == 3) (fun s => writeObj s req))

/-! ## WRITE_BLOCK (R444, R488) -/

/-- The bytes of a value with those from `off` replaced. -/
def mergeAt (old : List Byte) (off : Nat) (bs : List Byte) : List Byte := old.take off ++ bs ++ old.drop (off + bs.length)

/-- WRITE_BLOCK: of LIFECYCLE_REQUEST, or of a part of a writable TEXT or OCTETS object. -/
def writeBlockObj (s : State) (req : ObjReq) : State × Nat × List Byte :=
  match lookup s req with
  | (c, none) => (s, c, [])
  | (_, some e) =>
    let i := req.index.toNat
    let data := req.payload.drop 12
    let off := word32 req 1
    let typed := e.ty == tDomain || e.ty == tText || e.ty == tOctets
    let c := firstCode [codeIf (e.acc == .const || e.acc == .ro || !typed) abAccess,
      codeIf (decide (req.payload.length < 12) || data.length != word32 req 2 || decide (payloadLimit req.who < req.payload.length)) abLength,
      codeIf (e.ty == tDomain && word32 req 0 != 0) abSelector, codeIf (e.ty != tDomain && decide (e.size < off + data.length)) abRange]
    if c ≠ 0 then (s, c, [])
    else if e.ty = tDomain then
      let r := writeLife s off data
      (r.1, r.2, [])
    else
      let v := keepBits i req.sub.toNat (ofBytesLE (mergeAt (entryBytes e false) off data))
      let c := valueCode s e i req.sub.toNat v
      (if c = 0 then applyWrite s i req.sub.toNat v else s, c, [])

/-- WRITE_BLOCK (R444). -/
def execWriteBlock (req : ObjReq) (t : Time) (s : State) : Out :=
  timed s t (serve req (req.opcode = 4) (fun s => writeBlockObj s req))

end Sys2Proof.Machine
end

