-- ==== Sys2Proof/Machine/Pcie.lean ====
section
/-! DEFINITION. Machine/Pcie.lean: the PCI Express port: requests through the BARs, link errors, the loss and return of mastering, power
states, the DOE mailbox (R450 to R462 of spec/14_external_interfaces.md). -/

namespace Sys2Proof.Machine

def modPcie (s : State) (f : PcieSt → PcieSt) : State := { s with pcie := f s.pcie }

/-- The I/O die, in whose name requests of the host and of PCI Express peers act. -/
def ioDie : UAddr := dieUnit 2

/-- The occupancy state is not NONE. -/
def occupied (s : State) : Bool := s.occ.state != .none

/-! ## Requests through BAR2 and BAR4 (R452, R454, R455, R263 to R265, R274) -/

/-- A request reaches the function: the link is up and the function is in D0. -/
def reachable (s : State) : Bool := s.pcie.linkUp && !s.pcie.d3hot

/-- Bytes `off` to `off + n` lie in a BAR of `2 ^ bits` bytes. -/
def inBar (bits off n : Nat) : Bool := decide (off + n ≤ 2 ^ bits)

/-- A read of local memory is answered, poisoned where a codeword is poisoned or uncorrectable (R274). -/
def localRead (s : State) (a n : Nat) : State :=
  let g := busRead s a n
  (countRead s a n).emit (.readReply g.bytes (g.poisoned || g.uncorrectable))

/-- BAR2_WRITE (R265, R452). -/
def execBar2Write (off : Nat) (data : List Byte) (t : Time) (s : State) : Out :=
  timed s t (fun s =>
    if reachable s && inBar s.pcie.bar2Bits off data.length then busWrite s ioDie off data false else s)

/-- BAR2_READ (R265, R274, R452). -/
def execBar2Read (off len : Nat) (t : Time) (s : State) : Out :=
  timed s t (fun s =>
    if !s.pcie.linkUp then s
    else if reachable s && inBar s.pcie.bar2Bits off len then localRead s off len
    else s.emit .unsupportedRequest)

/-- BAR4_WRITE (R264, R452, R454): the device that BAR4_SELECT names. -/
def execBar4Write (off : Nat) (data : List Byte) (t : Time) (s : State) : Out :=
  timed s t (fun s =>
    let d := s.pcie.bar4.toNat
    if !reachable s || !inBar 36 off data.length then s
    else if d = devnum s then busWrite s ioDie off data false
    else if data.isEmpty then s
    else
      match routeTo s d with
      | none => dropWrite s ioDie (2 ^ 42 + d * 2 ^ 36 + off)
      | some _ => sendHeld s (dieUnit 2) 1 d (d * 2 ^ 36 + off) 0 data)

/-- The lowest tag that no outstanding read uses. -/
def freeTag (s : State) : Option Nat := (List.range 4096).find? (fun k => !s.fabric.reads.any (fun r => r.tag == k))

/-- A READ of `n` bytes at fabric address `a` of device `d`, part of the read whose first piece has tag `head` (R476, R481). -/
def sendRead (s : State) (d a n : Nat) (head : Option Nat) : State :=
  match freeTag s with
  | none => s
  | some k =>
    let s := { s with fabric := { s.fabric with
      reads := s.fabric.reads ++ [{ tag := k, head := head.getD k, addr := a, len := n, got := none }] } }
    routeSegment s d (segHeader 2 (devnum s) d 0 k 0 n 0 a 0 0) []

/-- The pieces of a read, each of at most 2,048 bytes: offset and length. -/
def readPieces (n : Nat) : List (Nat × Nat) := (List.range (ceilDiv n 2048)).map (fun i => (2048 * i, min 2048 (n - 2048 * i)))

/-- BAR4_READ (R264, R452, R455, R481): local memory at once, a peer's memory when its READ_DATA arrives; without a route the bytes are
zero. -/
def execBar4Read (off len : Nat) (t : Time) (s : State) : Out :=
  timed s t (fun s =>
    let d := s.pcie.bar4.toNat
    if !s.pcie.linkUp then s
    else if !reachable s || !inBar 36 off len then s.emit .unsupportedRequest
    else if d = devnum s then localRead s off len
    else
      match routeTo s d, freeTag s with
      | none, _ => s.emit (.readReply (List.replicate len 0) false)
      | some _, none => s
      | some _, some k =>
        if len = 0 then s.emit (.readReply [] false)
        else (readPieces len).foldl (fun s p => sendRead s d (d * 2 ^ 36 + off + p.1) p.2 (some k)) s)

/-- BAR4_SELECT (R454): the reserved bits are ignored. -/
def execBar4Select (value : BitVec 64) (s : State) : Out :=
  .next (if stopped s || !reachable s then s else modPcie s (fun x => { x with bar4 := BitVec.ofNat 6 value.toNat }))

/-- ATOMIC_OP_REQUEST (R455): Unsupported Request. -/
def execAtomicOpRequest (s : State) : Out :=
  .next (if stopped s || !s.pcie.linkUp then s else s.emit .unsupportedRequest)

/-- POISONED_WRITE_RECEIVED (R455): dropped whole, with a record. -/
def execPoisonedWriteReceived (off : Nat) (t : Time) (s : State) : Out :=
  timed s t (fun s => if reachable s then recordFaultAt s ioDie causePoison 0 0 0 0 off else s)

/-! ## Link errors and mastering (R451, R458, R459) -/

/-- PCIE_REPLAY (R458): counted and timed; the first beyond the budget in a subframe is recorded. -/
def execPcieReplay (flits : Nat) (t : Time) (s : State) : Out :=
  timed s t (fun s =>
    if flits = 0 then s
    else
      let n := s.pcie.replayed + flits
      let s := modPcie s (fun x => { x with retries := (x.retries + flits) % 2 ^ 64, replayed := n })
      let s := timingEvent (countEvent s 0x3803 0x65 0 flits) 7 ioDie flits
      if (planOf s).isSome && decide ((planOf s).elim 0 (fun p => p.pcieBudget) < n) && !s.pcie.overBudget then
        let s := modPcie s (fun x => { x with overBudget := true })
        recordFaultAt (timingEvent s 9 ioDie 0) ioDie causeRetry 0 0 0 0 0
      else s)

/-- An event that ends mastering: recorded while an occupancy is present (R459). -/
def masteringLost (s : State) (f : PcieSt → PcieSt) : State :=
  let s := modPcie s f
  if occupied s then envFault s else s

/-- PCIE_FATAL_ERROR (R458): the link retrains. -/
def execPcieFatalError (t : Time) (s : State) : Out :=
  timed s t (fun s => masteringLost s (fun x => { x with linkUp := false }))

/-- PCIE_LINK_DOWN (R459). -/
def execPcieLinkDown (t : Time) (s : State) : Out :=
  timed s t (fun s => masteringLost s (fun x => { x with linkUp := false }))

/-- BUS_MASTER_DISABLE (R459). -/
def execBusMasterDisable (t : Time) (s : State) : Out :=
  timed s t (fun s => masteringLost s (fun x => { x with busMaster := false }))

/-- The configuration space at its reset values (R459). -/
def resetConfig (s : State) (x : PcieSt) : PcieSt :=
  { x with busMaster := false, d3hot := false, bar2Bits := 36, bar4 := s.pins.devnum, msixTable := [], msixPending := []
           doeError := false, doeReply := [] }

/-- HOT_RESET (R459). -/
def execHotReset (t : Time) (s : State) : Out := timed s t (fun s => masteringLost s (resetConfig s))

/-- PCIE_MASTERING_RESTORED (R459): the held outputs, completions and ledgers are written, items whose cut passed are refused, and
fetching resumes. -/
def execPcieMasteringRestored (t : Time) (s : State) : Out :=
  timed s t (fun s =>
    if canMaster s then s
    else
      let s := modPcie s (fun x => { x with linkUp := true, busMaster := true, d3hot := false })
      let s := flushAll (drainVectors s)
      refusePassed { s with occ := { s.occ with fetchFrom := s.time.now } })

/-- PCIE_RETRAIN_NARROWER (R451): the occupancy goes on, with a record. -/
def execPcieRetrainNarrower (speed width : Nat) (t : Time) (s : State) : Out :=
  timed s t (fun s =>
    if s.pcie.speed < speed || s.pcie.width < width || (speed = s.pcie.speed && width = s.pcie.width) then s
    else
      let s := modPcie s (fun x => { x with speed := speed, width := width })
      if occupied s then envFault s else s)

/-- D3HOT_WRITE (R460): ignored and logged while an occupancy is present. -/
def execD3hotWrite (t : Time) (s : State) : Out :=
  timed s t (fun s => if occupied s then envFault s else modPcie s (fun x => { x with d3hot := true }))

/-- FLR_WRITE (R461): no effect. -/
def execFlrWrite (s : State) : Out := .next s

/-! ## The DOE mailbox (R462) -/

/-- The mailbox reports Busy (R462), and so takes no request. -/
def doeBusy (s : State) : Bool := s.cp.restarting || (unitOf s ioDie).phase != .live

/-- A data object: vendor, type, and its content in whole double words, with the length in the header. -/
def doeObject (vendor ty : Nat) (content : List Byte) : List Byte :=
  let n := ceilDiv content.length 4
  bytesLE 4 (vendor + ty * 2 ^ 16) ++ bytesLE 4 (n + 2) ++ content ++ List.replicate (4 * n - content.length) 0

def doeReplies (s : State) (bs : List Byte) : State := (modPcie s (fun x => { x with doeReply := bs })).emit (.doe bs)
def doeFails (s : State) : State := modPcie s (fun x => { x with doeError := true })

/-- The entry of a discovery response: the type at `index` and the index after it, as PCI Express lays it out. -/
def doeTypeAt (index : Nat) : Nat :=
  if index = 0 then 0x0001 + 0x00 * 2 ^ 16 + 1 * 2 ^ 24
  else if index = 1 then 0x1E5C + 0x01 * 2 ^ 16
  else 0xFFFF

/-- The mailbox takes a request now. -/
def doeTakes (s : State) : Bool := reachable s && !doeBusy s && !s.pcie.doeError

/-- DOE_DISCOVERY (R462). -/
def execDoeDiscovery (index : BitVec 8) (s : State) : Out :=
  .next (if stopped s || !doeTakes s then s else doeReplies s (doeObject 0x0001 0 (bytesLE 4 (doeTypeAt index.toNat))))

/-- DOE_ATTESTATION (R462, R500): the signed report for the nonce; a device that signs no report sets DOE Error. -/
def execDoeAttestation (nonce : BitVec 32) (t : Time) (s : State) : Out :=
  timed s t (fun s =>
    if !doeTakes s then s
    else if attests s then doeReplies s (doeObject 0x1E5C 1 (attestReport s nonce.toNat))
    else doeFails s)

/-- DOE_ABORT (R462): the request in progress is discarded, and the error with it. -/
def execDoeAbort (s : State) : Out :=
  .next (if stopped s then s else modPcie s (fun x => { x with doeError := false, doeReply := [] }))

/-- DOE_ERROR (R462): a request of any other type, or of any other length, sets DOE Error. A discovery request has three double words, and
so has an attestation request: header and one double word. -/
def execDoeError (_docType : BitVec 8) (_len : Nat) (s : State) : Out :=
  .next (if stopped s || !reachable s then s else doeFails s)

end Sys2Proof.Machine
end

