-- ==== Sys2Proof/Machine/MemPort.lean ====
section
/-! DEFINITION. Machine/MemPort.lean: refresh windows and scrubbing (R269, R270, R275, R282 of spec/09_memory_and_movement.md). -/

namespace Sys2Proof.Machine

/-- An uncorrectable codeword is rewritten as poison, with a record in its memory's name (R275). -/
def poisonCw (s : State) (w : Nat) : State :=
  recordFaultAt { s with mem := { s.mem with check := tset s.mem.check w 0xFFFFFFFF#32 } } (placeUnit (placeOf s (32 * w)))
    causeUncorrectable 0 0 0 0 (32 * w)

/-- The scrub port checks codeword `w` (R275): one that is corrected is rewritten, an uncorrectable one waits for the next refresh window
where its region is mirrored and becomes poison otherwise. -/
def scrubCw (s : State) (w : Nat) : State :=
  match cwStateAt s w with
  | .single _ _ => countCorrected (putCodeword s w (cwBytes s.mem.cells s.mem.check w)) (32 * w)
  | .uncorrectable =>
    if (mirrorOf s (32 * w)).isSome || (workingOf s (32 * w)).isSome then
      { s with mem := { s.mem with repairs := if s.mem.repairs.contains w then s.mem.repairs else s.mem.repairs ++ [w] } }
    else poisonCw s w
  | _ => s

/-- The codewords of the `n` bytes from `a` are scrubbed, in ascending order; only those whose check bytes differ can need it. -/
def scrubRange (s : State) (a n : Nat) : State :=
  ((s.mem.check.filter (fun p => inRange a n (32 * p.1))).map (fun p => p.1)).foldl scrubCw s

/-- A codeword that waited for a refresh window: rewritten from the other copy, or as poison (R275). -/
def repairOne (s : State) (w : Nat) : State :=
  if cwStateAt s w = .uncorrectable then (repairCw s w).getD (poisonCw s w) else s

/-- The repairs that waited for a window of die `d`. -/
def runRepairs (s : State) (d : Nat) : State :=
  let due := s.mem.repairs.filter (fun w => dieOfAddr s (32 * w) == d)
  due.foldl repairOne { s with mem := { s.mem with repairs := s.mem.repairs.filter (fun w => dieOfAddr s (32 * w) != d) } }

/-- The 2 KiB blocks of a channel: 24 GiB over 64 channels (R268). -/
def channelBlocks : Nat := dramBytes / (64 * 2048)

/-- Window `k` of a subframe starts now (R269). -/
def inWindow (s : State) (k : Nat) : Bool := decide (k < 512) && decide (inSubframe s s.time.now = k * 15625 / 8)

/-- REFRESH_WINDOW (R269, R275): codewords that waited are repaired, and each of the die's 64 channels scrubs its next block: block j of
every channel is the j-th run of 64 blocks of the die. -/
def execRefreshWindow (die : BitVec 1) (k : Nat) (t : Time) (s : State) : Out :=
  timed s t (fun s =>
    let d := die.toNat
    if !inWindow s k then s
    else
      let s := runRepairs s d
      let j := (s.dies.getD d {}).scrub
      let s := scrubRange s (dramBase d + j * (64 * 2048)) (64 * 2048)
      { s with dies := lmod s.dies d (fun x => { x with refreshing := some (s.time.now + 160), scrub := (x.scrub + 1) % channelBlocks }) })

/-- REFRESH_WINDOW_END (R269, R270): 160 ns after its start the window is over, and the accesses that it held proceed. -/
def execRefreshWindowEnd (die : BitVec 1) (t : Time) (s : State) : Out :=
  timed s t (fun s => { s with dies := lmod s.dies die.toNat (fun x =>
    { x with refreshing := x.refreshing.filter (fun e => decide (s.time.now < e)) }) })

/-- First address and size of the SRAM that holds `a`. -/
def sramOf (s : State) (a : Nat) : Option (Nat × Nat) :=
  match placeOf s a with
  | .cluster c => some (clusterBase c, clusterBytes)
  | .core k => some (coreBase s k, coreBytes)
  | .ioSram => some (ioBase, ioBytes)
  | _ => none

/-- SRAM_SCRUB (R266, R275): the SRAM that holds `base` checks its next 64 bytes, in ascending address order. -/
def execSramScrub (base : Nat) (t : Time) (s : State) : Out :=
  timed s t (fun s =>
    match sramOf s base with
    | none => s
    | some (b, n) =>
      let k := (tget s.mem.scrubbed b).getD 0
      let s := scrubRange s (b + k) 64
      { s with mem := { s.mem with scrubbed := tset s.mem.scrubbed b ((k + 64) % n) } })

end Sys2Proof.Machine
end

