-- ==== Sys2Proof/Machine/Fabric.lean ====
section
/-! DEFINITION. Machine/Fabric.lean: what arrives on a Vrelol port: training, join words, flits, segments, link-state floods (R392 to R397
of spec/12_time_and_constellations.md; R473 to R481 of spec/14_external_interfaces.md; R194, R200). -/

namespace Sys2Proof.Machine

/-- Port `n` has joined. -/
def joined (s : State) (n : Nat) : Bool := (vlPort s n).state = 2

/-! ## Training and joining (R392, R393, R473, R486) -/

/-- The join word that port `n` sends (R393). -/
def ownJoin (s : State) (n : Nat) : JoinWord :=
  { devnum := s.pins.devnum, constellation := (vlPort s n).identity, port := BitVec.ofNat 3 n, keyHash := ownKeyHash s }

/-- Lanes 0 and 1, or lanes 2 and 3, are intact (R473). -/
def intactPair (lanes : BitVec 4) : Bool := lanes &&& 3 == 3 || lanes &&& 12 == 12

/-- VL_LINK_TRAIN (R473): the port runs on four lanes, on an intact pair at half rate, or stays down; a port that trained sends its join
word. -/
def execVlLinkTrain (port : BitVec 3) (lanesUp : BitVec 4) (shorted polarity reversed : Bool) (t : Time) (s : State) : Out :=
  timed s t (fun s =>
    let n := port.toNat
    if joined s n then s
    else
      let up := intactPair lanesUp
      let half := up && lanesUp != 15
      let s := modVl s n (fun p => { p with
        state := if up then 1 else 0, halfRate := half, identity := BitVec.ofNat 32 (rwVal s 0x1220 0 0) })
      let s := vlCondition s n 0 (lanesUp != 15 && !shorted)
      let s := vlCondition s n 3 polarity
      let s := vlCondition s n 4 reversed
      let s := vlCondition s n 5 shorted
      let s := vlCondition s n 9 half
      let s := vlCondition s n 10 (s.pins.openStrap != 0)
      if up then s.emit (.joinFlit n (ownJoin s n)) else s)

/-- The sequence state of a port at its join: both ends start afresh, with credits for the whole receive space (R477). -/
def freshJoin (p : VlPort) (peer : JoinWord) : VlPort :=
  joinCredits { p with
    state := 2, peer := some (peer.devnum, peer.port), txSeq := 0, rxSeq := 4095, nak := false, replay := [], stuck := 0
    streams := [[], [], []], outSeq := 0, inSeq := 0, peerTx := 0, peerRx := 0, delay := 0 }

/-- The conditions of R393 and R533 on a join. -/
def joinOk (s : State) (n : Nat) (peer : JoinWord) : Bool :=
  peer.constellation == (vlPort s n).identity && peer.devnum != s.pins.devnum && s.pins.openStrap == 0

/-- VL_JOIN (R393): the link joins and the link states known go to the new neighbour, or it stays trained and unjoined. -/
def execVlJoin (port : BitVec 3) (peer : JoinWord) (t : Time) (s : State) : Out :=
  timed s t (fun s =>
    let n := port.toNat
    if (vlPort s n).state ≠ 1 then s
    else if joinOk s n peer then
      let s := vlCondition (modVl s n (fun p => freshJoin p peer)) n 10 false
      floodOwn (s.fabric.known.foldl (fun s k => s.emit (.flood n k)) s)
    else vlCondition s n 10 true)

/-! ## Flits (R474, R475, R478) -/

/-- The receiver asks for a replay, once until it arrives (R478). -/
def askReplay (s : State) (n : Nat) : State :=
  if (vlPort s n).nak then s else sendIdle (modVl s n (fun p => { p with nak := true })) n

/-- `a` is at or behind `b` in FSEQ arithmetic. -/
def seqBehind (a b : BitVec 12) : Bool := decide ((b - a).toNat < 2048)

/-- The bytes of a class's stream without the padding at the end of the flit received last (R476): headers lie at multiples of 16 bytes. -/
def trimPad : Nat → List Byte → List Byte
  | 0, bs => bs
  | fuel + 1, bs =>
    let h : BitVec 128 := BitVec.ofNat 128 (ofBytesLE (bs.take 16))
    if bs.length < 16 then bs
    else if segType h = 0 then []
    else bs.take (16 + ceilDiv (segData h) 16 * 16) ++ trimPad fuel (bs.drop (16 + ceilDiv (segData h) 16 * 16))

/-- The payload of a data flit received in order joins its class's stream; a class that does not exist is a protocol fault. The spec gives
CONTROL segments no layout: their commands carry what they say, and their bytes are not kept (log entry 21). -/
def takePayload (s : State) (n vc : Nat) (payload : List Byte) : State :=
  if 2 < vc then recordFaultAt s (dieUnit 2) causeProtocol 0 0 0 0 0
  else if vc = 2 then s
  else modVl s n (fun p => { p with
    streams := lmod p.streams vc (fun b => trimPad ((b ++ payload).length / 16 + 1) (b ++ payload)) })

/-- A data flit that the CRC found good: in order it is taken, a repeat is discarded, after a gap it is discarded and a replay asked for. -/
def dataFlit (s : State) (n : Nat) (h : BitVec 64) (payload : List Byte) : State :=
  let f := BitVec.ofNat 12 (bitsOf h 63 52)
  let s := linkControl s n h
  let p := vlPort s n
  if p.state ≠ 2 then s
  else if f = p.rxSeq + 1 then
    takePayload (modVl s n (fun p => { p with rxSeq := f, nak := false, inSeq := p.inSeq + 1 })) n (bitsOf h 36 35) payload
  else if seqBehind f p.rxSeq then s
  else askReplay s n

/-- VL_DATA_FLIT (R474, R478). -/
def execVlDataFlit (port : BitVec 3) (flit : BitVec 2048) (t : Time) (s : State) : Out :=
  timed s t (fun s =>
    let n := port.toNat
    if !joined s n then s
    else
      let (bs, ok) := openFlit flit
      let h : BitVec 64 := BitVec.ofNat 64 (ofBytesLE (bs.take 8))
      if !ok then askReplay s n
      else if bitsOf h 38 37 = 1 then dataFlit s n h ((bs.drop 8).take 240)
      else if bitsOf h 38 37 = 0 then linkControl s n h
      else s)

/-- The time root of the Constellation, where it is another device (R398): the lowest-numbered device whose phase source is not Vrelol. -/
def timeRoot (s : State) : Option Nat :=
  (leastOf ((s.fabric.known.filter (fun k => !k.timeFromLinks)).map (fun k => k.dev.toNat))).filter
    (fun d => d != devnum s && (phaseSource s == some 3 || decide (d < devnum s)))

/-- Time reaches this device by port `n`: the port of its route to the root (R398). -/
def timeBy (s : State) (n : Nat) : Bool :=
  match timeRoot s with
  | none => false
  | some d => (routeTo s d).elim false (fun r => r.port == n)

/-- The time that an idle flit brought is a measurement of the source Vrelol (R378, R398): this device's time less the peer's, which is the
flit's TX_TIME and half the two-way delay. -/
def linkTime (s : State) (n : Nat) (txTime : Time) : State :=
  if timeBy s n && s.occ.replayStatus != 1 then
    let s := setAvailable s 3
    if phaseSource s = some 3 then
      measureOffset s (4 * (s.time.now : Int) - 4 * (txTime : Int) - 2 * (vlPort s n).delay)
    else s
  else s

/-- VL_IDLE_FLIT (R398, R475): acknowledgement, credits, NAK, a gap seen from the peer's last FSEQ, the two-way delay, and the time. -/
def execVlIdleFlit (port : BitVec 3) (header : BitVec 64) (txTime echoTx echoRx : Time) (t : Time) (s : State) : Out :=
  timed s t (fun s =>
    let n := port.toNat
    if !joined s n then s
    else
      let s := linkControl s n header
      let s := modVl s n (fun p => { p with
        peerTx := txTime, peerRx := s.time.now
        delay := if echoTx = 0 then p.delay else ((s.time.now : Int) - (echoTx : Int)) - ((txTime : Int) - (echoRx : Int)) })
      let s := if echoTx = 0 then s else linkTime s n txTime
      if joined s n && !seqBehind (BitVec.ofNat 12 (bitsOf header 63 52)) (vlPort s n).rxSeq then askReplay s n else s)

/-- VL_REPLAY_TIMEOUT (R478): the sender has waited 4 µs with unacknowledged flits. -/
def execVlReplayTimeout (port : BitVec 3) (t : Time) (s : State) : Out :=
  timed s t (fun s => if joined s port.toNat then replayPort s port.toNat else s)

/-- VL_RETRAIN (R480): a joined port retrains after 16 replays without progress, on loss of signal, or after a protocol fault. It goes on
from ACK + 1, or it is down and the link state is flooded. -/
def execVlRetrain (port : BitVec 3) (lossOfSignal rejoined : Bool) (t : Time) (s : State) : Out :=
  timed s t (fun s =>
    let n := port.toNat
    let p := vlPort s n
    if p.peer.isNone || !(lossOfSignal || decide (16 ≤ p.stuck) || p.state == 0) then s
    else
      let s := if lossOfSignal then vlCondition s n 0 true else s
      if rejoined then
        let s := vlCondition (modVl s n (fun p => { p with state := 2, stuck := 0 })) n 0 false
        let s := (vlPort s n).replay.foldl (fun s f => s.emit (.flit n f.2)) s
        drainPort (vlPort s n).waiting.length s n
      else
        let s := if timeBy s n then setUnavailable s 3 else s
        floodOwn (modVl s n downPort))

/-! ## Segments (R476, R477, R480, R481) -/

/-- The segment is next on the port's class: at the head of the bytes received, or, where none are held, received with the command (log
entry 23). The port with the segment's bytes taken. -/
def takeSegment (p : VlPort) (h : BitVec 128) (data : List Byte) : Option VlPort :=
  let vc := segVc h
  let st := p.streams.getD vc []
  let bs := segBytes h data
  if st.isEmpty then some p
  else if st.take bs.length = bs then some { p with streams := lmod p.streams vc (fun b => b.drop bs.length) }
  else none

/-- A segment for another device goes on by its route, one hop class higher (R477). -/
def forwardSegment (s : State) (h : BitVec 128) (data : List Byte) : State :=
  if segHops h = 63 then s else routeSegment s (segDst h) (segHop h) data

/-- A segment of TYPE `ty` arrives on port `n`: it is forwarded, or lands by `land`; then its credits are owed to the peer. A LENGTH beyond
2,048 is a reserved value: the segment is discarded with a record. -/
def segArrive (ty n : Nat) (h : BitVec 128) (data : List Byte) (land : State → State) (s : State) : State :=
  if !joined s n || segType h ≠ ty then s
  else
    match takeSegment (vlPort s n) h data with
    | none => s
    | some p =>
      let s := oweCredits (modVl s n (fun _ => p)) n h
      if 2048 < segLen h then recordFaultAt s (dieUnit 2) causeProtocol 0 0 0 0 0
      else if segDst h = devnum s then land s
      else forwardSegment s h data

/-- Replay ignores and counts inbound fabric traffic (R352). -/
def unlessReplay (f : State → State) (s : State) : State :=
  if s.occ.replayStatus = 1 then { s with occ := { s.occ with replayIgnored := s.occ.replayIgnored + 1 } } else f s

/-- The end-to-end acknowledgement of `e` goes to device `d` (R480). -/
def sendAck (s : State) (d e : Nat) : State := routeSegment s d (segHeader 5 (devnum s) d 1 0 0 0 0 0 0 e) []

def landedFrom (s : State) (d : Nat) : List (BitVec 16) := (tget s.fabric.landed d).getD []

/-- E2E_SEQ `e` of source `d` has landed; numbers half the range behind it are forgotten. -/
def noteLanded (s : State) (d : Nat) (e : BitVec 16) : State :=
  { s with fabric := { s.fabric with
      landed := tset s.fabric.landed d ((landedFrom s d).filter (fun x => decide ((e - x).toNat < 32768) || decide ((x - e).toNat < 32768)) ++ [e]) } }

/-- A WRITE or TOKEN for this device lands once, and is acknowledged each time it arrives (R480). -/
def landOnce (h : BitVec 128) (f : State → State) (s : State) : State :=
  let d := segSrc h
  let e := BitVec.ofNat 16 (segE2e h)
  let s := if (landedFrom s d).contains e then s else f (noteLanded s d e)
  sendAck s d e.toNat

/-- SAT in the status word of the slice that waits for a tensor (R194): the slice at the position that the Almanac names, which a unit holds,
or the next to come. -/
def satFor (s : State) (tensor : Nat) : State :=
  match (planOf s).elim none (fun p => (p.narrowTo.find? (fun x => x.1 == tensor)).map (fun x => x.2)) with
  | none => s
  | some pos =>
    match s.units.find? (fun p => p.2.held.any (fun sl => sl.pos == pos)) with
    | none => { s with fabric := { s.fabric with satNext := s.fabric.satNext ++ [pos] } }
    | some p =>
      match p.2.held.find? (fun sl => sl.pos == pos) with
      | none => s
      | some sl => orStatus { s with fabric := { s.fabric with satSlices := s.fabric.satSlices ++ [sl] } } (BitVec.ofNat 16 p.1) sl 1

/-- Where the outlier values of a transfer go (R200): its positions' part of the tensor's map. -/
def outlierAt (s : State) (nd : BitVec 128) (a : Nat) : Option Nat :=
  (planOf s).elim none (fun p => (p.outlierMaps.find? (fun m => m.1 == ndTensor nd)).map (fun m =>
    m.2.2 + (a - m.2.1) / max 1 (elemBytes (ndFmt nd) (ndChannels nd)) * (2 * (outliers nd).length)))

/-- A whole transfer is rebuilt at its address (R194, R200), and captured as rebuilt (R348). -/
def landNarrowed (n : Nat) (nd : BitVec 128) (addr : Nat) (bs : List Byte) (s : State) : State :=
  let a := addr % 2 ^ 36
  let (out, outs, sat) := decodeTransfer nd bs
  let s := busWrite (capRecord s 4 n s.time.now (bytesLE 8 addr ++ out)) (dieUnit 2) a out false
  let s := if sat then satFor s (ndTensor nd) else s
  (outlierAt s nd a).elim s (fun m => busWrite s (dieUnit 2) m outs false)

/-- The bytes of a WRITE land at its address (R265, R280), or, where its tensor is narrowed, join the transfer that they are part of, which
lands with its last segment (log entry 224). -/
def landWrite (n : Nat) (h : BitVec 128) (data : List Byte) (s : State) : State :=
  let bs := data.take (segLen h)
  match descriptorOf s (segTensor h) with
  | none => busWrite (capRecord s 4 n s.time.now (bytesLE 8 (segAddr h) ++ bs)) (dieUnit 2) (segAddr h % 2 ^ 36) bs false
  | some nd =>
    let same (p : PartIn) : Bool := p.src == segSrc h && p.tensor == segTensor h && p.addr == segAddr h
    let got := ((s.fabric.partIn.find? same).map (fun p => p.data)).getD [] ++ bs
    let rest := s.fabric.partIn.filter (fun p => !same p)
    if bs.length = 2048 then
      { s with fabric := { s.fabric with partIn := rest ++ [{ src := segSrc h, tensor := segTensor h, addr := segAddr h, data := got }] } }
    else landNarrowed n nd (segAddr h) got { s with fabric := { s.fabric with partIn := rest } }

/-- VL_WRITE (R476, R480). -/
def execVlWrite (port : BitVec 3) (header : BitVec 128) (data : List Byte) (t : Time) (s : State) : Out :=
  timed s t (segArrive 1 port.toNat header data (unlessReplay (landOnce header (landWrite port.toNat header data))))

/-- A READ is answered by one READ_DATA, poisoned where a codeword read is bad (R274, R481). -/
def answerPeer (h : BitVec 128) (s : State) : State :=
  let a := segAddr h % 2 ^ 36
  let g := busRead s a (segLen h)
  let bad := if g.poisoned || g.uncorrectable then 1 else 0
  let s := countRead s a (segLen h)
  routeSegment s (segSrc h) (segHeader 3 (devnum s) (segSrc h) 1 (segTag h) bad (segLen h) 0 (segAddr h) 0 0) g.bytes

/-- VL_READ (R481). -/
def execVlRead (port : BitVec 3) (header : BitVec 128) (t : Time) (s : State) : Out :=
  timed s t (segArrive 2 port.toNat header [] (unlessReplay (answerPeer header)))

/-- VL_READ_DATA (R455, R481): the read under TAG is answered. -/
def execVlReadData (port : BitVec 3) (header : BitVec 128) (data : List Byte) (t : Time) (s : State) : Out :=
  timed s t (segArrive 3 port.toNat header data (fun s =>
    answerRead s (segTag header) (data.take (segLen header)) (segStatus header = 1)))

/-- The unit that a TOKEN names (R476). -/
def segUnit (h : BitVec 128) : UAddr := BitVec.ofNat 16 (bitsOf h 51 36)

/-- VL_TOKEN (R21, R476, R480): the token arrives at its unit. -/
def execVlToken (port : BitVec 3) (header : BitVec 128) (tok : Tok) (t : Time) (s : State) : Out :=
  timed s t (segArrive 4 port.toNat header (bytesLE 8 tok.toNat) (unlessReplay (landOnce header (fun s =>
    if unitValid (segUnit header) then tokenEffect s (segUnit header) tok
    else recordFaultAt s (dieUnit 2) causeProtocol 0 0 0 0 0))))

/-- VL_E2E_ACK (R480): the held write or token is released. -/
def execVlE2eAck (port : BitVec 3) (header : BitVec 128) (t : Time) (s : State) : Out :=
  timed s t (segArrive 5 port.toNat header [] (fun s => e2eAcked s (segSrc header) (BitVec.ofNat 16 (segE2e header))))

/-! ## Link-state floods (R395) -/

/-- The flood is news: of another device, and newer than what is known of it. -/
def floodNews (s : State) (ls : LinkState) : Bool :=
  ls.keyHash != ownKeyHash s && !s.fabric.known.any (fun k => k.keyHash == ls.keyHash && decide (ls.fseq ≤ k.fseq))

/-- The flood changes the link state known: it names other links, or another device number. -/
def floodChanges (s : State) (ls : LinkState) : Bool :=
  !s.fabric.known.any (fun k => k.keyHash == ls.keyHash && k.dev == ls.dev && k.links == ls.links)

/-- LINK_STATE_FLOOD (R395, R396): news is kept, flooded on every other joined port, and, where the link state changes, taken up by the
routes later. -/
def execLinkStateFlood (port : BitVec 3) (ls : LinkState) (t : Time) (s : State) : Out :=
  timed s t (fun s =>
    if !joined s port.toNat || !floodNews s ls then s
    else
      let change := floodChanges s ls
      let s := { s with fabric := { s.fabric with known := s.fabric.known.filter (fun k => k.keyHash != ls.keyHash) ++ [ls] } }
      let s := ((joinedPorts s).filter (fun p => p.1 != port.toNat)).foldl (fun s p => s.emit (.flood p.1 ls)) s
      if change then linkStateChanged s else s)

end Sys2Proof.Machine
end

