-- ==== Sys2Proof/Machine/GlobalOps.lean ====
section
/-! DEFINITION. Machine/GlobalOps.lean: global operations of a Constellation (R400 to R406 of spec/12_time_and_constellations.md). -/

namespace Sys2Proof.Machine

/-! ## The tree of an announcement (R400) -/

/-- The next hop of device `d` toward `e` (R395): the lowest of its neighbours that lie on a path of fewest hops. -/
def nextHop (ks : List LinkState) (d e : Nat) : Option Nat :=
  match hopsTo (hopsFrom ks d) e with
  | none => none
  | some k => leastOf ((neighbours ks d).filter (fun n => hopsTo (hopsFrom ks n) e == some (k - 1)))

/-- The ports by which this device passes on an announcement of device `init`: the lowest joined port to each neighbour whose route to the
initiator goes by this device. -/
def childPorts (s : State) (init : Nat) : List Nat :=
  let ks := allLinks s
  let near := ((joinedPorts s).map (fun p => p.2.toNat)).eraseDups
  (near.filter (fun c => c != init && nextHop ks c init == some (devnum s))).filterMap (fun c =>
    leastOf (((joinedPorts s).filter (fun p => p.2.toNat == c)).map (fun p => p.1)))

def passOn (s : State) (a : Announce) : State := (childPorts s a.initiator.toNat).foldl (fun s p => s.emit (.announce p a)) s

/-! ## Answers (R401, R406) -/

def isOp (init : BitVec 6) (num : BitVec 16) (o : OpSt) : Bool := o.a.initiator == init && o.a.opNumber == num

/-- The newest operation of an initiator under a number. -/
def opOf (s : State) (init : BitVec 6) (num : BitVec 16) : Option OpSt := s.global.ops.reverse.find? (isOp init num)

/-- The operation with the answer of device `d` (R401). -/
def withAnswer (o : OpSt) (d : Nat) (ans : OpAnswer) : OpSt :=
  let m : BitVec 64 := BitVec.ofNat 64 (2 ^ d)
  match ans with
  | .acted => { o with acted := o.acted ||| m }
  | .uncertain => { o with uncertain := o.uncertain ||| m }
  | .missed => { o with missed := o.missed ||| m }
  | .refused => { o with refused := o.refused ||| m }

/-- An operation of the table is replaced by what `f` makes of it, in the log too. -/
def modOp (s : State) (o : OpSt) (f : OpSt → OpSt) : State :=
  let n := f o
  logOp { s with global := { s.global with ops := s.global.ops.map (fun x => if x = o then n else x) } } n

/-- The answer of device `d` is recorded. -/
def recordAnswer (s : State) (init : BitVec 6) (num : BitVec 16) (d : Nat) (ans : OpAnswer) : State :=
  match opOf s init num with
  | none => s
  | some o => modOp s o (fun o => withAnswer o d ans)

/-- This device answers: to itself, or to the initiator by its route (R401). -/
def answerOp (s : State) (init : BitVec 6) (num : BitVec 16) (ans : OpAnswer) : State :=
  let s := recordAnswer s init num (devnum s) ans
  if init.toNat ≠ devnum s && (routeTo s init.toNat).isSome then s.emit (.opAck init num ans) else s

/-- GLOBAL_OP_ACK (R401, R403): a participant's answer reaches the initiator. -/
def execGlobalOpAck (sender : BitVec 6) (opNumber : BitVec 16) (ans : OpAnswer) (t : Time) (s : State) : Out :=
  timed s t (fun s =>
    match opOf s s.pins.devnum opNumber with
    | none => s
    | some o => if bitOf o.a.participants sender.toNat then recordAnswer s s.pins.devnum opNumber sender.toNat ans else s)

/-! ## Announcements (R400, R401) -/

/-- GLOBAL_OP_SEND (R400): at T − LEAD. -/
def execGlobalOpSend (initiator : BitVec 6) (opNumber : BitVec 16) (t : Time) (s : State) : Out :=
  timed s t (fun s =>
    match opOf s initiator opNumber with
    | none => s
    | some o =>
      if o.sent || initiator.toNat ≠ devnum s || s.time.now + o.lead < o.a.t then s
      else passOn (modOp s o (fun o => { o with sent := true })) o.a)

/-- The device participates. -/
def takesPart (s : State) (a : Announce) : Bool := bitOf a.participants (devnum s)

/-- An announcement is armed, or answered MISSED or REFUSED by a participant; what was forwarded is logged too. -/
def armOp (s : State) (a : Announce) (forwarded : Bool) : State :=
  let part := takesPart s a
  let o : OpSt := { a := a, lead := 0, armed := false, sent := true, acted := 0, uncertain := 0, missed := 0, refused := 0
                    role := if part then 1 else 2, slot := 0 }
  if s.time.now < a.t ∧ armedCount s < 8 then addOp s { o with armed := true }
  else
    let s1 := if forwarded then addOp s o else s
    if part then answerOp s1 a.initiator a.opNumber (if a.t ≤ s.time.now then .missed else .refused) else s1

/-- GLOBAL_OP_ANNOUNCE (R400, R401). -/
def execGlobalOpAnnounce (port : BitVec 3) (a : Announce) (t : Time) (s : State) : Out :=
  timed s t (fun s =>
    if !joined s port.toNat || a.initiator == s.pins.devnum
        || (opOf s a.initiator a.opNumber).any (fun o => o.a == a) then s
    else armOp (passOn s a) a (!(childPorts s a.initiator.toNat).isEmpty))

/-! ## Snapshots (R404, R405) -/

/-- Flits held in the device's buffers for forwarding on port `n`. -/
def transitOf (s : State) (n : Nat) : Nat :=
  (((vlPort s n).waiting.filter (fun x => segSrc x.1 != devnum s)).map (fun x => (segFlits x.1 x.2).length)).sum

/-- The snapshot at T: every joined port's marker is still missing. -/
def takeSnapshot (s : State) (t : Time) : Snapshot :=
  let ps := (joinedPorts s).map (fun p => p.1)
  { t := t, number := s.occ.number, gen := s.weights.gen
    ports := (List.range 8).map (fun n =>
      if ps.contains n then ((vlPort s n).outSeq.toNat, (vlPort s n).inSeq.toNat, transitOf s n, 0) else (0, 0, 0, 0))
    queues := (openQueues s).map (fun q => (q, (queueOf s q).acceptNext, (queueOf s q).completeNext, (queueOf s q).tail))
    counters := counterImage s
    missing := ps }

/-- The marker of port `n` gives IN_FLIGHT. -/
def withMarker (x : Snapshot) (n : Nat) (outSeq : BitVec 32) : Snapshot :=
  if x.missing.contains n then
    { x with
      missing := x.missing.filter (fun m => m != n)
      ports := lmod x.ports n (fun v => (v.1, v.2.1, v.2.2.1, (outSeq.toNat + 2 ^ 32 - v.2.1 % 2 ^ 32) % 2 ^ 32)) }
  else x

/-- Snapshots whose markers have all arrived are complete: each replaces the last, and the device answers (R401, R405). -/
def finishSnapshots (s : State) : State :=
  let ready := s.global.pending.filter (fun p => p.2.2.2.missing.isEmpty)
  let s := { s with global := { s.global with pending := s.global.pending.filter (fun p => !p.2.2.2.missing.isEmpty) } }
  ready.foldl (fun s p =>
    answerOp { s with global := { s.global with snapshot := some p.2.2.2 } } p.1 p.2.1 (if p.2.2.1 then .uncertain else .acted)) s

/-- A marker for T reaches the snapshots in progress of that T. -/
def applyMarker (s : State) (n : Nat) (t : Time) (outSeq : BitVec 32) : State :=
  { s with global := { s.global with
      pending := s.global.pending.map (fun p => if p.2.2.2.t = t then (p.1, p.2.1, p.2.2.1, withMarker p.2.2.2 n outSeq) else p) } }

/-- SNAPSHOT_MARKER (R405): a marker that comes before this device acts at T is kept until it does. -/
def execSnapshotMarker (port : BitVec 3) (opTime : Time) (outSeq : BitVec 32) (t : Time) (s : State) : Out :=
  timed s t (fun s =>
    let n := port.toNat
    if !joined s n then s
    else if s.global.pending.any (fun p => p.2.2.2.t == opTime && p.2.2.2.missing.contains n) then finishSnapshots (applyMarker s n opTime outSeq)
    else if s.global.ops.any (fun o => o.armed && o.a.op == 1 && o.a.t == opTime) then
      { s with global := { s.global with early := s.global.early ++ [(n, opTime, outSeq)] } }
    else s)

/-! ## Acting at T (R404) -/

/-- The units that the Almanac binds to a TAG, or that stand for them now, where the copy of network time that their TICKs fire from runs (R375,
R376); TAG 0 fires none. -/
def barrierUnits (s : State) (tag : BitVec 8) : List UAddr :=
  if tag = 0 then []
  else (((planOf s).elim [] (fun p => p.barrierTags.filter (fun b => b.1 == tag))).map (fun b => homeOf s b.2)).filter (copyRuns s)

/-- The device acts: the answer is uncertain while CONSTELLATION_TIME is 0. -/
def actOp (s : State) (o : OpSt) : State :=
  let s := modOp s o (fun o => { o with armed := false })
  let part := takesPart s o.a
  let unsure := !constellationTime s
  let ans : OpAnswer := if unsure then .uncertain else .acted
  if o.a.op = 0 then
    if part then
      let s := (barrierUnits s o.a.tag).foldl (fun s u => tokenEffect s u (mkToken (dieUnit 2) 5 o.a.tag.toNat o.a.t)) s
      answerOp s o.a.initiator o.a.opNumber ans
    else s
  else if o.a.op = 1 then
    let s := (joinedPorts s).foldl (fun s p => s.emit (.marker p.1 o.a.t (vlPort s p.1).outSeq)) s
    if part then
      let s := { s with global := { s.global with
        pending := s.global.pending ++ [(o.a.initiator, o.a.opNumber, unsure, takeSnapshot s o.a.t)] } }
      finishSnapshots ((s.global.early.filter (fun m => m.2.1 == o.a.t)).foldl (fun s m => applyMarker s m.1 m.2.1 m.2.2) s)
    else s
  else if o.a.op = 2 then
    if part then resetPackage (answerOp s o.a.initiator o.a.opNumber ans) else s
  else s

/-- Operations in the order in which they act: by T, then initiator, then operation number (R401). -/
def actsBefore (a b : OpSt) : Bool :=
  decide (a.a.t < b.a.t) || (a.a.t == b.a.t && (decide (a.a.initiator.toNat < b.a.initiator.toNat)
    || (a.a.initiator == b.a.initiator && decide (a.a.opNumber.toNat ≤ b.a.opNumber.toNat))))

/-- GLOBAL_OP_ACT (R404): every armed operation whose T has come acts. -/
def execGlobalOpAct (t : Time) (s : State) : Out :=
  timed s t (fun s =>
    let due := sortBy actsBefore (s.global.ops.filter (fun o => o.armed && decide (o.a.t ≤ s.time.now)))
    let s := due.foldl actOp s
    { s with global := { s.global with early := s.global.early.filter (fun m => decide (s.time.now < m.2.1)) } })

end Sys2Proof.Machine
end

