-- ==== Sys2Proof/Machine/Mgmt.lean ====
section
/-! DEFINITION. Machine/Mgmt.lean: the sideband's addresses and MCTP control commands, and the management port's ARP, ICMP and neighbour
discovery (R482, R483, R487 of spec/14_external_interfaces.md). -/

namespace Sys2Proof.Machine

def modBus (s : State) (f : BusSt → BusSt) : State := { s with bus := f s.bus }

/-- A command of the sideband acts unless the device is held in reset or the bus is stuck. -/
def onSideband (s : State) (f : State → State) : Out := .next (if stopped s || s.bus.stuck then s else f s)

/-! ## Sideband (R483) -/

/-- I3C_ENTDAA (R483): a target without a dynamic address takes the one assigned. -/
def execI3cEntdaa (addr : BitVec 7) (s : State) : Out :=
  onSideband s (fun s => if s.bus.i3cAddr.isSome then s else modBus s (fun b => { b with i3cAddr := some addr }))

/-- The mandatory data byte of the in-band interrupt that stands on the bus while ALERT_N is asserted (R483), on a bus where the device
is an I3C target with an address (log entry 257). -/
def inBandInterrupt (s : State) : Option Byte :=
  if !stopped s && !s.bus.stuck && s.pins.alert && s.bus.i3cAddr.isSome then some 0x01 else none

/-- An MCTP control response as the DMTF lays it out (log entry 26): type 0, no request bit, command, completion code, content. -/
def mctpReply (s : State) (requester : BitVec 8) (cmd cc : Nat) (content : List Byte) : State :=
  s.emit (.mctp requester ([0, 0, BitVec.ofNat 8 cmd, BitVec.ofNat 8 cc] ++ content))

/-- An endpoint ID that can be assigned: neither the null nor the broadcast ID. -/
def eidOk (eid : BitVec 8) : Bool := eid != 0 && eid != 0xFF

/-- SET_ENDPOINT_ID (R483): the ID is taken and answered; an ID that cannot be assigned is answered as invalid data. -/
def execSetEndpointId (requester : BitVec 8) (eid : BitVec 8) (s : State) : Out :=
  onSideband s (fun s =>
    if eidOk eid then mctpReply (modBus s (fun b => { b with eid := eid })) requester 1 0 [0, eid, 0]
    else mctpReply s requester 1 2 [])

/-- GET_ENDPOINT_ID (R483). -/
def execGetEndpointId (requester : BitVec 8) (s : State) : Out :=
  onSideband s (fun s => mctpReply s requester 2 0 [s.bus.eid, 0, 0])

/-- GET_MCTP_VERSION_SUPPORT (R483). -/
def execGetMctpVersionSupport (requester : BitVec 8) (s : State) : Out :=
  onSideband s (fun s => mctpReply s requester 4 0 Config.mctpVersions)

/-- GET_MESSAGE_TYPE_SUPPORT (R483): types 0x00 and 0x7E. -/
def execGetMessageTypeSupport (requester : BitVec 8) (s : State) : Out :=
  onSideband s (fun s => mctpReply s requester 5 0 [2, 0x00, 0x7E])

/-! ## Management port (R482) -/

/-- A command of the management port acts while its link is up. -/
def onMgmt (s : State) (f : State → State) : Out := .next (if stopped s || !s.bus.mgmtUp then s else f s)

def mgmtIpv4 (s : State) : Nat := rwVal s 0x1020 2 0

/-- The device holds this IPv4 address: 0 disables IPv4 (R414). -/
def ownIpv4 (s : State) (ip : BitVec 32) : Bool := mgmtIpv4 s != 0 && ip.toNat == mgmtIpv4 s

/-- The octets of the management port's MAC address, in order. -/
def mgmtMac : List Byte := bytesLE 6 (Config.mac 16).toNat

/-- The link-local address that the MAC address gives (log entry 26). -/
def linkLocal : BitVec 128 :=
  let m := mgmtMac
  BitVec.ofNat 128 (ofBytesBE ([0xFE, 0x80, 0, 0, 0, 0, 0, 0, m.getD 0 0 ^^^ 2, m.getD 1 0, m.getD 2 0, 0xFF, 0xFE, m.getD 3 0, m.getD 4 0,
    m.getD 5 0]))

/-- The device holds this IPv6 address (R414): its own, or the link-local one. -/
def ownIpv6 (s : State) (ip : BitVec 128) : Bool :=
  let set := rwVal s 0x1020 5 0
  ip == linkLocal || (set != 0 && ip == BitVec.ofNat 128 (ofBytesBE (bytesLE 16 set)))

/-- Bytes that an echo carries in a frame of at most 1,518 bytes (R482), with `ip` bytes of IP header. -/
def echoFits (ip : Nat) (payload : List Byte) : Bool := decide (payload.length + ip + 8 + 18 ≤ 1518)

/-- ARP_REQUEST (R482). -/
def execArpRequest (targetIp : BitVec 32) (senderMac : BitVec 48) (senderIp : BitVec 32) (s : State) : Out :=
  onMgmt s (fun s => if ownIpv4 s targetIp then s.emit (.arpReply senderMac senderIp) else s)

/-- ICMP_ECHO (R482). -/
def execIcmpEcho (dstIp : BitVec 32) (srcIp : BitVec 32) (payload : List Byte) (s : State) : Out :=
  onMgmt s (fun s => if ownIpv4 s dstIp && echoFits 20 payload then s.emit (.icmpReply srcIp.toNat payload) else s)

/-- NEIGHBOUR_DISCOVERY (R482): a solicitation for an address of the device is answered. -/
def execNeighbourDiscovery (target : BitVec 128) (_senderMac : BitVec 48) (s : State) : Out :=
  onMgmt s (fun s => if ownIpv6 s target then s.emit (.ndReply target) else s)

/-- ICMPV6_ECHO (R482). -/
def execIcmpv6Echo (dst : BitVec 128) (src : BitVec 128) (payload : List Byte) (s : State) : Out :=
  onMgmt s (fun s => if ownIpv6 s dst && echoFits 40 payload then s.emit (.icmpReply src.toNat payload) else s)

/-- MGMT_LINK_UP (R449, R487): responses and publications to the management port end, or resume. -/
def execMgmtLinkUp (up : Bool) (t : Time) (s : State) : Out :=
  timed s t (fun s => modBus s (fun b => { b with mgmtUp := up }))

end Sys2Proof.Machine
end

