-- ==== Sys2Proof/Machine/Counters.lean ====
section
/-! DEFINITION. Machine/Counters.lean: the wrap of a performance counter and its sample (R509, R511 to R514 of
spec/16_performance_counters.md). -/

namespace Sys2Proof.Machine

/-- What a sample captured (R512). -/
structure Captured where
  source : UAddr
  almanac : BitVec 32
  step : BitVec 12
  pc : BitVec 20
  queue : BitVec 12
  seq : Seq
deriving DecidableEq, Repr

/-- A sample (R511). Die and package events capture no position, and only the DSP engine has a packet address (R512). -/
def sampleWord (s : State) (unit : UAddr) (event i : Nat) (c : Captured) : BitVec 256 :=
  let low := 3 ≤ uLevel unit
  let src := if low then 0 else c.source.toNat
  let step := if low then 0 else c.step.toNat
  let pc := if low || uLevel c.source ≠ 0 || uKind c.source ≠ 2 then 0 else c.pc.toNat
  BitVec.ofNat 256 (s.time.now % 2 ^ 64 * 2 ^ 192 + unit.toNat * 2 ^ 176 + src * 2 ^ 160 + event % 256 * 2 ^ 152 + i % 4 * 2 ^ 150
    + c.almanac.toNat * 2 ^ 96 + step * 2 ^ 84 + pc * 2 ^ 64 + c.queue.toNat * 2 ^ 52 + c.seq.toNat * 2 ^ 20)

/-- A sample enters the ring of 256, or is lost where the ring is full; PMU_VECTOR is raised for one written (R513). -/
def addSample (s : State) (w : BitVec 256) : State :=
  if (s.pmu.written + 2 ^ 32 - rwVal s 0x38F0 4 0) % 2 ^ 32 = 256 then
    { s with pmu := { s.pmu with lost := (s.pmu.lost + 1) % 2 ^ 32 } }
  else
    raiseVector { s with pmu := { s.pmu with
      samples := tset s.pmu.samples (s.pmu.written % 256) w, written := (s.pmu.written + 1) % 2 ^ 32 } } (rwVal s 0x38F0 2 0xFFFF)

/-- COUNTER_WRAP (R509, R511, R513): OVERFLOW bit i of the unit's record, and with OVF_IRQ = 1 a sample. A counter that is not enabled, and
any counter while FREEZE is 1, does not wrap. -/
def execCounterWrap (unit : UAddr) (i : BitVec 2) (sourceUnit : UAddr) (almanac : BitVec 32) (step : BitVec 12) (pc : BitVec 20)
    (queue : BitVec 12) (seq : Seq) (t : Time) (s : State) : Out :=
  timed s t (fun s =>
    let k := counterIndex unit
    let r := counterOf s k
    let cfg := r.config.getD i.toNat 0
    if !unitValid unit || uLevel unit = 0 || !bitOf cfg 15 || rwVal s 0x38F0 1 0 = 1 then s
    else
      let s := { s with pmu := { s.pmu with
        recs := tset s.pmu.recs k { r with overflow := r.overflow ||| BitVec.ofNat 4 (2 ^ i.toNat) } } }
      if bitOf cfg 13 then
        addSample s (sampleWord s unit (bitsOf cfg 31 24) i.toNat
          { source := sourceUnit, almanac := almanac, step := step, pc := pc, queue := queue, seq := seq })
      else s)

end Sys2Proof.Machine
end

