-- ==== Sys2Proof/Machine/Dispatch.lean ====
section
/-! DEFINITION. Machine/Dispatch.lean: one arm per command. -/

namespace Sys2Proof.Machine

open Host

def exec (i : Instr) (s : State) : Host.Outcome State Fault Refusal :=
  match i with
  | .unitCommand unit sl t => Sys2Proof.Machine.execUnitCommand unit sl t s
  | .readyToken dst tok t => Sys2Proof.Machine.execReadyToken dst tok t s
  | .creditToken dst tok t => Sys2Proof.Machine.execCreditToken dst tok t s
  | .doneToken dst tok t => Sys2Proof.Machine.execDoneToken dst tok t s
  | .fenceToken dst tok t => Sys2Proof.Machine.execFenceToken dst tok t s
  | .tickFire dst tag t => Sys2Proof.Machine.execTickFire dst tag t s
  | .faultToken dst tok t => Sys2Proof.Machine.execFaultToken dst tok t s
  | .stepStart sequencer eng t => Sys2Proof.Machine.execStepStart sequencer eng t s
  | .watchdogExpiry unit t => Sys2Proof.Machine.execWatchdogExpiry unit t s
  | .unitDawn unit selfTest t => Sys2Proof.Machine.execUnitDawn unit selfTest t s
  | .dieRestoreComplete die t => Sys2Proof.Machine.execDieRestoreComplete die t s
  | .cpWatchdogExpiry t => Sys2Proof.Machine.execCpWatchdogExpiry t s
  | .clockDroop island covered t => Sys2Proof.Machine.execClockDroop island covered t s
  | .clockRestart island t => Sys2Proof.Machine.execClockRestart island t s
  | .maNop core step c => Sys2Proof.Machine.execMaNop core step c s
  | .maLoad core step c => Sys2Proof.Machine.execMaLoad core step c s
  | .maPassWs core step c => Sys2Proof.Machine.execMaPassWs core step c s
  | .maPassIs core step c => Sys2Proof.Machine.execMaPassIs core step c s
  | .maPassOs core step c => Sys2Proof.Machine.execMaPassOs core step c s
  | .maEmit core step c => Sys2Proof.Machine.execMaEmit core step c s
  | .maCommandComplete core array t => Sys2Proof.Machine.execMaCommandComplete core array t s
  | .tileSlotReserve core => Sys2Proof.Machine.execTileSlotReserve core s
  | .veNop core step c => Sys2Proof.Machine.execVeNop core step c s
  | .veCopy core step c => Sys2Proof.Machine.execVeCopy core step c s
  | .veAdd core step c => Sys2Proof.Machine.execVeAdd core step c s
  | .veSub core step c => Sys2Proof.Machine.execVeSub core step c s
  | .veMul core step c => Sys2Proof.Machine.execVeMul core step c s
  | .veMin core step c => Sys2Proof.Machine.execVeMin core step c s
  | .veMax core step c => Sys2Proof.Machine.execVeMax core step c s
  | .veAbs core step c => Sys2Proof.Machine.execVeAbs core step c s
  | .veNeg core step c => Sys2Proof.Machine.execVeNeg core step c s
  | .veConj core step c => Sys2Proof.Machine.execVeConj core step c s
  | .veAbs2 core step c => Sys2Proof.Machine.execVeAbs2 core step c s
  | .veLlradd core step c => Sys2Proof.Machine.execVeLlradd core step c s
  | .veRecip core step c => Sys2Proof.Machine.execVeRecip core step c s
  | .veRsqrt core step c => Sys2Proof.Machine.execVeRsqrt core step c s
  | .veSqrt core step c => Sys2Proof.Machine.execVeSqrt core step c s
  | .veDiv core step c => Sys2Proof.Machine.execVeDiv core step c s
  | .veExp core step c => Sys2Proof.Machine.execVeExp core step c s
  | .veExp2 core step c => Sys2Proof.Machine.execVeExp2 core step c s
  | .veLog core step c => Sys2Proof.Machine.execVeLog core step c s
  | .veLog2 core step c => Sys2Proof.Machine.execVeLog2 core step c s
  | .veTanh core step c => Sys2Proof.Machine.execVeTanh core step c s
  | .veSigmoid core step c => Sys2Proof.Machine.execVeSigmoid core step c s
  | .veSilu core step c => Sys2Proof.Machine.execVeSilu core step c s
  | .veGelu core step c => Sys2Proof.Machine.execVeGelu core step c s
  | .veSinpi core step c => Sys2Proof.Machine.execVeSinpi core step c s
  | .veCospi core step c => Sys2Proof.Machine.execVeCospi core step c s
  | .veEpi core step c => Sys2Proof.Machine.execVeEpi core step c s
  | .vePermute core step c => Sys2Proof.Machine.execVePermute core step c s
  | .veDeinterleave core step c => Sys2Proof.Machine.execVeDeinterleave core step c s
  | .veInterleave core step c => Sys2Proof.Machine.execVeInterleave core step c s
  | .veReverse core step c => Sys2Proof.Machine.execVeReverse core step c s
  | .veSwapPairs core step c => Sys2Proof.Machine.execVeSwapPairs core step c s
  | .veRotate core step c => Sys2Proof.Machine.execVeRotate core step c s
  | .vePack core step c => Sys2Proof.Machine.execVePack core step c s
  | .veUnpack core step c => Sys2Proof.Machine.execVeUnpack core step c s
  | .veReduceSum core step c => Sys2Proof.Machine.execVeReduceSum core step c s
  | .veReduceSumsq core step c => Sys2Proof.Machine.execVeReduceSumsq core step c s
  | .veReduceMax core step c => Sys2Proof.Machine.execVeReduceMax core step c s
  | .veReduceMin core step c => Sys2Proof.Machine.execVeReduceMin core step c s
  | .veReduceMaxabs core step c => Sys2Proof.Machine.execVeReduceMaxabs core step c s
  | .veReduceArgmax core step c => Sys2Proof.Machine.execVeReduceArgmax core step c s
  | .veDemap core step c => Sys2Proof.Machine.execVeDemap core step c s
  | .veCommandComplete core t => Sys2Proof.Machine.execVeCommandComplete core t s
  | .queuePointerMismatch owner t => Sys2Proof.Machine.execQueuePointerMismatch owner t s
  | .dspNopCommand core c => Sys2Proof.Machine.execDspNopCommand core c s
  | .dspRun core c => Sys2Proof.Machine.execDspRun core c s
  | .dspRunComplete core t => Sys2Proof.Machine.execDspRunComplete core t s
  | .dspBoundExpiry core t => Sys2Proof.Machine.execDspBoundExpiry core t s
  | .dspInterrupt core => Sys2Proof.Machine.execDspInterrupt core s
  | .dspWaitResume core => Sys2Proof.Machine.execDspWaitResume core s
  | .dspNop core slot => Sys2Proof.Machine.execDspNop core slot s
  | .dspMov core slot f => Sys2Proof.Machine.execDspMov core slot f s
  | .dspAdd core slot f => Sys2Proof.Machine.execDspAdd core slot f s
  | .dspSub core slot f => Sys2Proof.Machine.execDspSub core slot f s
  | .dspAdds core slot f => Sys2Proof.Machine.execDspAdds core slot f s
  | .dspSubs core slot f => Sys2Proof.Machine.execDspSubs core slot f s
  | .dspAnd core slot f => Sys2Proof.Machine.execDspAnd core slot f s
  | .dspOr core slot f => Sys2Proof.Machine.execDspOr core slot f s
  | .dspXor core slot f => Sys2Proof.Machine.execDspXor core slot f s
  | .dspShl core slot f => Sys2Proof.Machine.execDspShl core slot f s
  | .dspShra core slot f => Sys2Proof.Machine.execDspShra core slot f s
  | .dspShrr core slot f => Sys2Proof.Machine.execDspShrr core slot f s
  | .dspShrl core slot f => Sys2Proof.Machine.execDspShrl core slot f s
  | .dspMin core slot f => Sys2Proof.Machine.execDspMin core slot f s
  | .dspMax core slot f => Sys2Proof.Machine.execDspMax core slot f s
  | .dspAbss core slot f => Sys2Proof.Machine.execDspAbss core slot f s
  | .dspClz core slot f => Sys2Proof.Machine.execDspClz core slot f s
  | .dspDivs core slot f => Sys2Proof.Machine.execDspDivs core slot f s
  | .dspCmplt core slot f => Sys2Proof.Machine.execDspCmplt core slot f s
  | .dspCadd core slot f => Sys2Proof.Machine.execDspCadd core slot f s
  | .dspCsub core slot f => Sys2Proof.Machine.execDspCsub core slot f s
  | .dspCaddj core slot f => Sys2Proof.Machine.execDspCaddj core slot f s
  | .dspCsubj core slot f => Sys2Proof.Machine.execDspCsubj core slot f s
  | .dspCneg core slot f => Sys2Proof.Machine.execDspCneg core slot f s
  | .dspCconj core slot f => Sys2Proof.Machine.execDspCconj core slot f s
  | .dspCord core slot f => Sys2Proof.Machine.execDspCord core slot f s
  | .dspCmul4 core slot f => Sys2Proof.Machine.execDspCmul4 core slot f s
  | .dspCmulj4 core slot f => Sys2Proof.Machine.execDspCmulj4 core slot f s
  | .dspCmac4 core slot f => Sys2Proof.Machine.execDspCmac4 core slot f s
  | .dspCmacj4 core slot f => Sys2Proof.Machine.execDspCmacj4 core slot f s
  | .dspCmacs core slot f => Sys2Proof.Machine.execDspCmacs core slot f s
  | .dspExt core slot f => Sys2Proof.Machine.execDspExt core slot f s
  | .dspLoad core slot f => Sys2Proof.Machine.execDspLoad core slot f s
  | .dspStore core slot f => Sys2Proof.Machine.execDspStore core slot f s
  | .dspStridedLoad core slot f => Sys2Proof.Machine.execDspStridedLoad core slot f s
  | .dspStridedStore core slot f => Sys2Proof.Machine.execDspStridedStore core slot f s
  | .dspSeta core slot f => Sys2Proof.Machine.execDspSeta core slot f s
  | .dspAdda core slot f => Sys2Proof.Machine.execDspAdda core slot f s
  | .dspModa core slot f => Sys2Proof.Machine.execDspModa core slot f s
  | .dspMova core slot f => Sys2Proof.Machine.execDspMova core slot f s
  | .dspMovm core slot f => Sys2Proof.Machine.execDspMovm core slot f s
  | .dspMovda core slot f => Sys2Proof.Machine.execDspMovda core slot f s
  | .dspMovdm core slot f => Sys2Proof.Machine.execDspMovdm core slot f s
  | .dspMovl core slot f => Sys2Proof.Machine.execDspMovl core slot f s
  | .dspMovz core slot f => Sys2Proof.Machine.execDspMovz core slot f s
  | .dspBr core target => Sys2Proof.Machine.execDspBr core target s
  | .dspBrz core n target => Sys2Proof.Machine.execDspBrz core n target s
  | .dspBrnz core n target => Sys2Proof.Machine.execDspBrnz core n target s
  | .dspBrn core n target => Sys2Proof.Machine.execDspBrn core n target s
  | .dspBrnn core n target => Sys2Proof.Machine.execDspBrnn core n target s
  | .dspCall core target => Sys2Proof.Machine.execDspCall core target s
  | .dspJmpa core n => Sys2Proof.Machine.execDspJmpa core n s
  | .dspLoop core f => Sys2Proof.Machine.execDspLoop core f s
  | .dspHalt core => Sys2Proof.Machine.execDspHalt core s
  | .dspReti core => Sys2Proof.Machine.execDspReti core s
  | .dspIen core ie => Sys2Proof.Machine.execDspIen core ie s
  | .dspWait core line => Sys2Proof.Machine.execDspWait core line s
  | .dspSignal core tag dd => Sys2Proof.Machine.execDspSignal core tag dd s
  | .dspMvls core f => Sys2Proof.Machine.execDspMvls core f s
  | .dspMvsl core f => Sys2Proof.Machine.execDspMvsl core f s
  | .dspMvsd core f => Sys2Proof.Machine.execDspMvsd core f s
  | .dspMvds core f => Sys2Proof.Machine.execDspMvds core f s
  | .dspMvad core f => Sys2Proof.Machine.execDspMvad core f s
  | .dspMvda core f => Sys2Proof.Machine.execDspMvda core f s
  | .ceNop cluster k c => Sys2Proof.Machine.execCeNop cluster k c s
  | .ceDerm cluster k c => Sys2Proof.Machine.execCeDerm cluster k c s
  | .ceDecode cluster k c => Sys2Proof.Machine.execCeDecode cluster k c s
  | .ceEncode cluster k c => Sys2Proof.Machine.execCeEncode cluster k c s
  | .ceCrc cluster k c => Sys2Proof.Machine.execCeCrc cluster k c s
  | .ceCommandComplete cluster k t => Sys2Proof.Machine.execCeCommandComplete cluster k t s
  | .peNop cluster c => Sys2Proof.Machine.execPeNop cluster c s
  | .peDecode cluster c => Sys2Proof.Machine.execPeDecode cluster c s
  | .peEncode cluster c => Sys2Proof.Machine.execPeEncode cluster c s
  | .peCommandComplete cluster t => Sys2Proof.Machine.execPeCommandComplete cluster t s
  | .peBorrowedCommand cluster c => Sys2Proof.Machine.execPeBorrowedCommand cluster c s
  | .moverNop cluster m c => Sys2Proof.Machine.execMoverNop cluster m c s
  | .moverCopy cluster m c ext => Sys2Proof.Machine.execMoverCopy cluster m c ext s
  | .moverFill cluster m c => Sys2Proof.Machine.execMoverFill cluster m c s
  | .moverRelay cluster m c g => Sys2Proof.Machine.execMoverRelay cluster m c g s
  | .moverFlush cluster m c => Sys2Proof.Machine.execMoverFlush cluster m c s
  | .queueFlushEffect cluster q => Sys2Proof.Machine.execQueueFlushEffect cluster q s
  | .moverTransferIssue cluster m bytes destCredit => Sys2Proof.Machine.execMoverTransferIssue cluster m bytes destCredit s
  | .moverCommandComplete cluster m t => Sys2Proof.Machine.execMoverCommandComplete cluster m t s
  | .refreshWindow die k t => Sys2Proof.Machine.execRefreshWindow die k t s
  | .refreshWindowEnd die t => Sys2Proof.Machine.execRefreshWindowEnd die t s
  | .sramScrub base t => Sys2Proof.Machine.execSramScrub base t s
  | .bar2Write off data t => Sys2Proof.Machine.execBar2Write off data t s
  | .bar2Read off len t => Sys2Proof.Machine.execBar2Read off len t s
  | .bar4Write off data t => Sys2Proof.Machine.execBar4Write off data t s
  | .bar4Read off len t => Sys2Proof.Machine.execBar4Read off len t s
  | .bar4Select value => Sys2Proof.Machine.execBar4Select value s
  | .atomicOpRequest => Sys2Proof.Machine.execAtomicOpRequest s
  | .poisonedWriteReceived off t => Sys2Proof.Machine.execPoisonedWriteReceived off t s
  | .hostReadError what how t => Sys2Proof.Machine.execHostReadError what how t s
  | .pcieReplay flits t => Sys2Proof.Machine.execPcieReplay flits t s
  | .pcieFatalError t => Sys2Proof.Machine.execPcieFatalError t s
  | .pcieLinkDown t => Sys2Proof.Machine.execPcieLinkDown t s
  | .busMasterDisable t => Sys2Proof.Machine.execBusMasterDisable t s
  | .hotReset t => Sys2Proof.Machine.execHotReset t s
  | .pcieMasteringRestored t => Sys2Proof.Machine.execPcieMasteringRestored t s
  | .pcieRetrainNarrower speed width t => Sys2Proof.Machine.execPcieRetrainNarrower speed width t s
  | .d3hotWrite t => Sys2Proof.Machine.execD3hotWrite t s
  | .flrWrite => Sys2Proof.Machine.execFlrWrite s
  | .doeDiscovery index => Sys2Proof.Machine.execDoeDiscovery index s
  | .doeAttestation nonce t => Sys2Proof.Machine.execDoeAttestation nonce t s
  | .doeAbort => Sys2Proof.Machine.execDoeAbort s
  | .doorbell queue value t => Sys2Proof.Machine.execDoorbell queue value t s
  | .nop queue f t => Sys2Proof.Machine.execNop queue f t s
  | .ulSlot queue f t => Sys2Proof.Machine.execUlSlot queue f t s
  | .dlSlot queue f t => Sys2Proof.Machine.execDlSlot queue f t s
  | .prach queue f t => Sys2Proof.Machine.execPrach queue f t s
  | .srsReport queue f t => Sys2Proof.Machine.execSrsReport queue f t s
  | .trainStep queue f t => Sys2Proof.Machine.execTrainStep queue f t s
  | .modelCommit queue f t => Sys2Proof.Machine.execModelCommit queue f t s
  | .capture queue f t => Sys2Proof.Machine.execCapture queue f t s
  | .move queue f ext t => Sys2Proof.Machine.execMove queue f ext t s
  | .barrier queue f t => Sys2Proof.Machine.execBarrier queue f t s
  | .admissionCut t => Sys2Proof.Machine.execAdmissionCut t s
  | .contextSwapComplete context block t => Sys2Proof.Machine.execContextSwapComplete context block t s
  | .shareDispatch spare ready t => Sys2Proof.Machine.execShareDispatch spare ready t s
  | .completionForm queue o t => Sys2Proof.Machine.execCompletionForm queue o t s
  | .modTimeExpiry queue t => Sys2Proof.Machine.execModTimeExpiry queue t s
  | .fhUplaneReceive h secs t => Sys2Proof.Machine.execFhUplaneReceive h secs t s
  | .fhFrameDiscard h t => Sys2Proof.Machine.execFhFrameDiscard h t s
  | .ecpriDelayMeasurement h measurementId action t => Sys2Proof.Machine.execEcpriDelayMeasurement h measurementId action t s
  | .fhWindowClose carrier slot symbol t => Sys2Proof.Machine.execFhWindowClose carrier slot symbol t s
  | .fhDlSectionSend carrier slot symbol stream firstPrb count t => Sys2Proof.Machine.execFhDlSectionSend carrier slot symbol stream firstPrb count t s
  | .fhDlWindowClose carrier slot symbol t => Sys2Proof.Machine.execFhDlWindowClose carrier slot symbol t s
  | .fhLinkDown port noSignal t => Sys2Proof.Machine.execFhLinkDown port noSignal t s
  | .fhMode req t => Sys2Proof.Machine.execFhMode req t s
  | .laserInputChange input milliDbm t => Sys2Proof.Machine.execLaserInputChange input milliDbm t s
  | .rxOverPower port milliDbm t => Sys2Proof.Machine.execRxOverPower port milliDbm t s
  | .ptpFrameReceive h mgmtPort quarterNs t => Sys2Proof.Machine.execPtpFrameReceive h mgmtPort quarterNs t s
  | .esmcMessage port ql t => Sys2Proof.Machine.execEsmcMessage port ql t s
  | .ppsInEdge quarterNs highLonger t => Sys2Proof.Machine.execPpsInEdge quarterNs highLonger t s
  | .phaseSourceLoss t => Sys2Proof.Machine.execPhaseSourceLoss t s
  | .servoLock t => Sys2Proof.Machine.execServoLock t s
  | .holdoverLimitExceeded t => Sys2Proof.Machine.execHoldoverLimitExceeded t s
  | .todNext req t => Sys2Proof.Machine.execTodNext req t s
  | .stepAccept req t => Sys2Proof.Machine.execStepAccept req t s
  | .meridian t => Sys2Proof.Machine.execMeridian t s
  | .trigOutEdge n t => Sys2Proof.Machine.execTrigOutEdge n t s
  | .ppsOutEdge t => Sys2Proof.Machine.execPpsOutEdge t s
  | .evtInEdge n level widthPs t => Sys2Proof.Machine.execEvtInEdge n level widthPs t s
  | .vlLinkTrain port lanesUp shorted polarity reversed t => Sys2Proof.Machine.execVlLinkTrain port lanesUp shorted polarity reversed t s
  | .vlJoin port peer t => Sys2Proof.Machine.execVlJoin port peer t s
  | .vlDataFlit port flit t => Sys2Proof.Machine.execVlDataFlit port flit t s
  | .vlIdleFlit port header txTime echoTx echoRx t => Sys2Proof.Machine.execVlIdleFlit port header txTime echoTx echoRx t s
  | .vlReplayTimeout port t => Sys2Proof.Machine.execVlReplayTimeout port t s
  | .vlRetrain port lossOfSignal rejoined t => Sys2Proof.Machine.execVlRetrain port lossOfSignal rejoined t s
  | .vlWrite port header data t => Sys2Proof.Machine.execVlWrite port header data t s
  | .vlRead port header t => Sys2Proof.Machine.execVlRead port header t s
  | .vlReadData port header data t => Sys2Proof.Machine.execVlReadData port header data t s
  | .vlToken port header tok t => Sys2Proof.Machine.execVlToken port header tok t s
  | .vlE2eAck port header t => Sys2Proof.Machine.execVlE2eAck port header t s
  | .linkStateFlood port ls t => Sys2Proof.Machine.execLinkStateFlood port ls t s
  | .globalOpSend initiator opNumber t => Sys2Proof.Machine.execGlobalOpSend initiator opNumber t s
  | .globalOpAnnounce port a t => Sys2Proof.Machine.execGlobalOpAnnounce port a t s
  | .globalOpAct t => Sys2Proof.Machine.execGlobalOpAct t s
  | .snapshotMarker port opTime outSeq t => Sys2Proof.Machine.execSnapshotMarker port opTime outSeq t s
  | .globalOpAck sender opNumber ans t => Sys2Proof.Machine.execGlobalOpAck sender opNumber ans t s
  | .globalOp req t => Sys2Proof.Machine.execGlobalOp req t s
  | .objGo t => Sys2Proof.Machine.execObjGo t s
  | .objDoneClear => Sys2Proof.Machine.execObjDoneClear s
  | .objOverrunClear => Sys2Proof.Machine.execObjOverrunClear s
  | .mctpMessage eid msgType vendor frame t => Sys2Proof.Machine.execMctpMessage eid msgType vendor frame t s
  | .mgmtDatagram addr port frame t => Sys2Proof.Machine.execMgmtDatagram addr port frame t s
  | .read req t => Sys2Proof.Machine.execRead req t s
  | .write req t => Sys2Proof.Machine.execWrite req t s
  | .readBlock req t => Sys2Proof.Machine.execReadBlock req t s
  | .writeBlock req t => Sys2Proof.Machine.execWriteBlock req t s
  | .commit req t => Sys2Proof.Machine.execCommit req t s
  | .subscribe req t => Sys2Proof.Machine.execSubscribe req t s
  | .alertAck req t => Sys2Proof.Machine.execAlertAck req t s
  | .unitQuery req t => Sys2Proof.Machine.execUnitQuery req t s
  | .queueOpen req t => Sys2Proof.Machine.execQueueOpen req t s
  | .queueClose req t => Sys2Proof.Machine.execQueueClose req t s
  | .load req img copied t => Sys2Proof.Machine.execLoad req img copied t s
  | .loadChecksComplete recording t => Sys2Proof.Machine.execLoadChecksComplete recording t s
  | .occEnd req t => Sys2Proof.Machine.execOccEnd req t s
  | .packageReset req t => Sys2Proof.Machine.execPackageReset req t s
  | .twilightDrained t => Sys2Proof.Machine.execTwilightDrained t s
  | .twilightWipeComplete t => Sys2Proof.Machine.execTwilightWipeComplete t s
  | .replayInject what t => Sys2Proof.Machine.execReplayInject what t s
  | .counterWrap unit ctr sourceUnit almanac step pc queue seq t => Sys2Proof.Machine.execCounterWrap unit ctr sourceUnit almanac step pc queue seq t s
  | .freeze req t => Sys2Proof.Machine.execFreeze req t s
  | .provision r t => Sys2Proof.Machine.execProvision r t s
  | .certify r t => Sys2Proof.Machine.execCertify r t s
  | .enrolOwner r t => Sys2Proof.Machine.execEnrolOwner r t s
  | .revokeOwner r t => Sys2Proof.Machine.execRevokeOwner r t s
  | .deploy r t => Sys2Proof.Machine.execDeploy r t s
  | .returnDevice r t => Sys2Proof.Machine.execReturnDevice r t s
  | .redeploy r t => Sys2Proof.Machine.execRedeploy r t s
  | .decommission r t => Sys2Proof.Machine.execDecommission r t s
  | .installPatch r t => Sys2Proof.Machine.execInstallPatch r t s
  | .transitionApply t => Sys2Proof.Machine.execTransitionApply t s
  | .attestation req t => Sys2Proof.Machine.execAttestation req t s
  | .porNAssert t => Sys2Proof.Machine.execPorNAssert t s
  | .porNDeassert straps openStraps evtLevels t => Sys2Proof.Machine.execPorNDeassert straps openStraps evtLevels t s
  | .perstNAssert t => Sys2Proof.Machine.execPerstNAssert t s
  | .perstNDeassert straps openStraps evtLevels t => Sys2Proof.Machine.execPerstNDeassert straps openStraps evtLevels t s
  | .railDip rail milliVolts deep t => Sys2Proof.Machine.execRailDip rail milliVolts deep t s
  | .railRecovery straps openStraps evtLevels t => Sys2Proof.Machine.execRailRecovery straps openStraps evtLevels t s
  | .sensorSample die readings t => Sys2Proof.Machine.execSensorSample die readings t s
  | .avsNoResponse die t => Sys2Proof.Machine.execAvsNoResponse die t s
  | .pinFaultDetect k fault t => Sys2Proof.Machine.execPinFaultDetect k fault t s
  | .biasSense k followsBias t => Sys2Proof.Machine.execBiasSense k followsBias t s
  | .sidebandStuck sdaLow sclLow ownDrive lowMicros t => Sys2Proof.Machine.execSidebandStuck sdaLow sclLow ownDrive lowMicros t s
  | .i3cEntdaa addr => Sys2Proof.Machine.execI3cEntdaa addr s
  | .setEndpointId requester eid => Sys2Proof.Machine.execSetEndpointId requester eid s
  | .getEndpointId requester => Sys2Proof.Machine.execGetEndpointId requester s
  | .getMctpVersionSupport requester => Sys2Proof.Machine.execGetMctpVersionSupport requester s
  | .getMessageTypeSupport requester => Sys2Proof.Machine.execGetMessageTypeSupport requester s
  | .arpRequest targetIp senderMac senderIp => Sys2Proof.Machine.execArpRequest targetIp senderMac senderIp s
  | .icmpEcho dstIp srcIp payload => Sys2Proof.Machine.execIcmpEcho dstIp srcIp payload s
  | .neighbourDiscovery target senderMac => Sys2Proof.Machine.execNeighbourDiscovery target senderMac s
  | .icmpv6Echo dst src payload => Sys2Proof.Machine.execIcmpv6Echo dst src payload s
  | .jtagBypass tdi => Sys2Proof.Machine.execJtagBypass tdi s
  | .jtagIdcode => Sys2Proof.Machine.execJtagIdcode s
  | .jtagSamplePreload preload => Sys2Proof.Machine.execJtagSamplePreload preload s
  | .jtagExtest t => Sys2Proof.Machine.execJtagExtest t s
  | .jtagExtestPulse t => Sys2Proof.Machine.execJtagExtestPulse t s
  | .jtagExtestTrain t => Sys2Proof.Machine.execJtagExtestTrain t s
  | .jtagClamp t => Sys2Proof.Machine.execJtagClamp t s
  | .jtagHighz t => Sys2Proof.Machine.execJtagHighz t s
  | .cpRestartComplete t => Sys2Proof.Machine.execCpRestartComplete t s
  | .fhLinkUp port misordered t => Sys2Proof.Machine.execFhLinkUp port misordered t s
  | .mgmtLinkUp up t => Sys2Proof.Machine.execMgmtLinkUp up t s
  | .pinStatusClear k fault t => Sys2Proof.Machine.execPinStatusClear k fault t s
  | .doeError docType len => Sys2Proof.Machine.execDoeError docType len s
  | .ptpMessageTransmit port t => Sys2Proof.Machine.execPtpMessageTransmit port t s
  | .esmcTransmit t => Sys2Proof.Machine.execEsmcTransmit t s

end Sys2Proof.Machine
end

