-- ==== Sys2Proof/Safety.lean ====
section
/-! DEFINITION. Safety.lean: what every state of the block should satisfy, and the terms that statements use. -/

namespace Sys2Proof

open Machine

/-- The memories are in canonical form. -/
def MemOk (s : State) : Prop := Memory.wf s.mem = true

/-- A command answers a next state. -/
def Completes (i : Instr) (s t : State) : Prop := Machine.exec i s = Host.Outcome.next t

/-- The device runs: neither halted nor held in reset. -/
def Active (s : State) : Prop := stopped s = false

/-- Unit `u` neither is nor lies in a unit that is in recovery, retired or held out, and has a slot for a command (R18). -/
def Ready (s : State) (u : UAddr) : Prop := hasCredit s u = true

/-- The token count of a core for a TAG (R46). -/
def coreTokens (s : State) (k tag : Nat) : Nat := (tget (coreOf s k).seq.tokens tag).getD 0

/-- The token count of a cluster for a TAG (R46). -/
def clusterTokens (s : State) (c tag : Nat) : Nat := (tget (clusterOf s c).seq.tokens tag).getD 0

/-- No unit port differs but in whether its watchdog counts (R354). -/
def sameButDogs (s t : State) : Prop :=
  ∀ u, unitOf t u = { unitOf s u with watchdog := (unitOf t u).watchdog, hold := (unitOf t u).hold }

/-- Two states agree in everything but the cores, the watchdogs that count and the TICKs fired. -/
def sameButCores (s t : State) : Prop :=
  (∃ cs us ts, t = { s with cores := cs, units := us, time := { s.time with ticked := ts } }) ∧ sameButDogs s t

/-- Two states agree in everything but the clusters, the watchdogs that count and the TICKs fired. -/
def sameButClusters (s t : State) : Prop :=
  (∃ cs us ts, t = { s with clusters := cs, units := us, time := { s.time with ticked := ts } }) ∧ sameButDogs s t

/-- A token of unit `u` as it enters its crossing: a FENCE stands behind the writes of its source (R22). -/
def outgoing (s : State) (u dst : UAddr) (kind tag value : Nat) : Crossing :=
  { dst := dst, tok := mkToken u kind tag value, behind := if kind = 4 then writesOf s u else [] }

/-- The oldest token of its path is `tok` for `dst`, and the writes that it waits for have landed (R22, R23, R37). -/
def Oldest (s : State) (dst : UAddr) (tok : Tok) (c : Crossing) : Prop :=
  s.crossing.find? (samePath { dst := dst, tok := tok, behind := [] }) = some c ∧ c.dst = dst ∧ c.tok = tok ∧ fenceOpen s c = true

/-! ## The DSP engine -/

/-- A DSP instruction of the word `w` with the destinations `dests` may issue in `slot` on core `k`: the engine serves; slot 0 finds a RUN
with no packet open, no WAIT stall and no interrupt due, a fetch that succeeds, and `w` in its packet; slot 1 finds slot 0 issued and writing
none of `dests` (R209, R222). -/
def DspTurn (s : State) (k : Nat) (slot : BitVec 1) (w : BitVec 32) (dests : List DspDest) : Prop :=
  k < 48 ∧ Active s ∧ canRun s (deUnit k) = true ∧
    (slot = 0 → mayOpen (dspOf s k) = true ∧ fetchFault s k (dspOf s k) = none ∧ slot0Of (fetched s k (dspOf s k)) = w) ∧
    (slot = 1 → (dspOf s k).cmd.isSome = true ∧ (dspOf s k).slot0 = true ∧ slot1Of (fetched s k (dspOf s k)) = w ∧
      ∀ x ∈ (dspOf s k).flight, x.issued = (dspOf s k).cycle → x.dest ∉ dests)

/-- Reads of local memory are counted (R272): address and bytes of each. -/
def counted (s : State) (reads : List (Nat × Nat)) : State := reads.foldl (fun s r => countRead s r.1 r.2) s

/-- The DSP engine of core `k` updated by `u`, with `sat` limitings counted (R226) and the reads counted, slot 0's fetch first; after slot 0
the packet is open, and slot 1 ends it. -/
def dspAfter (s : State) (k : Nat) (slot : BitVec 1) (u : DspSt → DspSt) (sat : Nat) (reads : List (Nat × Nat) := []) : State :=
  let s := if slot = 0 then counted s [(coreBase s k + 8 * (dspOf s k).pc.toNat, 8)] else s
  let t := setSat (counted (modDsp s k u) reads) k (deUnit k) 0x23 sat
  if slot = 0 then modDsp t k (fun d => { d with slot0 := d.waiting.isNone }) else endPacket t k

/-- Results enter flight with their latencies (R221). -/
def withResults (ws : List (Nat × DspDest × BitVec 64)) (d : DspSt) : DspSt :=
  { d with flight := d.flight ++ ws.map (fun w => { due := d.cycle + w.1, issued := d.cycle, dest := w.2.1, val := w.2.2 }) }

/-- Lane `i` of the `w`-bit lanes of a register, as a two's-complement number (R211). -/
def laneInt (w : Nat) (x : BitVec 64) (i : Nat) : Int := signedOf w (lane w x i)

/-- `x` limited to `w` bits. -/
def limited (w : Nat) (x : Int) : Int := max (-(2 ^ (w - 1))) (min (2 ^ (w - 1) - 1) x)

/-- `x` needs no limiting to `w` bits. -/
def fits (w : Nat) (x : Int) : Prop := -(2 ^ (w - 1)) ≤ x ∧ x < 2 ^ (w - 1)

/-- The integer nearest to `x` / 2^`n`, ties to even. -/
def IsNearest (x : Int) (n : Nat) (r : Int) : Prop :=
  2 * |r * 2 ^ n - x| ≤ 2 ^ n ∧ (2 * |r * 2 ^ n - x| = 2 ^ n → r % 2 = 0)

/-! ## Steps that end -/

/-- The CREDIT token that a slot of port `u` returns to `q` as it frees; none where the port holds no command (R18, R24). -/
def creditOf (s : State) (q u : UAddr) : List Crossing := if (unitOf s u).cmds = 0 then [] else [outgoing s u q 2 0 1]

/-- From `s` to `s'` the oldest running step of the list that sequencer `q` holds for `eng` ends (R24, R45): port `u` frees a slot with a
CREDIT token, and the step's own tokens follow, each to the unit that stands for its receiver; where its only token is the DONE of a slice
without child slices, the unit of the sequencer emits it to its parent and frees its own slot (R18, R28). -/
def StepEnds (s s' : State) (q eng u : UAddr) : Prop :=
  ∀ (n : Nat) (rest : List Nat) (l : StepList) (st : AStep), tget (seqOf s q).running eng.toNat = some (n :: rest) → planList s q eng = some l →
      l.steps[n]? = some st →
    tget (seqOf s' q).running eng.toNat = some rest ∧ s'.mem = s.mem ∧ s'.queues = s.queues ∧ s'.faults = s.faults ∧
    ((∀ e ∈ st.emits, e.kind ≠ 3) → s'.crossing = s.crossing ++ creditOf s q u ++ st.emits.map (fun e =>
      outgoing s eng (homeOf s (inPlaceOf (parentOf l.seq) (parentOf q) e.dst)) e.kind.toNat e.tag.toNat e.value.toNat)) ∧
    (∀ (e : Emit) (p : Slice), st.emits = [e] → e.kind = 3 → runningSlice s (parentOf q) = some p → kidsOf s p.pos = [] →
        uLevel (parentOf q) ≠ 4 → u ≠ parentOf q →
      s'.crossing = s.crossing ++ creditOf s q u ++
        [outgoing s (parentOf q) (parentOf (parentOf q)) 3 ((doneTag s p.pos).getD 0).toNat p.pos.toNat] ++
        creditOf s (parentOf (parentOf q)) (parentOf q))

/-! ## The vector engine -/

/-- The commands of the vector engine but NOP: constructor, opcode, and SUBOP where the row of the table fixes it (R133 to R140). -/
def veForms : List ((Nat → Nat → VeCmd → Instr) × Nat × Option Nat) :=
  [(.veCopy, 0x01, none), (.veAdd, 0x10, none), (.veSub, 0x11, none), (.veMul, 0x12, none), (.veMin, 0x14, none), (.veMax, 0x15, none),
   (.veAbs, 0x16, none), (.veNeg, 0x17, none), (.veConj, 0x18, none), (.veAbs2, 0x19, none), (.veLlradd, 0x1A, none)]
  ++ [(.veRecip, 0x20, some 2), (.veRsqrt, 0x20, some 3), (.veSqrt, 0x20, some 4), (.veDiv, 0x20, some 5), (.veExp, 0x20, some 6),
   (.veExp2, 0x20, some 7), (.veLog, 0x20, some 8), (.veLog2, 0x20, some 9), (.veTanh, 0x20, some 10), (.veSigmoid, 0x20, some 11),
   (.veSilu, 0x20, some 12), (.veGelu, 0x20, some 13), (.veSinpi, 0x20, some 14), (.veCospi, 0x20, some 15)]
  ++ [(.veEpi, 0x02, none), (.vePermute, 0x30, none), (.veDeinterleave, 0x31, some 0), (.veInterleave, 0x31, some 1),
   (.veReverse, 0x31, some 2), (.veSwapPairs, 0x31, some 3), (.veRotate, 0x31, some 4), (.vePack, 0x32, none), (.veUnpack, 0x33, none)]
  ++ [(.veReduceSum, 0x40, some 0), (.veReduceSumsq, 0x40, some 1), (.veReduceMax, 0x40, some 2), (.veReduceMin, 0x40, some 3),
   (.veReduceMaxabs, 0x40, some 4), (.veReduceArgmax, 0x40, some 5), (.veDemap, 0x50, none)]

/-- The command word that a row of the table stands for: its opcode, and its SUBOP where it fixes one. -/
def veForm (c : VeCmd) (op : Nat) (sub : Option Nat) : VeCmd :=
  { c with opcode := BitVec.ofNat 8 op, subop := (sub.map (BitVec.ofNat 8)).getD c.subop }

/-- The vector engine of core `k` runs the command `c` at once: it serves, the command passes R143, none waits before it, the slots it
names are reserved and written (R126), and every operand that it reads is good, in memory, in a register or in a slot (R147). -/
def VeTurn (s : State) (k : Nat) (c : VeCmd) : Prop :=
  k < 48 ∧ Active s ∧ canRun s (veUnit k) = true ∧ veOk c = true ∧ (coreOf s k).veWait = [] ∧ slotsReady s k c = true ∧
    badRead (veReads s k c) = none ∧ veErrBad s k c = false

/-- From `s` to `s'` the status word of the slice that core `k` runs takes SAT where `sat` holds; every other status word stays (R182). -/
def StatusSat (s s' : State) (k : Nat) (sat : Prop) : Prop :=
  ∀ sl, (sat → runningSlice s (coreUnit k) = some sl → sliceStatus s' (coreUnit k) sl = sliceStatus s (coreUnit k) sl ||| 1) ∧
    (¬ sat ∨ runningSlice s (coreUnit k) ≠ some sl → sliceStatus s' (coreUnit k) sl = sliceStatus s (coreUnit k) sl)

/-- A real operand value as OPFMT takes it (R130). -/
def entered (f : Nat) (v : Val) : Val := (enter f v).1

/-- One rounding to OPFMT (R130, R131). -/
def rnd (f : Nat) (v : Val) : Val := (arith f v).1

/-- Element (r, i) of operand A in OPFMT (R125, R128, R130). -/
def veA (s : State) (k : Nat) (c : VeCmd) (r i : Nat) : Elem :=
  let rows := operandRows s k c.srcA.toNat c.fmtA.toNat c.aAddr.toNat c.pitchA.toNat (c.cplx == 1) (coreOf s k).tq.head? c.rows.toNat c.cols.toNat
  let e := (rows.getD r []).getD i zeroElem
  (entered c.opfmt.toNat e.1, entered c.opfmt.toNat e.2)

/-- The element of operand B that element (r, i) of A meets, in OPFMT (R125, R129, R130): B is the slot after the head when A comes from the
tile queue too, and IMM is an FP32 scalar. -/
def veB (s : State) (k : Nat) (c : VeCmd) (r i : Nat) : Elem :=
  if c.srcB = 0 then (entered c.opfmt.toNat (floatVal 8 c.imm.toNat), zeroVal)
  else
    let slot := if c.srcA = 1 then (coreOf s k).tq[1]? else (coreOf s k).tq.head?
    let rows := operandRows s k c.srcB.toNat c.fmtB.toNat c.bAddr.toNat c.pitchB.toNat (veBCplx c) slot (veBShape c).1 (veBShape c).2
    let e := (rows.getD (if c.bcast = 0 then r else 0) []).getD (if c.bcast = 0 ∨ c.bcast = 1 then i else if c.bcast = 2 then r else 0) zeroElem
    (entered c.opfmt.toNat e.1, entered c.opfmt.toNat e.2)

/-- Element (r, i) of a command's result in OPFMT, before FMT_D and ACC; `old` is what the destination holds. -/
def veResult (s : State) (k : Nat) (c : VeCmd) (old : List (List Elem)) (r i : Nat) : Elem :=
  ((veCompute s k c old).1.getD r []).getD i zeroElem

/-! ## The matrix arrays -/

/-- Core `k` has its four arrays of eight tiles (R92). -/
def MaShape (s : State) (k : Nat) : Prop := (coreOf s k).arrays.length = 4 ∧ ∀ m ∈ (coreOf s k).arrays, m.tiles.length = 8

/-- The stream FIFO of `u` has its two banks, empty, none of them passed (R291). -/
def FifoIdle (s : State) (u : UAddr) : Prop :=
  (engMemOf s u).fifo.banks = [[], []] ∧ (engMemOf s u).fifo.wptr = (engMemOf s u).fifo.rptr ∧ (engMemOf s u).fifo.rptr < 4

/-- The arrays of core `k` that `c` names run it at once: they serve, nothing waits before it, it passes R113 to R115 against the blocks and
tiles they hold, no error stands in their memories (R121), their stream FIFOs are empty, and its tiles find free slots if it sends them
(R119). -/
def MaTurn (s : State) (k step : Nat) (c : MatCmd) : Prop :=
  k < 48 ∧ Active s ∧ canRun s (coreUnit k) = true ∧
    (∀ i ∈ maArrays c, inService s (maUnit k i) = true ∧ outStalled s (maUnit k i) = false ∧ (engMemOf s (maUnit k i)).errs = [] ∧
      FifoIdle s (maUnit k i)) ∧ c.arrays ≠ 0 ∧
    maFieldsOk c = true ∧ (coreOf s k).maWait = [] ∧ (coreOf s k).veWait = [] ∧ (∀ x ∈ (coreOf s k).tq, x.written ≠ 0) ∧
    (∀ i ∈ maArrays c, maHeldOk c ((coreOf s k).arrays.getD i {}) = true ∧ maTilesOk c ((coreOf s k).arrays.getD i {}) = true) ∧
    maReadsOk (maBound s k step c) c = true ∧
    (maSends c = true → (coreOf s k).tq.length + maTileCount c * (maArrays c).length ≤ 16)

/-- A read of operands that meets no bad codeword. -/
def GoodRead (g : Got) : Prop := g.poisoned = false ∧ g.uncorrectable = false

/-- Streamed row `r` of array `i`, the `j`-th named: what R104 or, for a bound pass, R155 and R156 stream, zero beyond DEPTH. -/
def passRow (s : State) (k step : Nat) (c : MatCmd) (i j r : Nat) : List Elem :=
  let f := c.fmtT.toNat
  let cx : Bool := c.cplx == 1
  let n := rowBytes f cx c.depth.toNat
  padTo (maDepth c.fmtS.toNat cx) (rowElems f cx (match maRowAddr (maBound s k step c) c i j r with
    | some a => (maRead s k a n).bytes
    | none => zeroRow f cx c.depth.toNat) c.depth.toNat)

/-- The columns that a pass in WS or IS multiplies: those of the held block as OP reads it (R105, R109). -/
def passWidth (s : State) (k : Nat) (c : MatCmd) (i : Nat) : Nat :=
  let h := ((coreOf s k).arrays.getD i {}).held
  if c.op = 0 then h.cols else h.depth

/-- Part `p` of value (r, x) of a tile (R92). -/
def tileWord (t : Tile) (r x p : Nat) : BitVec 32 := (tget t.vals (tileKey t.cplx r x p)).getD 0

/-- Tile `n` of array `i` of core `k`. -/
def tileOf (s : State) (k i n : Nat) : Tile := ((coreOf s k).arrays.getD i {}).tiles.getD n {}

/-- A tile holds the accumulator value `v` at (r, x). -/
def TileHolds (t : Tile) (r x : Nat) (v : Elem) : Prop :=
  tileWord t r x 0 = accWord t.fmt v.1 ∧ (t.cplx = true → tileWord t r x 1 = accWord t.fmt v.2)

/-- The arrays that `c` names have one more step to report, at the cost of R111; nothing but their blocks, tiles, stream FIFOs and shadow
accumulators, the tile queue, the walk of the window that binds the command, SAT and the counts changes. -/
def MaFrame (s s' : State) (k step : Nat) (c : MatCmd) : Prop :=
  (∃ cs us pm em, s' = { s with cores := cs, units := us, pmu := pm, engMem := em }) ∧ (∀ j, j ≠ k → coreOf s' j = coreOf s j) ∧
    (∃ as q ws, coreOf s' k = { coreOf s k with arrays := as, tq := q, windows := ws }) ∧
    (maBound s k step c = none → (coreOf s' k).windows = (coreOf s k).windows) ∧
    (∀ u, unitOf s' u = { unitOf s u with
      corrected := (unitOf s' u).corrected, status := if u = coreUnit k then (unitOf s' u).status else (unitOf s u).status }) ∧
    (∀ u, u ∉ (maArrays c).map (maUnit k) → engMemOf s' u = engMemOf s u) ∧
    ∀ i, i < 4 → let m := (coreOf s k).arrays.getD i {}
      let m' := (coreOf s' k).arrays.getD i {}
      if i ∈ maArrays c then m'.busy = m.busy ++ [step] ∧ m'.cycles = m.cycles + maCost c else m' = m

/-! ## The engines of a cluster -/

/-- From `s` to `s'` an engine of cluster `c` runs a command whose writes leave memory as in `w`: the records, the counts and the free
values are those of the writes, and nothing else changes but the cluster's own engine. -/
def ClusterRun (s s' w : State) (c : Nat) : Prop :=
  (∃ ks us ps pm em fs lf fc, s' = { s with
    mem := w.mem, clusters := ks, units := us, pins := ps, pmu := pm, engMem := em, faults := fs, lastFault := lf, freeCount := fc }) ∧
  s'.faults = w.faults ∧ s'.lastFault = w.lastFault ∧ ∀ j, j ≠ c → clusterOf s' j = clusterOf s j

/-- An engine `u` turns a command away (R240): nothing is written, a record with cause COMMAND is, and its FAULT token goes to its parent. -/
def TurnedAway (s s' : State) (u : UAddr) : Prop :=
  s'.mem = s.mem ∧ s'.cores = s.cores ∧ s'.clusters = s.clusters ∧ s'.lastFault = s.lastFault + 1 ∧
    (∃ r, tget s'.faults ((s.lastFault + 1) % 256) = some r ∧ r.unit = u ∧ r.cause = causeCommand) ∧
    s'.crossing = s.crossing ++ [outgoing s u (parentOf u) 6 0 (s.lastFault + 1)]

/-- The bits at bit address `bit` of cluster `c` read good. -/
def GoodBits (s : State) (c bit n : Nat) : Prop := GoodRead (gotBits s c bit n)

/-- Bits written from bit address `bit` of cluster `c` by unit `u`. -/
def bitsPut (s : State) (u : UAddr) (c bit : Nat) (bs : List Bool) : State := writeBits s u c bit bs

/-- Bytes written from bit address `bit` of cluster `c` by unit `u`. -/
def bytesPut (s : State) (u : UAddr) (c bit : Nat) (bs : List Byte) : State := writeLocal s u (clusterBase c + bit / 8) bs false

/-! ## Memory as it reads -/

/-- The byte at local address `a` as a read returns it. -/
def byteAt (s : State) (a : Nat) : Byte := (readLocal s a 1).bytes.headD 0

/-- Local address `a` lies in populated memory. -/
def InMemory (s : State) (a : Nat) : Prop := placeOf s a ≠ .reserved ∧ placeOf s a ≠ .control

/-- The codeword that holds local address `a` reads good. -/
def GoodAt (s : State) (a : Nat) : Prop := GoodRead (readLocal s a 1)

/-- The fabric address `f` names a good byte of the device's own memory. -/
def OwnByte (s : State) (f : Nat) : Prop := f / 2 ^ 36 = devnum s ∧ InMemory s (f % 2 ^ 36) ∧ GoodAt s (f % 2 ^ 36)

/-- From `s` to `s'` mover `m` of cluster `c` runs a command: the state changes at most in memory, in the records and counts of its accesses, in the
device's own record of outputs and in cluster `c`, where the command waits to be reported complete. -/
def MoverRun (s s' : State) (c m : Nat) : Prop :=
  (∃ mem ks us ps pm em fs lf fc, s' = { s with
    mem := mem, clusters := ks, units := us, pins := ps, pmu := pm, engMem := em, faults := fs, lastFault := lf, freeCount := fc }) ∧
  (∀ j, j ≠ c → clusterOf s' j = clusterOf s j) ∧ (∀ j, j ≠ m → movOf s' c j = movOf s c j) ∧
  (movOf s' c m).eng.busy = (movOf s c m).eng.busy ++ [0] ∧ (clusterOf s' c).seq = (clusterOf s c).seq ∧
  (clusterOf s' c).ce = (clusterOf s c).ce ∧ (clusterOf s' c).pe = (clusterOf s c).pe ∧ (clusterOf s c).movers.length = (clusterOf s' c).movers.length

/-! ## Fault records -/

/-- From `s` to `s'` one fault record is written, in the name of `u` and with cause `cause` (R371). -/
def NewRecord (s s' : State) (u : UAddr) (cause : BitVec 8) : Prop :=
  s'.lastFault = s.lastFault + 1 ∧ ∃ r, tget s'.faults ((s.lastFault + 1) % 256) = some r ∧ r.number = s.lastFault + 1 ∧
    r.unit = u ∧ r.cause = cause ∧ r.time = s'.time.now

/-- No fault record is written from `s` to `s'`. -/
def NoRecord (s s' : State) : Prop := s'.faults = s.faults ∧ s'.lastFault = s.lastFault

/-! ## Object requests -/

/-- The response frame of R443 to `req`: header and payload in the byte order of its transport. -/
def IsResponse (req : ObjReq) (code : Nat) (pay f : List Byte) : Prop :=
  f.length = 16 + pay.length ∧ f.drop 16 = pay ∧
    (if req.who = .pcie then ofBytesLE (f.take 16) else ofBytesBE (f.take 16)) =
      (req.opcode.toNat + 0x80) % 256 * 2 ^ 120 + req.index.toNat * 2 ^ 104 + req.sub.toNat * 2 ^ 96 + code * 2 ^ 80 + pay.length * 2 ^ 32 + req.tid.toNat

/-- From `s` to `s'` the response to `req` leaves by its transport (R438 to R443): with abort code `code`, or with payload `pay` where that is 0. -/
def Answered (s s' : State) (req : ObjReq) (code : Nat) (pay : List Byte) : Prop :=
  ∃ f, IsResponse req code pay f ∧
    match req.who with
    | .pcie => s'.obj.busy = false ∧ s'.obj.done = true ∧ cgets s'.mem.cells (controlBase + 0x1000) f.length = f
    | .sideband _ => s'.out.getLast? = some (.response req.who f)
    | .mgmt _ _ => if s.bus.mgmtUp then s'.out.getLast? = some (.response req.who f) else s'.out = s.out

/-- The object server takes up `req`, which is the oldest that has landed or lands now, with the I/O die and the control processor in service. -/
def Served (s : State) (req : ObjReq) : Prop :=
  (s.obj.landed = [] ∨ s.obj.landed.head? = some req) ∧ (unitOf s (dieUnit 2)).phase = .live ∧ s.cp.restarting = false

/-- From `s` to `s'` at time `t` nothing changes but what answering a request changes: no object's value, no memory outside the window. -/
def NoEffect (s s' : State) (t : Time) : Prop :=
  ∃ ob m o pc, s' = { s.atTime t with obj := ob, mem := m, out := o, pcie := pc } ∧ ob.rw = s.obj.rw ∧ ob.staged = s.obj.staged ∧
    ob.inForce = s.obj.inForce ∧ ob.commits = s.obj.commits ∧ ob.subs = s.obj.subs ∧ ob.refused = s.obj.refused ∧ m.check = s.mem.check ∧
    (∀ a, a < controlBase + 0x1000 ∨ controlBase + 0x2000 ≤ a → cget m.cells a = cget s.mem.cells a) ∧
    pc.busMaster = s.pcie.busMaster ∧ pc.linkUp = s.pcie.linkUp ∧ pc.bar4 = s.pcie.bar4

end Sys2Proof
end

