-- ==== Sys2Proof/Certificates/Slice0/Obligations.lean ====
section
/-! DEFINITION. Certificates/Slice0/Obligations.lean: the statements about this block, in the order of OBLIGATIONS.json. A statement
that names rules of spec/ formalises what they say in the model's terms; where a value is the model's choice its docstring or title
names the log entry (notes/assumptions). -/

open Sys2Proof Sys2Proof.Machine

/-- A step takes the command at the front of the queue and runs it with the queue's rest. -/
def Obligations.StepRunsFront : Prop :=
  ∀ (c : Instr) (rest : List Instr) (s : State), s.pending = c :: rest → step s = exec c { s with pending := rest }

/-- Every command answers a next state, in every state and with every operand, and leaves the queue as it is; so every step answers a next
state. On an empty queue a step changes nothing (the model's choice, log entry 17). -/
def Obligations.NoCommandStops : Prop :=
  (∀ (c : Instr) (s : State), ∃ s', Completes c s s' ∧ s'.pending = s.pending) ∧ (∀ s : State, ∃ s', step s = .next s') ∧
  ∀ s : State, s.pending = [] → step s = .next s

/-- R371, R376, R412, R448, R489, R511, R513, R536: after reset network time is 0 in FREERUN, no fault is recorded, no object holds another
value than its default, no sample and no pin status bit is set, no occupancy is present, and the memories are in canonical form. The queue
is empty. -/
def Obligations.ResetState : Prop :=
  MemOk State.reset ∧ Active State.reset ∧ State.reset.pending = [] ∧ State.reset.time.now = 0 ∧ State.reset.time.servo = .freerun ∧
      State.reset.faults = [] ∧ State.reset.lastFault = 0 ∧
  (∀ i sub d, rwVal State.reset i sub d = d) ∧ State.reset.obj.staged = [] ∧ State.reset.obj.inForce = [] ∧ State.reset.pmu.written = 0 ∧
      State.reset.pmu.lost = 0 ∧ (∀ k, pinStatus State.reset k = 0) ∧
  State.reset.occ.state = .none ∧ State.reset.occ.loads = 0 ∧ State.reset.items = [] ∧ State.reset.life.requests = 0

/-- R262, R272: every step keeps the memories in canonical form: addresses strictly rising and no entry that equals what an unlisted address
reads as. -/
def Obligations.StepKeepsMemory : Prop :=
  ∀ s s' : State, MemOk s → step s = .next s' → MemOk s'

/-- R113, R142, R154, R162, R234, R238, R250, R283: the command words of the engines, the relay's geometry and the window descriptors: the
fields read from the word of given fields are those fields, and the word of the fields read from a word is that word. -/
def Obligations.CommandWordsRoundTrip : Prop :=
  ((∀ c, matCmdOfWord (matCmdToWord c) = c) ∧ ∀ w, matCmdToWord (matCmdOfWord w) = w) ∧ ((∀ c, veCmdOfWord (veCmdToWord c) = c) ∧
      ∀ w, veCmdToWord (veCmdOfWord w) = w) ∧
  ((∀ c, dspCmdOfWord (dspCmdToWord c) = c) ∧ ∀ w, dspCmdToWord (dspCmdOfWord w) = w) ∧ ((∀ c, ceCmdOfWord (ceCmdToWord c) = c) ∧
      ∀ w, ceCmdToWord (ceCmdOfWord w) = w) ∧
  ((∀ c, peCmdOfWord (peCmdToWord c) = c) ∧ ∀ w, peCmdToWord (peCmdOfWord w) = w) ∧ ((∀ c, movCmdOfWord (movCmdToWord c) = c) ∧
      ∀ w, movCmdToWord (movCmdOfWord w) = w) ∧
  ((∀ c, relayGeoOfWord (relayGeoToWord c) = c) ∧ ∀ w, relayGeoToWord (relayGeoOfWord w) = w) ∧ ((∀ c, windowOfWord (windowToWord c) = c) ∧
      ∀ w, windowToWord (windowOfWord w) = w)

/-- R351, R374, R376: network time never moves backward, but in occupancy state NONE, at a cold reset, and where a replay takes up the time
of its recording. R489, R490: no command but TRANSITION_APPLY changes the lifecycle state, which never leaves DECOMMISSIONED; a fused or
revoked owner slot stays so, and the count of accepted requests and the floor of patches never fall. -/
def Obligations.TimeAndFusesGoOneWay : Prop :=
  (∀ (c : Instr) (s s' : State), Completes c s s' →
       s.time.now ≤ s'.time.now ∨ s.occ.state = .none ∨ (s.occ.state = .loading ∧ s.occ.replay = true ∧
           ∃ r t, c = .loadChecksComplete r t) ∨
       (∃ t, c = .porNAssert t ∨ c = .perstNAssert t ∨ c = .transitionApply t) ∨
       (∃ a b e t, c = .porNDeassert a b e t ∨ c = .perstNDeassert a b e t ∨ c = .railRecovery a b e t) ∨
           ∃ r v t, c = .railDip r v true t) ∧
  (∀ (c : Instr) (s s' : State), Completes c s s' →
       (s'.life.state = s.life.state ∨ ∃ t, c = .transitionApply t) ∧ (s.life.state = 4 → s.life.transition = none → s'.life.state = 4 ∧
           s'.life.transition = none) ∧
       (∀ n, bitOf s.life.ownerFused n = true → bitOf s'.life.ownerFused n = true) ∧ (∀ n, bitOf s.life.ownerRevoked n = true →
           bitOf s'.life.ownerRevoked n = true) ∧
       s.life.requests ≤ s'.life.requests ∧ s.life.patchFloor ≤ s'.life.patchFloor)

/-- R21, R22, R46: a READY or FENCE token that arrives at a core or at a cluster's sequencer, oldest of its path or sent by a region of the
I/O die, and a TICK that the plan gives at that instant, add 1 to entry TAG of the token table there, while the count is below 255; every
other entry, every other core or cluster, and all the rest of the state but the crossing, the watchdogs that count and the record of TICKs
stay. R22, R23, R37: a token that is not the oldest of its path, or whose FENCE waits for writes, and a TICK that is not planned, arrive
nowhere. R44, R45: the next step of a list, other than a matrix command, starts when its awaited counts are reached, its sequencer runs and a
credit is held for its command: the counts are subtracted, the credit is taken and the step runs; a child slice goes to the unit that the
distribution table names. R26, R274: a command word that reads bad stops the sequencer with a fault. R35, R37: a sequencer whose clock is
stopped or whose tokens find no room starts nothing. -/
def Obligations.TokensAndSteps : Prop :=
  (∀ (s s0 : State) (t : Time) (tok : Tok) (dst : UAddr) (i : Instr) (tag : Nat), Active s → tag < 256 →
       ((i = .readyToken dst tok t ∧ tokKind tok = 1 ∨ i = .fenceToken dst tok t ∧ tokKind tok = 4) ∧ tag = tokTag tok ∧
           ((∃ c, Oldest s dst tok c ∧ s0 = { s.atTime t with crossing := s.crossing.erase c }) ∨
             (arriving s dst tok = none ∧ tokSource tok = dieUnit 2 ∧ s0 = s.atTime t)) ∨
         ∃ (d0 : UAddr) (p : Plan) (x : TickPlan), homeOf s d0 = dst ∧ i = .tickFire d0 (BitVec.ofNat 8 tag) t ∧ planOf s = some p ∧
           x ∈ p.ticks ∧ x.dst = d0 ∧ x.tag = BitVec.ofNat 8 tag ∧ tickDue (s.atTime t) x.at_ = true ∧ copyRuns s dst = true ∧
           lastTick s d0 (BitVec.ofNat 8 tag) ≠ some (max s.time.now t) ∧ s0 = s.atTime t) →
       (∀ k, k < 48 → dst = coreUnit k → coreTokens s k tag < 255 →
         ∃ s', Completes i s s' ∧ sameButCores s0 s' ∧ coreTokens s' k tag = coreTokens s k tag + 1
             ∧ (∀ g, g ≠ tag → coreTokens s' k g = coreTokens s k g) ∧ (∀ j, j ≠ k → coreOf s' j = coreOf s j)) ∧
       (∀ k, k < 8 → dst = clusterUnit k → clusterTokens s k tag < 255 →
         ∃ s', Completes i s s' ∧ sameButClusters s0 s' ∧ clusterTokens s' k tag = clusterTokens s k tag + 1
             ∧ (∀ g, g ≠ tag → clusterTokens s' k g = clusterTokens s k g) ∧ (∀ j, j ≠ k → clusterOf s' j = clusterOf s j))) ∧
  (∀ (s : State) (t : Time) (dst : UAddr), Active s →
       (∀ (tok : Tok) (i : Instr), arriving s dst tok = none → tokSource tok ≠ dieUnit 2 →
           i ∈ [.readyToken dst tok t, .creditToken dst tok t, .doneToken dst tok t, .fenceToken dst tok t, .faultToken dst tok t] →
         Completes i s (s.atTime t)) ∧
       (∀ tag, (∀ p x, planOf s = some p → x ∈ p.ticks → x.dst = dst → x.tag = tag → tickDue (s.atTime t) x.at_ = false) →
         Completes (.tickFire dst tag t) s (s.atTime t))) ∧
  (∀ (s : State) (t : Time) (q eng : UAddr), Active s → unitValid q = true → uLevel q = 0 → uKind q = 6 →
       (canRun s q = false → Completes (.stepStart q eng t) s (s.atTime t)) ∧
       (canRun s q = true →
         (∀ g, nextBad s q eng = some g → Completes (.stepStart q eng t) s (engineFault (s.atTime t) q (badCause g) g.at_)) ∧
         (∀ (n : Nat) (st : AStep), nextBad s q eng = none → nextStep s q eng = some (n, st) → (∀ w, st.cmd ≠ .ma w) →
             awaitMet (seqOf s q).tokens st.await = true →
           let s1 := setSeq (s.atTime t) q (markStarted { seqOf s q with tokens := awaitTake (seqOf s q).tokens st.await } eng n)
           ((∀ p, st.cmd ≠ .child p) → Ready s (engineFor s eng) →
             Completes (.stepStart q eng t) s (settleDogs (countUnit (spendCredit s1 (engineFor s eng)) q 0x30 1) (parentOf q))) ∧
           (∀ p v sl, st.cmd = .child p → childTarget s q p = some (v, sl) → Ready s v → (unitOf s v).stalled = [] → turnOf s v sl = true →
             Completes (.stepStart q eng t) s (settleDogs (countUnit (sendSlice s1 v sl) q 0x30 1) (parentOf q))))))

/-- R17, R18, R24, R28: a slice of the package, or one that the distribution table of a slice of the parent gives to a unit and that has not
been sent, goes to the unit that serves: where its port has a slot, its turn has come and none is stalled before it, it is held there, takes
one slot and starts the watchdog; else it stalls behind the others and changes nothing else; one that nothing distributes is not sent. R18,
R20, R22: a CREDIT token of 1 to 16 credits of a port in service that has at least as many slots taken frees them; one with a VALUE outside
1 to 16 is discarded with a protocol record of the receiver. R28, R29: a DONE token for a slice that its sender holds ends that slice: the
sender no longer holds it, its failed re-issues are forgotten, and its watchdog stops when it holds nothing more; the last child's DONE at a
die ends the die's slice too: its own DONE token and the CREDIT of its slot leave. -/
def Obligations.SlicesComeAndGo : Prop :=
  (∀ (s : State) (t : Time) (unit u : UAddr) (sl : Slice), Active s → unitValid unit = true → servingUnit s unit sl.pos = u →
       (unit = packageUnit ∨ distributes s u unit sl = true →
         (Ready s u → (unitOf s u).stalled = [] → turnOf s u sl = true →
           ((unitOf s u).held ≠ [] →
             Completes (.unitCommand unit sl t) s (setUnit (s.atTime t) u { unitOf s u with
               used := (unitOf s u).used + 1, cmds := (unitOf s u).cmds + 1, held := (unitOf s u).held ++ [sl]
               watchdog := some ((unitOf s u).watchdog.getD (max s.time.now t)) })) ∧
           ((unitOf s u).held = [] → (unitOf s u).hold = none →
             ∃ s', Completes (.unitCommand unit sl t) s s' ∧ (unitOf s' u).held = [sl] ∧ (unitOf s' u).used = (unitOf s u).used + 1
               ∧ (unitOf s' u).cmds = (unitOf s u).cmds + 1
               ∧ (unitOf s' u).watchdog = some ((unitOf s u).watchdog.getD (max s.time.now t))
               ∧ (∀ v, v ≠ u → (unitOf s' v).held = (unitOf s v).held ∧ (unitOf s' v).used = (unitOf s v).used
                   ∧ (unitOf s' v).stalled = (unitOf s v).stalled)
               ∧ s'.queues = s.queues ∧ s'.items = s.items ∧ s'.occ = s.occ)) ∧
         (¬ Ready s u ∨ (∀ x ∈ (unitOf s u).stalled ++ [sl], turnOf s u x = false) →
           Completes (.unitCommand unit sl t) s
             (setUnit (s.atTime t) u { unitOf s u with stalled := (unitOf s u).stalled ++ [sl] }))) ∧
       (unit ≠ packageUnit → distributes s u unit sl = false → Completes (.unitCommand unit sl t) s (s.atTime t))) ∧
  (∀ (s : State) (t : Time) (dst src : UAddr) (tok : Tok) (c : Crossing), Active s → Oldest s dst tok c → tokKind tok = 2 →
      tokSource tok = src →
       (1 ≤ tokValue tok → tokValue tok ≤ 16 → tokValue tok ≤ (unitOf s src).used → inService s src = true →
           (unitOf s src).stalled = [] →
         Completes (.creditToken dst tok t) s
           (setUnit { s.atTime t with crossing := s.crossing.erase c } src
             { unitOf s src with used := (unitOf s src).used - tokValue tok })) ∧
       (tokValue tok = 0 ∨ 16 < tokValue tok →
         Completes (.creditToken dst tok t) s
           (recordFaultAt { s.atTime t with crossing := s.crossing.erase c } dst causeProtocol 0 0 0 0 0))) ∧
  (∀ (s : State) (t : Time) (dst src : UAddr) (tok : Tok) (sl : Slice) (c : Crossing), Active s → Oldest s dst tok c → tokKind tok = 3 →
       tokSource tok = src → src ≠ dst →
       coreTokens s (coreNo dst) (tokTag tok) < 255 → clusterTokens s (uCluster dst) (tokTag tok) < 255 →
       (unitOf s src).held.find? (fun x => x.pos == BitVec.ofNat 32 (tokValue tok)) = some sl →
       ∃ s', Completes (.doneToken dst tok t) s s' ∧ (unitOf s' src).held = (unitOf s src).held.erase sl
         ∧ (unitOf s' src).failed = 0 ∧ (unitOf s' src).retrying = false ∧ s'.queues = s.queues
         ∧ ((unitOf s src).held = [sl] → (unitOf s' src).watchdog = none ∧ s'.mem = s.mem ∧ s'.faults = s.faults)
         ∧ (∀ p, uLevel dst = 3 → (unitOf s src).held = [sl] →
             (unitOf s dst).held.find? (fun p => p.queue == sl.queue && p.seq == sl.seq && (kidsOf s p.pos).any (fun k => k.1 == sl.pos)) =
               some p →
             (∀ k ∈ kidsOf s p.pos, { p with pos := k.1 } ∈ (unitOf s dst).kidsDone ++ [sl]) → doneTag s p.pos = none →
             s'.crossing = s.crossing.erase c ++ [outgoing s dst (parentOf dst) 3 0 p.pos.toNat] ++ creditOf s (parentOf dst) dst))

/-- R356, R360: a FAULT token of a child, or the expiry of a unit's watchdog after its timeout, starts the Dusk of an engine, core or
cluster in service that is not on its second failed re-issue: its credits are void, its commands go and its watchdog stops; a watchdog that does not count
(R354) expires nowhere. R356, R358: an engine, core or
cluster in Dusk that passes its self-test serves again from its Dawn; a compute die whose restore completes does too, and its slices return
no earlier than 50 µs later (R363). Stated with no capture running and no package recovery. R34, R35, R40: a droop beyond the stretch of an
island that runs stops its clock and records a floor breach; a covered droop stretches the clock, unless the occupancy is locked; a
stretched clock that restarts runs unstretched. -/
def Obligations.UnitsStopAndReturn : Prop :=
  (∀ (s : State) (t : Time) (u : UAddr), Active s → uLevel u ≤ 2 → unitValid u = true → inService s u = true →
      (unitOf s u).retrying = false →
       (∀ (tok : Tok) (c : Crossing), Oldest s (parentOf u) tok c → tokKind tok = 6 → tokSource tok = u → mirroredFault s (tokValue tok) = none →
           coreTokens s (coreNo (parentOf u)) (tokTag tok) < 255 → clusterTokens s (uCluster (parentOf u)) (tokTag tok) < 255 →
         ∃ s', Completes (.faultToken (parentOf u) tok t) s s' ∧ (unitOf s' u).phase = .dusk ∧ (unitOf s' u).used = 0
           ∧ (unitOf s' u).cmds = 0 ∧ (unitOf s' u).watchdog = none ∧ s'.queues = s.queues ∧ s'.fabric = s.fabric) ∧
       (∀ h : Time, (unitOf s u).hold = some h → Completes (.watchdogExpiry u t) s (s.atTime t)) ∧
       (∀ w : Time, (unitOf s u).watchdog = some w → (unitOf s u).hold = none → w + timeoutOf s u ≤ max s.time.now t →
         ∃ s', Completes (.watchdogExpiry u t) s s' ∧ (unitOf s' u).phase = .dusk ∧ (unitOf s' u).used = 0
           ∧ (unitOf s' u).cmds = 0 ∧ (unitOf s' u).watchdog = none ∧ s'.queues = s.queues ∧ s'.fabric = s.fabric
           ∧ (s.cap.running = none → s'.lastFault = s.lastFault + 1
               ∧ ∃ r, tget s'.faults ((s.lastFault + 1) % 256) = some r ∧ r.number = s.lastFault + 1 ∧ r.unit = u
                   ∧ r.cause = causeWatchdog ∧ r.action = 1#4))) ∧
  (∀ (s : State) (t : Time), Active s → s.cap.running = none →
       (∀ u, uLevel u ≤ 2 → unitValid u = true → (unitOf s u).phase = .dusk →
         ∃ s', Completes (.unitDawn u true t) s s' ∧ (unitOf s' u).phase = .live ∧ (unitOf s' u).dawnAt = max s.time.now t
           ∧ s'.queues = s.queues
           ∧ (slicesOf s u = [] → (unitOf s u).stalled = [] → s'.lastFault = s.lastFault + 1 ∧ s'.fabric = s.fabric)) ∧
       (∀ d : BitVec 1, (unitOf s (dieUnit d.toNat)).phase = .dawn → s.cp.packageStep = 0 → s.dies.length = 2 →
           (s.dies.getD (1 - d.toNat) {}).faultHeld = false →
         ∃ s', Completes (.dieRestoreComplete d t) s s' ∧ (unitOf s' (dieUnit d.toNat)).phase = .live
           ∧ (s'.dies.getD d.toNat {}).returnFrom = some (max s.time.now t + 50000)
           ∧ (s'.dies.getD d.toNat {}).restored = none ∧ s'.queues = s.queues)) ∧
  (∀ (s : State) (t : Time) (i : Nat), Active s → i < 61 →
       ((islandOf s i).stopped = false → Completes (.clockDroop i false t) s
         (recordFaultAt { s.atTime t with islands := tset s.islands i { islandOf s i with stopped := true, since := max s.time.now t } }
           (islandUnit i) causeFloor 0 0 0 0 0)) ∧
       ((islandOf s i).stopped = true → Completes (.clockDroop i false t) s (s.atTime t)) ∧
       (s.occ.locked = false → Completes (.clockDroop i true t) s
         { s.atTime t with islands := tset s.islands i { islandOf s i with stretched := true } }) ∧
       (s.occ.locked = true → Completes (.clockDroop i true t) s (s.atTime t)) ∧
       ((islandOf s i).stopped = false → Completes (.clockRestart i t) s
         { s.atTime t with islands := tset s.islands i { islandOf s i with stopped := false, stretched := false } }) ∧
       ((islandOf s i).stopped = true → ∃ s', Completes (.clockRestart i t) s s' ∧ (islandOf s' i).stopped = false
         ∧ ∀ j, j ≠ i → islandOf s' j = islandOf s j))

/-- R210, R211, R221, R223: the lane operations of the DSP engine that limit nothing write Dd for the packets from the next cycle on, each
lane by itself; nothing else of the engine changes but that the packet goes on. R211: SHRR writes each lane of Da divided by 2^IMM6 and
rounded to nearest, ties to even, and 0 where IMM6 reaches the lane width. R211, R219: AND, OR and XOR work on the whole of Da and Db, and
DIVS is the one division step of R219; LW is ignored. R211, R226: ADDS, SUBS and ABSS limit each lane to its range; SAT is set exactly when
a lane was limited. -/
def Obligations.DspArithmetic : Prop :=
  (∀ (mk : Nat → BitVec 1 → AluF → Instr) (opc : BitVec 5) (op : Nat → Nat → Int → Int → Int),
       (mk, opc, op) ∈ [(Instr.dspMov, 0, fun _ _ a _ => a), (Instr.dspAdd, 1, fun _ _ a b => a + b), (Instr.dspSub, 2, fun _ _ a b => a - b),
         (Instr.dspShl, 8, fun _ n a _ => a * 2 ^ n), (Instr.dspShra, 9, fun _ n a _ => a.fdiv (2 ^ n)),
         (Instr.dspShrl, 11, fun w n a _ => ((patternOf w a / 2 ^ n : Nat) : Int)), (Instr.dspMin, 12, fun _ _ a b => min a b),
         (Instr.dspMax, 13, fun _ _ a b => max a b), (Instr.dspCmplt, 17, fun _ _ a b => if a < b then -1 else 0),
         (Instr.dspClz, 15, fun w _ a => fun _ => (((List.range w).filter (fun j => patternOf w a < 2 ^ (w - 1 - j))).length : Int)) ] →
       ∀ (s : State) (k : Nat) (slot : BitVec 1) (f : AluF), f.lw ≠ 3 → DspTurn s k slot (aluWord opc f) [.d f.dd.toNat] →
         ∃ v : BitVec 64, Completes (mk k slot f) s (dspAfter s k slot (withResults [(1, .d f.dd.toNat, v)]) 0) ∧
           ∀ i, i < 64 / laneBits f.lw → lane (laneBits f.lw) v i =
             patternOf (laneBits f.lw) (op (laneBits f.lw) f.imm6.toNat (laneInt (laneBits f.lw) (dReg (dspOf s k) f.da.toNat) i)
               (laneInt (laneBits f.lw) (dReg (dspOf s k) f.db.toNat) i))) ∧
  (∀ (s : State) (k : Nat) (slot : BitVec 1) (f : AluF), f.lw ≠ 3 → DspTurn s k slot (aluWord 10 f) [.d f.dd.toNat] →
       ∃ v : BitVec 64, Completes (.dspShrr k slot f) s (dspAfter s k slot (withResults [(1, .d f.dd.toNat, v)]) 0) ∧
         ∀ i, i < 64 / laneBits f.lw →
           if laneBits f.lw ≤ f.imm6.toNat then lane (laneBits f.lw) v i = 0
           else IsNearest (laneInt (laneBits f.lw) (dReg (dspOf s k) f.da.toNat) i) f.imm6.toNat (laneInt (laneBits f.lw) v i)) ∧
  (∀ (s : State) (k : Nat) (slot : BitVec 1) (f : AluF),
       let a := dReg (dspOf s k) f.da.toNat
       let b := dReg (dspOf s k) f.db.toNat
       let t := 2 * bitsOf a 63 32 + bitsOf a 31 31
       let turn (opc : BitVec 5) : Prop := DspTurn s k slot (aluWord opc f) [.d f.dd.toNat]
       (turn 5 → Completes (.dspAnd k slot f) s (dspAfter s k slot (withResults [(1, .d f.dd.toNat, a &&& b)]) 0)) ∧
       (turn 6 → Completes (.dspOr k slot f) s (dspAfter s k slot (withResults [(1, .d f.dd.toNat, a ||| b)]) 0)) ∧
       (turn 7 → Completes (.dspXor k slot f) s (dspAfter s k slot (withResults [(1, .d f.dd.toNat, a ^^^ b)]) 0)) ∧
       (turn 16 → ∃ v : BitVec 64, Completes (.dspDivs k slot f) s (dspAfter s k slot (withResults [(1, .d f.dd.toNat, v)]) 0) ∧
         bitsOf v 63 32 = (if bitsOf b 31 0 ≤ t then t - bitsOf b 31 0 else t) % 2 ^ 32 ∧
         bitsOf v 31 0 = bitsOf a 30 0 * 2 + (if bitsOf b 31 0 ≤ t then 1 else 0))) ∧
  (∀ (mk : Nat → BitVec 1 → AluF → Instr) (opc : BitVec 5) (op : Int → Int → Int),
       (mk, opc, op) ∈ [(Instr.dspAdds, 3, fun a b => a + b), (Instr.dspSubs, 4, fun a b => a - b), (Instr.dspAbss, 14, fun a _ => |a|)] →
       ∀ (s : State) (k : Nat) (slot : BitVec 1) (f : AluF), f.lw ≠ 3 → DspTurn s k slot (aluWord opc f) [.d f.dd.toNat] →
         ∃ (v : BitVec 64) (n : Nat), Completes (mk k slot f) s (dspAfter s k slot (withResults [(1, .d f.dd.toNat, v)]) n) ∧
           (∀ i, i < 64 / laneBits f.lw → laneInt (laneBits f.lw) v i =
             limited (laneBits f.lw) (op (laneInt (laneBits f.lw) (dReg (dspOf s k) f.da.toNat) i)
               (laneInt (laneBits f.lw) (dReg (dspOf s k) f.db.toNat) i))) ∧
           (n = 0 ↔ ∀ i, i < 64 / laneBits f.lw → fits (laneBits f.lw) (op (laneInt (laneBits f.lw) (dReg (dspOf s k) f.da.toNat) i)
               (laneInt (laneBits f.lw) (dReg (dspOf s k) f.db.toNat) i))))

/-- R212, R223, R224, R226: the complex adds form both parts of the four elements exactly, halve them to nearest even under SH = 1 and limit
them to 16 bits; CORD takes the elements in the order 0, 2, 1, 3. R213, R221, R223, R225, R226: CMUL4 and CMULJ4 write the product of each
element pair, exact, shifted right with rounding to nearest even and limited to 16 bits, and EXT so writes a quad of accumulators as EXT
sees it; CMUL results are seen four cycles later, EXT's two. R213, R221, R225, R226: the CMAC forms add the exact product of each element
pair to the four accumulators of the quad, or with CLR write it, each part limited to 48 bits: at once for a later CMAC, four cycles later
for EXT and MVAD; CMACS multiplies by element LANE. -/
def Obligations.DspMultiplies : Prop :=
  (∀ (mk : Nat → BitVec 1 → CaddF → Instr) (opc : BitVec 4) (op : Int × Int → Int × Int → Int × Int) (order : Nat → Nat),
       (mk, opc, op, order) ∈ [(Instr.dspCadd, 0, fun a b => (a.1 + b.1, a.2 + b.2), fun j => j),
         (Instr.dspCsub, 1, fun a b => (a.1 - b.1, a.2 - b.2), fun j => j),
         (Instr.dspCaddj, 2, fun a b => (a.1 - b.2, a.2 + b.1), fun j => j),
         (Instr.dspCsubj, 3, fun a b => (a.1 + b.2, a.2 - b.1), fun j => j), (Instr.dspCneg, 4, fun a _ => (-a.1, -a.2), fun j => j),
         (Instr.dspCconj, 5, fun a _ => (a.1, -a.2), fun j => j),
         (Instr.dspCord, 6, fun a _ => a, fun j => if j = 1 then 2 else if j = 2 then 1 else j) ] →
       ∀ (s : State) (k : Nat) (slot : BitVec 1) (f : CaddF), f.sh.toNat < 2 →
         DspTurn s k slot (caddWord opc f) [.d (2 * f.dd.toNat), .d (2 * f.dd.toNat + 1)] →
         ∃ (v w : BitVec 64) (n : Nat),
           Completes (mk k slot f) s (dspAfter s k slot (withResults [(1, .d (2 * f.dd.toNat), v), (1, .d (2 * f.dd.toNat + 1), w)]) n) ∧
           ∃ p : Nat → Int × Int, (∀ j, j < 4 →
             IsNearest (op (pairElem (dspOf s k) f.da.toNat (order j)) (pairElem (dspOf s k) f.db.toNat (order j))).1 f.sh.toNat (p j).1 ∧
             IsNearest (op (pairElem (dspOf s k) f.da.toNat (order j)) (pairElem (dspOf s k) f.db.toNat (order j))).2 f.sh.toNat (p j).2 ∧
             laneInt 16 (if j < 2 then v else w) (2 * (j % 2)) = limited 16 (p j).1 ∧
             laneInt 16 (if j < 2 then v else w) (2 * (j % 2) + 1) = limited 16 (p j).2) ∧
             (n = 0 ↔ ∀ j, j < 4 → fits 16 (p j).1 ∧ fits 16 (p j).2)) ∧
  (∀ (s : State) (k : Nat) (slot : BitVec 1) (f : CmulF) (opc : BitVec 3),
       DspTurn s k slot (cmulWord opc f) [.d (2 * f.dd.toNat), .d (2 * f.dd.toNat + 1)] →
       ∀ (i : Instr) (lat : Nat) (x : Nat → Int × Int),
         (i = .dspCmul4 k slot f ∧ opc = 0 ∧ lat = 4 ∧ x = (fun j =>
             let a := pairElem (dspOf s k) f.da.toNat j
             let b := pairElem (dspOf s k) f.db.toNat j
             (a.1 * b.1 - a.2 * b.2, a.1 * b.2 + a.2 * b.1)) ∨
           i = .dspCmulj4 k slot f ∧ opc = 1 ∧ lat = 4 ∧ x = (fun j =>
             let a := pairElem (dspOf s k) f.da.toNat j
             let b := pairElem (dspOf s k) f.db.toNat j
             (a.1 * b.1 + a.2 * b.2, a.2 * b.1 - a.1 * b.2)) ∨
           i = .dspExt k slot f ∧ opc = 5 ∧ f.da.toNat < 2 ∧ f.db = 0 ∧ lat = 2 ∧ x = (fun j =>
             let o := (dspOf s k).acSeen.getD (4 * f.da.toNat + j) (0, 0)
             (o.1.toInt, o.2.toInt))) →
         ∃ (v w : BitVec 64) (n : Nat),
           Completes i s (dspAfter s k slot (withResults [(lat, .d (2 * f.dd.toNat), v), (lat, .d (2 * f.dd.toNat + 1), w)]) n) ∧
           ∃ p : Nat → Int × Int, (∀ j, j < 4 → IsNearest (x j).1 f.sh.toNat (p j).1 ∧ IsNearest (x j).2 f.sh.toNat (p j).2 ∧
             laneInt 16 (if j < 2 then v else w) (2 * (j % 2)) = limited 16 (p j).1 ∧
             laneInt 16 (if j < 2 then v else w) (2 * (j % 2) + 1) = limited 16 (p j).2) ∧
             (n = 0 ↔ ∀ j, j < 4 → fits 16 (p j).1 ∧ fits 16 (p j).2)) ∧
  (∀ (s : State) (k : Nat) (slot : BitVec 1) (f : CmulF) (i : Instr) (conj one : Bool),
       i = (if one then Instr.dspCmacs k slot f else if conj then Instr.dspCmacj4 k slot f else Instr.dspCmac4 k slot f) →
       (one = true → conj = false) → f.sh = 0 → (one = false → bitsOf f.dd 1 0 = 0) →
       let q := bitsOf f.dd 3 3
       DspTurn s k slot (cmulWord (if one then 4 else if conj then 3 else 2) f) ((List.range 8).map (fun j => .acRead (8 * q + j))) →
       ∃ (r m : Nat → BitVec 48) (n : Nat),
         Completes i s (dspAfter s k slot (fun d => { withResults ((List.range 4).flatMap (fun j =>
             [(4, .acRead (8 * q + 2 * j), (r j).setWidth 64), (4, .acRead (8 * q + 2 * j + 1), (m j).setWidth 64)])) d with
           ac := d.ac.mapIdx (fun x o => if x / 4 = q then (r (x % 4), m (x % 4)) else o) }) n) ∧
         ∃ p : Nat → Int × Int, (∀ j, j < 4 →
           let a := pairElem (dspOf s k) f.da.toNat j
           let b := pairElem (dspOf s k) f.db.toNat (if one then bitsOf f.dd 1 0 else j)
           let o := (dspOf s k).ac.getD (4 * q + j) (0, 0)
           let base : Int × Int := if bitOf f.dd 2 then (0, 0) else (o.1.toInt, o.2.toInt)
           p j = (base.1 + (if conj then a.1 * b.1 + a.2 * b.2 else a.1 * b.1 - a.2 * b.2),
                  base.2 + (if conj then a.2 * b.1 - a.1 * b.2 else a.1 * b.2 + a.2 * b.1)) ∧
           (r j).toInt = limited 48 (p j).1 ∧ (m j).toInt = limited 48 (p j).2) ∧
           (n = 0 ↔ ∀ j, j < 4 → fits 48 (p j).1 ∧ fits 48 (p j).2))

/-- R207, R208, R214, R215, R221: a load writes Dd three cycles later with the bytes at its address, zeros above, and 16 bytes into Dd and
Dd + 1; a store holds the low bytes of Dd (and Dd + 1) for the packet's end; MODE 1 post-modifies An by Mn. The strided forms move four
elements of 4 bytes at 4 × STRIDE apart, in the order 0, 2, 1, 3 under ORD. R206, R207: in linear mode a post-modify adds OFFSET modulo
2^24; in reverse-carry mode it adds OFFSET with the carry running down from bit 23 to bit G, so the bits from 23 to G, read in reverse, add
modulo 2^(24 - G), and the bits below G stay. -/
def Obligations.DspLoadsAndStores : Prop :=
  (∀ (s : State) (k : Nat) (slot : BitVec 1),
       (∀ (f : LsF) (a : Nat), let d := dspOf s k
         let n : Nat := 2 ^ (f.size.toNat + 1)
         let post : List (Nat × DspDest × BitVec 64) :=
           if f.mode = 1 then [(1, .a f.ai.toNat, (postMod (aReg d f.ai.toNat) (mReg d f.ai.toNat)).setWidth 64)] else []
         f.mode ≠ 3 → (f.mode ≠ 2 → f.imm = 0) → (f.size = 3 → f.dd.toNat % 2 = 0) →
         (a : Int) = (aReg d f.ai.toNat).toNat + (if f.mode = 2 then f.imm.toInt * n else 0) → a % n = 0 → a + n ≤ 0x600000 →
         ((readLocal s (coreBase s k + a) n).poisoned = false → (readLocal s (coreBase s k + a) n).uncorrectable = false →
           let bs := (readLocal s (coreBase s k + a) n).bytes
           let ws : List (Nat × DspDest × BitVec 64) := (3, .d f.dd.toNat, BitVec.ofNat 64 (ofBytesLE (bs.take 8))) ::
             (if f.size = 3 then [(3, .d (f.dd.toNat + 1), BitVec.ofNat 64 (ofBytesLE (bs.drop 8)))] else []) ++ post
           DspTurn s k slot (lsWord 4 f) (ws.map (fun w => w.2.1)) →
             Completes (.dspLoad k slot f) s (dspAfter s k slot (withResults ws) 0 [(coreBase s k + a, n)])) ∧
         (DspTurn s k slot (lsWord 5 f) (post.map (fun w => w.2.1)) →
             Completes (.dspStore k slot f) s (dspAfter s k slot (fun d => { withResults post d with
           stores := d.stores ++ [(a, (bytesLE 8 (dReg d f.dd.toNat).toNat ++ bytesLE 8 (dReg d (f.dd.toNat + 1)).toNat).take n)] }) 0))) ∧
       (∀ (f : StrF), let d := dspOf s k
         let at_ (j : Nat) : Nat := (aReg d f.ai.toNat).toNat + 4 * f.stride.toNat *
           (if f.ord = 1 then (if j = 1 then 2 else if j = 2 then 1 else j) else j)
         let post : List (Nat × DspDest × BitVec 64) :=
           if f.post = 1 then [(1, .a f.ai.toNat, (postMod (aReg d f.ai.toNat) (mReg d f.ai.toNat)).setWidth 64)] else []
         let got (j : Nat) : Got := readLocal s (coreBase s k + at_ j) 4
         (∀ j, j < 4 → at_ j % 4 = 0 ∧ at_ j + 4 ≤ 0x600000) →
         ((∀ j, j < 4 → (got j).poisoned = false ∧ (got j).uncorrectable = false) →
           let ws : List (Nat × DspDest × BitVec 64) :=
             [(3, .d (2 * f.dd.toNat), BitVec.ofNat 64 (ofBytesLE ((got 0).bytes ++ (got 1).bytes))),
               (3, .d (2 * f.dd.toNat + 1), BitVec.ofNat 64 (ofBytesLE ((got 2).bytes ++ (got 3).bytes)))] ++ post
           DspTurn s k slot (strWord 0 f) (ws.map (fun w => w.2.1)) →
             Completes (.dspStridedLoad k slot f) s (dspAfter s k slot (withResults ws) 0
               ((List.range 4).map (fun j => (coreBase s k + at_ j, 4))))) ∧
         (DspTurn s k slot (strWord 1 f) (post.map (fun w => w.2.1)) →
             Completes (.dspStridedStore k slot f) s (dspAfter s k slot (fun d => { withResults post d with
           stores := d.stores ++
               (List.range 4).map (fun j => (at_ j, ((bytesLE 8 (dReg d (2 * f.dd.toNat + j / 2)).toNat).drop (4 * (j % 2))).take 4))
               }) 0)))) ∧
  (∀ (a : BitVec 24) (m : BitVec 32),
       let g := bitsOf m 28 24
       let rev (x : Nat) : Nat := ((List.range (24 - g)).map (fun j => if x.testBit (23 - j) then 2 ^ j else 0)).sum
       (bitOf m 31 = false → (postMod a m).toNat = (a.toNat + bitsOf m 23 0) % 2 ^ 24) ∧
       (bitOf m 31 = true → g ≤ 23 → (postMod a m).toNat % 2 ^ g = a.toNat % 2 ^ g ∧
         rev (postMod a m).toNat = (rev a.toNat + rev (bitsOf m 23 0)) % 2 ^ (24 - g)))

/-- R205, R216, R217, R220: the address, immediate and system instructions move values between the data, address, offset, loop, STATUS, ELR
and accumulator registers. -/
def Obligations.DspMovesRegisters : Prop :=
  ∀ (s : State) (k : Nat) (slot : BitVec 1), let d := dspOf s k
    (∀ f : AddrF,
      let w (opc : BitVec 3) (i : Instr) (r : DspDest) (v : BitVec 64) : Prop := DspTurn s k slot (addrWord opc f) [r] →
          Completes i s (dspAfter s k slot (withResults [(1, r, v)]) 0)
      w 0 (.dspSeta k slot f) (.a f.ai.toNat) (BitVec.ofNat 64 (f.imm16.toNat * 128)) ∧
      w 1 (.dspAdda k slot f) (.a f.ai.toNat) ((aReg d f.ai.toNat + f.imm16.signExtend 24).setWidth 64) ∧
      (f.imm16 = 0 →
        w 2 (.dspModa k slot f) (.a f.ai.toNat) ((postMod (aReg d f.ai.toNat) (mReg d f.ai.toNat)).setWidth 64) ∧
        w 3 (.dspMova k slot f) (.a f.ai.toNat) (((dReg d f.dd.toNat).setWidth 24).setWidth 64) ∧
        w 4 (.dspMovm k slot f) (.m f.ai.toNat) (dReg d f.dd.toNat &&& 0x9FFFFFFF#64) ∧
        w 5 (.dspMovda k slot f) (.d f.dd.toNat) ((aReg d f.ai.toNat).setWidth 64) ∧
        w 6 (.dspMovdm k slot f) (.d f.dd.toNat) ((mReg d f.ai.toNat).setWidth 64))) ∧
    (∀ f : ImmF,
      (DspTurn s k slot (immWord 0 f) [.d f.dd.toNat] → ∃ v, Completes (.dspMovl k slot f) s (dspAfter s k slot (withResults [(1, .d f.dd.toNat, v)]) 0) ∧
        ∀ i, i < 4 → lane 16 v i = if i = f.lane.toNat then f.imm16.toNat else lane 16 (dReg d f.dd.toNat) i) ∧
      (DspTurn s k slot (immWord 1 f) [.d f.dd.toNat] → ∃ v, Completes (.dspMovz k slot f) s (dspAfter s k slot (withResults [(1, .d f.dd.toNat, v)]) 0) ∧
        ∀ i, i < 4 → lane 16 v i = if i = f.lane.toNat then f.imm16.toNat else 0)) ∧
    (∀ f : SysF,
      let turn (opc : BitVec 3) : Prop := DspTurn s k 0 (sysWord opc f) []
      let w (opc : BitVec 3) (i : Instr) (lat : Nat) (r : DspDest) (v : BitVec 64) : Prop :=
        turn opc → Completes i s (dspAfter s k 0 (withResults [(lat, r, v)]) 0)
      let x := d.acSeen.getD (f.sel.toNat / 2) (0, 0)
      (f.sel.toNat < 4 → w 0 (.dspMvls k f) 1 (.d f.dd.toNat) (d.loops.getD f.sel.toNat 0) ∧
        w 1 (.dspMvsl k f) 1 (.lp f.sel.toNat) (dReg d f.dd.toNat)) ∧
      (f.sel = 0 → w 2 (.dspMvsd k f) 1 (.d f.dd.toNat) ((0#8 ++ d.pend ++ d.evmask ++ 0#6 ++ BitVec.ofBool d.hm ++
          BitVec.ofBool d.ie).setWidth 64) ∧
        (turn 3 → Completes (.dspMvds k f) s (dspAfter s k 0 (fun d => { d with
          ie := bitOf (dReg d f.dd.toNat) 0, pend := d.pend &&& ~~~((dReg d f.dd.toNat).extractLsb' 16 8) }) 0))) ∧
      (f.sel = 1 → w 2 (.dspMvsd k f) 1 (.d f.dd.toNat) (d.elr.setWidth 64)) ∧
      w 4 (.dspMvad k f) 2 (.d f.dd.toNat) ((if f.sel.toNat % 2 = 0 then x.1 else x.2).signExtend 64) ∧
      (turn 5 → Completes (.dspMvda k f) s (dspAfter s k 0 (fun d =>
        { withResults [(1, .acRead f.sel.toNat, ((dReg d f.dd.toNat).setWidth 48).setWidth 64)] d with
          ac := setPart d.ac (f.sel.toNat / 2) (f.sel.toNat % 2) ((dReg d f.dd.toNat).setWidth 48) }) 0)))

/-- R218, R228, R231 to R233, R236: the control instructions. A taken branch, CALL, JMPA and RETI take effect after two more packets, LOOP
opens its level, HALT ends the RUN, IEN writes IE, and WAIT clears its event or stalls. -/
def Obligations.DspControl : Prop :=
  ∀ (s : State) (k : Nat), let d := dspOf s k
    let turn (opc : BitVec 4) (x : BitVec 24) : Prop := DspTurn s k 0 (ctlWord opc x) []
    let w (opc : BitVec 4) (x : BitVec 24) (i : Instr) (u : DspSt → DspSt) : Prop := turn opc x → Completes i s (dspAfter s k 0 u 0)
    (∀ slot, DspTurn s k slot 0 [] → Completes (.dspNop k slot) s (dspAfter s k slot (fun d => d) 0)) ∧
    (d.branch = none →
      (∀ t : BitVec 20, sameRegion s k d.pc.toNat t.toNat = true →
        let go (d : DspSt) : DspSt := { d with branch := some (t, 3, false) }
        w 0 (0#4 ++ t) (.dspBr k t) go ∧
        w 5 (0#4 ++ t) (.dspCall k t) (fun d => go (withResults [(1, .a 15, BitVec.ofNat 64 (8 * (d.pc.toNat + 3)))] d)) ∧
        ∀ n : BitVec 4, let x := (dReg d n.toNat).setWidth 32
          w 1 (n ++ t) (.dspBrz k n t) (fun d => if x = 0 then go d else d) ∧ w 2 (n ++ t) (.dspBrnz k n t) (fun d => if x = 0 then d else go d) ∧
          w 3 (n ++ t) (.dspBrn k n t) (fun d => if x.msb then go d else d) ∧ w 4 (n ++ t) (.dspBrnn k n t) (fun d => if x.msb then d else go d)) ∧
      (∀ n : BitVec 4, (aReg d n.toNat).toNat % 8 = 0 → (aReg d n.toNat).toNat < 8 * 2 ^ 20 →
        w 6 (n ++ 0#20) (.dspJmpa k n) (fun d => { d with branch := some (BitVec.ofNat 20 ((aReg d n.toNat).toNat / 8), 3, false) })) ∧
      w 9 0 (.dspReti k) (fun d => { d with branch := some (0, 3, true) })) ∧
    (d.branch = none → w 8 0 (.dspHalt k) (fun d => { d with halted := true })) ∧
    (∀ f : LoopF, d.branch = none → f.body ≠ 0 → (f.csrc = 1 → bitsOf f.count 5 0 = 0) → sameRegion s k d.pc.toNat (d.pc.toNat + 1) = true →
      sameRegion s k d.pc.toNat (d.pc.toNat + f.body.toNat) = true →
      let n : BitVec 22 := if f.csrc = 1 then (dReg d (bitsOf f.count 10 6)).setWidth 22 else f.count.setWidth 22
      d.pc.toNat + f.body.toNat < 2 ^ 20 →
      w 7 (loopBits f) (.dspLoop k f) (fun d => { d with
        loops := lmod d.loops f.level.toNat (fun _ => BitVec.ofBool (n ≠ 0) ++ BitVec.ofBool d.hm ++ n ++ (d.pc + 1) ++
            (d.pc + f.body.setWidth 20))
        skip := if n = 0 then some (d.pc + f.body.setWidth 20 + 1) else none })) ∧
    (∀ ie : BitVec 1, w 10 (0#23 ++ ie) (.dspIen k ie) (fun d => { d with ie := ie == 1 })) ∧
    (∀ l : BitVec 3, w 11 (0#21 ++ l) (.dspWait k l) (fun d =>
      if bitOf d.pend l.toNat then { d with pend := d.pend &&& ~~~(1#8 <<< l.toNat) } else { d with waiting := some l })) ∧
    (∀ (tag : BitVec 8) (dd : BitVec 5) (n : Nat) (st : AStep) (rest : List Nat), turn 12 (tag ++ dd ++ 0#11) →
      tget (coreOf s k).seq.running (deUnit k).toNat = some (n :: rest) → (stepListOf s (coreEng k 6 0) (deUnit k))[n]? = some st →
      ∃ s', Completes (.dspSignal k tag dd) s s' ∧
        s'.crossing = s.crossing ++ ((st.emits.map (fun e => e.dst)).dedup.map (fun dst =>
          outgoing s (deUnit k) dst 1 tag.toNat (bitsOf (dReg d dd.toNat) 31 0))) ∧
        dspOf s' k = { d with slot0 := true } ∧ (∀ j, j ≠ k → coreOf s' j = coreOf s j) ∧ s'.mem = s.mem)

/-- R218, R228, R229, R233: the packet that follows a packet. A branch whose delay packets have ended goes to its target, or, for RETI, to
ELR with the handler's levels closed and HM clear; else the highest level that ends its body here goes on or closes; else the next packet,
or the one past a LOOP of count 0. R221, R222: at the end of a packet the stores reach memory, slot 0's first, a cycle passes, and each
register takes the latest-issued result that is due at that cycle; a register with none keeps its value. -/
def Obligations.DspPacketsFollow : Prop :=
  (∀ d : DspSt,
       let w (l : Nat) : BitVec 64 := d.loops.getD l 0
       let ends (l : Nat) : Prop := bitOf (w l) 63 = true ∧ bitOf (w l) 62 = d.hm ∧ bitsOf (w l) 19 0 = d.pc.toNat
       let on : BitVec 20 := d.skip.getD (d.pc + 1)
       (d.branch = none → (∀ l, l < 4 → ¬ ends l) → nextPacket d = { d with pc := on, skip := none }) ∧
       (∀ l, l < 4 → d.branch = none → ends l → (∀ j, l < j → j < 4 → ¬ ends j) → 1 < bitsOf (w l) 61 40 →
         nextPacket d = { d with
           pc := BitVec.ofNat 20 (bitsOf (w l) 39 20), skip := none, loops := lmod d.loops l (fun x => x - 2 ^ 40) }) ∧
       (∀ l, l < 4 → d.branch = none → ends l → (∀ j, j ≠ l → j < 4 → ¬ ends j) → bitsOf (w l) 61 40 ≤ 1 →
         nextPacket d = { d with pc := on, skip := none, loops := lmod d.loops l (fun x => x &&& 0x400000FFFFFFFFFF#64) }) ∧
       (∀ (t : BitVec 20) (n : Nat) (r : Bool), d.branch = some (t, n + 2, r) → (∀ l, l < 4 → ¬ ends l) →
         nextPacket d = { d with pc := on, skip := none, branch := some (t, n + 1, r) }) ∧
       (∀ t : BitVec 20, d.branch = some (t, 1, false) → nextPacket d = { d with pc := t, skip := none, branch := none }) ∧
       (∀ t : BitVec 20, d.branch = some (t, 1, true) → nextPacket d = { d with
         pc := d.elr, hm := false, skip := none, branch := none
         loops := d.loops.map (fun x => if bitOf x 62 then x &&& 0x7FFFFFFFFFFFFFFF#64 else x) })) ∧
  (∀ (s : State) (k : Nat), DspTurn s k 1 0 [] → (dspOf s k).halted = false →
       ∃ s', Completes (.dspNop k 1) s s' ∧
         let d := nextPacket (dspOf s k)
         let d' := dspOf s' k
         let due := (dspOf s k).flight.filter (fun x => x.due = (dspOf s k).cycle + 1)
         let last (r : DspDest) : Option (BitVec 64) := (due.reverse.find? (fun x => x.dest == r)).map (fun x => x.val)
         d'.pc = d.pc ∧ d'.slot0 = false ∧ d'.stores = [] ∧ d'.cycle = (dspOf s k).cycle + 1 ∧ d'.ac = d.ac ∧
         d'.flight = (dspOf s k).flight.filter (fun x => x.due ≠ (dspOf s k).cycle + 1) ∧
         (∀ n, n < d.d.length → dReg d' n = (last (.d n)).getD (dReg d n)) ∧
         (∀ n, n < d.a.length → aReg d' n = ((last (.a n)).map (fun v => v.setWidth 24)).getD (aReg d n)) ∧
         (∀ n, n < d.m.length → mReg d' n = ((last (.m n)).map (fun v => v.setWidth 32)).getD (mReg d n)) ∧
         s'.mem = ((dspOf s k).stores.foldl (fun s p => writeLocal s (deUnit k) (coreBase s k + p.1) p.2 false) s).mem)

/-- R232, R234, R235, R231: RUN loads D0, PC, EVMASK and clears IE, HM and PEND; an interrupt saves the next packet in ELR, sets HM and goes
to HANDLER after four cycles; a stalled WAIT resumes when its bit is set, which it clears, after a stall whose length stands free (log entry
3). R208, R237: an access that is not aligned or not wholly below 0x60_0000, a fetch outside the program regions, or BOUND × 16 cycles
passed stop the RUN with a COMMAND record of the engine and a FAULT token to its core; nothing more is written. -/
def Obligations.DspRunsAndStops : Prop :=
  (∀ (s : State) (k : Nat), k < 48 → Active s → let d := dspOf s k
       (∀ c : DspCmd, canRun s (deUnit k) = true → d.cmd = none → d.halted = false → c.rsvdA = 0 → c.rsvdB = 0 → c.bound ≠ 0 →
         ∃ s', Completes (.dspRun k c) s s' ∧ (∃ cs, s' = { s with cores := cs }) ∧ (∀ j, j ≠ k → coreOf s' j = coreOf s j) ∧
           coreOf s' k = { coreOf s k with dsp := dspOf s' k } ∧
           dspOf s' k = { d with
             cmd := some { c with opcode := 1 }, d := lmod d.d 0 (fun _ => 0#32 ++
                 c.arg), pc := c.entry, ie := false, hm := false, pend := 0
             evmask := c.evmask, cycle := 0, flight := [], slot0 := false, stores := [], branch := none, skip := none, waiting := none }) ∧
       (∀ c : DspCmd, canRun s (deUnit k) = true → d.cmd = some c → c.hen = 1 → d.ie = true → d.hm = false → d.pend ≠ 0 → d.slot0 = false → d.branch = none →
           d.halted = false →
         ∃ s', Completes (.dspInterrupt k) s s' ∧ dspOf s' k = pass 4 { d with elr := d.pc, hm := true, pc := c.handler, waiting := none }
           ∧ (∀ j, j ≠ k → coreOf s' j = coreOf s j) ∧ s'.mem = s.mem) ∧
       (∀ line : BitVec 3, d.waiting = some line → bitOf d.pend line.toNat = true →
         ∃ s' n, Completes (.dspWaitResume k) s s' ∧ 1 ≤ n ∧ n ≤ 4 ∧ (dspOf s' k).waiting = none ∧ (dspOf s' k).slot0 = true
           ∧ (dspOf s' k).pend = d.pend &&& ~~~(1#8 <<< line.toNat) ∧ (dspOf s' k).d = (pass n d).d ∧ (dspOf s' k).cycle = d.cycle
           ∧ s'.freeCount = s.freeCount + 1 ∧ (∀ j, j ≠ k → coreOf s' j = coreOf s j) ∧ s'.mem = s.mem)) ∧
  (∀ (s : State) (k : Nat) (i : Instr) (s0 : State),
       (∃ (f : LsF) (a : Nat), let d := dspOf s k
         let n : Nat := 2 ^ (f.size.toNat + 1)
         DspTurn s k 0 (lsWord (if i = .dspLoad k 0 f then 4 else 5) f) [] ∧ f.mode = 0 ∧ f.imm = 0 ∧ (f.size = 3 → f.dd.toNat % 2 = 0) ∧ a = (aReg d f.ai.toNat).toNat ∧ (a % n ≠ 0 ∨
             0x600000 < a + n) ∧
           (i = .dspLoad k 0 f ∨ i = .dspStore k 0 f) ∧ s0 = s) ∨
       (k < 48 ∧ Active s ∧ canRun s (deUnit k) = true ∧ mayOpen (dspOf s k) = true ∧ regionAt s k (dspOf s k).pc.toNat = none ∧
           i = .dspNop k 0 ∧ s0 = s) ∨
       (∃ (c : DspCmd) (t : Time), k < 48 ∧ Active s ∧ (dspOf s k).cmd = some c ∧ 16 * c.bound.toNat ≤ (dspOf s k).cycle ∧
           (i = .dspBoundExpiry k t ∨ i = .dspRunComplete k t ∧ (dspOf s k).halted = true ∧ (dspOf s k).slot0 = false ∧
             clocked s (deUnit k) = true) ∧ s0 = s.atTime t) →
       ∃ s' r, Completes i s s' ∧ (dspOf s' k).cmd = none ∧ (dspOf s' k).flight = [] ∧ (dspOf s' k).stores = [] ∧
           (dspOf s' k).d = (dspOf s k).d
         ∧ s'.mem = s.mem ∧ s'.lastFault = s.lastFault + 1 ∧ tget s'.faults ((s.lastFault + 1) % 256) = some r
         ∧ r.number = s.lastFault + 1 ∧ r.unit = deUnit k ∧ r.cause = causeCommand ∧ r.time = s0.time.now
         ∧ s'.crossing = s.crossing ++ [outgoing s (deUnit k) (coreUnit k) 6 0 (s.lastFault + 1)])

/-- R24, R45, R111, R146, R236, R248, R251, R287: a command of an array, a vector, DSP, coding or polar engine or a mover that completes
while the engine's clock runs ends the oldest running step of its engine's list: its slot frees with a CREDIT token and the step's tokens follow. A DSP NOP completes in
the cycle it starts. -/
def Obligations.CommandsComplete : Prop :=
  ∀ (s : State) (t : Time), Active s →
    (∀ (k b : Nat) (rest : List Nat), k < 48 → clocked s (veUnit k) = true → (coreOf s k).veBusy = b :: rest →
      ∃ s', Completes (.veCommandComplete k t) s s' ∧ StepEnds s s' (coreEng k 6 0) (veUnit k) (veUnit k) ∧ (coreOf s' k).veBusy = rest) ∧
    (∀ (k a b : Nat) (rest : List Nat), k < 48 → a < 4 → clocked s (maUnit k a) = true → ((coreOf s k).arrays.getD a {}).busy = b :: rest →
      ∃ s', Completes (.maCommandComplete k a t) s s' ∧ StepEnds s s' (coreEng k 6 0) (maUnit k a) (maUnit k a) ∧
        ((coreOf s' k).arrays.getD a {}).busy = rest) ∧
    (∀ (k : Nat), k < 48 → (dspOf s k).cmd.isSome = true → (dspOf s k).halted = true → (dspOf s k).slot0 = false → clocked s (deUnit k) = true →
        (dspOf s k).cycle < boundCycles (dspOf s k) →
      ∃ s', Completes (.dspRunComplete k t) s s' ∧ StepEnds s s' (coreEng k 6 0) (deUnit k) (deUnit k) ∧
        dspOf s' k = { dspOf s k with cmd := none, halted := false }) ∧
    (∀ (k : Nat) (c : DspCmd), k < 48 → canRun s (deUnit k) = true → (dspOf s k).cmd = none → (dspOf s k).halted = false →
      c.rsvdA = 0 → c.rsvdB = 0 →
      ∃ s', Completes (.dspNopCommand k c) s s' ∧ StepEnds s s' (coreEng k 6 0) (deUnit k) (deUnit k) ∧ dspOf s' k = dspOf s k) ∧
    (∀ (c : BitVec 3) (k : BitVec 1) (b : Nat) (rest : List Nat), clocked s (engineFor s (ceUnit c.toNat k.toNat)) = true →
        ((clusterOf s c.toNat).ce.getD k.toNat {}).busy = b :: rest →
      ∃ s', Completes (.ceCommandComplete c k t) s s' ∧
        StepEnds s s' (clusterEng c.toNat 7 6 0) (ceUnit c.toNat k.toNat) (engineFor s (ceUnit c.toNat k.toNat)) ∧
        ((clusterOf s' c.toNat).ce.getD k.toNat {}).busy = rest) ∧
    (∀ (c : BitVec 3) (b : Nat) (rest : List Nat), (clusterOf s c.toNat).pe.busy = b :: rest → unitGone s (peUnit c.toNat) = false →
        clocked s (peUnit c.toNat) = true →
      ∃ s', Completes (.peCommandComplete c t) s s' ∧ StepEnds s s' (clusterEng c.toNat 7 6 0) (peUnit c.toNat) (peUnit c.toNat) ∧
        (clusterOf s' c.toNat).pe.busy = rest) ∧
    (∀ (c : BitVec 3) (m b : Nat) (rest : List Nat), (movOf s c.toNat m).eng.busy = b :: rest → (movOf s c.toNat m).flushing = none →
        clocked s (movUnit s c.toNat m) = true →
      ∃ s', Completes (.moverCommandComplete c m t) s s' ∧
        StepEnds s s' (clusterEng c.toNat 7 6 0) (moverUnit c.toNat m) (movUnit s c.toNat m) ∧ (movOf s' c.toNat m).eng.busy = rest ∧
        (movOf s' c.toNat m).toIssue = 0 ∧ (movOf s' c.toNat m).outstanding = 0)

/-- R123, R126, R128, R130, R132, R144, R146: a command of non-zero size runs to its end: its result rows are written in order, in FMT_D, to
the destination that DST names, and nowhere with DST = 0; the slots it names are freed under POP; SAT is set exactly when a value was
limited; its step waits to be reported complete. R143, R144, R126, R147: a NOP, or a command with ROWS or COLS = 0, only frees the slots it
names under POP; a command whose slots are not there, or that comes behind one that waits, waits; one that breaks R143 is a fault of the
engine. -/
def Obligations.VectorCommandsRun : Prop :=
  (∀ (mk : Nat → Nat → VeCmd → Instr) (op : Nat) (sub : Option Nat), (mk, op, sub) ∈ veForms →
       ∀ (s : State) (k step : Nat) (c0 : VeCmd), let c := veForm c0 op sub
         VeTurn s k c → c.rows ≠ 0 → c.cols ≠ 0 →
         let d := veDest c
         let old := if c.acc = 1 then (List.range d.1).map (dstRow s k c) else []
         let res := veCompute s k c old
         let added (r : Nat) : Option (List Elem) := if c.acc = 1 ∧ ¬ (c.opcode = 0x40 ∧ c.axis = 1) then old[r]? else none
         let row (r : Nat) : Sat (List Byte) := putRow c (veKey s k step) d.2.2.1 d.2.2.2 r (res.1.getD r []) (added r)
         let t := (List.range d.1).foldl (fun t r => writeDst t k c r (keepNibble t k c r (row r).1)) s
         let n := res.2 + (if c.dst = 0 then 0 else ((List.range d.1).map (fun r => (row r).2)).sum)
         ∃ s', Completes (mk k step c0) s s' ∧ s'.mem = t.mem ∧ s'.faults = t.faults ∧ s'.lastFault = t.lastFault ∧
           (∃ cs us ps pm m fs lf em, s' = { s with
             mem := m, cores := cs, units := us, pins := ps, pmu := pm, faults := fs, lastFault := lf, engMem := em }) ∧
           (∀ j, j ≠ k → coreOf s' j = coreOf s j) ∧ (∀ u, u ≠ veUnit k → engMemOf s' u = engMemOf s u) ∧
           coreOf s' k = { coreOf s k with
             veRegs := (coreOf t k).veRegs, veBusy := (coreOf s k).veBusy ++ [step], veCycles := (coreOf s k).veCycles + veCost c
             tq := if c.pop = 1 then (coreOf s k).tq.drop (veSlots c) else (coreOf s k).tq } ∧
           StatusSat s s' k (n ≠ 0)) ∧
  (∀ (s : State) (k step : Nat) (c : VeCmd), k < 48 → Active s → canRun s (veUnit k) = true →
       (∀ (i : Instr) (x : VeCmd), veOk x = true → (coreOf s k).veWait = [] → slotsReady s k x = true →
           (i = .veNop k step c ∧ x = { c with opcode := 0 } ∨
           (∃ mk op sub, (mk, op, sub) ∈ veForms ∧ i = mk k step c ∧ x = veForm c op sub ∧ (c.rows = 0 ∨ c.cols = 0))) →
         ∃ s', Completes i s s' ∧ (∃ cs, s' = { s with cores := cs }) ∧ (∀ j, j ≠ k → coreOf s' j = coreOf s j) ∧
           coreOf s' k = { coreOf s k with
             tq := if c.pop = 1 then (coreOf s k).tq.drop (veSlots c) else (coreOf s k).tq
             veBusy := (coreOf s k).veBusy ++ [step], veCycles := (coreOf s k).veCycles + veCost x }) ∧
       (∀ mk op sub, (mk, op, sub) ∈ veForms → veOk (veForm c op sub) = true →
         ((coreOf s k).veWait ≠ [] ∨ slotsReady s k (veForm c op sub) = false) →
         ∃ s', Completes (mk k step c) s s' ∧ (∃ cs, s' = { s with cores := cs }) ∧ (∀ j, j ≠ k → coreOf s' j = coreOf s j) ∧
           coreOf s' k = { coreOf s k with veWait := (coreOf s k).veWait ++ [(step, veForm c op sub)] }) ∧
       (∀ mk op sub, (mk, op, sub) ∈ veForms → veOk (veForm c op sub) = false →
         ∃ s' r, Completes (mk k step c) s s' ∧ s'.mem = s.mem ∧ s'.cores = s.cores ∧ s'.lastFault = s.lastFault + 1 ∧
           tget s'.faults ((s.lastFault + 1) % 256) = some r ∧ r.unit = veUnit k ∧ r.cause = causeCommand ∧
           s'.crossing = s.crossing ++ [outgoing s (veUnit k) (coreUnit k) 6 0 (s.lastFault + 1)]))

/-- R98 to R101: an accumulator adds one product at a time, in the order given: INT32 saturates at each addition, FP32 rounds to nearest
even at each. R129 to R131, R133: what the elementwise opcodes make of element (r, i), each step rounded once to OPFMT: real and imaginary
part alike under COMPLEX, a complex MUL as R99 from +0. R134: the special cases of FUNC: zeros, infinities, NaN and negative arguments. -/
def Obligations.ElementArithmetic : Prop :=
  ((∀ (acc : Int) (ps : List (Int × Int)), -(2 ^ 31) ≤ acc → acc < 2 ^ 31 →
       ((macLine .int32 false (ofInt acc, zeroVal) (ps.map (fun p => ((ofInt p.1, zeroVal), (ofInt p.2, zeroVal))))).1).1 =
         ofInt (ps.foldl (fun a p => limited 32 (a + p.1 * p.2)) acc)) ∧
     (∀ (acc : Val) (ps : List (Val × Val)), ps ≠ [] →
       ((macLine .fp32 false (acc, zeroVal) (ps.map (fun p => ((p.1, zeroVal), (p.2, zeroVal))))).1).1 =
         ps.foldl (fun a p => rnd 8 (a.add (p.1.mul p.2))) acc)) ∧
  (∀ (s : State) (k : Nat) (c : VeCmd) (old : List (List Elem)) (r i : Nat), veOk c = true → veSlots c ≤ (coreOf s k).tq.length →
       r < c.rows.toNat → i < c.cols.toNat →
       let f := c.opfmt.toNat
       let a := veA s k c r i
       let b := veB s k c r i
       let im (v : Val) : Val := if c.cplx = 1 then v else zeroVal
       let is (e : Elem) : Prop := veResult s k c old r i = e
       (c.opcode = 0x01 → is a) ∧
       (c.opcode = 0x10 → is (rnd f (a.1.add b.1), im (rnd f (a.2.add b.2)))) ∧
       (c.opcode = 0x11 → is (rnd f (a.1.add b.1.neg), im (rnd f (a.2.add b.2.neg)))) ∧
       (c.opcode = 0x12 → (c.cplx = 0 ∨ c.breal = 1) → is (rnd f (a.1.mul b.1), im (rnd f (a.2.mul b.1)))) ∧
       (c.opcode = 0x12 → c.cplx = 1 → c.breal = 0 →
         is (rnd f ((rnd f (zeroVal.add (a.1.mul b.1))).add (a.2.mul b.2).neg),
             rnd f ((rnd f (zeroVal.add (a.1.mul b.2))).add (a.2.mul b.1)))) ∧
       (c.opcode = 0x14 → is (a.1.minv b.1, zeroVal)) ∧
       (c.opcode = 0x15 → is (a.1.maxv b.1, zeroVal)) ∧
       (c.opcode = 0x16 → is (rnd f a.1.absv, zeroVal)) ∧
       (c.opcode = 0x17 → is (rnd f a.1.neg, im (rnd f a.2.neg))) ∧
       (c.opcode = 0x18 → is (a.1, a.2.neg)) ∧
       (c.opcode = 0x19 → is (rnd f ((rnd f (a.1.mul a.1)).add (rnd f (a.2.mul a.2))), zeroVal)) ∧
       (∀ x y : Int, c.opcode = 0x1A → a.1 = ofInt x → b.1 = ofInt y →
         is (ofInt (max (-(if c.fmtD = 2 then 127 else 32767)) (min (if c.fmtD = 2 then 127 else 32767) (x + y))), zeroVal)) ∧
       (c.opcode = 0x20 → is ((funcVal f c.subop.toNat a.1 b.1).1, zeroVal))) ∧
  (∀ (f : Nat) (s : Bool) (e : Int) (m : Nat) (y : Val), f = 6 ∨ f = 7 ∨ f = 8 →
       let g (fn : Nat) (x : Val) : Val := (funcVal f fn x y).1
       let z : Val := .fin s 0 e
       (g 2 z = .inf s ∧ (g 2 (.inf s)).isZero ∧ (g 2 (.inf s)).isNeg = s) ∧
       (g 3 z = .inf s ∧ g 3 (.inf false) = zeroVal ∧ (m ≠ 0 → g 3 (.fin true m e) = .nan) ∧ g 3 (.inf true) = .nan) ∧
       ((g 4 z).isZero ∧ (g 4 z).isNeg = s ∧ (m ≠ 0 → g 4 (.fin true m e) = .nan) ∧ g 4 (.inf true) = .nan) ∧
       (g 6 (.inf true) = zeroVal ∧ g 6 (.inf false) = .inf false ∧ g 7 (.inf true) = zeroVal ∧ g 7 (.inf false) = .inf false) ∧
       (g 8 z = .inf true ∧ (m ≠ 0 → g 8 (.fin true m e) = .nan) ∧ g 9 z = .inf true ∧ (m ≠ 0 → g 9 (.fin true m e) = .nan)) ∧
       (g 10 (.inf s) = .fin s 1 0 ∧ g 11 (.inf true) = zeroVal ∧ g 11 (.inf false) = oneVal) ∧
       (g 12 (.inf true) = negZero ∧ g 12 (.inf false) = .inf false ∧ g 13 (.inf true) = negZero ∧ g 13 (.inf false) = .inf false) ∧
       (g 14 (.inf s) = .nan ∧ (g 14 z).isZero ∧ (g 14 z).isNeg = s ∧ g 15 (.inf s) = .nan) ∧
       (∀ n : Nat, 0 < n → g 14 (.fin s n 0) = .fin s 0 0 ∧ g 15 (.fin s (2 * n + 1) (-1)) = zeroVal) ∧
       (∀ fn, 2 ≤ fn → fn ≤ 15 → fn ≠ 5 → g fn .nan = .nan))

/-- R135 to R137: EPI multiplies by the scale if B is present, adds the bias under BIAS, then applies its function; PERMUTE takes the
columns that the index table names, zero beyond the row; the shuffles reorder the row as their patterns say. R139: along a column a
reduction runs in row order, from the first row, or under ACC from the destination; SUM and SUMSQ add, MAX, MIN and MAXABS compare; along a
row of one or two elements it takes the one or combines the two; ARGMAX gives the first maximum, skipping NaN. R67, R140, R141: DEMAP gives
the LLRs of each symbol in the order of its bits, within ±127, all 0 where the symbol or its variance is erased; for BPSK and QPSK a zero
variance gives ±127 by the nearer point. -/
def Obligations.VectorRows : Prop :=
  (∀ (s : State) (k : Nat) (c : VeCmd) (old : List (List Elem)) (r i : Nat), veOk c = true → veSlots c ≤ (coreOf s k).tq.length →
       r < c.rows.toNat → i < c.cols.toNat →
       let f := c.opfmt.toNat
       let n := c.cols.toNat
       let a (j : Nat) : Elem := veA s k c r j
       let im (v : Val) : Val := if c.cplx = 1 then v else zeroVal
       (c.opcode = 0x02 →
         let x : Elem := if c.srcB ≠ 0 ∨ c.bcast = 3 then
           (rnd f ((a i).1.mul (veB s k c r i).1), im (rnd f ((a i).2.mul (veB s k c r i).1))) else a i
         let q := (rowElems c.fmtB.toNat (c.cplx == 1) (readLocal s (coreBase s k + c.auxAddr.toNat * 64)
             (rowBytes c.fmtB.toNat (c.cplx == 1) n)).bytes n).getD i zeroElem
         let y : Elem := if c.bias = 1 then (rnd f (x.1.add (entered f q.1)), im (rnd f (x.2.add (entered f q.2)))) else x
         (c.subop = 0 → veResult s k c old r i = y) ∧ (c.subop = 1 → (veResult s k c old r i).1 = y.1.maxv zeroVal) ∧
           (6 ≤ c.subop.toNat → (veResult s k c old r i).1 = (funcVal f c.subop.toNat y.1 zeroVal).1)) ∧
       (c.opcode = 0x30 →
         let p := elemAt 3 (readLocal s (coreBase s k + c.auxAddr.toNat * 64) (2 * n)).bytes i
         veResult s k c old r i = if p < n then a p else zeroElem) ∧
       (c.opcode = 0x31 → veResult s k c old r i = match c.subop.toNat with
         | 0 => if i < (n + 1) / 2 then a (2 * i) else a (2 * (i - (n + 1) / 2) + 1)
         | 1 => if i % 2 = 0 then a (i / 2) else a ((n + 1) / 2 + i / 2)
         | 2 => a (n - 1 - i)
         | 3 => if i % 2 = 1 then a (i - 1) else if i + 1 < n then a (i + 1) else a i
         | _ => a ((i + c.imm.toNat) % n)) ∧
       (c.opcode = 0x32 ∨ c.opcode = 0x33 → veResult s k c old r i = a i)) ∧
  (∀ (s : State) (k : Nat) (c : VeCmd) (old : List (List Elem)) (i : Nat), veOk c = true → veSlots c ≤ (coreOf s k).tq.length →
       c.opcode = 0x40 → i < c.cols.toNat → 0 < c.rows.toNat →
       let f := c.opfmt.toNat
       let cx : Bool := c.cplx == 1
       let a (r j : Nat) : Elem := veA s k c r j
       let val (e : Elem) : Elem := match c.subop.toNat with
         | 1 => (if cx then rnd f ((rnd f (e.1.mul e.1)).add (rnd f (e.2.mul e.2))) else rnd f (e.1.mul e.1), zeroVal)
         | 4 => (if cx then (rnd f e.1.absv).maxv (rnd f e.2.absv) else rnd f e.1.absv, zeroVal)
         | _ => e
       let op1 (x y : Val) : Val := match c.subop.toNat with
         | 0 => rnd f (x.add y)
         | 1 => rnd f (x.add y)
         | 3 => x.minv y
         | _ => x.maxv y
       let op (x y : Elem) : Elem := (op1 x.1 y.1, if cx ∧ c.subop = 0 then op1 x.2 y.2 else zeroVal)
       (c.axis = 1 → c.acc = 0 → c.subop ≠ 5 → 2 ≤ c.rows.toNat →
         veResult s k c old 0 i = (List.range (c.rows.toNat - 1)).foldl (fun x r => op x (val (a (r + 1) i))) (val (a 0 i))) ∧
       (c.axis = 0 → c.subop ≠ 5 → c.cols = 2 → ∀ r, r < c.rows.toNat → veResult s k c old r 0 = op (val (a r 0)) (val (a r 1))) ∧
       (c.axis = 0 → c.subop = 5 → ∀ r, r < c.rows.toNat → ∃ m : Int, veResult s k c old r 0 = (ofInt m, zeroVal) ∧
         (m = -1 → ∀ j, j < c.cols.toNat → (a r j).1 = .nan) ∧
         (m ≠ -1 → 0 ≤ m ∧ m < c.cols.toNat ∧ (a r m.toNat).1 ≠ .nan ∧ (∀ j, j < c.cols.toNat → ((a r m.toNat).1.lt (a r j).1) = false) ∧
           ∀ j, j < m.toNat → (a r j).1 ≠ .nan → ((a r j).1.lt (a r m.toNat).1) = true ∨
             ((a r j).1.isZero = true ∧ (a r m.toNat).1.isZero = true ∧ (a r j).1.isNeg = true ∧ (a r m.toNat).1.isNeg = false)))) ∧
  (∀ (sub : Nat) (imm : Val) (y : Elem) (v : Val), sub ≤ 5 →
       ((demapSym sub imm y v).1.length = demapQm sub) ∧
       (∀ l ∈ (demapSym sub imm y v).1, -127 ≤ l ∧ l ≤ 127) ∧
       ((v = .nan ∨ v = .inf false ∨ (v.isNeg = true ∧ v.isZero = false) ∨ y.1.isFin = false ∨ y.2.isFin = false) →
         demapSym sub imm y v = (List.replicate (demapQm sub) 0, 0)) ∧
       (v.isZero = true → y.1.isFin = true → y.2.isFin = true → ∀ l ∈ (demapSym sub imm y v).1, l = 127 ∨ l = -127 ∨ l = 0))

/-- R93, R103, R111, R114: a LOAD of non-zero size fetches DEPTH rows of COLS elements once and every named array holds them, with FMT_S and
COMPLEX, within the limits of R114; its tiles and every slice's status stay. -/
def Obligations.MatrixLoads : Prop :=
  ∀ (s : State) (k step : Nat) (c0 : MatCmd), let c : MatCmd := { c0 with opcode := 1 }
    let n := rowBytes c.fmtS.toNat (c.cplx == 1) c.cols.toNat
    let row (r : Nat) : Got := maRead s k (64 * (c.sAddr.toNat + r * c.sPitch.toNat)) n
    MaTurn s k step c → MaShape s k → c.depth ≠ 0 → c.cols ≠ 0 → (∀ r, r < c.depth.toNat → GoodRead (row r)) →
    ∃ s', Completes (.maLoad k step c0) s s' ∧ MaFrame s s' k step c ∧ (unitOf s' (coreUnit k)).status = (unitOf s (coreUnit k)).status ∧
      (coreOf s' k).tq = (coreOf s k).tq ∧ (coreOf s' k).windows = (coreOf s k).windows ∧
      ∀ i ∈ maArrays c, let h := ((coreOf s' k).arrays.getD i {}).held
        h.fmt = c.fmtS ∧ h.cplx = (c.cplx == 1) ∧ h.depth = c.depth.toNat ∧ h.cols = c.cols.toNat ∧
        h.cols ≤ maWidth h.cplx ∧ h.depth ≤ maDepth h.fmt.toNat h.cplx ∧
        ((coreOf s' k).arrays.getD i {}).tiles = ((coreOf s k).arrays.getD i {}).tiles ∧
        ∀ r j, r < c.depth.toNat → j < c.cols.toNat →
          let e := (rowElems c.fmtS.toNat (c.cplx == 1) (row r).bytes c.cols.toNat).getD j zeroElem
          (heldAt h r j).1 = e.1 ∧ (c.cplx = 1 → (heldAt h r j).2 = e.2)

/-- R98, R99, R104 to R106, R109, R114, R118, R291: a PASS in WS or IS adds the products of each streamed row with each column of the held
block, as OP reads it, in ascending k, to −0 (0 in INT32) or under ACC to the tile; streamed row r makes row r mod 64 of tile ACC_TILE +
r / 64, in IS its column; the values beyond the block's columns and the other tiles stay. The stream FIFOs are left empty. -/
def Obligations.MatrixPasses : Prop :=
  ∀ (s : State) (k step : Nat) (c0 : MatCmd) (df : BitVec 2), df = 0 ∨ df = 1 →
    let c : MatCmd := { c0 with
      opcode := 2, dataflow := df }
    let i : Instr := if df = 0 then .maPassWs k step c0 else .maPassIs k step c0
    MaTurn s k step c → MaShape s k → c.rows ≠ 0 → c.depth ≠ 0 → (∀ a ∈ maArrays c, passWidth s k c a ≤ maWidth (c.cplx == 1)) →
    (∀ j a r, j < (maArrays c).length → r < c.rows.toNat → maRowAddr (maBound s k step c) c ((maArrays c).getD j 0) j r = some a →
      GoodRead (maRead s k a (rowBytes c.fmtT.toNat (c.cplx == 1) c.depth.toNat))) →
    ∃ s', Completes i s s' ∧ MaFrame s s' k step c ∧ (c.emit = 0 → (coreOf s' k).tq = (coreOf s k).tq) ∧
      (c.emit = 1 → ∃ q, (coreOf s' k).tq = (coreOf s k).tq ++ q ∧ q.length = maTileCount c * (maArrays c).length ∧
        ∀ x ∈ q, x.vals = (tileOf s' k x.array x.tile).vals ∧ x.fmt = (tileOf s' k x.array x.tile).fmt) ∧
      ∀ j, j < (maArrays c).length → let a := (maArrays c).getD j 0
        ((coreOf s' k).arrays.getD a {}).held = ((coreOf s k).arrays.getD a {}).held ∧ FifoIdle s' (maUnit k a) ∧
        (∀ n, n < 8 → (n < c.accTile.toNat ∨ c.accTile.toNat + maTileCount c ≤ n) → tileOf s' k a n = tileOf s k a n) ∧
        ∀ n, n < maTileCount c → let t := tileFor c (tileOf s k a (c.accTile.toNat + n))
          let t' := tileOf s' k a (c.accTile.toNat + n)
          t'.fmt = t.fmt ∧ t'.cplx = t.cplx ∧
          (∀ r x, r < c.rows.toNat → r / 64 = n → x < passWidth s k c a →
            let p := if df = 1 then (x, r % 64) else (r % 64, x)
            TileHolds t' p.1 p.2 (macLine t.fmt (c.cplx == 1) (passStart c t p.1 p.2) ((passRow s k step c a j r).zip
              ((List.range (maDepth c.fmtS.toNat (c.cplx == 1))).map (fun y => heldRead ((coreOf s k).arrays.getD a {}).held c.op.toNat y x)))).1) ∧
          (∀ r x q, r < 64 → x < maWidth (c.cplx == 1) → q < 2 →
            (∀ r', r' < c.rows.toNat → r' / 64 = n →
              if df = 1 then x ≠ r' % 64 ∨ passWidth s k c a ≤ r else r ≠ r' % 64 ∨ passWidth s k c a ≤ x) →
            tileWord t' r x q = tileWord t r x q)

/-- R107: a PASS in OS writes the whole tile: value (r, x) is the sum over the slices of element r of the array's own slice times element x
of the shared one, elements beyond ROWS and COLS +0; the held block stays. -/
def Obligations.MatrixOuterProducts : Prop :=
  ∀ (s : State) (k step : Nat) (c0 : MatCmd),
    let c : MatCmd := { c0 with
      opcode := 2, dataflow := 2 }
    let cx : Bool := c.cplx == 1
    let shared (y : Nat) : Got := maRead s k (64 * (c.sAddr.toNat + y * c.sPitch.toNat)) (rowBytes c.fmtS.toNat cx c.cols.toNat)
    let own (i y : Nat) : Got := maRead s k (64 * (c.tAddr.toNat + i * c.tStep.toNat + y * c.tPitch.toNat))
        (rowBytes c.fmtT.toNat cx c.rows.toNat)
    MaTurn s k step c → MaShape s k → c.rows ≠ 0 → c.cols ≠ 0 → c.depth ≠ 0 →
    (∀ y, y < c.depth.toNat → GoodRead (shared y) ∧ ∀ i ∈ maArrays c, GoodRead (own i y)) →
    ∃ s', Completes (.maPassOs k step c0) s s' ∧ MaFrame s s' k step c ∧
      ∀ i ∈ maArrays c,
        ((coreOf s' k).arrays.getD i {}).held = ((coreOf s k).arrays.getD i {}).held ∧
        (∀ n, n < 8 → n ≠ c.accTile.toNat → tileOf s' k i n = tileOf s k i n) ∧
        let t := tileFor c (tileOf s k i c.accTile.toNat)
        let t' := tileOf s' k i c.accTile.toNat
        t'.fmt = t.fmt ∧ t'.cplx = t.cplx ∧
        ∀ r x, r < 64 → x < maWidth cx →
          TileHolds t' r x (macLine t.fmt cx (passStart c t r x) ((List.range c.depth.toNat).map (fun y =>
            ((rowElems c.fmtT.toNat cx (own i y).bytes c.rows.toNat).getD r zeroElem,
             (rowElems c.fmtS.toNat cx (shared y).bytes c.cols.toNat).getD x zeroElem)))).1

/-- R111, R117 to R119: an EMIT sends ROWS rows from tile ACC_TILE of each named array, one slot a tile; one that lacks slots waits with those
that its arrays could reserve, and TILE_SLOT_RESERVE lets it go on when the others are free; a NOP, or a command with a zero count, ends at
once and changes no tile. -/
def Obligations.MatrixEmitsAndWaits : Prop :=
  ∀ (s : State) (k step : Nat) (c0 : MatCmd), MaShape s k →
    (let c : MatCmd := { c0 with opcode := 3 };
      c.rows ≠ 0 → MaTurn s k step c →
      ∃ s', Completes (.maEmit k step c0) s s' ∧ MaFrame s s' k step c ∧
        (∀ i, i < 4 → ((coreOf s' k).arrays.getD i {}).tiles = ((coreOf s k).arrays.getD i {}).tiles) ∧
        (coreOf s' k).tq = (coreOf s k).tq ++ (List.range (ceilDiv c.rows.toNat 64)).flatMap (fun n => (maArrays c).map (fun i =>
          let t := tileOf s k i (c.accTile.toNat + n)
          let v := min 64 (c.rows.toNat - 64 * n)
          ({ array := i, tile := c.accTile.toNat + n, fmt := if t.fmt = .none then .fp32 else t.fmt, cplx := t.cplx, valid := v, written := v,
             vals := t.vals } : Slot)))) ∧
    (let c : MatCmd := { c0 with opcode := 3 };
      let free := 16 - (coreOf s k).tq.length
      c.rows ≠ 0 → k < 48 → Active s → canRun s (coreUnit k) = true →
          (∀ i ∈ maArrays c, inService s (maUnit k i) = true ∧ outStalled s (maUnit k i) = false) → c.arrays ≠ 0 →
      maFieldsOk c = true → (coreOf s k).maWait = [] → (coreOf s k).veWait = [] → 16 < (coreOf s k).tq.length + (maArrays c).length →
      ∃ s', Completes (.maEmit k step c0) s s' ∧ (∃ cs, s' = { s with cores := cs }) ∧
        coreOf s' k = { coreOf s k with
          tq := (coreOf s k).tq ++ ((maArrays c).take free).map (fun i =>
            { array := i, tile := c.accTile.toNat, fmt := .none, cplx := false, valid := 0, written := 0, vals := [] })
          maWait := [{ cmd := c, step := step, tile := 0, live := maArrays c, reserved := (maArrays c).take free, begun := true }] } ∧
        ∀ q t, MaTurn (modCore s k (fun x => { x with tq := q })) k step c → Completes (.maEmit k step c0)
              (modCore s k (fun x => { x with tq := q })) t →
          Completes (.tileSlotReserve k) (modCore s' k (fun x => { x with tq := q ++ x.tq.drop (coreOf s k).tq.length })) t) ∧
    (∀ (i : Instr) (c : MatCmd), i = .maNop k step c0 ∧ c = { c0 with opcode := 0 } ∨ i = .maLoad k step c0 ∧ c = { c0 with opcode := 1 } ∨
        i = .maPassWs k step c0 ∧ c = { c0 with
          opcode := 2, dataflow := 0 } ∨ i = .maPassIs k step c0 ∧ c = { c0 with
          opcode := 2, dataflow := 1 } ∨ i = .maPassOs k step c0 ∧ c = { c0 with
          opcode := 2, dataflow := 2 } ∨ i = .maEmit k step c0 ∧ c = { c0 with opcode := 3 } →
      maZero c = true → MaTurn s k step c →
      ∃ s', Completes i s s' ∧ MaFrame s s' k step c ∧ (coreOf s' k).tq = (coreOf s k).tq ∧
        ∀ a, a < 4 → ((coreOf s' k).arrays.getD a {}).tiles = ((coreOf s k).arrays.getD a {}).tiles ∧
          ((coreOf s' k).arrays.getD a {}).held = ((coreOf s k).arrays.getD a {}).held)

/-- R238 to R240, R244, R246 to R248: a coding command, its item-dependent fields filled for its block, whose ranges hold and whose input reads
good writes exactly its results, DERM the combined LLRs, DECODE the hard bits and its result word with the tables in force, ENCODE the E bits,
CRC the attached CRC or its check; one whose ranges do not hold is turned away; one that completes at once writes nothing. R261: an
uncorrectable error in the engine's own memories stops a DERM or DECODE with a record. -/
def Obligations.CodingCommandsRun : Prop :=
  ∀ (s : State) (c : BitVec 3) (k : BitVec 1) (x : CeCmd) (blk : Option (Nat × Nat)), let u := engineFor s (ceUnit c.toNat k.toNat)
    Active s → canRun s u = true →
    let cmd (op : BitVec 4) : CeCmd := ceIssued s c.toNat { x with opcode := op } blk
    let derm1 := cmd 1
    let dec1 := cmd 2
    let enc1 := cmd 3
    let crc1 := cmd 4
    let forms : List (Instr × CeCmd) :=
      [(.ceDerm c k ⟨x, blk⟩, derm1), (.ceDecode c k ⟨x, blk⟩, dec1), (.ceEncode c k ⟨x, blk⟩, enc1), (.ceCrc c k ⟨x, blk⟩, crc1)]
    let good (y : CeCmd) : Prop := GoodRead (readLocal s (ceInput c.toNat y).1 (ceInput c.toNat y).2)
    let sound : Prop := errBad s u 0 codeWords = false
    let type (y : CeCmd) : Nat × Nat := ceCrcType y.crc.toNat
    let Ran (s' w : State) (y : CeCmd) : Prop := ClusterRun s s' w c.toNat ∧ clusterOf s' c.toNat = { clusterOf s c.toNat with
      ce := lmod (clusterOf s c.toNat).ce k.toNat (fun e => { e with
        busy := e.busy ++ [0], decodeRun := decide (y.opcode = 2)
        cycles := e.cycles + ceCost y + (if y.opcode = 2 ∧ e.decodeRun = false then ceilDiv y.ncb.toNat 256 + 65 else 0) }) }
    (∀ i y, (i, y) ∈ (Instr.ceNop c k ⟨x, blk⟩, cmd 0) :: forms → ceOk y = false → ∃ s', Completes i s s' ∧ TurnedAway s s' u) ∧
    (∀ i y, (i, y) ∈ (Instr.ceNop c k ⟨x, blk⟩, cmd 0) :: forms → ceOk y = true → ceZero y = true → ∃ s', Completes i s s' ∧
      s' = { s with clusters := s'.clusters } ∧ (∀ j, j ≠ c.toNat → clusterOf s' j = clusterOf s j) ∧
          clusterOf s' c.toNat = { clusterOf s c.toNat with
        ce := lmod (clusterOf s c.toNat).ce k.toNat (fun e => { e with busy := e.busy ++ [0] }) }) ∧
    (ceOk derm1 = true → ceZero derm1 = false → good derm1 → sound →
      ∃ s', Completes (.ceDerm c k ⟨x, blk⟩) s s' ∧ Ran s' (bytesPut s u c.toNat derm1.outAddr.toNat
        ((derm derm1 (readLlrs s c.toNat derm1.inAddr.toNat derm1.e.toNat)).map (fun v => BitVec.ofInt 8 v))) derm1) ∧
    (ceOk dec1 = true → ceZero dec1 = false → good dec1 → sound →
      let r := ldpcDecode dec1 (tablesFor s c.toNat) (readLlrs s c.toNat dec1.inAddr.toNat dec1.ncb.toNat)
      let pass := dec1.crc ≠ 0 ∧ crcHolds (type dec1).1 (type dec1).2 r.1 = true
      ∃ s' word, Completes (.ceDecode c k ⟨x, blk⟩) s s' ∧
          Ran s' (bytesPut (bitsPut s u c.toNat dec1.outAddr.toNat r.1) u c.toNat dec1.resAddr.toNat word) dec1 ∧
        ofBytesLE word = (if pass then 2 ^ 31 else 0) + (if r.2.2 then 2 ^ 30 else 0) + r.2.1 * 2 ^ 24 ∧ word.length = 4) ∧
    (∀ i y, (i, y) ∈ forms.take 2 → ceOk y = true → ceZero y = false → good y → ¬ sound →
      ∃ s', Completes i s s' ∧ s'.mem = s.mem ∧ s'.clusters = s.clusters ∧ NewRecord s s' u causeUncorrectable) ∧
    (ceOk enc1 = true → ceZero enc1 = false → good enc1 →
      (enc1.e = 0 ∨ carried enc1 ≠ [] →
        ∃ s', Completes (.ceEncode c k ⟨x, blk⟩) s s' ∧
          Ran s' (bitsPut s u c.toNat enc1.outAddr.toNat (encodeBits enc1 (readBits s c.toNat enc1.inAddr.toNat enc1.kp.toNat))) enc1) ∧
      (enc1.e ≠ 0 → carried enc1 = [] → ∃ s' bs, Completes (.ceEncode c k ⟨x, blk⟩) s s' ∧ bs.length = enc1.e.toNat ∧
          Ran s' (bitsPut s u c.toNat enc1.outAddr.toNat bs) enc1)) ∧
    (ceOk crc1 = true → crc1.attach = 1 → good crc1 →
      ∃ s' word, Completes (.ceCrc c k ⟨x, blk⟩) s s' ∧ Ran s' (bytesPut (bitsPut s u c.toNat (crc1.inAddr.toNat + crc1.e.toNat)
        (crcBits (type crc1).1 (type crc1).2 (readBits s c.toNat crc1.inAddr.toNat crc1.e.toNat)))
            u c.toNat crc1.resAddr.toNat word) crc1 ∧
        ofBytesLE word = (if crc1.crc ≠ 0 then 2 ^ 31 else 0) ∧ word.length = 4) ∧
    (ceOk crc1 = true → crc1.attach = 0 → good crc1 →
      ∃ s' word, Completes (.ceCrc c k ⟨x, blk⟩) s s' ∧ Ran s' (bytesPut s u c.toNat crc1.resAddr.toNat word) crc1 ∧ word.length = 4 ∧
        ofBytesLE word = (if crc1.crc ≠ 0 ∧ crcHolds (type crc1).1 (type crc1).2
          (readBits s c.toNat crc1.inAddr.toNat (crc1.e.toNat + (type crc1).1)) = true then 2 ^ 31 else 0))

/-- R250, R251, R359: a polar command whose ranges hold and whose input reads good writes its bits and, for DECODE, its result word after
them at the next 32-bit boundary; one whose ranges do not hold is turned away. The PE of a cluster whose own is retired is that of a helper:
it works in the helper's exchange area, and the results are copied back. -/
def Obligations.PolarCommandsRun : Prop :=
  ∀ (s : State) (c : BitVec 3) (x : PeCmd), Active s → let u := peUnit c.toNat
    let dec1 : PeCmd := { x with opcode := 1 }
    let enc1 : PeCmd := { x with opcode := 2 }
    let res (r : List Bool × Bool) (bit : Nat) (w : State) (h : Nat) : State := bytesPut w (peUnit h)
        h bit (bytesLE 4 (if r.2 then 2 ^ 31 else 0))
    let Ran (s' w : State) (y : PeCmd) : Prop := ClusterRun s s' w c.toNat ∧ clusterOf s' c.toNat = { clusterOf s c.toNat with
      pe := { (clusterOf s c.toNat).pe with
        busy := (clusterOf s c.toNat).pe.busy ++ [0], cycles := (clusterOf s c.toNat).pe.cycles + peCost y } }
    let decodes (w : State) (h : Nat) (y : PeCmd) : State :=
      let r := peDecodeBits y (readLlrs w h y.inAddr.toNat y.e.toNat)
      res r (peResAddr y) (bitsPut w (peUnit h) h y.outAddr.toNat r.1) h
    let encodes (w : State) (h : Nat) (y : PeCmd) : State :=
      bitsPut w (peUnit h) h y.outAddr.toNat (peEncodeBits y (readBits w h y.inAddr.toNat (peMsg y)))
    let sound (h : Nat) : Prop := errBad s (peUnit h) 0 codeWords = false
    (canRun s u = true →
      (∀ i y, (i, y) ∈ [(Instr.peNop c x, { x with opcode := 0 }), (.peDecode c x, dec1), (.peEncode c x, enc1)] → peOk y = false →
        ∃ s', Completes i s s' ∧ TurnedAway s s' u) ∧
      (∀ i y, (i, y) ∈ [(Instr.peNop c x, { x with opcode := 0 }), (.peDecode c { x with crc := 0 }, { dec1 with crc := 0 }),
          (.peEncode c x, enc1)] →
        peOk y = true → peZero y = true → ∃ s', Completes i s s' ∧ Ran s' s y) ∧
      (peOk dec1 = true → peZero dec1 = false → GoodRead (readLocal s (clusterBase c.toNat + x.inAddr.toNat / 8) x.e.toNat) →
          sound c.toNat →
        ∃ s', Completes (.peDecode c x) s s' ∧ Ran s' (decodes s c.toNat dec1) dec1) ∧
      (peOk enc1 = true → peZero enc1 = false → GoodBits s c.toNat x.inAddr.toNat (peMsg x) →
        ∃ s', Completes (.peEncode c x) s s' ∧ Ran s' (encodes s c.toNat enc1) enc1)) ∧
    (∀ h : Nat, canRun s (clusterUnit c.toNat) = true → unitGone s u = true → peHelper s c.toNat = some h →
        canRun s (peUnit h) = true → h ≠ c.toNat →
      (2 ≤ (clusterOf s h).borrowed.length →
        Completes (.peBorrowedCommand c x) s (setCluster s h { clusterOf s h with borrowWait := (clusterOf s h).borrowWait ++ [(c, x)] })) ∧
      (∀ i : Nat, (clusterOf s h).borrowed.length < 2 → (i = if (clusterOf s h).borrowed.any (fun b => b.2.2 == 0) then 1 else 0) →
        let y := borrowedCmd x i
        let n := if x.opcode = 1 then 8 * x.e.toNat else peMsg x
        let m := if x.opcode = 1 then peMsg x else x.e.toNat
        let w0 := copyBits s (moverUnit c.toNat 2) c.toNat x.inAddr.toNat h y.inAddr.toNat n
        let w1 := if x.opcode = 1 then decodes w0 h y else encodes w0 h y
        let w2 := copyBits w1 (moverUnit c.toNat 2) h y.outAddr.toNat c.toNat x.outAddr.toNat m
        let w3 := if x.opcode = 1 then copyBits w2 (moverUnit c.toNat 2) h (peResAddr y) c.toNat (peResAddr x) 32 else w2
        peOk y = true → peZero y = false → x.opcode ≠ 0 → (x.opcode = 1 →
            GoodRead (readLocal w0 (clusterBase h + y.inAddr.toNat / 8) x.e.toNat) ∧ sound h) →
        (x.opcode = 2 → GoodBits w0 h y.inAddr.toNat (peMsg y)) →
        ∃ s', Completes (.peBorrowedCommand c x) s s' ∧ s'.mem = w3.mem ∧ s'.queues = s.queues ∧ s'.cores = s.cores ∧
          (clusterOf s' h).borrowed = (clusterOf s h).borrowed ++ [(c, x, i)] ∧
          (clusterOf s' c.toNat).pe.busy = (clusterOf s c.toNat).pe.busy ++ [0] ∧ ∀ j, j ≠ h → j ≠ c.toNat →
              clusterOf s' j = clusterOf s j))

/-- R241 to R245: DERM undoes the interleaver, lets fillers stay 0, sums repetitions within ±127 and gives zeros for E = 0; DECODE computes
at most ITER iterations, reports SYN_OK only when every active check holds, and gives the signs of its input where it computes none or every
ALPHA is 0. R246, R249: what ENCODE makes is a codeword whenever one with those information bits exists, systematic, with fillers 0; a CRC
attached to its bits divides out to 0, and no single wrong bit of a block with its CRC passes the check. R250, R251: the transform undoes
itself; where the LLRs agree with a word's bits, f and g find the sign of every input bit from the bits before it; a step of the decoder
keeps at most 2^LIST paths, lowest metrics first, and a path's metric grows by |LLR| only where its bit disagrees. -/
def Obligations.CodeRules : Prop :=
  ((∀ (c : CeCmd) (llrs : List Int), let d := derm c llrs
       let at_ (v : Nat) : Int := llrs.getD (v % (c.e.toNat / c.qm.toNat) * c.qm.toNat + v / (c.e.toNat / c.qm.toNat)) 0
       d.length = c.ncb.toNat ∧ (∀ v ∈ d, -127 ≤ v ∧ v ≤ 127) ∧ (∀ p, isFiller c p = true → d.getD p 0 = 0) ∧ (c.e = 0 → ∀ v ∈ d, v = 0) ∧
       (∀ j, c.e.toNat ≤ (carried c).length → j < (carried c).length → d.getD ((carried c).getD j 0) 0 =
         if j < c.e.toNat then max (-127) (min 127 (at_ j)) else 0) ∧
       (∀ j, (carried c).length < c.e.toNat → c.e.toNat ≤ 2 * (carried c).length → j < (carried c).length →
           d.getD ((carried c).getD j 0) 0 =
         if (carried c).length + j < c.e.toNat then max (-127) (min 127 (max (-127) (min 127 (at_ j)) + at_ ((carried c).length + j)))
         else max (-127) (min 127 (at_ j)))) ∧
     (∀ (c : CeCmd) (tables : List (List (BitVec 16))) (circ : List Int), let r := ldpcDecode c tables circ
       let signs := (List.range c.kp.toNat).map (fun v => decide (ldpcInput c circ v < 0))
       c.kp.toNat ≤ (ldpcN (c.bg == 1) + 2) * c.z.toNat →
       r.1.length = c.kp.toNat ∧ r.2.1 ≤ c.iter.toNat ∧ (c.iter ≠ 0 → 0 < r.2.1) ∧ (r.2.2 = false → r.2.1 = c.iter.toNat) ∧
       (c.iter = 0 → r.1 = signs ∧ r.2.2 = false) ∧
       ((∀ v ∈ circ, -127 ≤ v ∧ v ≤ 127) → (∀ t ∈ tables, ∀ w ∈ t, bitsOf w 15 8 = 0) → r.1 = signs))) ∧
  ((∀ (c : CeCmd) (info : List Bool), let k := ldpcKb (c.bg == 1) * c.z.toNat
       let n := (ldpcKb (c.bg == 1) + ldpcRows (c.bg == 1)) * c.z.toNat
       let Checks (w : List Bool) : Prop := ∀ x, x < ldpcRows (c.bg == 1) * c.z.toNat →
         ((checkCols c (x / c.z.toNat) (x % c.z.toNat)).map (fun v => w.getD v false)).foldl xor false = false
       let w := ldpcEncode c info
       w.length = n ∧ (∀ i, i < k → w.getD i false = info.getD i false) ∧
       ((∃ w' : List Bool, w'.length = n ∧ (∀ i, i < k → w'.getD i false = info.getD i false) ∧ Checks w') → Checks w)) ∧
     (∀ t bits, t = 1 ∨ t = 2 ∨ t = 3 → let len := (ceCrcType t).1
       let poly := (ceCrcType t).2
       let all := bits ++ crcBits len poly bits
       crcReg len poly all = 0 ∧ crcHolds len poly all = true ∧
       ∀ i, i < all.length → crcHolds len poly (all.set i (!(all.getD i false))) = false)) ∧
  ((∀ (n : Nat) (u : List Bool), u.length = 2 ^ n → polarXform n (polarXform n u) = u ∧ (polarXform n u).length = 2 ^ n) ∧
     (∀ (n : Nat) (u : List Bool) (l : List Int) (i : Nat), u.length = 2 ^ n → l.length = 2 ^ n → i < 2 ^ n →
       (∀ j, j < 2 ^ n → l.getD j 0 ≠ 0 ∧ ((polarXform n u).getD j false = true ↔ l.getD j 0 < 0)) →
       bitLlr n l (u.take i) ≠ 0 ∧ (u.getD i false = true ↔ bitLlr n l (u.take i) < 0)) ∧
     (∀ (c : PeCmd) (l : List Int) (info pcs : List Nat) (ps : List PolarPath) (i : Nat), let qs := polarStep c l info pcs ps i
       (∀ q ∈ qs, ∃ p ∈ ps, ∃ b, q.bits = p.bits ++ [b] ∧
         q.metric = if (decide (bitLlr c.logn.toNat l p.bits < 0)) =
             b then p.metric else min (p.metric + (bitLlr c.logn.toNat l p.bits).natAbs) (2 ^ 32 - 1)) ∧
       (info.contains i = false → pcs.contains i = false → qs.length = ps.length ∧ ∀ q ∈ qs, q.bits.getLast? = some false) ∧
       (info.contains i = true → pcs.contains i = false → qs.length = min (2 ^ c.list.toNat) (2 * ps.length) ∧
         (qs.map (fun q => q.metric)).Pairwise (· ≤ ·) ∧
         ∀ p ∈ ps, ∀ b, (∃ q ∈ qs, q.bits = p.bits ++ [b]) ∨ ∀ q ∈ qs,
           q.metric ≤ if (decide (bitLlr c.logn.toNat l p.bits < 0)) =
               b then p.metric else min (p.metric + (bitLlr c.logn.toNat l p.bits).natAbs) (2 ^ 32 - 1))))

/-- R262, R263, R271 to R273, R275: a write to populated memory is read back, a whole codeword reads good after it, a part merged into a
codeword that does not read good reads poisoned; every other byte reads as before; a reserved address reads 0, and a write to one changes no
byte and is recorded. -/
def Obligations.MemoryReadsBack : Prop :=
  ∀ (s : State) (u : UAddr) (a : Nat) (bs : List Byte), MemOk s → let t := writeLocal s u a bs false
    MemOk t ∧
    (∀ i, i < bs.length → placeOf s (a + i) ≠ .reserved → GoodAt s (a + i) → byteAt t (a + i) = bs.getD i 0 ∧ GoodAt t (a + i)) ∧
    (∀ w, a ≤ 32 * w → 32 * w + 32 ≤ a + bs.length → placeOf s (32 * w) ≠ .reserved →
      ∀ j, j < 32 → byteAt t (32 * w + j) = bs.getD (32 * w + j - a) 0 ∧ GoodAt t (32 * w + j)) ∧
    (∀ w, bs ≠ [] → (32 * w < a ∨ a + bs.length < 32 * w + 32) → a < 32 * w + 32 → 32 * w < a + bs.length →
        placeOf s (32 * w) ≠ .reserved → ¬ GoodAt s (32 * w) →
      (readLocal t (32 * w) 32).poisoned = true) ∧
    (∀ x, (x < a ∨ a + bs.length ≤ x) → byteAt t x = byteAt s x ∧ (x / 32 < a / 32 ∨ (a + bs.length + 31) / 32 ≤ x / 32 →
        (GoodAt t x ↔ GoodAt s x))) ∧
    (∀ x, placeOf s x = .reserved → byteAt s x = 0 ∧ GoodAt s x) ∧
    ((∀ i, i < bs.length → placeOf s (a + i) = .reserved) → bs ≠ [] →
        (s.mem.dropped.any (fun d => d.1 == u && d.2.1 == s.time.meridians)) = false →
      t.mem.cells = s.mem.cells ∧ t.mem.check = s.mem.check ∧ t.lastFault = s.lastFault + 1 ∧
        ∃ r, tget t.faults ((s.lastFault + 1) % 256) = some r ∧ r.unit = u ∧ r.cause = causeReserved)

/-- R283 to R287: a COPY or a FILL between places of the device's own memory moves every line, byte for byte, where no line is written that
another byte of the command lies on; every other byte stays. A line from a host buffer takes the host's bytes, and 0 beyond the buffer's
length. A NOP, and a command with LENGTH = 0 or LINES = 0, moves nothing. -/
def Obligations.MoversMoveBytes : Prop :=
  ∀ (s : State) (c : BitVec 3) (m : Nat) (x : MovCmd) (ext : List Byte), let u := movUnit s c.toNat m
    let src (i j : Nat) : Nat := (((x.src.toNat : Int) + i * movPitch x.srcPitch + j) % 2 ^ 42).toNat
    let dst (i j : Nat) : Nat := (((x.dst.toNat : Int) + i * movPitch x.dstPitch + j) % 2 ^ 42).toNat
    let inLine (i j : Nat) : Prop := i < x.lines.toNat ∧ j < x.length.toNat
    let Untouched (s' : State) : Prop := ∀ a, (∀ i j, inLine i j → dst i j % 2 ^ 36 ≠ a) → byteAt s' a = byteAt s a
    let Apart : Prop := ∀ i j i' j', inLine i j → inLine i' j' → dst i j = dst i' j' → i = i' ∧ j = j'
    Active s → m < 6 → m < (clusterOf s c.toNat).movers.length → canRun s u = true → MemOk s →
    (∃ s', Completes (.moverNop c m x) s s' ∧ MoverRun s s' c.toNat m ∧ s'.mem = s.mem) ∧
    (x.length = 0 ∨ x.lines = 0 → ∃ s', Completes (.moverCopy c m x ext) s s' ∧ MoverRun s s' c.toNat m ∧ s'.mem = s.mem) ∧
    (x.length = 0 ∨ x.lines = 0 → x.src.toNat < 2 ^ 32 → ∃ s', Completes (.moverFill c m x) s s' ∧ MoverRun s s' c.toNat m ∧
        s'.mem = s.mem) ∧
    (x.length ≠ 0 → x.lines ≠ 0 → x.mirror = 0 → x.dstSpace = 0 → Apart → (∀ i j, inLine i j → OwnByte s (dst i j)) →
      (x.srcSpace = 0 → movOk s c.toNat { x with opcode := 1 } = true → (∀ i j, inLine i j → OwnByte s (src i j)) →
        (∀ i j i' j', inLine i j → inLine i' j' → src i j ≠ dst i' j') →
        ∃ s', Completes (.moverCopy c m x ext) s s' ∧ MoverRun s s' c.toNat m ∧ Untouched s' ∧
          ∀ i j, inLine i j → byteAt s' (dst i j % 2 ^ 36) = byteAt s (src i j % 2 ^ 36)) ∧
      (x.srcSpace = 1 → movOk s c.toNat { x with opcode := 1 } = true → canMaster s = true → x.lines = 1 →
          x.src.toNat % 2 ^ 36 + x.length.toNat ≤ 2 ^ 36 →
        let b := (bufsOf s c.toNat).getD (x.src.toNat / 2 ^ 36) 0
        let k := min x.length.toNat (bufLen b - x.src.toNat % 2 ^ 36)
        k ≤ ext.length → ∃ s', Completes (.moverCopy c m x ext) s s' ∧ MoverRun s s' c.toNat m ∧ Untouched s' ∧
          ∀ j, j < x.length.toNat → byteAt s' (dst 0 j % 2 ^ 36) = if j < k then ext.getD j 0 else 0) ∧
      (x.srcSpace = 0 → movOk s c.toNat { x with opcode := 2 } = true → x.src.toNat < 2 ^ 32 →
        ∃ s', Completes (.moverFill c m x) s s' ∧ MoverRun s s' c.toNat m ∧ Untouched s' ∧
          ∀ i j, inLine i j → byteAt s' (dst i j % 2 ^ 36) = BitVec.ofNat 8 (x.src.toNat / 256 ^ (j % 4)))) ∧
    (x.length ≠ 0 → x.lines ≠ 0 → (movOk s c.toNat { x with opcode := 1 } = false → ∃ s', Completes (.moverCopy c m x ext) s s' ∧
        TurnedAway s s' u) ∧
      (movOk s c.toNat { x with opcode := 2 } = false ∨ 2 ^ 32 ≤ x.src.toNat → ∃ s', Completes (.moverFill c m x) s s' ∧ TurnedAway s s' u))

/-- R156, R162, R163: a RELAY writes KW × KH planes of output positions; each takes from every channel group the source position that its
tap reads, the padding by R154's formula, and zeros where it reads none. Every other byte stays; a RELAY with no group or no output moves
nothing; one that breaks the checks of R162 and R289 is turned away. -/
def Obligations.RelayGathersPlanes : Prop :=
  ∀ (s : State) (c : BitVec 3) (m : Nat) (x : MovCmd) (g : RelayGeo) (ext : List Byte), let u := movUnit s c.toNat m
    let tap (size up stride dil pad : Nat) (o t : Nat) : Option Nat :=
      let v : Int := (o * stride + t * dil : Nat) - (pad : Nat)
      let w : Int := max 0 (min ((size - 1) * up : Nat) v)
      let view := (size - 1) * up + 1
      if (v < 0 ∨ (view : Int) ≤ v ∨ size = 0) ∧ g.padMode = 0 then none else if w.toNat % up = 0 then some (w.toNat / up) else none
    let outs (size up stride dil k padL padR : Nat) : Nat :=
      let n : Int := ((if size = 0 then 0 else (size - 1) * up + 1) + padL + padR : Nat) - (dil * (k - 1) : Nat) - 1
      (n.fdiv stride + 1).toNat
    let ow := outs g.inW.toNat g.ux.toNat g.sx.toNat g.dx.toNat g.kw.toNat g.padL.toNat g.padR.toNat
    let oh := outs g.inH.toNat g.uy.toNat g.sy.toNat g.dy.toNat g.kh.toNat g.padT.toNat g.padB.toNat
    let row := x.groups.toNat * x.length.toNat
    let dst (p q j : Nat) : Nat := (((x.dst.toNat : Int) + (p * x.planePitch.toNat * 64 : Nat) + q * movPitch x.dstPitch + j)
        % 2 ^ 42).toNat
    let src (y z gr j : Nat) : Nat :=
      (((x.src.toNat : Int) + (y * x.linePitch.toNat * 64 + gr * x.groupPitch.toNat * 64 : Nat) + z * movPitch x.srcPitch + j)
          % 2 ^ 42).toNat
    let from_ (p q : Nat) : Option (Nat × Nat) :=
      match tap g.inH.toNat g.uy.toNat g.sy.toNat g.dy.toNat g.padT.toNat (q / ow) (p / g.kw.toNat),
        tap g.inW.toNat g.ux.toNat g.sx.toNat g.dx.toNat g.padL.toNat (q % ow) (p % g.kw.toNat) with
      | some y, some z => some (y, z)
      | _, _ => none
    let inRow (p q j : Nat) : Prop := p < g.kw.toNat * g.kh.toNat ∧ q < ow * oh ∧ j < row
    Active s → m < 2 → m < (clusterOf s c.toNat).movers.length → canRun s u = true → MemOk s →
    (relayCmdOk m x g = false → ∃ s', Completes (.moverRelay c m x ⟨g, ext⟩) s s' ∧ TurnedAway s s' u) ∧
    (relayCmdOk m x g = true → 0 < g.inW.toNat → 0 < g.inH.toNat →
     (row = 0 ∨ ow = 0 ∨ oh = 0 ∨ g.kw = 0 ∨ g.kh = 0 → ∃ s', Completes (.moverRelay c m x ⟨g, ext⟩) s s' ∧ MoverRun s s' c.toNat m ∧
        s'.mem = s.mem) ∧
    (row ≠ 0 → x.srcSpace = 0 → x.dstSpace = 0 → x.mirror = 0 →
      (∀ p q j, inRow p q j → OwnByte s (dst p q j) ∧ ∀ y z, from_ p q = some (y, z) →
        OwnByte s (src y z (j / x.length.toNat) (j % x.length.toNat)) ∧ ∀ p' q' j', inRow p' q' j' →
            dst p' q' j' ≠ src y z (j / x.length.toNat) (j % x.length.toNat)) →
      (∀ p q j p' q' j', inRow p q j → inRow p' q' j' → dst p q j = dst p' q' j' → p = p' ∧ q = q' ∧ j = j') →
      ∃ s', Completes (.moverRelay c m x ⟨g, ext⟩) s s' ∧ MoverRun s s' c.toNat m ∧
        (∀ p q j, inRow p q j → byteAt s' (dst p q j % 2 ^ 36) = match from_ p q with
          | some (y, z) => byteAt s (src y z (j / x.length.toNat) (j % x.length.toNat) % 2 ^ 36)
          | none => 0) ∧
        ∀ a, (∀ p q j, inRow p q j → dst p q j % 2 ^ 36 ≠ a) → byteAt s' a = byteAt s a))

/-- R286, R290, R292 to R296: a line into a queue with space takes its entries in order, behind its length word as a packet; without space
it waits, and a packet beyond DEPTH is turned away. A read takes the oldest entries; a read of an empty queue sets UNDERRUN and faults. A
FLUSH discards what the queue holds; a pointer mismatch empties it. -/
def Obligations.QueuesHoldEntries : Prop :=
  ∀ (s : State) (c : BitVec 3) (m qn : Nat) (x : MovCmd) (ext : List Byte) (t : Time), let u := movUnit s c.toNat m
    let q := qrecOf s c.toNat qn
    let e := 32 * 2 ^ q.esize
    let held := (q.wptr + 2 * q.depth - q.rptr) % (2 * q.depth)
    let at_ (p j : Nat) : Nat := clusterBase c.toNat + 64 * q.base + p % q.depth * e + j
    let n := x.length.toNat
    let k := (n + e - 1) / e
    Active s → m < 6 → m < (clusterOf s c.toNat).movers.length → (clusterOf s c.toNat).queues.length = 64 → qn < 64 →
        canRun s u = true → MemOk s →
    q.depth ≠ 0 → q.wptr < 2 * q.depth → q.rptr < 2 * q.depth → held ≤ q.depth → 64 * q.base + q.depth * e ≤ clusterBytes →
    (∀ j, j < q.depth * e → GoodAt s (clusterBase c.toNat + 64 * q.base + j)) →
    (x.dst.toNat = qn → x.dstSpace = 2 → x.srcSpace = 0 → n ≠ 0 → x.lines = 1 → x.src.toNat < 2 ^ 32 →
        movOk s c.toNat { x with opcode := 2 } = true →
      let need := k + if x.packet = 1 then 1 else 0
      (need ≤ q.depth - held → ∃ s', Completes (.moverFill c m x) s s' ∧ MoverRun s s' c.toNat m ∧
        qrecOf s' c.toNat qn = { q with
          wptr := (q.wptr + need) % (2 * q.depth), wptr2 := (q.wptr + need) % (2 * q.depth) } ∧
        (∀ j, j < n → byteAt s' (at_ (q.wptr + (if x.packet = 1 then 1 else 0) + j / e) (j % e)) =
            BitVec.ofNat 8 (x.src.toNat / 256 ^ (j % 4))) ∧
        (x.packet = 1 → ∀ j, j < 4 → byteAt s' (at_ q.wptr j) = BitVec.ofNat 8 ((2 ^ 31 + k % 2 ^ 24) / 256 ^ j))) ∧
      (q.depth - held < need → need ≤ q.depth ∨ x.packet = 0 → Completes (.moverFill c m x) s s) ∧
      (q.depth < need → x.packet = 1 → ∃ s', Completes (.moverFill c m x) s s' ∧ TurnedAway s s' u)) ∧
    (x.src.toNat = qn → x.srcSpace = 2 → x.dstSpace = 0 → x.mirror = 0 → n ≠ 0 → x.lines = 1 → q.packetised = false →
        movOk s c.toNat { x with opcode := 1 } = true →
      (k ≤ held → (∀ j, j < n → OwnByte s (x.dst.toNat + j)) →
        (∀ i j, i < n → j < q.depth * e → (x.dst.toNat + i) % 2 ^ 36 ≠ clusterBase c.toNat + 64 * q.base + j) →
        ∃ s' last, Completes (.moverCopy c m x ext) s s' ∧ MoverRun s s' c.toNat m ∧ qrecOf s' c.toNat qn = { q with
          rptr := (q.rptr + k) % (2 * q.depth), rptr2 := (q.rptr + k) % (2 * q.depth), readLeft := 0, lastRead := last } ∧
        ∀ j, j < n → byteAt s' ((x.dst.toNat + j) % 2 ^ 36) = byteAt s (at_ (q.rptr + j / e) (j % e))) ∧
      (held = 0 → ∃ s' r, Completes (.moverCopy c m x ext) s s' ∧ s'.mem = s.mem ∧ qrecOf s' c.toNat qn = { q with underrun := true } ∧
        s'.lastFault = s.lastFault + 1 ∧ tget s'.faults ((s.lastFault + 1) % 256) = some r ∧ r.cause = causeUnderrun ∧ r.unit = u)) ∧
    (x.dst.toNat = qn → x.dstSpace ≠ 3 → x.srcSpace ≠ 3 → movOk s c.toNat { x with opcode := 2 } = true →
      ∃ s', Completes (.moverFlush c m x) s s' ∧ MoverRun s s' c.toNat m ∧ s'.mem = s.mem ∧
        qrecOf s' c.toNat qn = if held = 0 ∧
            q.packetised = false then q else if qEmpty s c.toNat q then q else { q with flushPend := true }) ∧
    (q.flushPend = true → q.readLeft = 0 → Completes (.queueFlushEffect c (BitVec.ofNat 6 qn)) s
      (setCluster s c.toNat { clusterOf s c.toNat with
        queues := (clusterOf s c.toNat).queues.set qn { q with
          rptr := q.wptr, rptr2 := q.wptr, flushPend := false } })) ∧
    (∃ s' r, Completes (.queuePointerMismatch (.clusterQueue c (BitVec.ofNat 6 qn)) t) s s' ∧
        (tget s'.faults ((s.lastFault + 1) % 256) = some r) ∧
      r.cause = causePointer ∧ r.unit = clusterEng c.toNat 7 6 0) ∧
    (∃ s', Completes (.moverTransferIssue c m n true) s s' ∧ s'.mem = s.mem ∧ ((movOf s c.toNat m).toIssue ≠ 0 →
      (movOf s' c.toNat m).toIssue + 1 = (movOf s c.toNat m).toIssue ∧
        (movOf s' c.toNat m).outstanding = min (if m < 2 then 64 else 96) ((movOf s c.toNat m).outstanding + 1)))

/-- R269, R270, R272, R275: at the start of a refresh window each of a compute die's channels scrubs its next 2 KiB block: a corrected
codeword is rewritten, an uncorrectable one becomes poison, or waits for the next window where it is mirrored; the window holds accesses
for 160 ns. An SRAM scrubs its next 64 bytes. -/
def Obligations.RefreshScrubsMemory : Prop :=
  ∀ (s : State) (d : BitVec 1) (t : Time) (base k : Nat), Active s → s.mem.repairs = [] → s.dies.length = 2 →
    let Scrubbed (s' : State) (lo hi : Nat) : Prop := ∀ w, let v := cwStateAt s w
      let inIt : Prop := lo ≤ 32 * w ∧ 32 * w < hi
      (∀ p e, inIt → v = .single p e → cwStateAt s' w = .good ∧ cwBytes s'.mem.cells s'.mem.check w = cwBytes s.mem.cells s.mem.check w) ∧
      (inIt → v = .uncorrectable → (mirrorOf s (32 * w)).isSome = false → (workingOf s (32 * w)).isSome = false →
          cwStateAt s' w = .poison) ∧
      (inIt → v = .uncorrectable → (mirrorOf s (32 * w)).isSome = true ∨ (workingOf s (32 * w)).isSome = true → w ∈ s'.mem.repairs) ∧
      (¬ inIt ∨ v = .good ∨ v = .poison → cwStateAt s' w = v ∧ cwBytes s'.mem.cells s'.mem.check w = cwBytes s.mem.cells s.mem.check w)
    let now := max s.time.now t
    (MemOk s → k < 512 → inSubframe s now = k * 1953125 / 1000 →
      let j := (s.dies.getD d.toNat {}).scrub
      ∃ s', Completes (.refreshWindow d k t) s s' ∧ (s'.dies.getD d.toNat {}).refreshing = some (now + 160) ∧
        (s'.dies.getD d.toNat {}).scrub = (j + 1) % 196608 ∧ s'.clusters = s.clusters ∧ s'.cores = s.cores ∧
        Scrubbed s' (dramBase d.toNat + j * 131072) (dramBase d.toNat + (j + 1) * 131072)) ∧
    (k < 512 → inSubframe s now ≠ k * 1953125 / 1000 → Completes (.refreshWindow d k t) s (s.atTime t)) ∧
    Completes (.refreshWindowEnd d t) s { s.atTime t with dies := lmod s.dies d.toNat (fun x =>
      { x with refreshing := if ∃ e, x.refreshing = some e ∧ now < e then x.refreshing else none }) } ∧
    (∀ b n, MemOk s → (∃ c, b = clusterBase c ∧ placeOf s base = .cluster c ∧ n = clusterBytes) ∨ (∃ c, b = coreBase s c ∧
        placeOf s base = .core c ∧ n = coreBytes) ∨
        (placeOf s base = .ioSram ∧ b = ioBase ∧ n = ioBytes) →
      let o := (tget s.mem.scrubbed b).getD 0
      ∃ s', Completes (.sramScrub base t) s s' ∧ tget s'.mem.scrubbed b = some ((o + 64) % n) ∧ s'.dies = s.dies ∧
          Scrubbed s' (b + o) (b + o + 64))

/-- R263 to R265, R452, R454, R455, R481: a request through BAR2, or through BAR4 with the device's own number, reads and writes the memory
it maps; one for a device without a route reads 0 and writes nothing; one for a device with a route leaves as WRITE or READ segments. A
poisoned write is dropped whole; an AtomicOp, and a read outside a BAR, completes with Unsupported Request. -/
def Obligations.HostRequests : Prop :=
  ∀ (s : State) (t : Time) (off : Nat) (data : List Byte) (n : Nat) (v : BitVec 64), Active s → s.pcie.linkUp = true →
      s.pcie.d3hot = false →
    let s1 := s.atTime t
    let d := s.pcie.bar4.toNat
    let Read (s' : State) : Prop := ∃ bs p, s' = { s1 with units := s'.units, pmu := s'.pmu, out := s.out ++ [.readReply bs p] } ∧
      bs.length = n ∧ (∀ j, j < n → bs.getD j 0 = byteAt s (off + j)) ∧ (p = true ↔ ∃ j, j < n ∧ ¬ GoodAt s (off + j))
    (off + data.length ≤ 2 ^ s.pcie.bar2Bits → placeOf s off ≠ .control → data ≠ [] →
      Completes (.bar2Write off data t) s (writeLocal s1 (dieUnit 2) off data false)) ∧
    (off + n ≤ 2 ^ s.pcie.bar2Bits → (∀ j, j < n → placeOf s (off + j) ≠ .control) → ∃ s', Completes (.bar2Read off n t) s s' ∧ Read s') ∧
    (2 ^ s.pcie.bar2Bits < off + n → Completes (.bar2Read off n t) s (s1.emit .unsupportedRequest)) ∧
    (d = devnum s → off + data.length ≤ 2 ^ 36 → placeOf s off ≠ .control → data ≠ [] →
      Completes (.bar4Write off data t) s (writeLocal s1 (dieUnit 2) off data false)) ∧
    (d = devnum s → off + n ≤ 2 ^ 36 → (∀ j, j < n → placeOf s (off + j) ≠ .control) → ∃ s', Completes (.bar4Read off n t) s s' ∧ Read s') ∧
    (d ≠ devnum s → routeTo s d = none → off + data.length ≤ 2 ^ 36 → off + n ≤ 2 ^ 36 → data ≠ [] →
      Completes (.bar4Read off n t) s (s1.emit (.readReply (List.replicate n 0) false)) ∧
      ((s.mem.dropped.any (fun x => x.1 == dieUnit 2 && x.2.1 == s1.time.meridians)) = false →
          ∃ s', Completes (.bar4Write off data t) s s' ∧
        NewRecord s s' (dieUnit 2) causeReserved ∧ s'.mem.cells = s.mem.cells ∧ s'.mem.check = s.mem.check ∧ s'.fabric = s.fabric)) ∧
    (∀ r : Route, d ≠ devnum s → routeTo s d = some r → off + data.length ≤ 2 ^ 36 → off + n ≤ 2 ^ 36 → data ≠ [] → data.length ≤ 512 →
        0 < n → n ≤ 2048 →
      (∃ s' h, Completes (.bar4Write off data t) s s' ∧ s'.fabric.held = s.fabric.held ++ [h] ∧ h.dst.toNat = d ∧ h.data = data ∧
        bitsOf h.header 77 36 = d * 2 ^ 36 + off ∧ s'.mem = s.mem ∧ NoRecord s s') ∧
      (∀ k : Nat, k < 4096 → (∀ x ∈ s.fabric.reads, x.tag ≠ k) → (∀ j, j < k → ∃ x ∈ s.fabric.reads, x.tag = j) →
        ∃ s', Completes (.bar4Read off n t) s s' ∧ s'.mem = s.mem ∧ NoRecord s s' ∧
          s'.fabric.reads = s.fabric.reads ++ [{ tag := k, head := k, addr := d * 2 ^ 36 + off, len := n, got := none }])) ∧
    Completes (.bar4Select v) s { s with pcie := { s.pcie with bar4 := BitVec.ofNat 6 v.toNat } } ∧
    Completes .atomicOpRequest s (s.emit .unsupportedRequest) ∧
    (∃ s', Completes (.poisonedWriteReceived off t) s s' ∧ NewRecord s s' (dieUnit 2) causePoison ∧ s'.mem = s.mem ∧ s'.queues = s.queues)

/-- R439, R440, R453, R462: through BAR0 a doorbell, BAR4_SELECT and OBJ_CTRL take aligned writes of 4 and 8 bytes, and no other access; the
control block reads as R453 lays it out. GO lands the request that the window holds, or sets OVERRUN while one is served; while the I/O die is out of service it is answered BUSY
at once (R365); DONE and OVERRUN clear. -/
def Obligations.ControlBlock : Prop :=
  ∀ (s : State) (t : Time) (q : BitVec 12) (v : BitVec 64) (data : List Byte), Active s → s.pcie.linkUp = true → s.pcie.d3hot = false →
      s.pcie.bar2Bits = 36 →
    let base := controlBase
    let s1 := s.atTime t
    (∀ (w : BitVec 32) (n : Nat), n = 4 ∨ n = 8 →
      exec (.bar2Write (base + 0x100000 + 8 * q.toNat) (bytesLE n w.toNat) t) s = exec (.doorbell q (BitVec.ofNat 64 w.toNat) t) s) ∧
    (∀ off, off < 16 ∨ (0x100000 ≤ off ∧ off < 0x108000) → data ≠ [] → ¬ ((data.length = 4 ∨ data.length = 8) ∧ off % data.length = 0) →
      Completes (.bar2Write (base + off) data t) s s1) ∧
    Completes (.bar2Write (base + 8) (bytesLE 8 v.toNat) t) s { s1 with pcie := { s.pcie with bar4 := BitVec.ofNat 6 v.toNat } } ∧
    Completes (.bar2Read (base + 8) 8 t) s
      { s1 with units := s.units, out := s.out ++ [.readReply (bytesLE 8 s.pcie.bar4.toNat) false] } ∧
    Completes (.bar2Read (base + 0x100000 + 8 * q.toNat) 8 t) s
      { s1 with units := s.units, out := s.out ++ [.readReply (bytesLE 8 ((queueOf s q.toNat).tail % 2 ^ 32)) false] } ∧
    Completes (.bar2Read base 4 t) s { s1 with out := s.out ++ [.readReply (bytesLE 4
      ((if s.obj.busy then 1 else 0) + (if s.obj.done then 2 else 0) + (if s.obj.overrun then 4 else 0))) false] } ∧
    exec (.bar2Write base (bytesLE 4 1) t) s = exec (.objGo t) s ∧
        Completes (.bar2Write base (bytesLE 4 2) t) s (match exec .objDoneClear s1 with
      | .next x => x
      | _ => s1) ∧
    (s.obj.busy = true → Completes (.objGo t) s { s1 with obj := { s.obj with overrun := true } }) ∧
    (s.obj.busy = false → (unitOf s (dieUnit 2)).phase ≠ .live → ∃ s' req, Completes (.objGo t) s s' ∧ req.who = .pcie ∧
        Answered s1 s' req 8 [] ∧ s'.obj.landed = s.obj.landed) ∧
    (s.obj.busy = false → (unitOf s (dieUnit 2)).phase = .live → s.cp.restarting = false →
        ∃ req, Completes (.objGo t) s { s1 with obj := { s.obj with busy := true, landed := s.obj.landed ++ [req] } } ∧
        req.who = .pcie ∧
      (∀ h : Nat, h = ofBytesLE (cgets s.mem.cells (base + 0x1000) 16) → req.opcode.toNat = h / 2 ^ 120 % 256 ∧
          req.index.toNat = h / 2 ^ 104 % 2 ^ 16 ∧
        req.sub.toNat = h / 2 ^ 96 % 256 ∧ req.tid.toNat = h % 2 ^ 32 ∧ (h / 2 ^ 32 % 2 ^ 32 ≤ 4080 →
            req.payload = cgets s.mem.cells (base + 0x1010) (h / 2 ^ 32 % 2 ^ 32)))) ∧
    Completes .objDoneClear s { s with obj := { s.obj with done := false } } ∧
    Completes .objOverrunClear s { s with obj := { s.obj with overrun := false } } ∧
    ((unitOf s (dieUnit 2)).phase = .live → s.cp.restarting = false → s.pcie.doeError = false →
      (∀ i : BitVec 8, ∃ bs, Completes (.doeDiscovery i) s { s with pcie := { s.pcie with doeReply := bs }, out := s.out ++ [.doe bs] } ∧
          bs.length = 12 ∧
        (i = 1 → bs.drop 8 = [0x5C, 0x1E, 0x01, 0x00])) ∧
      (∀ nonce : BitVec 32, s.life.state = 1 ∨ s.life.state = 2 ∨ s.life.state = 3 →
        ∃ bs, Completes (.doeAttestation nonce t) s { s1 with pcie := { s.pcie with doeReply := bs }, out := s.out ++ [.doe bs] } ∧
            bs.take 4 = [0x5C, 0x1E, 0x01, 0x00])) ∧
    (∀ ty len, Completes (.doeError ty len) s { s with pcie := { s.pcie with doeError := true } }) ∧
    Completes .doeAbort s { s with pcie := { s.pcie with doeError := false, doeReply := [] } }

/-- R451, R457 to R461: replays count; an event that ends mastering, a narrower link and D3hot while an occupancy is present are recorded
and keep every item; a hot reset resets the configuration space; mastering restored writes what every open queue holds and fetches again; a
failed host read is recorded and refuses its item, marks its input, undoes its swap-in or spoils its copy; FLR does nothing. -/
def Obligations.HostLinkEvents : Prop :=
  ∀ (s : State) (t : Time), Active s → let s1 := s.atTime t
    let now := max s.time.now t
    (∀ flits, 0 < flits → s.cap.running = none → ∃ s', Completes (.pcieReplay flits t) s s' ∧
        s'.pcie.retries = (s.pcie.retries + flits) % 2 ^ 64 ∧
      s'.pcie.replayed = s.pcie.replayed + flits ∧ s'.occ = s.occ ∧ s'.items = s.items ∧
      (∀ p, planOf s = some p → (p.pcieBudget < s.pcie.replayed + flits → s.pcie.overBudget = false →
          NewRecord s s' (dieUnit 2) causeRetry ∧ s'.pcie.overBudget = true) ∧
        (s.pcie.replayed + flits ≤ p.pcieBudget → NoRecord s s'))) ∧
    (∀ (i : Instr) (p : PcieSt), (i = .pcieFatalError t ∧ p = { s.pcie with linkUp := false } ∨ i = .pcieLinkDown t ∧
        p = { s.pcie with linkUp := false } ∨
        i = .busMasterDisable t ∧ p = { s.pcie with busMaster := false } ∨
        i = .hotReset t ∧ p = { s.pcie with
          busMaster := false, d3hot := false, bar2Bits := 36, bar4 := s.pins.devnum, msixTable := [], msixPending := [], doeError := false,
              doeReply := [] }) →
      (s.occ.state ≠ .none → ∃ s', Completes i s s' ∧ s'.pcie = p ∧ NewRecord s s' (dieUnit 2) causeEnvironment ∧ s'.items = s.items ∧
          s'.queues = s.queues ∧
        s'.occ = s.occ ∧ s'.mem = s.mem ∧ s'.out = s.out) ∧
      (s.occ.state = .none → Completes i s { s1 with pcie := p })) ∧
    (canMaster s = true → Completes (.pcieMasteringRestored t) s s1) ∧
    (canMaster s = false → (unitOf s (dieUnit 2)).phase = .live → s.pins.halted = false → ∃ s', Completes (.pcieMasteringRestored t) s s' ∧
        canMaster s' = true ∧
      s'.occ.fetchFrom = now ∧ (∀ q, (queueOf s' q).formed = if q ∈ openQueues s then [] else (queueOf s q).formed) ∧
      (∀ q ∈ openQueues s, (queueOf s' q).ledgerNext = (queueOf s' q).completeNext ∧
        ∀ f ∈ (queueOf s q).formed.getLast?, (queueOf s' q).completeNext = (f.seq + 1) % 2 ^ 32) ∧
      (∀ i ∈ s'.items, i.phase = .waiting → ∃ j ∈ s.items, j.queue = i.queue ∧ j.seq = i.seq ∧ j.phase = .waiting) ∧
      s'.mem = s.mem ∧ NoRecord s s') ∧
    (∀ speed width, speed ≤ s.pcie.speed → width ≤ s.pcie.width → speed ≠ s.pcie.speed ∨ width ≠ s.pcie.width →
        ∃ s', Completes (.pcieRetrainNarrower speed width t) s s' ∧
      s'.pcie = { s.pcie with speed := speed, width := width } ∧ s'.occ = s.occ ∧ s'.items = s.items ∧
      if s.occ.state = .none then NoRecord s s' else NewRecord s s' (dieUnit 2) causeEnvironment) ∧
    (s.occ.state = .none → Completes (.d3hotWrite t) s { s1 with pcie := { s.pcie with d3hot := true } }) ∧
    (s.occ.state ≠ .none → ∃ s', Completes (.d3hotWrite t) s s' ∧ s'.pcie = s.pcie ∧ NewRecord s s' (dieUnit 2) causeEnvironment) ∧
    Completes .flrWrite s s ∧
    (∀ how : HostRead, how ≠ .good → let cause := if how = .poison then causePoison else causeEnvironment
      (∀ (q : BitVec 12) (seq : Seq), (queueOf s q.toNat).fetchNext = seq.toNat → (queueOf s q.toNat).qstate = 1 →
          (queueOf s q.toNat).fetchNext ≠ (queueOf s q.toNat).tail →
        s.occ.state = .running → canWrite s = true →
        ∃ s' i, Completes (.hostReadError (.fetch q seq) how t) s s' ∧ NewRecord s s' (dieUnit 2) cause ∧ i ∈ s'.items ∧
            i.queue = q.toNat ∧ i.seq = seq.toNat ∧
          i.phase = .refused .refusedFormat) ∧
      (∀ (q : BitVec 12) (seq : Seq), (∃ i ∈ s.items, i.queue = q.toNat ∧ i.seq = seq.toNat ∧ i.phase = .accepted) →
        ∃ s', Completes (.hostReadError (.input q seq) how t) s s' ∧ NewRecord s s' (dieUnit 2) cause ∧
          s'.items = s.items.map (fun i => if i.queue = q.toNat ∧ i.seq = seq.toNat then { i with inputMissing := true } else i)) ∧
      (∀ c : BitVec 20, (∃ w ∈ s.pool.swaps, w.context = c.toNat) → ∃ s', Completes (.hostReadError (.swapIn c) how t) s s' ∧
          NewRecord s s' (dieUnit 2) cause ∧
        s'.pool = { s.pool with swaps := s.pool.swaps.filter (fun w => w.context ≠ c.toNat) }) ∧
      (s.occ.state = .loading → ∃ s', Completes (.hostReadError .image how t) s s' ∧ NewRecord s s' (dieUnit 2) cause ∧
          s'.occ = { s.occ with copyBad := true }))

/-- R308, R317, R318, R334: a doorbell that follows TAIL by no more than DEPTH ahead of COMPLETE_NEXT moves TAIL and stamps its arrival; one
that repeats or precedes TAIL does nothing; any other, and one to a disabled queue, is a record that names the queue. A moderation timer
that has run for MOD_TIME fires the queue's vector and clears count and timer. -/
def Obligations.DoorbellsMoveTail : Prop :=
  ∀ (s : State) (t : Time) (qn : BitVec 12) (v : BitVec 64), Active s → s.cap.running = none → let s1 := s.atTime t
    let q := queueOf s qn.toNat
    let x := v.toNat % 2 ^ 32
    let ahead (a b : Nat) : Nat := (a + 2 ^ 32 - b % 2 ^ 32) % 2 ^ 32
    let Named (s' : State) : Prop := (∃ r, tget s'.faults ((s.lastFault + 1) % 256) = some r ∧ r.queue = qn) ∧
        NewRecord s s' (dieUnit 2) causeDoorbell ∧
      (queueOf s' qn.toNat).tail = q.tail ∧ (queueOf s' qn.toNat).arrivals = q.arrivals ∧ s'.items = s.items ∧ s'.mem = s.mem
    (s.occ.replayStatus = 1 → Completes (.doorbell qn v t) s { s1 with occ := { s.occ with replayIgnored := s.occ.replayIgnored + 1 } }) ∧
    (s.occ.replayStatus ≠ 1 → q.tail < 2 ^ 32 → q.completeNext < 2 ^ 32 →
      (q.qstate = 0 → ∃ s', Completes (.doorbell qn v t) s s' ∧ Named s') ∧
      (q.qstate ≠ 0 → x = q.tail ∨ (1 ≤ ahead q.tail x ∧ ahead q.tail x < 2 ^ 31) → Completes (.doorbell qn v t) s s1) ∧
      (q.qstate ≠ 0 → 1 ≤ ahead x q.tail → ahead x q.tail < 2 ^ 31 → ahead x q.completeNext ≤ q.depth →
        Completes (.doorbell qn v t) s (setQueue s1 qn.toNat { q with tail := x, arrivals := (x, max s.time.now t) :: q.arrivals })) ∧
      (q.qstate ≠ 0 → ahead x q.tail = 2 ^ 31 ∨ (1 ≤ ahead x q.tail ∧ ahead x q.tail < 2 ^ 31 ∧ q.depth < ahead x q.completeNext) →
        ∃ s', Completes (.doorbell qn v t) s s' ∧ Named s')) ∧
    (∀ w : Time, q.timer = some w → q.modTime ≠ 0 → w + q.modTime * 1000 ≤ max s.time.now t → q.vector < 2048 →
      (canMaster s = true → bitOf (msixEntry s q.vector) 96 = false →
        Completes (.modTimeExpiry qn t) s ((setQueue s1 qn.toNat { q with pendCount := 0, timer := none }).emit (.msix q.vector))) ∧
      (canMaster s = false ∨ bitOf (msixEntry s q.vector) 96 = true → ∃ s', Completes (.modTimeExpiry qn t) s s' ∧ s'.out = s.out ∧
        q.vector ∈ s'.pcie.msixPending ∧ queueOf s' qn.toNat = { q with pendCount := 0, timer := none }))

/-- R311 to R323, R346, R402: the entry next in order of an open queue is fetched with its checks in the order of R320; refused, it never
runs; a slot item waits for its cut, and every other is accepted at once: a NOP is done, a TRAIN_STEP pins its retained slots, a
MODEL_COMMIT claims its Meridian, a CAPTURE changes at the first Meridian 50 µs away, a BARRIER arms its operation, a MOVE moves its bytes.
-/
def Obligations.ItemsFetched : Prop :=
  ∀ (s : State) (t : Time) (qn : BitVec 12) (f : Fetched) (ext : List Byte), Active s → s.cap.running = none → let s1 := s.atTime t
    let now := max s.time.now t
    let q := queueOf s qn.toNat
    let e := f.entry
    let op := e.toNat % 256
    let forms : List Instr := [.nop qn f t, .ulSlot qn f t, .dlSlot qn f t, .prach qn f t, .srsReport qn f t, .trainStep qn f t,
        .modelCommit qn f t, .capture qn f t, .move qn f ext t, .barrier qn f t]
    let arrival := arrivalOf q q.fetchNext
    let why := fetchRefusal s1 qn.toNat q.fetchNext f arrival
    let Fetched1 (s' : State) (ph : ItemPhase) : Prop := (∃ i, i ∈ s'.items ∧ s'.items.length = s.items.length + 1 ∧ i.queue = qn.toNat ∧
        i.seq = q.fetchNext ∧ i.opcode = op ∧
        i.fetched = f ∧ i.phase = ph ∧ i.arrival = arrival ∧ i.slotTime = extend32 (e.toNat / 2 ^ 96 % 2 ^ 32) arrival ∧
            i.deadline = extend32 (e.toNat / 2 ^ 128 % 2 ^ 32) arrival) ∧
      (queueOf s' qn.toNat).fetchNext = (q.fetchNext + 1) % 2 ^ 32 ∧ (queueOf s' qn.toNat).tail = q.tail ∧
          (queueOf s' qn.toNat).completeNext = q.completeNext ∧
      (∀ j, j ≠ qn.toNat → queueOf s' j = queueOf s j) ∧ s'.cores = s.cores ∧ s'.clusters = s.clusters
    (canFetch s1 qn.toNat = false → ∀ i ∈ forms, Completes i s s1) ∧
    (canFetch s1 qn.toNat = true → f.read = .good → op ≤ 9 →
      (∀ st, why = some st → ∃ s', Completes (forms.getD op .flrWrite) s s' ∧ Fetched1 s' (.refused st) ∧ s'.mem = s.mem ∧
          s'.weights = s.weights ∧ s'.cap = s.cap ∧ s'.global = s.global ∧ NoRecord s s') ∧
      (why = none → 1 ≤ op → op ≤ 4 → ∃ s', Completes (forms.getD op .flrWrite) s s' ∧ Fetched1 s' .waiting ∧ s'.mem = s.mem ∧
          NoRecord s s' ∧
        (queueOf s' qn.toNat).acceptNext = q.acceptNext) ∧
      (why = none → op ≠ 8 → op = 0 ∨ 5 ≤ op → ∃ s', Completes (forms.getD op .flrWrite) s s' ∧ Fetched1 s' .accepted ∧ s'.mem = s.mem ∧
          NoRecord s s' ∧
        (op = 0 → ∃ i ∈ s'.items, i.queue = qn.toNat ∧ i.seq = q.fetchNext ∧ i.doneAt = some now) ∧
        (op = 5 → bitOf e 273 = false → ∀ p, (qn.toNat, q.fetchNext, p) ∈ s'.weights.pins ↔ (qn.toNat, q.fetchNext, p) ∈ s.weights.pins ∨
          ∃ k, k < e.toNat / 2 ^ 268 % 32 ∧
              (p.2.1, p.2.2) = (e.toNat / 2 ^ (44 * k + 352) % 2 ^ 12, e.toNat / 2 ^ (44 * k + 320) % 2 ^ 32) ∧
            ∃ r, s.weights.retained.find? (fun r => r.queue == p.2.1 && r.seq == p.2.2 && inRetention s r) = some r ∧ r.carrier = p.1) ∧
        (op = 6 → ∃ w ∈ s'.weights.swaps, w.queue = qn.toNat ∧ w.seq = q.fetchNext ∧ w.revert = bitOf e 256) ∧
        (op = 7 → (capEmpty (capSetOf f) = true → s'.cap = s.cap) ∧ (capEmpty (capSetOf f) = false →
          s'.cap.changes = s.cap.changes ++ [(meridianFrom s1 (now + 50000), capSetOf f)])) ∧
        (op = 9 → ∃ o ∈ s'.global.ops, o.armed = true ∧ o.sent = false ∧ o.a.opNumber = s.global.counter ∧
            o.a.initiator.toNat = devnum s % 64 ∧
          o.a.op.toNat = e.toNat / 2 ^ 256 % 4 ∧ o.a.tag.toNat = e.toNat / 2 ^ 370 % 256 ∧
              o.a.participants = BitVec.ofNat 64 (e.toNat / 2 ^ 258) ||| BitVec.ofNat 64 (2 ^ devnum s) ∧
          o.a.t = if e.toNat / 2 ^ 322 % 2 ^ 32 = 0 then now + (if e.toNat / 2 ^ 354 % 2 ^ 16 =
              0 then rwVal s 0x1221 5 5000 else e.toNat / 2 ^ 354 % 2 ^ 16 * 10)
            else extend32 (e.toNat / 2 ^ 322 % 2 ^ 32) arrival)) ∧
      (why = none → op = 8 → eMoveSrcHost e = false → eMoveDstHost e = false → MemOk s →
        let n := e.toNat / 2 ^ 280 % 2 ^ 36
        let src (j : Nat) : Nat := (e.toNat / 2 ^ 358 % 2 ^ 42 + j) % 2 ^ 42
        let dst (j : Nat) : Nat := (e.toNat / 2 ^ 316 % 2 ^ 42 + j) % 2 ^ 42
        (∀ j, j < n → OwnByte s (src j) ∧ OwnByte s (dst j)) → (∀ i j, i < n → j < n → src i ≠ dst j) →
        ∃ s', Completes (.move qn f ext t) s s' ∧ Fetched1 s' .accepted ∧ (∃ i ∈ s'.items, i.queue = qn.toNat ∧ i.seq = q.fetchNext ∧
            i.doneAt = some now) ∧
          (∀ j, j < n → byteAt s' (dst j % 2 ^ 36) = byteAt s (src j % 2 ^ 36)) ∧ ∀ a, (∀ j, j < n → dst j % 2 ^ 36 ≠ a) →
              byteAt s' a = byteAt s a)) ∧
    -- the order of R320
    (∀ st, why = some st → st = .refusedNotLoaded ∨ st = .refusedFormat ∨ st = .refusedLateSubmit ∨ st = .refusedEnvelope) ∧
    (why = some .refusedNotLoaded ↔ s.occ.state = .none) ∧
    (s.occ.state ≠ .none → (e.toNat / 2 ^ 64 % 2 ^ 32 ≠ q.fetchNext ∨ 9 < op ∨ e.toNat / 2 ^ 160 % 2 ^ 25 ≠ 0 ∨
        e.toNat / 2 ^ 13 % 2 ^ 51 ≠ 0 ∨ 64 < e.toNat / 2 ^ 185 % 2 ^ 7 ∨
        (∃ w, planEntry s qn.toNat = some w ∧ bitOf w (25 + op) = false) ∨ (op = 0 ∧ e.toNat / 2 ^ 256 ≠ 0) ∨ (op = 6 ∧
            e.toNat / 2 ^ 257 ≠ 0)) → why = some .refusedFormat) ∧
    (1 ≤ op → op ≤ 4 → slotTimeOf e arrival < arrival + leadOf s op → why = some .refusedNotLoaded ∨ why = some .refusedFormat ∨
        why = some .refusedLateSubmit) ∧
    (op = 6 → slotTimeOf e arrival < arrival + 50000 → why = some .refusedNotLoaded ∨ why = some .refusedFormat ∨
        why = some .refusedLateSubmit) ∧
    (why = none → (planEntry s qn.toNat).isSome = true ∧ (1 ≤ op → op ≤ 4 → slotTimeOf e arrival ≤ arrival + 1000000000 ∧
        carEnabled s1 (e.toNat / 2 ^ 8 % 32) = true ∧
        ∀ i ∈ s.items, isSlotOp i.opcode = true → i.phase = .waiting ∨ i.phase = .accepted → i.opcode = op →
            eCarrier i.fetched.entry = e.toNat / 2 ^ 8 % 32 →
          i.slotTime ≠ slotTimeOf e arrival) ∧
      ((1 ≤ op ∧ op ≤ 4) ∨ op = 9 → ∀ d, q.lastDeadline = some d → d ≤ deadlineOf e arrival))

/-- R254, R257, R259, R319, R322, R323, R325 to R327: at a cut every slot item whose cut has come is decided, accepted or refused with
REFUSED_ENVELOPE, REFUSED_FORMAT, REFUSED_SOFTBUF or REFUSED_CONTEXT; nothing else is; pages move between the free ones and soft buffers and
none is lost, and no byte but theirs changes; a planned swap that lands makes its context resident, zeros where it was never stored. R310: dispatch takes the ready Share
queues in cyclic ascending order after the last, gives one with no deficit left its quantum of 64 per weight, sends the first slice of the
first queue whose deficit is then positive, and charges its cost; a queue with no accepted item waiting banks nothing. Stated for two ready
queues, and for one alone whose quantum covers its debt. -/
def Obligations.CutsAndTurns : Prop :=
  (∀ (s : State) (t : Time), Active s → let s1 := s.atTime t
       let pages (x : State) : Nat := x.pool.freePages + (x.pool.bufs.map (fun b => b.pages)).sum
       let Due (i : Item) : Prop := i.phase = .waiting ∧ 1 ≤ i.opcode ∧ i.opcode ≤ 4 ∧
           (i.slotTime : Int) - leadOf s i.opcode ≤ max s.time.now t
       (s.occ.state = .running → canWrite s = true → (∃ i ∈ s.items, Due i) → ∃ s', Completes (.admissionCut t) s s' ∧
         s'.items.map (fun i => (i.queue, i.seq, i.opcode, i.fetched, i.slotTime, i.deadline)) = s.items.map (fun i => (i.queue, i.seq,
             i.opcode, i.fetched, i.slotTime, i.deadline)) ∧
         (∀ n, n < s.items.length → ∀ i j, s.items[n]? = some i → s'.items[n]? = some j →
           (Due i → j.phase = .accepted ∨ j.phase = .refused .refusedEnvelope ∨ j.phase = .refused .refusedFormat ∨
               j.phase = .refused .refusedSoftbuf ∨ j.phase = .refused .refusedContext) ∧
           ((∀ k ∈ s.items, k.queue = i.queue → k.seq = i.seq → ¬ Due k) → j = i)) ∧
         pages s' = pages s ∧ NoRecord s s' ∧ s'.occ = s.occ ∧
         ((∀ p, planOf s = some p → p.poolAt % 4096 = 0) →
           ∀ a, (∀ d n, d < 2 → ¬ (poolPage s d n ≤ a ∧ a < poolPage s d n + 4096)) → byteAt s' a = byteAt s a)) ∧
       ((∀ i ∈ s.items, ¬ Due i) ∨ s.occ.state ≠ .running ∨ canWrite s = false → Completes (.admissionCut t) s s1) ∧
       (∀ (c : BitVec 20) (block : List Byte), (∃ w ∈ s.pool.swaps, w.context = c.toNat) →
           ∃ s', Completes (.contextSwapComplete c block t) s s' ∧
         s' = { s1 with pool := s'.pool } ∧ s'.pool.swaps = s.pool.swaps.filter (fun w => w.context ≠ c.toNat) ∧ pages s' = pages s ∧
         (∃ x ∈ s'.pool.resident, x.context = c.toNat ∧ x.block = if (tget s.pool.backing c.toNat).isSome then block else []) ∧
         ∀ n, n ≠ c.toNat → s'.pool.resident.filter (fun x => x.context = n) = s.pool.resident.filter (fun x => x.context = n))) ∧
  (∀ (s : State) (t : Time) (spare : Nat) (a b : BitVec 12) (pa pb : BitVec 32), Active s →
       let cost (p : BitVec 32) : Int := (shareCost s p : Int)
       let d (q : BitVec 12) : Int := (queueOf s q.toNat).deficit
       let w (q : BitVec 12) : Int := (((planEntry s q.toNat).map (fun x => bitsOf x 50 35)).getD 0 : Nat)
       let topped (q : BitVec 12) : Int := if d q ≤ 0 then d q + w q * 64 else d q
       let far (q : BitVec 12) : Nat := (q.toNat + 4096 - s.shareCur - 1) % 4096
       let ShareQ (q : BitVec 12) (p : BitVec 32) : Prop := shareCost s p ≤ spare ∧ (shareItem s q.toNat).isSome = true ∧
           (∃ x, planEntry s q.toNat = some x ∧ bitOf x 51 = true)
       let Sent (s' : State) (q : BitVec 12) (p : BitVec 32) : Prop := s'.shareCur = q.toNat ∧
           (queueOf s' q.toNat).deficit = topped q - cost p ∧
         (let u := servingUnit s (nominalUnit s p) p
          ∃ sl : Slice, sl.pos = p ∧ sl.queue = q ∧ (sl ∈ (unitOf s' u).held ∨ sl ∈ (unitOf s' u).stalled)) ∧
         (∀ j, (shareItem s j).isNone = true → j ∈ s.queues.map (fun x => x.1) → (queueOf s' j).deficit = 0) ∧ s'.items = s.items
       (ShareQ a pa → ShareQ b pb → a ≠ b → far a < far b → 0 < topped a →
           ∃ s', Completes (.shareDispatch spare [(a, pa), (b, pb)] t) s s' ∧ Sent s' a pa ∧ (queueOf s' b.toNat).deficit = d b) ∧
       (ShareQ a pa → ShareQ b pb → a ≠ b → far a < far b → topped a ≤ 0 → 0 < topped b →
           ∃ s', Completes (.shareDispatch spare [(a, pa), (b, pb)] t) s s' ∧ Sent s' b pb ∧
         (queueOf s' a.toNat).deficit = topped a) ∧
       (ShareQ a pa → 0 < w a → ∃ s', Completes (.shareDispatch spare [(a, pa)] t) s s' ∧ s'.shareCur = a.toNat ∧ s'.items = s.items) ∧
       (∀ ready : List (BitVec 12 × BitVec 32), (∀ x ∈ ready, ¬ ShareQ x.1 x.2) → ∃ s', Completes (.shareDispatch spare ready t) s s' ∧
           s'.shareCur = s.shareCur ∧ s'.units = s.units))

/-- R57, R72, R260, R328 to R333, R369: the completion of the item next in order of a queue forms once it is ready, with its status first in
the order of R57 and its flags; the item leaves, its outputs, its entry and the ledger are written in this order while the host can be
written, and are held while it cannot. -/
def Obligations.CompletionsForm : Prop :=
  ∀ (s : State) (t : Time) (qn : BitVec 12) (i : Item) (o : List Byte), Active s → s.cap.running = none → let s1 := s.atTime t
    let now := max s.time.now t
    let q := queueOf s qn.toNat
    let field (x : BitVec 512) (hi lo : Nat) : Nat := x.toNat / 2 ^ lo % 2 ^ (hi - lo + 1)
    s.items.find? (fun x => x.queue == qn.toNat && x.seq == q.formNext) = some i → i.seq < 2 ^ 32 → i.opcode < 256 → i.queue = qn.toNat →
    let Entry (x : BitVec 512) (st : Status) : Prop := field x 511 480 = i.seq ∧ field x 479 472 = (Config.statusCode st.index).toNat ∧
        field x 471 464 = i.opcode ∧ field x 463 452 = i.queue ∧
      field x 415 384 = eDeadline i.fetched.entry ∧ field x 383 352 = now % 2 ^ 32
    let Formed1 (s' : State) (x : BitVec 512) (outs : List (Nat × List Byte)) : Prop := s'.items =
        s.items.filter (fun j => !(j.queue == i.queue && j.seq == i.seq)) ∧
      (queueOf s' qn.toNat).formNext = (i.seq + 1) % 2 ^ 32 ∧ (∀ j, j ≠ qn.toNat → queueOf s' j = queueOf s j) ∧
      (i.phase ≠ .accepted ∨ i.opcode ≠ 1 → NoRecord s s' ∧ s'.mem = s.mem) ∧
      (canWrite s = false → (queueOf s' qn.toNat).formed = q.formed ++ [{ seq := i.seq, entry := x, outputs := outs }] ∧ s'.out = s.out) ∧
      (canWrite s = true → q.formed = [] → (queueOf s' qn.toNat).completeNext = (i.seq + 1) % 2 ^ 32 ∧ (queueOf s' qn.toNat).formed = [] ∧
        ∃ ledger more, s'.out = s.out ++ outs.map (fun y => .hostWrite y.1 y.2) ++
            [.hostWrite (q.cqBase + 64 * (i.seq % q.depth)) (bytesLE 64 x.toNat), .hostWrite q.ledger ledger] ++ more ∧
          ledger.length = 64 ∧ ofBytesLE ledger / 2 ^ 448 % 2 ^ 32 = (i.seq + 1) % 2 ^ 32 ∧ ∀ y ∈ more, y = .msix q.vector)
    (∀ st, i.phase = .refused st → ∃ s' x, Completes (.completionForm qn o t) s s' ∧ Formed1 s' x [] ∧ Entry x st ∧ field x 447 441 = 0) ∧
    (i.phase = .accepted → isReady s1 i = true → ∃ s' x outs cs, Completes (.completionForm qn o t) s s' ∧ Formed1 s' x outs ∧
        Entry x (statusOf cs) ∧
      field x 447 441 = (cs.zipIdx.map (fun b => if b.1 then 2 ^ (6 - b.2) else 0)).sum ∧ cs.length = 7 ∧
      (cs.getD 0 false = true ↔ (i.opcode ∈ [1, 2, 3, 4, 9] ∧ i.deadline < now) ∨ i.unsent ≠ 0 ∨ i.slipped = true) ∧
      cs.getD 1 false = i.reissued ∧ cs.getD 5 false = i.sat ∧ (i.inputMissing = true → cs.getD 2 false = true) ∧
      (i.opcode = 1 → (cs.getD 3 false = true ↔ ∃ u ∈ usersOf s1 i, u.path ≠ 0 ∧ u.crcOk = false) ∧
          (cs.getD 4 false = true ↔ ∃ u ∈ usersOf s1 i, u.path = 3)) ∧
      (statusOf cs = .ok ↔ ∀ b ∈ cs, b = false) ∧ (cs.getD 0 false = true → statusOf cs = .late)) ∧
    (i.phase = .waiting → Completes (.completionForm qn o t) s s1) ∧
    (i.phase = .accepted → i.opcode ∈ [1, 2, 3, 4] → isEmptySlot i = false → i.doneAt = none → Completes (.completionForm qn o t) s s1) ∧
    (i.phase = .accepted → i.opcode ∈ [1, 2] → isEmptySlot i = true → now < i.deadline → Completes (.completionForm qn o t) s s1)

/-- R60, R61, R465 to R468, R470: a frame that a port may not take is discarded; one it takes is counted and teaches the port's peer, a
change of whose address is recorded. Of its sections an unmapped, an unmatched and a duplicated one are counted as such, an early or late
one in FH_LATE_PACKETS, and nothing of them is kept; the others are decompressed, given their stream's gain and written as QB12 blocks to
their grid. What a symbol still misses at its window's close is counted against its items. -/
def Obligations.FronthaulReceives : Prop :=
  ∀ (s : State) (t : Time) (h : FhHead) (x : FhSection), Active s → s.cap.running = none → let s1 := s.atTime t
    let p := fhPort s h.port
    let Taken : Prop := h.port < fhPorts s ∧ p.up = true ∧ h.fcsOk = true ∧ h.tags.length ≤ 1 ∧ 64 ≤ h.frame.length ∧
        h.frame.length ≤ 9216 ∧
      h.src ≠ Config.mac h.port ∧ h.dst = Config.mac h.port ∧ h.etherType = 0xAEFE ∧ h.revision = 1 ∧ h.cBit = false
    let Learnt (s' : State) : Prop := (fhPort s' h.port).rx = (p.rx + 1) % 2 ^ 64 ∧ (fhPort s' h.port).peer = some (h.src, h.tags.head?) ∧
      (if p.peer = none ∨ p.peer.map (fun y => y.1) = some h.src then NoRecord s s' else NewRecord s s' (dieUnit 2) causeEnvironment) ∧
      (∀ j, j ≠ h.port → fhPort s' j = fhPort s j) ∧ s'.items.length = s.items.length
    let Kept (s' : State) : Prop := Learnt s' ∧ s'.fh.sections = s.fh.sections ∧ s'.fh.complete = s.fh.complete ∧ s'.mem = s.mem ∧
        s'.items = s.items ∧ s'.out = s.out
    let Match (c : Nat) (y : CSection) : Prop := y.carrier = c ∧ y.slot = x.slot ∧ y.symbol = x.symbol ∧ y.port = h.port ∧
        y.eaxc = x.eaxc ∧ y.sectionId = x.sectionId ∧
      y.first ≤ x.first ∧ x.first + x.count ≤ y.first + y.count
    h.port < s.fh.ports.length →
    Completes (.fhFrameDiscard h t) s s1 ∧
    (s.occ.replayStatus = 1 →
        Completes (.fhUplaneReceive h [x] t) s { s1 with occ := { s.occ with replayIgnored := s.occ.replayIgnored + 1 } }) ∧
    (s.occ.replayStatus ≠ 1 →
      (¬ (Taken ∧ h.msgType = 0 ∧ h.eBit = true) → Completes (.fhUplaneReceive h [x] t) s s1) ∧
      (Taken → h.msgType = 0 → h.eBit = true →
        (∃ s', Completes (.fhUplaneReceive h [] t) s s' ∧ Kept s' ∧ (fhPort s' h.port).late = p.late ∧ s'.pmu = s.pmu) ∧
        (mappedStream s h.port x.eaxc x.slot = none → ∃ s', Completes (.fhUplaneReceive h [x] t) s s' ∧ Kept s' ∧
            (fhPort s' h.port).late = p.late ∧
          s'.pmu = (countEvent s 0x3803 0x61 0 1).pmu) ∧
        (∀ c i : Nat, mappedStream s h.port x.eaxc x.slot = some (c, i) → carField s c 2 ≠ 2 → x.count ≠ 0 →
          let comp := carFieldAt s c 19 x.slot
          let w := ulWindow s c x.slot x.symbol
          let now := max s.time.now t
          let g := signedOf 8 (carObjAt s c 1 (i + 1) x.slot)
          ((∀ y ∈ s.fh.sections, ¬ Match c y) ∨ x.payload.length < x.count * groupBytes comp →
              ∃ s', Completes (.fhUplaneReceive h [x] t) s s' ∧ Kept s' ∧
            (fhPort s' h.port).late = p.late ∧ s'.pmu = (countEvent s 0x3803 0x62 0 1).pmu) ∧
          ((∃ y ∈ s.fh.sections, Match c y) → x.count * groupBytes comp ≤ x.payload.length →
            (now < w.1 ∨ w.2 < now → ∃ s', Completes (.fhUplaneReceive h [x] t) s s' ∧ Kept s' ∧
                (fhPort s' h.port).late = (p.late + 1) % 2 ^ 64 ∧ s'.pmu = s.pmu) ∧
            (w.1 ≤ now → now ≤ w.2 →
              let row := s.fh.sections.filter (fun y => y.carrier == c && y.slot == x.slot && y.symbol == x.symbol)
              (∀ y ∈ s.fh.sections, Match c y → (∃ u, x.first ≤ u ∧ u < x.first + x.count ∧ covered (rowGot row y) u = true) →
                (∀ z ∈ s.fh.sections, Match c z → z = y) →
                ∃ s', Completes (.fhUplaneReceive h [x] t) s s' ∧ Kept s' ∧ (fhPort s' h.port).late = p.late ∧
                    s'.pmu = (countEvent s 0x3803 0x63 0 1).pmu) ∧
              (∀ y ∈ s.fh.sections, Match c y → (∀ u, x.first ≤ u → u < x.first + x.count → covered (rowGot row y) u = false) →
                  (∀ z ∈ s.fh.sections, Match c z → z = y) →
                let parts := (List.range x.count).flatMap (fun k =>
                  (groupParts comp ((x.payload.drop (k * groupBytes comp)).take (groupBytes comp))).map (fun v => gained g (ofInt v)))
                ∃ s', Completes (.fhUplaneReceive h [x] t) s s' ∧ Learnt s' ∧
                  s'.fh.sections = s.fh.sections.map (fun z => if z = y then { z with got := z.got ++ [(x.first, x.count, parts)] } else z)
                      ∧
                  (∀ d ∈ s.fh.complete, d ∈ s'.fh.complete) ∧ s'.queues = s.queues ∧ s'.out = s.out ∧
                  (∀ gr : GridPlan, MemOk s → p.peer = some (h.src, h.tags.head?) → gridOf s c (y.op == 3) = some gr →
                    let row' := rowGot (s'.fh.sections.filter (fun z => z.carrier == c && z.slot == x.slot && z.symbol == x.symbol))
                        { y with got := [] }
                    let base := gr.base + slotNumber s (carMu s c)
                        x.slot % max gr.slots 1 * gr.slotBytes + i * gr.streamBytes + x.symbol * gr.symbolBytes
                    let b0 := 12 * x.first / 16
                    let b1 := (12 * (x.first + x.count) + 15) / 16
                    (∀ a, base + 52 * b0 ≤ a → a < base + 52 * b1 → InMemory s a ∧ ∀ m, mirrorOf s a = some m → m + 64 ≤ base + 52 * b0 ∨
                        base + 52 * b1 + 64 ≤ m) →
                    ∀ b j, b0 ≤ b → b < b1 → j < 52 → byteAt s' (base + 52 * b + j) =
                      (qbForm 10 ((List.range 32).map (fun m => ofInt (partOf row' 12 (32 * b + m))))).1.getD j 0))))))) ∧
    (∀ (carrier : BitVec 5) (slot : Time) (sym : Nat), let c := carrier.toNat
      let miss (op : Nat) : Nat := missingRes s1 c slot sym op
      ((max s.time.now t) < (ulWindow s c slot sym).2 ∨ (c, slot, sym) ∈ s.fh.complete →
          Completes (.fhWindowClose carrier slot sym t) s s1) ∧
      ((ulWindow s c slot sym).2 ≤ max s.time.now t → (c, slot, sym) ∉ s.fh.complete →
          ∃ s', Completes (.fhWindowClose carrier slot sym t) s s' ∧
        s'.fh = { s.fh with complete := s.fh.complete ++ [(c, slot, sym)] } ∧
            s'.pmu = (countEvent s 0x3803 0x64 0 (miss 1 + miss 3 + miss 4)).pmu ∧
        s'.items = s.items.map (fun i => if (i.opcode = 1 ∨ i.opcode = 3 ∨ i.opcode = 4) ∧ eCarrier i.fetched.entry = c ∧
            i.slotTime = slot ∧ i.phase = .accepted
          then { i with erased := i.erased + miss i.opcode } else i) ∧ s'.mem = s.mem ∧ NoRecord s s'))

/-- R79, R380, R379, R464, R466, R467, R470, R486, R487: a downlink section goes out inside its window only, with the next sequence number
of its eAxC ID; sections not sent at the window's close are counted against their items. A delay measurement is answered; PTP and ESMC
messages go out on the ports that send them. A port goes down without a signal, without light or under too much light, comes up when nothing
keeps it down, and each new condition that R486 names is recorded. -/
def Obligations.FronthaulSendsAndLinks : Prop :=
  ∀ (s : State) (t : Time) (port : Nat), Active s → let s1 := s.atTime t
    let now := max s.time.now t
    let p := fhPort s port
    let sends (q : Nat) : Bool := portUp s q && !bitOf (fhPort s q).faults 7
    let Cond (s' : State) (q : Nat) (f : BitVec 16) (up : Bool) : Prop := (fhPort s' q).faults = f ∧ (fhPort s' q).up = up ∧
      (fhPort s' q).rx = (fhPort s q).rx ∧ (fhPort s' q).tx = (fhPort s q).tx ∧ (fhPort s' q).peer = (fhPort s q).peer
    let News (s' : State) (n : Nat) : Prop := s'.lastFault = s.lastFault + n ∧
      ∀ j, j < n → ∃ r, tget s'.faults ((s.lastFault + 1 + j) % 256) = some r ∧ r.unit = dieUnit 2 ∧ r.cause = causeEnvironment
    s.fh.ports.length = 16 → s.fh.lasers.length = 4 →
    (∀ (carrier : BitVec 5) (slot : Time) (sym stream first count : Nat), let c := carrier.toNat
      let w := dlWindow s c slot sym
      let q := streamPort s c 1 stream slot
      let ax := streamEaxc s c 1 stream slot
      let Sends (i : Item) : Prop := s.items.find? (fun j => j.phase == .accepted && j.opcode == 2 && eCarrier j.fetched.entry == c &&
          j.slotTime == slot) = some i ∧ isEmptySlot i = false
      let may : Prop := stream < streamsOf s c 1 ∧ sends q = true ∧ w.1 ≤ now ∧ now ≤ w.2
      ((¬ may ∨ ∀ i, ¬ Sends i) → Completes (.fhDlSectionSend carrier slot sym stream first count t) s s1) ∧
      (∀ i, may → Sends i → let vs := sectionParts s1 i stream sym first count
        vs.length % 24 = 0 →
        let xs := vs.map (gained (signedOf 8 (carObjAt s c 2 (stream + 1) slot)))
        let gs := (List.range (vs.length / 24)).map (fun k => compressGroup (carFieldAt s c 20 slot) ((xs.drop (24 * k)).take 24))
        ∃ s', Completes (.fhDlSectionSend carrier slot sym stream first count t) s s' ∧
          s'.out = s.out ++ [.uplane q (BitVec.ofNat 16 ax) slot sym first (gs.flatMap (fun x => x.1))] ∧
          s'.fh.dlSent = s.fh.dlSent ++ [(c, slot, sym, stream, first, if carField s c 2 = 2 then 12 * gs.length else gs.length)] ∧
          tget (fhPort s' q).seqids ax = some (((tget (fhPort s q).seqids ax).getD 0 + 1) % 256) ∧ (∀ a, a ≠ ax →
              tget (fhPort s' q).seqids a = tget (fhPort s q).seqids a) ∧
          (∀ j, j ≠ q → fhPort s' j = fhPort s j) ∧ s'.mem = s.mem ∧ NoRecord s s' ∧
          ((∀ x ∈ gs, x.2 = false) → .nan ∉ vs → s'.items = s.items) ∧
          ((∃ x ∈ gs, x.2 = true) ∨ .nan ∈ vs → s'.items = s.items.map (fun i => if i.opcode = 2 ∧ eCarrier i.fetched.entry = c ∧ i.slotTime = slot ∧
              i.phase = .accepted
            then { i with sat := true, satAll := true } else i))) ∧
      (now < w.2 ∨ (c, slot, sym) ∈ s.fh.dlClosed → Completes (.fhDlWindowClose carrier slot sym t) s s1) ∧
      (w.2 ≤ now → (c, slot, sym) ∉ s.fh.dlClosed → ∃ s', Completes (.fhDlWindowClose carrier slot sym t) s s' ∧
        s'.fh = { s.fh with dlClosed := s.fh.dlClosed ++ [(c, slot, sym)] } ∧ s'.out = s.out ∧ s'.mem = s.mem ∧ NoRecord s s' ∧
        s'.items.length = s.items.length ∧ ∀ k, k < s.items.length → ∀ i i', s.items[k]? = some i → s'.items[k]? = some i' →
          (i' = i ∨ ∃ n, i' = { i with unsent := i.unsent + n }) ∧
          (¬ (i.opcode = 2 ∧ eCarrier i.fetched.entry = c ∧ i.slotTime = slot ∧ i.phase = .accepted) → i' = i) ∧
          (i.opcode = 2 → eCarrier i.fetched.entry = c → i.slotTime = slot → i.phase = .accepted → isEmptySlot i = false →
              carField s c 2 ≠ 2 → (∃ r ∈ itemRuns s i, ∃ st u, r.sym ≤ sym ∧ sym < r.sym + r.nsym ∧
            st < streamsOf s c 1 ∧ r.first ≤ u ∧ u < r.first + r.count ∧ sentUnit s c slot sym st u = false) → i.unsent < i'.unsent))) ∧
    (∀ (h : FhHead) (id act : BitVec 8), let q := fhPort s h.port
      let ok : Prop := h.port < fhPorts s ∧ q.up = true ∧ h.fcsOk = true ∧ h.tags.length ≤ 1 ∧ 64 ≤ h.frame.length ∧ h.frame.length ≤ 9216 ∧
        h.src ≠ Config.mac h.port ∧ h.dst = Config.mac h.port ∧ h.etherType = 0xAEFE ∧ h.revision = 1 ∧ h.cBit = false ∧ h.msgType = 5
      (¬ ok → Completes (.ecpriDelayMeasurement h id act t) s s1) ∧
      (ok → ∃ s', Completes (.ecpriDelayMeasurement h id act t) s s' ∧ (fhPort s' h.port).rx = (q.rx + 1) % 2 ^ 64 ∧
          (fhPort s' h.port).peer = some (h.src, h.tags.head?) ∧
        s'.mem = s.mem ∧ s'.items = s.items ∧
        (act = 0 → sends h.port = true → s'.out = s.out ++ [.ecpriReply h.port id now] ∧ (fhPort s' h.port).tx = (q.tx + 1) % 2 ^ 64) ∧
        (sends h.port = false → s'.out = s.out ∧ (fhPort s' h.port).tx = q.tx))) ∧
    (sends port = true → port < 16 → rwVal s 0x1203 1 0 = port ∧ rwVal s 0x1203 2 1 = 1 ∨ rwVal s 0x1203 4 0 = 1 ∧
        rwVal s 0x1203 1 0 ≠ port →
      Completes (.ptpMessageTransmit port t) s ((modFh s1 port (fun x => { x with tx := (x.tx + 1) % 2 ^ 64 })).emit (.ptp port))) ∧
    (∃ s' ql, Completes (.esmcTransmit t) s s' ∧ s'.out = s.out ++ ((List.range (fhPorts s)).filter sends).map (fun q => .esmc q ql) ∧
        s'.freeCount = s.freeCount + 1 ∧ s'.items = s.items ∧
      (∀ q, q < 16 → fhPort s' q = if q < fhPorts s ∧
          sends q = true then { fhPort s q with tx := ((fhPort s q).tx + 1) % 2 ^ 64 } else fhPort s q) ∧ s'.mem = s.mem ∧ NoRecord s s') ∧
    (fhPorts s ≤ port → Completes (.fhLinkDown port true t) s s1 ∧ Completes (.fhLinkUp port false t) s s1 ∧
        Completes (.rxOverPower port 6000 t) s s1) ∧
    (port < fhPorts s →
      (∃ s', Completes (.fhLinkDown port false t) s s' ∧ Cond s' port p.faults false ∧ NoRecord s s' ∧ (∀ j, j ≠ port →
          fhPort s' j = fhPort s j) ∧ s'.items = s.items) ∧
      (let dark : Prop := (∃ j, j < fhPorts s ∧ j ≠ port ∧ j * (16 / fhPorts s) / 8 = port * (16 / fhPorts s) / 8) ∧
          ∀ j, j < fhPorts s → j ≠ port → j * (16 / fhPorts s) / 8 = port * (16 / fhPorts s) / 8 → bitOf (fhPort s j).faults 0 = false
        ∃ s', Completes (.fhLinkDown port true t) s s' ∧ (fhPort s' port).up = false ∧ bitOf (fhPort s' port).faults 0 = true ∧
            (bitOf (fhPort s' port).faults 1 = true ↔ dark) ∧
          (∀ k, 2 ≤ k → bitOf (fhPort s' port).faults k = bitOf p.faults k) ∧ (∀ j, j ≠ port → fhPort s' j = fhPort s j) ∧
          (bitOf p.faults 0 = false → bitOf p.faults 1 = false → dark → News s' 2) ∧ (bitOf p.faults 0 = false → ¬ dark → News s' 1) ∧
              (bitOf p.faults 0 = true → ¬ dark → NoRecord s s')) ∧
      (bitOf p.faults 6 = true ∨ bitOf p.faults 7 = true ∨ bitOf p.faults 8 = true → ∀ b, Completes (.fhLinkUp port b t) s s1) ∧
      (bitOf p.faults 6 = false → bitOf p.faults 7 = false → bitOf p.faults 8 = false → ∀ b, ∃ s', Completes (.fhLinkUp port b t) s s' ∧
        Cond s' port (if b then p.faults &&& 0xFFFC ||| 4 else p.faults &&& 0xFFF8) true ∧ NoRecord s s' ∧ ∀ j, j ≠ port →
            fhPort s' j = fhPort s j) ∧
      (∀ x : Int, (5000 < x → ∃ s', Completes (.rxOverPower port x t) s s' ∧ Cond s' port (p.faults ||| 0x100) false ∧
          (if bitOf p.faults 8 then NoRecord s s' else News s' 1)) ∧
        (x ≤ 5000 → ∃ s', Completes (.rxOverPower port x t) s s' ∧ Cond s' port (p.faults &&& 0xFEFF) p.up ∧ NoRecord s s'))) ∧
    (∀ (i : BitVec 2) (x : Int), let was := s.fh.lasers.getD i.toNat 0
      ∃ s' v, Completes (.laserInputChange i x t) s s' ∧ s'.fh.lasers = s.fh.lasers.set i.toNat v ∧
        (x < 12000 → v = 1) ∧ (21000 < x → v = 2) ∧ (13000 ≤ x → x ≤ 20000 → v = 0) ∧ (12000 ≤ x → x < 13000 →
            v = if was = 1 then 1 else 0) ∧
        (20000 < x → x ≤ 21000 → v = if was = 2 then 2 else 0) ∧
        (∀ q, q < fhPorts s → (fhPort s' q).up = ((fhPort s q).up && !(decide (q * (16 / fhPorts s) / 4 = i.toNat) && v == 1)) ∧
          (fhPort s' q).faults = if q * (16 / fhPorts s) / 4 = i.toNat then (fhPort s q).faults &&& 0xFF3F ||| (if v =
              1 then 0x40 else if v = 2 then 0x80 else 0) else (fhPort s q).faults) ∧
        (v = 0 → NoRecord s s') ∧ s'.items = s.items ∧ s'.mem = s.mem)

/-- R63, R180, R471: gain is one multiplication by the 16-bit coefficient nearest the gain's factor, rounded to nearest even (to whole units of
the sample and with the model's own binary point: log entries 9 and 221), and an infinity lies beyond every format; block floating point takes the smallest exponent at
which every part fits its mantissa and clamps at 15, so that what is sent reads back as the parts rounded to that exponent; samples without
compression are clamped to 16 bits. SAT tells of every clamp. R474: what a flit is made from reads back from it, also where one byte at an
even place and one at an odd place are wrong; a flit of 256 bytes carries its header in bytes 0 to 7 and 240 bytes of payload behind it. -/
def Obligations.TransportCodesReadBack : Prop :=
  (∀ g : Int, -128 ≤ g → g ≤ 127 → let k := gainCoeff gainPoint g
       k < 2 ^ 16 ∧ gainPoint ≤ 10 ∧ (2 * k - 1) ^ 80 * 10 ^ (-g).toNat ≤ 10 ^ g.toNat * 2 ^ (80 * (gainPoint + 1)) ∧
       10 ^ g.toNat * 2 ^ (80 * (gainPoint + 1)) < (2 * k + 1) ^ 80 * 10 ^ (-g).toNat ∧
       (∀ (neg : Bool) (m : Nat) (e : Int), gained g (.fin neg m e) = roundInt .rne neg (m * k) (e - (gainPoint : Int))) ∧
       gained g .nan = 0 ∧ (∀ neg c xs, c < 256 → gained g (.inf neg) ∈ xs → xs.length = 24 → (compressGroup c xs).2 = true)) ∧
  (∀ (w : Nat) (xs : List Int), 6 ≤ w → w ≤ 16 → xs.length = 24 → let comp := 16 + w % 16
       let lim : Int := (2 : Int) ^ (w - 1) - 1
       let r := compressGroup comp xs
       let e := (r.1.headD 0).toNat
       let m (x : Int) (k : Nat) : Int := roundInt .rne (decide (x < 0)) x.natAbs (-(k : Int))
       let Fits (k : Nat) : Prop := ∀ x ∈ xs, (m x k).natAbs ≤ lim.natAbs
       e ≤ 15 ∧ r.1.length = 1 + 3 * w ∧ groupBytes comp = 1 + 3 * w ∧ (∀ k, k < e → ¬ Fits k) ∧ (r.2 = true ↔ ¬ Fits e) ∧ (¬ Fits e →
           e = 15) ∧
       groupParts comp r.1 = xs.map (fun x => max (-lim) (min lim (m x e)) * (2 : Int) ^ e) ∧
       (∀ x ∈ xs, Fits e → 2 * (m x e * (2 : Int) ^ e - x).natAbs ≤ 2 ^ e) ∧
       (compressGroup 0 xs).1.length = 48 ∧ groupParts 0 (compressGroup 0 xs).1 = xs.map (fun x => max (-32768) (min 32767 x)) ∧
       ((compressGroup 0 xs).2 = true ↔ ∃ x ∈ xs, x < -32768 ∨ 32767 < x)) ∧
  (∀ (header : BitVec 64) (payload : List Byte) (i j : Nat) (e f : Byte), payload.length ≤ 240 → i < 128 → j < 128 →
       let flit := mkFlit header.toNat payload
       let bad := flit ^^^ BitVec.ofNat 2048 (e.toNat * 256 ^ (2 * i)) ^^^ BitVec.ofNat 2048 (f.toNat * 256 ^ (2 * j + 1))
       let body := bytesLE 8 header.toNat ++ payload ++ List.replicate (240 - payload.length) 0
       (openFlit flit).2 = true ∧ (openFlit flit).1.take 248 = body ∧ openFlit bad = openFlit flit)

/-- R378 to R385, R390: a measured offset of the phase source in use sets the time in FREERUN without an occupancy; beyond JUMP_THRESHOLD it
is refused, the first of a run with a record; any other moves the servo on as the table of R382 says. TOD_NEXT names the second of the next
pulse, and STEP_ACCEPT applies a refused step without an occupancy only. A source lost sends the servo to HOLDOVER; 10 s below
LOCK_THRESHOLD lock it; an estimate beyond HOLDOVER_LIMIT is recorded once. -/
def Obligations.ServoFollowsSource : Prop :=
  ∀ (s : State) (t : Time), Active s → s.occ.replayStatus ≠ 1 → let s1 := s.atTime t
    let now := max s.time.now t
    let withSrc (k : Nat) : List Nat := if k ∈ s.time.available then s.time.available else s.time.available ++ [k]
    let without (k : Nat) : List Nat := s.time.available.filter (fun y => y ≠ k)
    let inUse (av : List Nat) : Option Nat := (sourceList s).find? (fun v => v ≤ 3 && av.contains v)
    let free_ : Prop := s.time.servo = .freerun ∧ s.occ.state = .none
    let jump := 4 * rwVal s 0x1206 3 100
    let near (q : Int) : Prop := q.natAbs < 4 * rwVal s 0x1206 1 50
    let Same (s' : State) : Prop := s'.items = s.items ∧ s'.mem = s.mem ∧ s'.occ = s.occ ∧ s'.queues = s.queues ∧ s'.fabric = s.fabric ∧
        s'.obj = s.obj
    let Measured (q : Int) (s' : State) : Prop := Same s' ∧ s'.time.lastOffset = q ∧
      (free_ → s'.time.servo = .acquiring ∧ s'.time.now = ((4 * (now : Int) - q) / 4).toNat ∧ NoRecord s s') ∧
      (¬ free_ → jump < q.natAbs → s'.time.now = now ∧ s'.time.servo = .holdover ∧ s'.time.stepRefused = true ∧
          s'.time.refusedOffset = q / 4 ∧
        s'.time.refusalRun = true ∧ s'.time.agreeing = 0 ∧
            (if s.time.refusalRun then NoRecord s s' else NewRecord s s' (dieUnit 2) causeEnvironment)) ∧
      (¬ free_ → q.natAbs ≤ jump → s'.time.now = now ∧ s'.time.stepRefused = s.time.stepRefused ∧ s'.time.refusalRun = false ∧
          NoRecord s s' ∧
        (s.time.servo = .freerun → s'.time.servo = .acquiring ∧ (near q → s'.time.belowSince = some now) ∧ (¬ near q →
            s'.time.belowSince = none)) ∧
        (s.time.servo = .acquiring → s'.time.servo = .acquiring ∧ (near q → s'.time.belowSince = some (s.time.belowSince.getD now)) ∧
            (¬ near q → s'.time.belowSince = none)) ∧
        (s.time.servo = .locked → s'.time.servo = .locked) ∧
        (s.time.servo = .holdover → if 15 ≤ s.time.agreeing then s'.time.servo = .locked else s'.time.servo = .holdover ∧
            s'.time.agreeing = s.time.agreeing + 1))
    (∀ (h : FhHead) (q : Int), rwVal s 0x1203 1 0 = 16 → rwVal s 0x1203 2 1 = 2 →
      (s.bus.mgmtUp = false → Completes (.ptpFrameReceive h true q t) s s1) ∧
      (s.bus.mgmtUp = true → inUse (withSrc 1) ≠ some 1 →
          Completes (.ptpFrameReceive h true q t) s { s1 with time := { s1.time with available := withSrc 1 } }) ∧
      (s.bus.mgmtUp = true → inUse (withSrc 1) = some 1 → ∃ s', Completes (.ptpFrameReceive h true q t) s s' ∧
          s'.time.available = withSrc 1 ∧
        Measured (q + 4 * signedOf 32 (rwVal s 0x1204 17 0)) s')) ∧
    (∀ (h : FhHead) (q : Int), h.port < s.fh.ports.length → h.port < fhPorts s → rwVal s 0x1203 1 0 = h.port → rwVal s 0x1203 2 1 = 1 →
        (fhPort s h.port).up = true →
      (fhPort s h.port).peer = some (h.src, h.tags.head?) →
      let ok : Prop := h.fcsOk = true ∧ h.tags.length ≤ 1 ∧ 64 ≤ h.frame.length ∧ h.frame.length ≤ 9216 ∧ h.src ≠ Config.mac h.port ∧
          h.etherType = 0x88F7 ∧
        (h.dst = 0x011B19000000 ∨ h.dst = 0x0180C200000E)
      (¬ ok → Completes (.ptpFrameReceive h false q t) s s1) ∧
      (ok → inUse (withSrc 1) = some 1 → ∃ s', Completes (.ptpFrameReceive h false q t) s s' ∧ s'.time.available = withSrc 1 ∧
        (fhPort s' h.port).rx = ((fhPort s h.port).rx + 1) % 2 ^ 64 ∧ Measured (q + 4 * signedOf 32 (rwVal s 0x1204 (h.port + 1) 0)) s')) ∧
    (∀ (q : Int) (inv : Bool),
        let T : TimeSt := { s1.time with available := withSrc 2, lastPps := some now, ppsInverted := s.time.ppsInverted || inv, todNext := none }
      (s.time.todNext = none → Completes (.ppsInEdge q inv t) s { s1 with time := T }) ∧
      (∀ sec, s.time.todNext = some sec → inUse (withSrc 2) ≠ some 2 → Completes (.ppsInEdge q inv t) s { s1 with time := T }) ∧
      (∀ sec : Nat, s.time.todNext = some sec → inUse (withSrc 2) = some 2 → ∃ s', Completes (.ppsInEdge q inv t) s s' ∧
          Measured (4 * ((now : Int) - 1000000000 * sec) + q) s' ∧
        s'.time.available = withSrc 2 ∧ s'.time.todNext = none ∧ s'.time.lastPps = some now)) ∧
    (∀ (req : ObjReq) (v : BitVec 64), Served s req → req.opcode = 2 → req.index = 0x1205 → req.sub = 0 →
        req.payload = (if req.who = .pcie then bytesLE 8 v.toNat else bytesBE 8 v.toNat) →
      ∃ s', Completes (.todNext req t) s s' ∧ s'.time = { s1.time with todNext := some v.toNat } ∧ Answered s s' req 0 [] ∧
          s'.items = s.items ∧ s'.occ = s.occ) ∧
    (∀ req : ObjReq, Served s req → req.opcode = 2 → req.index = 0x1208 → req.sub = 2 → req.payload = [1] →
      (s.occ.state ≠ .none → ∃ s', Completes (.stepAccept req t) s s' ∧ Answered s s' req 7 [] ∧ NoEffect s s' t) ∧
      (s.occ.state = .none → ∃ s', Completes (.stepAccept req t) s s' ∧ Answered s s' req 0 [] ∧ s'.items = s.items ∧
        s'.time = { s1.time with now := ((now : Int) - s.time.refusedOffset).toNat, refusalRun := false })) ∧
    (∀ (p : Nat) (ql : BitVec 4), p < fhPorts s → (fhPort s p).up = true → rwVal s 0x1203 5 0 = p →
      Completes (.esmcMessage p ql t) s { s1 with time := { s1.time with available := if ql.toNat < 0xB then withSrc 4 else without 4 } }) ∧
    (inUse s.time.available = none → Completes (.phaseSourceLoss t) s s1) ∧
    (∀ k, inUse s.time.available = some k → ∃ s', Completes (.phaseSourceLoss t) s s' ∧ Same s' ∧ NoRecord s s' ∧
        s'.time.available = without k ∧
      s'.time.now = now ∧ (if s.time.servo = .locked ∨ s.time.servo = .acquiring then s'.time.servo = .holdover ∧
          s'.time.holdoverSince = now ∧ s'.time.agreeing = 0 else
        s'.time.servo = s.time.servo)) ∧
    (s.time.servo = .acquiring → (∃ b, s.time.belowSince = some b ∧ b + 10000000000 ≤ now) →
      Completes (.servoLock t) s { s1 with time := { s1.time with servo := .locked, belowSince := none } }) ∧
    (¬ (s.time.servo = .acquiring ∧ ∃ b, s.time.belowSince = some b ∧ b + 10000000000 ≤ now) → Completes (.servoLock t) s s1) ∧
    (let over_ : Prop := s.time.servo = .holdover ∧ s.time.teExceeded = false ∧
        rwVal s 0x1206 4 1100 < Config.holdoverError (freqSource s) (now - s.time.holdoverSince);
      (¬ over_ → Completes (.holdoverLimitExceeded t) s s1) ∧
      (over_ → ∃ s', Completes (.holdoverLimitExceeded t) s s' ∧ s'.time = { s1.time with teExceeded := true } ∧
          NewRecord s s' (dieUnit 2) causeEnvironment ∧ Same s'))

/-- R388 to R391: an edge of a trigger gives its output the level that its record in force has now: a one-shot or periodic pulse of WIDTH,
the copy of PPS_OUT, the active level only where it drives, low or inverted else; PPS_OUT is high for PPS_WIDTH from each second. An event
input follows its level; an edge of 5 ns or more that EDGE selects is kept in its ring of 16 with the time, or counted lost. -/
def Obligations.TriggersAndEvents : Prop :=
  ∀ (s : State) (t : Time) (n : BitVec 3) (e : BitVec 2) (level : Bool) (width : Nat), Active s → let s1 := s.atTime t
    let now := max s.time.now t
    let w : Nat := inForce s (0x1210 + n.toNat) 1 0
    let a : Nat := w / 2 ^ 64 % 2 ^ 32
    let b : Nat := w / 2 ^ 32 % 2 ^ 32
    let c : Nat := w % 2 ^ 32
    let inv : Bool := w / 2 ^ 124 % 2 == 1
    let pps : Bool := decide (now % 1000000000 < rwVal s 0x120A 0 100000000)
    let Level (x : Bool) : Prop := Completes (.trigOutEdge n t)
        s { s1 with time := { s1.time with trigLevel := lmod s.time.trigLevel n.toNat (fun _ => x != inv) } }
    (w / 2 ^ 125 % 8 = 0 → Level false) ∧
    (w / 2 ^ 125 % 8 = 1 → Level (decide (s.time.trigRef.getD n.toNat 0 ≤ extend32 a (s.time.trigRef.getD n.toNat 0) ∧
        extend32 a (s.time.trigRef.getD n.toNat 0) ≤ now ∧
      now < extend32 a (s.time.trigRef.getD n.toNat 0) + b))) ∧
    (w / 2 ^ 125 % 8 = 2 → a ≠ 0 → b < a → ∀ x, (x = true ↔ ∃ k : Nat, k < b ∧
        ∃ m : Int, (now : Int) - k - rwVal s 0x1209 1 0 - c = m * a) → Level x) ∧
    (w / 2 ^ 125 % 8 = 3 → carField s (w / 2 ^ 119 % 32) 9 = 1 → Level true) ∧
    (w / 2 ^ 125 % 8 = 4 → Level pps) ∧
    Completes (.ppsOutEdge t) s { s1 with time := { s1.time with ppsOut := pps } } ∧
    (let x := s.time.evt.getD e.toNat {}
      let sel := rwVal s (0x1218 + e.toNat) 1 0
      let read := rwVal s (0x1218 + e.toNat) 3 0
      let Kept (y : EvtIn) : Prop := Completes (.evtInEdge e level width t)
          s { s1 with time := { s1.time with evt := lmod s.time.evt e.toNat (fun _ => y) } }
      (width < 5000 ∨ x.level = level → Completes (.evtInEdge e level width t) s s1) ∧
      (5000 ≤ width → x.level ≠ level → ¬ (sel = 3 ∨ (sel = 1 ∧ level = true) ∨ (sel = 2 ∧ level = false)) →
          Kept { x with level := level }) ∧
      (5000 ≤ width → x.level ≠ level → (sel = 3 ∨ (sel = 1 ∧ level = true) ∨ (sel = 2 ∧ level = false)) →
        ((x.count + 2 ^ 32 - read % 2 ^ 32) % 2 ^ 32 = 16 → Kept { x with level := level, lost := (x.lost + 1) % 2 ^ 32 }) ∧
        ((x.count + 2 ^ 32 - read % 2 ^ 32) % 2 ^ 32 ≠ 16 →
          Kept { x with level := level, ring := tset x.ring (x.count % 16) now, count := (x.count + 1) % 2 ^ 32 })))

/-- R79, R346, R363, R386, R396, R435 to R437, R448: nothing happens away from a Meridian. At one, each pending commit whose Meridian has
come takes effect as a whole, with its timing event; due capture changes, route changes and returns of dies take effect; the retry budgets
start again; and the subframe and system frame numbers are those of R386. R87, R90: a converted MODEL_COMMIT whose Meridian has come makes the
spare working set the set in force and the retired one the spare, counts the generation, and the items whose slots start from now on use
it. -/
def Obligations.MeridianTakesEffect : Prop :=
  ∀ (s : State) (t : Time), Active s → s.cap.running = none → let s1 := s.atTime t
    let now := max s.time.now t
    let off := rwVal s 0x1209 1 0
    let isIt : Prop := ((now : Int) - off) % 1000000 = 0 ∧ (s.time.meridians = 0 ∨ s.time.lastMeridian ≠ now)
    off < 1000000 →
    (¬ isIt → Completes (.meridian t) s s1) ∧
    (isIt → ∃ s', Completes (.meridian t) s s' ∧ s'.time.now = now ∧ s'.time.meridians = s.time.meridians + 1 ∧ s'.time.lastMeridian = now ∧
      (s'.time.subframe : Int) = ((now : Int) - off) / 1000000 % 10 ∧
          (s'.time.sfn : Int) = (((now : Int) - off) / 10000000 + rwVal s 0x1209 2 0) % 1024 ∧
      s'.pcie.replayed = 0 ∧ s'.pcie.overBudget = false ∧ s'.time.servo = s.time.servo ∧ s'.cores = s.cores ∧ s'.clusters = s.clusters ∧
      ((unitOf s (dieUnit 2)).phase = .live → (unitOf s (dieUnit 2)).dawnAt = 0 →
        s'.obj.commits = s.obj.commits.filter (fun c => now < c.target) ∧
        (∀ k, (∀ c ∈ s.obj.commits, c.target ≤ now → tget c.vals k = none) → tget s'.obj.inForce k = tget s.obj.inForce k) ∧
        (∀ c ∈ s.obj.commits, c.target ≤ now → (∀ d ∈ s.obj.commits, d.target ≤ now → d = c) → s'.obj.commitMeridian = now ∧
          ∀ k v, (∀ p ∈ c.vals, p.1 = k → p.2 = v) → (∃ p ∈ c.vals, p.1 = k) → tget s'.obj.inForce k = some v)) ∧
      ((unitOf s (dieUnit 2)).phase ≠ .live → s'.obj.commits = s.obj.commits ∧ s'.obj.inForce = s.obj.inForce) ∧
      (∀ w c, s.weights.swaps = [w] → w.converted = some c → w.target = now → now ≠ 0 → c + 50000 ≤ now →
        s'.weights = { s.weights with inForce := s.weights.spare, spare := s.weights.inForce, gen := (s.weights.gen + 1) % 2 ^ 32, swaps := [] } ∧
        s'.items.map (fun i => i.gen) = s.items.map (fun i =>
          if ¬ (i.queue = w.queue ∧ i.seq = w.seq) ∧ isSlotOp i.opcode ∧ now ≤ i.slotTime then (s.weights.gen + 1) % 2 ^ 32 else i.gen)) ∧
      s'.cap.changes = s.cap.changes.filter (fun c => now < c.1) ∧
      (∀ c ∈ s.cap.changes, c.1 ≤ now → (∀ d ∈ s.cap.changes, d.1 ≤ now → d = c) →
          s'.cap.running = if c.2.mode = 0 then none else some c.2) ∧
      (∀ m, s.fabric.changeAt = some m → now < m → s'.fabric.routes = s.fabric.routes) ∧
      s'.dies = s.dies.map (fun d => if d.returnFrom.elim false (fun f => decide (f ≤ now))
          then { d with out := false, returnFrom := none } else d))

/-- R409 to R411, R434, R438 to R446: the object server takes requests in the order they land. A READ answers the object's value, staged or
in force, or the first abort code in the order of R445; so does READ_BLOCK with up to COUNT bytes from OFFSET. A request that aborts has no
effect, and one met while the I/O die is out, or by a restarting control processor that it needs, aborts with BUSY. R440, R441: a vendor-
defined MCTP message of vendor 0x1E5C lands as a request, unless its endpoint has one outstanding, which is answered with BUSY; a datagram
to the management port lands unless it is short or of the wrong length, repeats a TID of its source within 1 s, which resends the stored
response, or finds 64 requests outstanding, which is answered with LIMIT; while the I/O die is out, or the control processor that it needs
restarts, a request that arrives is answered with BUSY (R50, R365). -/
def Obligations.ObjectsRead : Prop :=
  (∀ (s : State) (t : Time) (req : ObjReq), Active s →
       let i := req.index.toNat
       let found := findObj (s.atTime t) i req.sub.toNat
       let limit := if req.who = .pcie then 4080 else 1024
       let Aborts (c : Instr) (code : Nat) : Prop := ∃ s', Completes c s s' ∧ Answered s s' req code [] ∧ NoEffect s s' t
       let Gives (c : Instr) (pay : List Byte) : Prop := ∃ s', Completes c s s' ∧ Answered s s' req 0 pay ∧ NoEffect s s' t
       let word (k : Nat) : Nat := if req.who = .pcie then ofBytesLE ((req.payload.drop (4 * k)).take 4)
           else ofBytesBE ((req.payload.drop (4 * k)).take 4)
       ((∃ r ∈ s.obj.landed.head?, r ≠ req) → Completes (.read req t) s (s.atTime t) ∧ Completes (.readBlock req t) s (s.atTime t) ∧
           Completes (.attestation req t) s (s.atTime t)) ∧
       ((s.obj.landed = [] ∨ s.obj.landed.head? = some req) → (unitOf s (dieUnit 2)).phase ≠ .live ∨ (s.cp.restarting = true ∧
           (i = 0x1407 ∨ i = 0x1225 ∨ i = 0x1405 ∨ (0x1100 ≤ i ∧ i < 0x1200))) →
         (req.opcode = 1 → Aborts (.read req t) 8) ∧ (req.opcode = 3 → i ≠ 0x1107 → Aborts (.readBlock req t) 8)) ∧
       (Served s req →
         (∀ r, s.obj.landed = req :: r → req.opcode = 1 → ∃ s', Completes (.read req t) s s' ∧ s'.obj.landed = r) ∧
         (req.opcode = 0 ∨ 6 < req.opcode.toNat → Aborts (.read req t) 1) ∧
         (req.opcode = 1 → (found = .noObject → Aborts (.read req t) 2) ∧ (found = .noUnit → Aborts (.read req t) 9) ∧ (found = .noSub →
             Aborts (.read req t) 3) ∧
           ∀ e, found = .entry e → let v := if req.view && e.acc == .rws then e.view else e.val
             (e.acc = .wo ∨ e.ty = 14 → Aborts (.read req t) 4) ∧
             (e.acc ≠ .wo → e.ty ≠ 14 → (req.payload ≠ [] ∨ limit < e.size) → Aborts (.read req t) 5) ∧
             (e.acc ≠ .wo → e.ty ≠ 14 → req.payload = [] → e.size ≤ limit →
               Gives (.read req t) (if req.who = .pcie ∨ e.ty = 12 ∨ e.ty = 13 then bytesLE e.size v else bytesBE e.size v))) ∧
         (req.opcode = 3 → i ≠ 0x1107 → (found = .noObject → Aborts (.readBlock req t) 2) ∧ (found = .noSub → Aborts (.readBlock req t) 3) ∧
           ∀ e, found = .entry e →
             (e.acc = .wo ∨ ¬ (e.ty = 12 ∨ e.ty = 13 ∨ e.ty = 14) → Aborts (.readBlock req t) 4) ∧
             (e.acc ≠ .wo → e.ty = 12 ∨ e.ty = 13 ∨ e.ty = 14 → req.payload.length ≠ 12 → Aborts (.readBlock req t) 5) ∧
             (e.acc ≠ .wo → e.ty = 14 → req.payload.length = 12 → domainBytes (s.atTime t) i (word 0) = none →
                 Aborts (.readBlock req t) 10) ∧
             (∀ bs, e.acc ≠ .wo → req.payload.length = 12 → (e.ty = 14 ∧ domainBytes (s.atTime t) i (word 0) = some bs) ∨ ((e.ty = 12 ∨
                 e.ty = 13) ∧ bs = bytesLE e.size e.val) →
               (bs.length < word 1 → Aborts (.readBlock req t) 6) ∧
               (word 1 ≤ bs.length → Gives (.readBlock req t) ((bs.drop (word 1)).take (min (word 2) limit))))))) ∧
  (∀ (s : State) (t : Time) (eid : BitVec 8) (addr : Nat) (port : BitVec 16) (ty : BitVec 8) (vendor : BitVec 16) (op : BitVec 8)
      (idx : BitVec 16) (sub : BitVec 8) (tid : BitVec 32) (pay : List Byte)
       (len : Nat), Active s → len < 2 ^ 32 → pay.length < 2 ^ 32 → let s1 := s.atTime t
       let now := max s.time.now t
       let frame : List Byte := bytesBE 16 (op.toNat * 2 ^ 120 + idx.toNat * 2 ^ 104 + sub.toNat * 2 ^ 96 + 1 * 2 ^ 64 + len * 2 ^ 32 + tid.toNat) ++ pay
       let req (who : Requester)
           : ObjReq := { who := who, opcode := op, index := idx, sub := sub, view := true, tid := tid, payload := pay }
       let side := Requester.sideband eid
       let mgmt := Requester.mgmt addr port
       let recent := s.obj.recent.find? (fun x => x.1 == addr && x.2.1 == port && x.2.2.1 == tid && decide (now ≤ x.2.2.2.1 + 1000000000))
       let open_ := (s.obj.landed.filter (fun r => match r.who with
         | .mgmt _ _ => true
         | _ => false)).length
       let ready : Prop := (unitOf s (dieUnit 2)).phase = .live ∧ s.cp.restarting = false
       let away : Prop := (unitOf s (dieUnit 2)).phase ≠ .live ∨ (s.cp.restarting = true ∧
           (op = 5 ∨ op = 6 ∨ idx = 0x1407 ∨ idx = 0x1225 ∨ idx = 0x1405 ∨ idx = 0x1223 ∨ (0x1100 ≤ idx.toNat ∧ idx.toNat < 0x1200)))
       (s.bus.stuck = false → ty = 0x7E → vendor = 0x1E5C →
         (away → len = pay.length → ∃ s', Completes (.mctpMessage eid ty vendor frame t) s s' ∧ Answered s s' (req side) 8 [] ∧
             s'.obj = s.obj) ∧
         (ready → (∀ r ∈ s.obj.landed, r.who ≠ side) → len = pay.length →
           Completes (.mctpMessage eid ty vendor frame t) s { s1 with obj := { s.obj with landed := s.obj.landed ++ [req side] } }) ∧
         ((∃ r ∈ s.obj.landed, r.who = side) → ∃ s', Completes (.mctpMessage eid ty vendor frame t) s s' ∧ Answered s s' (req side) 8 [] ∧
             s'.obj = s.obj) ∧
         ((∀ r ∈ s.obj.landed, r.who ≠ side) → len ≠ pay.length → ∃ s', Completes (.mctpMessage eid ty vendor frame t) s s' ∧
             Answered s s' (req side) 5 [] ∧ s'.obj = s.obj)) ∧
       (ty ≠ 0x7E ∨ vendor ≠ 0x1E5C → Completes (.mctpMessage eid ty vendor frame t) s s1) ∧
       (s.bus.mgmtUp = false → Completes (.mgmtDatagram addr port frame t) s s1) ∧
       (s.bus.mgmtUp = true →
         (len ≠ pay.length →
             Completes (.mgmtDatagram addr port frame t)
             s { s1 with obj := { s.obj with mgmtDropped := (s.obj.mgmtDropped + 1) % 2 ^ 64 } }) ∧
         (∀ b, b.length < 16 →
             Completes (.mgmtDatagram addr port b t) s { s1 with obj := { s.obj with mgmtDropped := (s.obj.mgmtDropped + 1) % 2 ^ 64 } }) ∧
         (len = pay.length →
           (∀ x, recent = some x →
               Completes (.mgmtDatagram addr port frame t) s (if x.2.2.2.2 = [] then s1 else s1.emit (.response mgmt x.2.2.2.2))) ∧
           (recent = none → 64 ≤ open_ → ∃ s', Completes (.mgmtDatagram addr port frame t) s s' ∧ Answered s s' (req mgmt) 11 [] ∧
               s'.obj = s.obj) ∧
           (away → recent = none → open_ < 64 → ∃ s', Completes (.mgmtDatagram addr port frame t) s s' ∧ Answered s s' (req mgmt) 8 [] ∧
               s'.obj.landed = s.obj.landed ∧ s'.items = s.items) ∧
           (ready → recent = none → open_ < 64 → ∃ s', Completes (.mgmtDatagram addr port frame t) s s' ∧ s'.obj.landed = s.obj.landed ++
               [req mgmt] ∧
             (addr, port, tid, now, []) ∈ s'.obj.recent ∧ s'.out = s.out ∧ s'.items = s.items ∧
             ((s.obj.recent.filter (fun x => x.1 = addr ∧ x.2.1 = port)).length ≤ 64 → (s'.obj.recent.filter (fun x => x.1 = addr ∧
                 x.2.1 = port)).length ≤ 64)))))

/-- R411, R412, R434, R307, R373, R406, R423, R442 to R445, R463, R514: a WRITE checks access, size, range and state in the order of R445. A
staged value is replaced and reads back with 0 in its reserved bits (R11), the one in force stays; a setting takes the value; the objects that act do what their rules say: an
acknowledged alert goes, a queue opens at FIRST_SEQ or closes, the ports retrain under a new FH_MODE, FREEZE is set, a global operation is
armed, and UNIT_QUERY takes a unit that exists. WRITE_BLOCK replaces a part of a value. -/
def Obligations.ObjectsWritten : Prop :=
  ∀ (s : State) (t : Time) (req : ObjReq) (v : Nat), Active s → Served s req → req.opcode = 2 → let s1 := s.atTime t
    let i := req.index.toNat
    let sub := req.sub.toNat
    let found := findObj s1 i sub
    let value (n v : Nat) : List Byte := if req.who = .pcie then bytesLE n v else bytesBE n v
    let Aborts (c : Instr) (code : Nat) : Prop := ∃ s', Completes c s s' ∧ Answered s s' req code [] ∧ NoEffect s s' t
    let Acts (c : Instr) (P : State → Prop) : Prop := ∃ s', Completes c s s' ∧ Answered s s' req 0 [] ∧ P s' ∧ s'.cores = s.cores ∧
        s'.clusters = s.clusters ∧ s'.mem.check = s.mem.check
    ((found = .noObject → Aborts (.write req t) 2) ∧ (found = .noUnit → Aborts (.write req t) 9) ∧ (found = .noSub →
        Aborts (.write req t) 3)) ∧
    (∀ e, found = .entry e → e.acc = .const ∨ e.acc = .ro ∨ e.ty = 14 → ¬ (i = 0x3700 ∧ sub = 1) → Aborts (.write req t) 4) ∧
    -- staged values: the carriers and the timeouts
    (∀ e, found = .entry e → e.acc = .rws → 0x4000 ≤ i ∨ (0x3000 ≤ i ∧ i < 0x3700) → e.ty ≠ 13 →
      let kept := v ^^^ (v &&& reservedBits i sub)
      (req.payload.length ≠ e.size → Aborts (.write req t) 5) ∧
      (req.payload = value e.size v → v < 256 ^ e.size → kept < e.lo ∨ e.hi < kept → Aborts (.write req t) 6) ∧
      (req.payload = value e.size v → v < 256 ^ e.size → e.lo ≤ kept → kept ≤ e.hi → (i % 0x80 = 0 → sub = 12 → v = 256 ∨ v = 512 ∨
          v = 1024 ∨ v = 2048 ∨ v = 4096) →
        Acts (.write req t) (fun s' => s'.obj.staged = tset s.obj.staged (256 * i + sub) kept ∧ s'.obj.inForce = s.obj.inForce ∧
            s'.obj.rw = s.obj.rw ∧
          findObj s' i sub = .entry { e with val := kept } ∧ s'.queues = s.queues ∧ s'.items = s.items))) ∧
    -- settings of the servo
    (i = 0x1206 → 1 ≤ sub → sub ≤ 4 → req.payload = value 4 v → v < 2 ^ 32 → let lo := if sub = 1 then 1 else 10
      let hi := if sub = 2 then 10000 else 1000000
      (v < lo ∨ hi < v → Aborts (.write req t) 6) ∧
      (lo ≤ v → v ≤ hi → Acts (.write req t) (fun s' => s'.obj.rw = tset s.obj.rw (256 * i + sub) v ∧ s'.time = s1.time))) ∧
    (i = 0x1209 → sub = 1 → req.payload = value 4 v → v < 1000000 → s.occ.state ≠ .none → Aborts (.write req t) 7) ∧
    -- objects that act
    (i = 0x1010 → sub = 0 → req.payload = [1] → s.pins.halted = false →
        Acts (.alertAck req t) (fun s' => s'.pins = { s.pins with alert := false })) ∧
    (i = 0x1010 → sub = 0 → req.payload = [2] → Aborts (.alertAck req t) 6) ∧
    (i = 0x3700 → sub = 1 → req.payload = value 2 v → v < 65536 → (unitValid (BitVec.ofNat 16 v) = false → Aborts (.unitQuery req t) 9) ∧
      (unitValid (BitVec.ofNat 16 v) = true → Acts (.unitQuery req t) (fun s' => s'.obj.rw = tset s.obj.rw (256 * i + sub) v ∧
          s'.units = s.units))) ∧
    (i = 0x1310 → sub = 0 → req.payload = [BitVec.ofNat 8 v] → v < 256 → (v < 1 ∨ 3 < v → Aborts (.fhMode req t) 6) ∧
      (1 ≤ v → v ≤ 3 → s.occ.state ≠ .none → Aborts (.fhMode req t) 7) ∧
      (1 ≤ v → v ≤ 3 → s.occ.state = .none → Acts (.fhMode req t) (fun s' => fhPorts s' = 2 ^ (v + 1) ∧ s'.fh = { s.fh with
        ports := s.fh.ports.map (fun p => { p with up := false, peer := none })
            } ∧ s'.time.available = s.time.available.filter (fun x => x ≠ 4)))) ∧
    (i = 0x38F0 → sub = 1 → req.payload = [BitVec.ofNat 8 v] → v < 2 → Acts (.freeze req t) (fun s' => rwVal s' 0x38F0 1 0 = v ∧
        s'.pmu = s.pmu)) ∧
    (i = 0x1223 → sub = 0 → req.payload = bytesLE 16 v → v < 2 ^ 122 → v % 4 = 3 → Aborts (.globalOp req t) 6) ∧
    (i = 0x1223 → sub = 0 → req.payload = bytesLE 16 v → v < 2 ^ 122 → v % 4 ≠ 3 → barrierFits s1 (globalBody v) s1.time.now = true →
      Acts (.globalOp req t) (fun s' => s'.global.counter = s.global.counter + 1 ∧ (∀ o ∈ s.global.ops, o.armed = true →
          o ∈ s'.global.ops) ∧ ∃ o ∈ s'.global.ops, o.armed = true ∧ o.sent = false ∧
        o.a.opNumber = s.global.counter ∧ o.a.op.toNat = v % 4 ∧ o.a.initiator.toNat = devnum s % 64 ∧ o.a.tag.toNat = v / 2 ^ 114 % 256 ∧
        o.a.participants = BitVec.ofNat 64 (v / 4) ||| BitVec.ofNat 64 (2 ^ devnum s) ∧ s'.items = s.items)) ∧
    -- queues
    (∀ q : Nat, i = 0x2000 + q → q < 4096 → sub = 4 → req.payload = value 4 v → v < 2 ^ 32 → let x := queueOf s q
      let legal : Prop := v = 0 ∨ ∃ k, 1 ≤ k ∧ k ≤ 16 ∧ v = 2 ^ k
      (¬ legal → v ≠ 0 → Aborts (.queueOpen req t) 6) ∧
      (legal → v ≠ 0 → x.qstate ≠ 0 → Aborts (.queueOpen req t) 7) ∧
      (legal → v ≠ 0 → x.qstate = 0 → Acts (.queueOpen req t) (fun s' => (∀ j, j ≠ q → queueOf s' j = queueOf s j) ∧ let y := queueOf s' q
        y.depth = v ∧ y.qstate = 1 ∧ y.tail = x.firstSeq ∧ y.acceptNext = x.firstSeq ∧ y.completeNext = x.firstSeq ∧
            y.fetchNext = x.firstSeq ∧ y.sqBase = x.sqBase ∧
          y.cqBase = x.cqBase ∧ y.client = x.client ∧ s'.items = s.items)) ∧
      (v = 0 → x.tail ≠ x.completeNext → Aborts (.queueClose req t) 7) ∧
      (v = 0 → x.tail = x.completeNext → Acts (.queueClose req t) (fun s' => (∀ j, j ≠ q → queueOf s' j = queueOf s j) ∧
          (queueOf s' q).qstate = 0 ∧
        (queueOf s' q).tail = x.tail ∧ (x.qstate ≠ 0 → (queueOf s' q).depth = 0) ∧ s'.items = s.items))) ∧
    -- a part of an octet string: its own opcode, here of the stream maps' slot pattern
    (∀ (wb : ObjReq) (off : Nat) (data : List Byte), wb =
        { req with opcode := 4, payload := value 4 0 ++ value 4 off ++ value 4 data.length ++ data } → Served s wb →
      0x4000 ≤ i → i % 0x80 = 7 → i < 0x5000 → sub = 2 → off < 2 ^ 32 → data.length ≤ 1000 →
      (off + data.length ≤ 560 → ∃ s', Completes (.writeBlock wb t) s s' ∧ Answered s s' wb 0 [] ∧ s'.obj.inForce = s.obj.inForce ∧
        s'.obj.staged = tset s.obj.staged (256 * i + sub) (ofBytesLE ((bytesLE 560 (stagedVal s i sub 0)).take off ++ data ++
            (bytesLE 560 (stagedVal s i sub 0)).drop (off + data.length)))) ∧
      (560 < off + data.length → ∃ s', Completes (.writeBlock wb t) s s' ∧ Answered s s' wb 6 [] ∧ NoEffect s s' t))

/-- R432 to R437, R444, R447: a commit captures the staged values of the groups in its mask; those that pass their check become pending for
the first Meridian 50 µs away, and COMMIT_REFUSED names the others; nothing in force or staged changes. A subscription is added, or
cancelled by PERIOD 0; it is refused for a domain or write-only object, for its size and beyond its limits. -/
def Obligations.CommitsAndSubscriptions : Prop :=
  ∀ (s : State) (t : Time) (req : ObjReq), Active s → Served s req → let s1 := s.atTime t
    let now := max s.time.now t
    let num (bs : List Byte) : Nat := if req.who = .pcie then ofBytesLE bs else ofBytesBE bs
    let value (n v : Nat) : List Byte := if req.who = .pcie then bytesLE n v else bytesBE n v
    let Commits (s' : State) (mask : Nat) : Prop := s'.obj.staged = s.obj.staged ∧ s'.obj.inForce = s.obj.inForce ∧ s'.items = s.items ∧
        s'.queues = s.queues ∧ NoRecord s s' ∧
      s'.obj.commitMeridian = s.obj.commitMeridian ∧ (∀ g, s'.obj.refused.getLsbD g = true → g < 34 ∧ mask.testBit g = true) ∧
      ((∀ g, g < 34 → mask.testBit g = true → s'.obj.refused.getLsbD g = true) → s'.obj.commits = s.obj.commits) ∧
      ((∃ g, g < 34 ∧ mask.testBit g = true ∧ s'.obj.refused.getLsbD g = false) → ∃ c, s'.obj.commits = s.obj.commits ++ [c] ∧
          c.target = meridianFrom s1 (now + 50000) ∧
        (∀ g, c.mask.getLsbD g = true ↔ g < 34 ∧ mask.testBit g = true ∧ s'.obj.refused.getLsbD g = false) ∧
        ∀ p ∈ c.vals, (∃ g, c.mask.getLsbD g = true ∧ groupOf s (p.1 / 256) = g) ∧ ∃ e, findObj s1 (p.1 / 256) (p.1 % 256) = .entry e ∧
            p.2 = e.val) ∧
      (∀ g, g < 32 → mask % 2 ^ 34 = 2 ^ g → (s'.obj.refused.getLsbD g = true ↔ carrierFaults s (commitView s (captureGroups s (mask % 2 ^ 34))) g ≠ []))
    (∀ mask : BitVec 64, req.opcode = 5 → req.payload = value 8 mask.toNat → ∃ s' p, Completes (.commit req t) s s' ∧
        Commits s' mask.toNat ∧
      Answered s s' req 0 p ∧ p = value 8 (meridianFrom s1 (now + 50000)) ++ value 8 s'.obj.refused.toNat ∧
          rwVal s' 0x1401 2 0 = mask.toNat % 2 ^ 34) ∧
    (req.opcode = 5 → req.payload.length ≠ 8 → ∃ s', Completes (.commit req t) s s' ∧ Answered s s' req 5 [] ∧ NoEffect s s' t) ∧
    (req.opcode = 2 → req.index = 0x1401 → req.sub = 1 → req.payload = [1] → ∃ s', Completes (.commit req t) s s' ∧
        Commits s' (rwVal s 0x1401 2 0) ∧ Answered s s' req 0 []) ∧
    (req.opcode = 6 → 4 ≤ req.payload.length →
      let period := num (req.payload.take 2)
      let n := num ((req.payload.drop 2).take 2)
      let entry (k : Nat) : Nat × Nat := (num ((req.payload.drop (4 + 4 * k)).take 2), ((req.payload.drop (6 + 4 * k)).headD 0).toNat)
      let ring := num ((req.payload.drop (4 + 4 * n)).take 8)
      let slots := num ((req.payload.drop (12 + 4 * n)).take 4)
      let mine := s.obj.subs.filter (fun b => b.who = req.who)
      let Aborts (code : Nat) : Prop := ∃ s', Completes (.subscribe req t) s s' ∧ Answered s s' req code [] ∧ NoEffect s s' t
      let Known : Prop := ∀ k, k < n → ∃ e, findObj s1 (entry k).1 (entry k).2 = .entry e ∧ e.ty ≠ 14 ∧ e.acc ≠ .wo
      let sizes := ((List.range n).map (fun k => match findObj s1 (entry k).1 (entry k).2 with
        | .entry e => e.size
        | _ => 0)).sum
      let long : Prop := req.payload.length ≠ 4 + 4 * n + (if req.who = .pcie then 12 else 0) ∨
          (if req.who = .pcie then 4080 else 1024) < 12 + sizes
      let odd : Prop := 1000 < period ∨ n = 0 ∨ 32 < n ∨ (req.who = .pcie ∧ (ring % 64 ≠ 0 ∨ slots = 0 ∨ 65536 < slots))
      (period = 0 → ∃ s', Completes (.subscribe req t) s s' ∧ Answered s s' req 0 [] ∧
          s'.obj.subs = s.obj.subs.filter (fun b => ¬ (b.who = req.who ∧ b.tid = req.tid))) ∧
      (period ≠ 0 → (∃ k, k < n ∧ findObj s1 (entry k).1 (entry k).2 = .noObject) → Aborts 2) ∧
      (period ≠ 0 → (∀ k, k < n → ∃ e, findObj s1 (entry k).1 (entry k).2 = .entry e) → ¬ Known → Aborts 4) ∧
      (period ≠ 0 → Known → long → Aborts 5) ∧ (period ≠ 0 → Known → ¬ long → odd → Aborts 6) ∧
      (period ≠ 0 → Known → ¬ long → ¬ odd → 64 ≤ s.obj.subs.length ∨ 16 ≤ mine.length → Aborts 11) ∧
      (period ≠ 0 → Known → ¬ long → ¬ odd → s.obj.subs.length < 64 → mine.length < 16 → ∃ s' b, Completes (.subscribe req t) s s' ∧
          Answered s s' req 0 [] ∧
        s'.obj.subs = s.obj.subs ++ [b] ∧ b.who = req.who ∧ b.tid = req.tid ∧ b.period = period ∧ b.seq = 0 ∧ (req.who = .pcie →
            b.ringAddr = ring ∧ b.ringSlots = slots) ∧
        b.entries = (List.range n).map (fun k => (BitVec.ofNat 16 (entry k).1, BitVec.ofNat 8 (entry k).2))))

/-- R392 to R396, R473, R477, R480, R486, R533: a port trains on four lanes or an intact pair, else stays down; it joins a peer of the same
identity and another device number, with credits for the whole receive space and fresh sequence state, and floods its links; any other join
leaves it trained, sets JOIN_REFUSED and is recorded. A retrain goes on or takes the port down. News of another device is kept, passed on by
every other joined port, and changes the routes at the first Meridian 50 µs away. -/
def Obligations.LinksTrainAndJoin : Prop :=
  ∀ (s : State) (t : Time) (port : BitVec 3) (lanes : BitVec 4) (sh po re los rej : Bool) (peer : JoinWord) (ls : LinkState), Active s →
      s.fabric.ports.length = 8 → let s1 := s.atTime t
    let n := port.toNat
    let p := vlPort s n
    let Others (s' : State) : Prop := (∀ j, j ≠ n → vlPort s' j = vlPort s j) ∧ s'.mem = s.mem ∧ s'.items = s.items ∧ s'.occ = s.occ ∧
        s'.fabric.routes = s.fabric.routes ∧ s'.fabric.held = s.fabric.held
    let intact : Prop := lanes &&& 3 = 3 ∨ lanes &&& 12 = 12
    let soon := meridianFrom s1 (max s.time.now t + 50000)
    (p.state = 2 → Completes (.vlLinkTrain port lanes sh po re t) s s1) ∧
    (p.state ≠ 2 → ∃ s', Completes (.vlLinkTrain port lanes sh po re t) s s' ∧ Others s' ∧ (vlPort s' n).state = (if intact then 1 else 0) ∧
      ((vlPort s' n).halfRate = true ↔ intact ∧ lanes ≠ 15) ∧ (vlPort s' n).identity.toNat = rwVal s 0x1220 0 0 % 2 ^ 32 ∧
      (∀ k, bitOf (vlPort s' n).faults k = true ↔ (k = 0 ∧ lanes ≠ 15 ∧ sh = false ∨ k = 3 ∧ po = true ∨ k = 4 ∧ re = true ∨ k = 5 ∧
          sh = true ∨ k = 9 ∧ intact ∧ lanes ≠ 15 ∨
        k = 10 ∧ s.pins.openStrap ≠ 0 ∨ k ≠ 0 ∧ k ≠ 3 ∧ k ≠ 4 ∧ k ≠ 5 ∧ k ≠ 9 ∧ k ≠ 10 ∧ bitOf p.faults k = true)) ∧
      (intact → ∃ w : JoinWord, s'.out = s.out ++ [.joinFlit n w] ∧ w.devnum = s.pins.devnum ∧ w.port = port ∧
          w.constellation = (vlPort s' n).identity) ∧ (¬ intact → s'.out = s.out)) ∧
    (p.state ≠ 1 → Completes (.vlJoin port peer t) s s1) ∧
    (p.state = 1 → peer.constellation = p.identity → peer.devnum ≠ s.pins.devnum → s.pins.openStrap = 0 →
        ∃ s', Completes (.vlJoin port peer t) s s' ∧ Others s' ∧
      let q := vlPort s' n
      q.state = 2 ∧ q.peer = some (peer.devnum, peer.port) ∧ q.shared = [6144, 6144, 512] ∧ (∀ vc hop, vc < 2 →
          reserveHeld q vc hop = 129) ∧ q.txSeq = 0 ∧ q.rxSeq + 1 = 0 ∧
        q.nak = false ∧ q.replay = [] ∧ q.outSeq = 0 ∧ q.inSeq = 0 ∧ q.waiting = [] ∧ bitOf q.faults 10 = false ∧
            s'.fabric.changeAt = some soon ∧ s'.fabric.known = s.fabric.known ∧
        s'.fabric.floodSeq = s.fabric.floodSeq + 1 ∧ NoRecord s s' ∧ (∀ k ∈ s.fabric.known, Output.flood n k ∈ s'.out) ∧
            Output.flood n (ownLinks s') ∈ s'.out) ∧
    (p.state = 1 → ¬ (peer.constellation = p.identity ∧ peer.devnum ≠ s.pins.devnum ∧ s.pins.openStrap = 0) →
        ∃ s', Completes (.vlJoin port peer t) s s' ∧ Others s' ∧ s'.out = s.out ∧
      vlPort s' n = { p with faults := p.faults ||| 0x400 } ∧ s'.fabric.changeAt = s.fabric.changeAt ∧
      (if bitOf p.faults 10 then NoRecord s s' else NewRecord s s' (dieUnit 2) causeEnvironment)) ∧
    (p.peer = none ∨ (los = false ∧ p.stuck < 16 ∧ p.state ≠ 0) → Completes (.vlRetrain port los rej t) s s1) ∧
    (p.peer ≠ none → los = true ∨ 16 ≤ p.stuck ∨ p.state = 0 → p.waiting = [] →
      (∃ s', Completes (.vlRetrain port los true t) s s' ∧ Others s' ∧ (vlPort s' n).state = 2 ∧ (vlPort s' n).stuck = 0 ∧
          (vlPort s' n).replay = p.replay ∧ (vlPort s' n).rxSeq = p.rxSeq ∧
        (vlPort s' n).txSeq = p.txSeq ∧ s'.out = s.out ++ p.replay.map (fun f => .flit n f.2) ∧ s'.fabric.changeAt = s.fabric.changeAt) ∧
      (∃ s', Completes (.vlRetrain port los false t) s s' ∧ Others s' ∧ (vlPort s' n).state = 0 ∧ (vlPort s' n).peer = none ∧
          (vlPort s' n).retries = p.retries ∧ (vlPort s' n).replay = [] ∧
        s'.fabric.changeAt = some soon ∧ s'.fabric.floodSeq = s.fabric.floodSeq + 1)) ∧
    (let news : Prop := p.state = 2 ∧ ls.keyHash ≠ ownKeyHash s ∧ ∀ k ∈ s.fabric.known, k.keyHash = ls.keyHash → k.fseq < ls.fseq;
      (¬ news → Completes (.linkStateFlood port ls t) s s1) ∧
      (news → ∃ s', Completes (.linkStateFlood port ls t) s s' ∧
          s'.fabric.known = s.fabric.known.filter (fun k => k.keyHash ≠ ls.keyHash) ++ [ls] ∧
        s'.out = s.out ++ ((joinedPorts s).filter (fun q => q.1 ≠ n)).map (fun q => .flood q.1 ls) ∧ s'.fabric.ports = s.fabric.ports ∧
            s'.fabric.routes = s.fabric.routes ∧
        s'.fabric.changeAt = (if ∃ k ∈ s.fabric.known, k.keyHash = ls.keyHash ∧ k.dev = ls.dev ∧
            k.links = ls.links then s.fabric.changeAt else some soon) ∧ NoRecord s s'))

/-- R398, R475, R477 to R479: a data flit in order moves FSEQ on and its payload joins its class's stream, without the padding behind a
segment; a repeat is discarded, a gap or a bad CRC asks for a replay once; idle flits acknowledge, return credits and measure the delay. A
replay resends the same flits, counts, and is recorded the first time beyond the budget. -/
def Obligations.FlitsTravel : Prop :=
  ∀ (s : State) (t : Time) (port : BitVec 3) (fseq ack : BitVec 12) (vc : Nat) (payload : List Byte), Active s →
      s.fabric.ports.length = 8 → let s1 := s.atTime t
    let n := port.toNat
    let p := vlPort s n
    let now := max s.time.now t
    let header (kind crd : Nat) (nak : Bool)
        : BitVec 64 := BitVec.ofNat 64 (fseq.toNat * 2 ^ 52 + ack.toNat * 2 ^ 40 + (if nak then 2 ^ 39 else 0)
        + kind * 2 ^ 37 + vc * 2 ^ 35 + crd * 2 ^ 21)
    let Quiet (s' : State) : Prop := s'.mem = s.mem ∧ s'.items = s.items ∧ s'.fabric.held = s.fabric.held ∧
        s'.fabric.routes = s.fabric.routes ∧ (∀ j, j ≠ n → vlPort s' j = vlPort s j)
    let Asked (s' : State) : Prop := Quiet s' ∧ NoRecord s s' ∧ (vlPort s' n).nak = true ∧ (vlPort s' n).rxSeq = p.rxSeq ∧
        (vlPort s' n).streams = p.streams ∧ (vlPort s' n).inSeq = p.inSeq ∧
      (p.nak = true → s'.out = s.out) ∧ (p.nak = false → ∃ f, s'.out = s.out ++ [.flit n f] ∧ f.getLsbD 39 = true ∧ f.extractLsb' 37 2 = 0)
    (p.state ≠ 2 → ∀ f, Completes (.vlDataFlit port f t) s s1 ∧ Completes (.vlIdleFlit port (header 0 0 false) 1 2 3 t) s s1 ∧
        Completes (.vlReplayTimeout port t) s s1) ∧
    (p.state = 2 →
      (∀ f, (openFlit f).2 = false → ∃ s', Completes (.vlDataFlit port f t) s s' ∧ Asked s') ∧
      (∀ f, openFlit f = ((openFlit f).1, true) → (openFlit f).1.take 248 = bytesLE 8 (header 1 0 false).toNat ++ payload →
          payload.length = 240 → vc < 4 → (∀ x ∈ p.replay, x.1 ≠ ack) →
        (fseq = p.rxSeq + 1 → vc < 2 → p.streams.length = 3 → p.streams.getD vc [] = [] →
          ∀ (h : BitVec 128) (d : List Byte), segType h ≠ 0 → d.length = segData h → d.length ≤ 208 → payload = segBytes h d ++
              List.replicate (240 - (segBytes h d).length) 0 →
          ∃ s', Completes (.vlDataFlit port f t) s s' ∧ Quiet s' ∧ NoRecord s s' ∧ s'.out = s.out ∧ vlPort s' n = { p with
            rxSeq := fseq, nak := false, inSeq := p.inSeq + 1, streams := p.streams.set vc (segBytes h d) }) ∧
        (fseq = p.rxSeq + 1 → vc = 3 → ∃ s', Completes (.vlDataFlit port f t) s s' ∧ NewRecord s s' (dieUnit 2) causeProtocol ∧
            (vlPort s' n).streams = p.streams) ∧
        (fseq ≠ p.rxSeq + 1 → (p.rxSeq - fseq).toNat < 2048 → Completes (.vlDataFlit port f t) s s1) ∧
        (fseq ≠ p.rxSeq + 1 → 2048 ≤ (p.rxSeq - fseq).toNat → ∃ s', Completes (.vlDataFlit port f t) s s' ∧ Asked s')) ∧
      (∀ (crd : Nat) (tx etx erx : Time), vc = 0 → p.waiting = [] → crd ≤ 4095 → p.shared.length = 3 → 0 < crd → etx = 0 ∨
          timeBy s n = false →
        (p.shared.getD 0 0 + crd ≤ 6144 → (p.rxSeq - fseq).toNat < 2048 →
            ∃ s', Completes (.vlIdleFlit port (header 0 crd false) tx etx erx t) s s' ∧ Quiet s' ∧ NoRecord s s' ∧
          let q := vlPort s' n
          q.shared = p.shared.set 0 (p.shared.getD 0 0 + crd) ∧ q.peerTx = tx ∧ q.peerRx = now ∧ q.rxSeq = p.rxSeq ∧
            q.delay = (if etx = 0 then p.delay else ((now : Int) - etx) - ((tx : Int) - erx)) ∧
            (∀ k, p.replay.findIdx? (fun x => x.1 == ack) = some k → q.replay = p.replay.drop (k + 1) ∧ q.stuck = 0) ∧
                ((∀ x ∈ p.replay, x.1 ≠ ack) → q.replay = p.replay ∧ q.stuck = p.stuck)) ∧
        (6144 < p.shared.getD 0 0 + crd → ∃ s', Completes (.vlIdleFlit port (header 0 crd false) tx etx erx t) s s' ∧
            NewRecord s s' (dieUnit 2) causeProtocol ∧ (vlPort s' n).state = 0)) ∧
      (p.replay = [] ∨ 16 ≤ p.stuck → Completes (.vlReplayTimeout port t) s s1) ∧
      (p.replay ≠ [] → p.stuck < 16 → s.cap.running = none → ∃ s', Completes (.vlReplayTimeout port t) s s' ∧ Quiet s' ∧ s'.out = s.out ++
          p.replay.map (fun f => .flit n f.2) ∧
        (vlPort s' n).retries = (p.retries + 1) % 2 ^ 64 ∧ (vlPort s' n).stuck = p.stuck + 1 ∧ (vlPort s' n).replay = p.replay ∧
            (vlPort s' n).replayed = p.replayed + p.replay.length ∧
        (∀ pl, planOf s = some pl → pl.vlBudgets.getD n 0 < p.replayed + p.replay.length → p.overBudget = false →
            NewRecord s s' (dieUnit 2) causeRetry ∧ (vlPort s' n).overBudget = true) ∧
        (∀ pl, planOf s = some pl → p.replayed + p.replay.length ≤ pl.vlBudgets.getD n 0 ∨ p.overBudget = true → NoRecord s s')))

/-- R263, R265, R476, R477, R480, R481: a segment for another device goes on one hop class higher; one of LENGTH beyond 2,048 is recorded
and dropped. For this device a WRITE lands its bytes, or, a full segment of a narrowed tensor, waits for the rest of its transfer (the model's
division of a transfer, log entry 224), and a TOKEN counts, once per E2E_SEQ, and each arrival is acknowledged; a READ is
answered with the bytes it names, an answer completes the host's read, and an acknowledgement releases the held write. The segment's credits
go back to the peer. -/
def Obligations.SegmentsLand : Prop :=
  ∀ (s : State) (t : Time) (port : BitVec 3) (h : BitVec 128) (data : List Byte) (tok : Tok), Active s → s.cap.running = none →
      s.occ.replayStatus ≠ 1 → s.fabric.ports.length = 8 → let s1 := s.atTime t
    let n := port.toNat
    let p := vlPort s n
    let e := BitVec.ofNat 16 (segE2e h)
    let from_ := segSrc h
    let own : Prop := segDst h = devnum s ∧ segLen h ≤ 2048
    let st := p.streams.getD (segVc h) []
    let here : Prop := p.state = 2 ∧ p.peer ≠ none ∧ segVc h < 3 ∧ p.streams.length = 3 ∧ (st = [] ∨ ∃ rest, st = segBytes h data ++ rest)
    let known : Prop := e ∈ (tget s.fabric.landed from_).getD []
    let Owed (s' : State) : Prop := ((∀ r, routeTo s from_ = some r → r.port ≠ n) → (vlPort s' n).owed = p.owed ++
        [(segVc h, segCredits h, false, segHops h)]) ∧ s'.items = s.items
    let Acked (s' : State) : Prop := ∀ r, routeTo s from_ = some r → r.port ≠ n → (vlPort s r.port).state = 2 →
        (vlPort s r.port).waiting = [] → (vlPort s r.port).replay = [] → 1 ≤ (vlPort s r.port).shared.getD 1 0 →
      Output.segment r.port (segHeader 5 (devnum s) from_ 1 0 0 0 0 0 0 e.toNat) [] ∈ s'.out
    (p.state ≠ 2 → Completes (.vlWrite port h data t) s s1 ∧ Completes (.vlRead port h t) s s1 ∧
        Completes (.vlReadData port h data t) s s1 ∧ Completes (.vlToken port h tok t) s s1 ∧
      Completes (.vlE2eAck port h t) s s1) ∧
    (here → segType h = 1 → 2048 < segLen h → ∃ s', Completes (.vlWrite port h data t) s s' ∧ NewRecord s s' (dieUnit 2) causeProtocol ∧
        s'.mem = s.mem ∧ Owed s') ∧
    (here → segType h = 1 → segLen h ≤ 2048 → segDst h ≠ devnum s → segHops h < 63 → ∀ r, routeTo s (segDst h) = some r → r.port ≠ n →
        (vlPort s r.port).state ≠ 2 →
      ∃ s', Completes (.vlWrite port h data t) s s' ∧ s'.mem = s.mem ∧ NoRecord s s' ∧ s'.fabric.landed = s.fabric.landed ∧ Owed s' ∧
        ∃ g, (vlPort s' r.port).waiting = (vlPort s r.port).waiting ++ [(g, data)] ∧ segHops g = segHops h + 1 ∧ segType g = 1 ∧
            segSrc g = from_ ∧ segDst g = segDst h ∧ segAddr g = segAddr h ∧
          segLen g = segLen h ∧ segE2e g = segE2e h ∧ segTag g = segTag h ∧ segTensor g = segTensor h) ∧
    (here → own → segType h = 1 → descriptorOf s (segTensor h) = none → data.length = segLen h → MemOk s →
      (known → ∃ s', Completes (.vlWrite port h data t) s s' ∧ s'.mem = s.mem ∧ NoRecord s s' ∧ s'.fabric.landed = s.fabric.landed ∧
          Owed s' ∧ Acked s') ∧
      (¬ known → (∀ a, segAddr h % 2 ^ 36 ≤ a → a < segAddr h % 2 ^ 36 + data.length → InMemory s a ∧ GoodAt s a) →
          ∃ s', Completes (.vlWrite port h data t) s s' ∧ Owed s' ∧ Acked s' ∧
        e ∈ (tget s'.fabric.landed from_).getD [] ∧ (∀ j, j < data.length → byteAt s' (segAddr h % 2 ^ 36 + j) = data.getD j 0) ∧
        ∀ a, a < segAddr h % 2 ^ 36 ∨ segAddr h % 2 ^ 36 + data.length ≤ a → byteAt s' a = byteAt s a)) ∧
    (here → own → segType h = 1 → ¬ known → descriptorOf s (segTensor h) ≠ none → data.length = 2048 → segLen h = 2048 →
      let mine (q : PartIn) : Bool := q.src = from_ ∧ q.tensor = segTensor h ∧ q.addr = segAddr h
      ∃ s' q, Completes (.vlWrite port h data t) s s' ∧ Owed s' ∧ Acked s' ∧ s'.mem = s.mem ∧ q ∈ s'.fabric.partIn ∧ mine q = true ∧
        q.data = ((s.fabric.partIn.find? mine).elim [] (fun x => x.data)) ++ data ∧
        ∀ x, mine x = false → (x ∈ s'.fabric.partIn ↔ x ∈ s.fabric.partIn)) ∧
    (here → own → segType h = 2 → data = [] → ∀ r, routeTo s from_ = some r → r.port ≠ n → (vlPort s r.port).state ≠ 2 →
      (∀ a, segAddr h % 2 ^ 36 ≤ a → a < segAddr h % 2 ^ 36 + segLen h → InMemory s a ∧ GoodAt s a) →
          ∃ s', Completes (.vlRead port h t) s s' ∧ s'.mem = s.mem ∧ Owed s' ∧
        ∃ g bs, (vlPort s' r.port).waiting = (vlPort s r.port).waiting ++ [(g, bs)] ∧ segType g = 3 ∧ segVc g = 1 ∧ segTag g = segTag h ∧
            segStatus g = 0 ∧ segDst g = from_ ∧ segLen g = segLen h ∧
          bs.length = segLen h ∧ ∀ j, j < segLen h → bs.getD j 0 = byteAt s (segAddr h % 2 ^ 36 + j)) ∧
    (here → own → segType h = 3 → data.length = segLen h → ∀ x ∈ s.fabric.reads, x.tag = segTag h → x.head = x.tag → x.got = none →
        (∀ y ∈ s.fabric.reads, y ≠ x → y.head ≠ x.head ∧ y.tag ≠ x.tag) →
      s.fabric.reads.count x = 1 → ∃ s', Completes (.vlReadData port h data t) s s' ∧ s'.out = s.out ++
          [.readReply data (segStatus h == 1)] ∧ s'.fabric.reads = s.fabric.reads.filter (fun y => y ≠ x) ∧
        s'.mem = s.mem ∧ Owed s') ∧
    (here → own → segType h = 4 → data = bytesLE 8 tok.toNat → segAddr h % 65536 = (coreUnit 5).toNat → tokKind tok = 1 →
      (known → ∃ s', Completes (.vlToken port h tok t) s s' ∧ s'.cores = s.cores ∧ s'.fabric.landed = s.fabric.landed ∧ Acked s') ∧
      (¬ known → coreTokens s 5 (tokTag tok) < 255 → ∃ s', Completes (.vlToken port h tok t) s s' ∧
          coreTokens s' 5 (tokTag tok) = coreTokens s 5 (tokTag tok) + 1 ∧
        (∀ g, g ≠ tokTag tok → coreTokens s' 5 g = coreTokens s 5 g) ∧ e ∈ (tget s'.fabric.landed from_).getD [] ∧ s'.mem = s.mem ∧
            Acked s')) ∧
    (here → own → segType h = 5 → data = [] → (∀ x ∈ s.fabric.narrow, x.dst ≠ from_) → tget s.fabric.newHop from_ = none → ∃ s', Completes (.vlE2eAck port h t) s s' ∧
        s'.mem = s.mem ∧ s'.out = s.out ∧ Owed s' ∧
      s'.fabric.held = s.fabric.held.filter (fun w => ¬ (w.dst.toNat = from_ ∧ w.e2e = e)))

/-- R400, R401, R403 to R406: an announcement leaves by the tree at T − LEAD; one that arrives is passed on, and armed before T while fewer
than 8 are, else answered MISSED or REFUSED by a participant. At T a barrier fires its TICK at every unit bound to its TAG, a snapshot is
taken and its markers sent, and a reset starts Twilight; the answer is uncertain without CONSTELLATION_TIME. Answers are recorded by the
initiator. A marker gives IN_FLIGHT, and the last one completes the snapshot. -/
def Obligations.GlobalOperationsRun : Prop :=
  ∀ (s : State) (t : Time) (port : BitVec 3) (a : Announce) (o : OpSt), Active s → let s1 := s.atTime t
    let now := max s.time.now t
    let n := port.toNat
    let me := devnum s
    let Same (s' : State) : Prop := s'.mem = s.mem ∧ s'.fabric = s.fabric ∧ s'.items = s.items ∧ s'.occ = s.occ ∧ NoRecord s s'
    let passed (a : Announce) : List Output := (childPorts s a.initiator.toNat).map (fun p => .announce p a)
    let part : Prop := bitOf a.participants me = true
    let reply (x : OpAnswer) : List Output := if a.initiator.toNat ≠ me ∧
        (routeTo s a.initiator.toNat).isSome then [.opAck a.initiator a.opNumber x] else []
    let armed := (s.global.ops.filter (fun x => x.armed)).length
    let known : Prop := ∃ x ∈ s.global.ops, x.a.initiator = a.initiator ∧ x.a.opNumber = a.opNumber
    (s.global.ops = [o] → o.a = a → o.sent = false → a.initiator.toNat = me → o.a.t ≤ now + o.lead →
        ∃ s', Completes (.globalOpSend a.initiator a.opNumber t) s s' ∧ Same s' ∧
      s'.out = s.out ++ passed a ∧ s'.global.ops = [{ o with sent := true }]) ∧
    (s.global.ops = [o] → o.a = a → o.sent = true ∨ a.initiator.toNat ≠ me ∨ now + o.lead < o.a.t →
        Completes (.globalOpSend a.initiator a.opNumber t) s s1) ∧
    ((vlPort s n).state ≠ 2 ∨ a.initiator = s.pins.devnum → Completes (.globalOpAnnounce port a t) s s1) ∧
    ((vlPort s n).state = 2 → a.initiator ≠ s.pins.devnum → ¬ known →
      (now < a.t → armed < 8 → ∃ s' x, Completes (.globalOpAnnounce port a t) s s' ∧ Same s' ∧ s'.out = s.out ++ passed a ∧
          x ∈ s'.global.ops ∧ x.a = a ∧ x.armed = true ∧ x.sent = true ∧
        (∀ y ∈ s.global.ops, y.armed = true → y ∈ s'.global.ops)) ∧
      (a.t ≤ now → ∃ s', Completes (.globalOpAnnounce port a t) s s' ∧ Same s' ∧ s'.out = s.out ++ passed a ++
          (if part then reply .missed else []) ∧ (s'.global.ops.filter (fun x => x.armed)) = s.global.ops.filter (fun x => x.armed)) ∧
      (now < a.t → 8 ≤ armed → ∃ s', Completes (.globalOpAnnounce port a t) s s' ∧ Same s' ∧ s'.out = s.out ++ passed a ++
          (if part then reply .refused else []) ∧
        (s'.global.ops.filter (fun x => x.armed)) = s.global.ops.filter (fun x => x.armed))) ∧
    ((∀ x ∈ s.global.ops, x.armed = true → now < x.a.t) → ∃ s', Completes (.globalOpAct t) s s' ∧ s'.global.ops = s.global.ops ∧
        s'.out = s.out ∧ Same s') ∧
    (s.global.ops = [o] → o.a = a → o.armed = true → a.t ≤ now → part →
      (a.op = 0 → ∀ us, planOf s = some us → (∀ b ∈ us.barrierTags, b.1 = a.tag → b.2 = coreUnit 7) →
          (us.barrierTags.filter (fun b => b.1 = a.tag)).length = 1 → a.tag ≠ 0 →
        coreTokens s 7 a.tag.toNat < 255 → ∃ s', Completes (.globalOpAct t) s s' ∧
            coreTokens s' 7 a.tag.toNat = coreTokens s 7 a.tag.toNat + 1 ∧
          s'.out = s.out ++ reply (if constellationTime s = true then .acted else .uncertain) ∧ (∀ x ∈ s'.global.ops, x.armed = false) ∧
              s'.mem = s.mem) ∧
      (a.op = 1 → joinedPorts s ≠ [] → s.global.early = [] → s.global.pending = [] → ∃ s' sn, Completes (.globalOpAct t) s s' ∧
          s'.out = s.out ++ (joinedPorts s).map (fun p => .marker p.1 a.t (vlPort s p.1).outSeq) ∧
        s'.global.pending = [(a.initiator, a.opNumber, !constellationTime s, sn)] ∧ sn.t = a.t ∧ sn.number = s.occ.number ∧
            sn.gen = s.weights.gen ∧ sn.missing = (joinedPorts s).map (fun p => p.1) ∧
        sn.queues = (openQueues s).map (fun q => (q, (queueOf s q).acceptNext, (queueOf s q).completeNext, (queueOf s q).tail)) ∧
            s'.global.snapshot = s.global.snapshot) ∧
      (a.op = 2 → s.occ.state = .running → ∃ s', Completes (.globalOpAct t) s s' ∧ s'.occ.state = .twilight ∧
          s'.occ.after = .packageReset)) ∧
    (∀ (d : BitVec 6) (ans : OpAnswer), s.global.ops = [o] → o.a = a → a.initiator = s.pins.devnum → bitOf a.participants d.toNat = true →
        ∃ s' x, Completes (.globalOpAck d a.opNumber ans t) s s' ∧ Same s' ∧
      s'.out = s.out ∧ s'.global.ops = [x] ∧ x.a = a ∧
      (∀ k, k < 64 → (x.acted.getLsbD k = true ↔ o.acted.getLsbD k = true ∨ (ans = .acted ∧ k = d.toNat)) ∧
          (x.uncertain.getLsbD k = true ↔ o.uncertain.getLsbD k = true ∨ (ans = .uncertain ∧ k = d.toNat)) ∧
        (x.missed.getLsbD k = true ↔ o.missed.getLsbD k = true ∨ (ans = .missed ∧ k = d.toNat)) ∧
            (x.refused.getLsbD k = true ↔ o.refused.getLsbD k = true ∨ (ans = .refused ∧ k = d.toNat)))) ∧
    (∀ (sn : Snapshot) (oseq : BitVec 32) (unsure : Bool), (vlPort s n).state = 2 →
        s.global.pending = [(a.initiator, a.opNumber, unsure, sn)] → sn.t = a.t → n ∈ sn.missing → sn.ports.length = 8 →
        s.global.ops = [o] → o.a = a →
      let v := sn.ports.getD n (0, 0, 0, 0)
      let sn' : Snapshot := { sn with
        missing := sn.missing.filter (fun m => m ≠ n), ports := sn.ports.set n (v.1, v.2.1, v.2.2.1, (oseq.toNat + 2 ^ 32 - v.2.1 % 2 ^ 32)
            % 2 ^ 32) }
      (sn'.missing ≠ [] → ∃ s', Completes (.snapshotMarker port a.t oseq t) s s' ∧
          s'.global.pending = [(a.initiator, a.opNumber, unsure, sn')] ∧ s'.global.snapshot = s.global.snapshot ∧ s'.out = s.out) ∧
      (sn'.missing = [] → ∃ s', Completes (.snapshotMarker port a.t oseq t) s s' ∧ s'.global.pending = [] ∧ s'.global.snapshot = some sn' ∧
          s'.out = s.out ++ reply (if unsure then .uncertain else .acted)))

/-- R301, R303, R305, R337, R351, R412, R444, R488: LOAD in NONE copies the image or refuses one whose length is not the header's; in
Twilight it waits; elsewhere it aborts, and so it does where the lifecycle takes no image. When the checks end the first that fails refuses
the image with its reason; one that passes them all runs under a new number, its queues resume at ACCEPT_NEXT, and contexts, buffers, weights
and deficits start afresh. A replay whose recording does not match goes through Twilight with its REPLAY_STATUS. -/
def Obligations.LoadsStartOccupancies : Prop :=
  ∀ (s : State) (t : Time) (req : ObjReq) (img : Image) (how : HostRead) (rec_ : Option (Time × BitVec 64 × BitVec 64 × BitVec 512)),
      Active s → let s1 := s.atTime t
    let o := s.occ
    let len := rwVal s 0x1400 3 0
    let Kept (s' : State) : Prop := s'.items = s.items ∧ s'.queues = s.queues ∧ s'.mem.check = s.mem.check ∧ s'.cores = s.cores ∧
        s'.clusters = s.clusters
    (Served s req → req.opcode = 2 → req.index = 0x1400 → req.sub = 4 → req.payload = [1] →
      (o.state = .loading ∨ o.state = .running → ∃ s', Completes (.load req img how t) s s' ∧ Answered s s' req 7 [] ∧ NoEffect s s' t) ∧
      (o.state = .none ∨ o.state = .twilight → s.life.state ≠ 2 → s.life.state ≠ 3 → ∃ s', Completes (.load req img how t) s s' ∧
          Answered s s' req 12 [] ∧ NoEffect s s' t) ∧
      (s.life.state = 2 ∨ s.life.state = 3 →
        (o.state = .twilight → ∃ s', Completes (.load req img how t) s s' ∧ Answered s s' req 0 [] ∧ Kept s' ∧
            s'.occ = { o with queuedLoad := some (img, how != .good) }) ∧
        (o.state = .none → ∃ s', Completes (.load req img how t) s s' ∧ Answered s s' req 0 [] ∧ Kept s' ∧ s'.obj.rw = s.obj.rw ∧
          (∀ k, tget s'.obj.inForce k = if k % 256 = 3 ∧ 0x3000 ≤ k / 256 ∧ k / 256 < 0x3700 then none else tget s.obj.inForce k) ∧
          (how = .good → NoRecord s s') ∧ (how ≠ .good →
              NewRecord s s' (dieUnit 2) (if how = .poison then causePoison else causeEnvironment)) ∧
          (256 ≤ len → len = img.header.toNat / 2 ^ 128 % 2 ^ 64 → s'.occ.state = .loading ∧ s'.occ.image = some img ∧
              s'.occ.copyBad = (how != .good) ∧ (s'.occ.replay = true ↔ rwVal s 0x1404 2 0 ≠ 0)) ∧
          (len < 256 ∨ len ≠ img.header.toNat / 2 ^ 128 % 2 ^ 64 → s'.occ.state = .none ∧ s'.occ.image = none ∧ s'.occ.reason = 1 ∧
              s'.occ.section_ = 0)))) ∧
    (o.state ≠ .loading ∨ o.image = none → Completes (.loadChecksComplete rec_ t) s s1) ∧
    (o.state = .loading → o.image = some img →
      let locked := hdLocked img.header || o.replay
      (∀ r sec st u, loadFault s1 img locked o.copyBad = some (r, sec, st, u) → ∃ s', Completes (.loadChecksComplete rec_ t) s s' ∧
          s' = { s1 with occ := s'.occ } ∧ s'.occ.state = .none ∧
        s'.occ.image = none ∧ s'.occ.reason = r ∧ s'.occ.section_ = sec ∧ s'.occ.step = st ∧ s'.occ.unit = u ∧ (r = 7 → o.replay = true →
            s'.occ.replayStatus = 6)) ∧
      (loadFault s1 img locked o.copyBad = none → armedCapture s = { armedCapture s with mode := 0 } → s.cap.running = none →
          ∃ s', Completes (.loadChecksComplete rec_ t) s s' ∧
        s'.occ.number = (o.loads + 1) % 2 ^ 32 ∧ s'.occ.loads = s'.occ.number ∧ s'.occ.image = some img ∧ s'.occ.locked = locked ∧
            s'.occ.digest = imageDigest img ∧
        s'.occ.reason = 0 ∧ s'.pool.freePages = img.plan.poolPages ∧ s'.pool.bufs = [] ∧ s'.pool.resident = [] ∧ s'.weights.pins = [] ∧
            s'.weights.swaps = [] ∧ s'.weights.gen = 0 ∧ s'.weights.master = img.plan.weights0 ∧ s'.weights.original = img.plan.weights0 ∧
            s'.weights.spare = s'.weights.inForce ∧ s'.weights.optimiser = [] ∧ s'.weights.retained = [] ∧ s'.items = (if s'.occ.state = .twilight then s'.items else s.items) ∧
        (∀ q ∈ openQueues s, (queueOf s' q).fetchNext = (queueOf s q).acceptNext ∧ (queueOf s' q).formNext = (queueOf s q).acceptNext ∧
            (queueOf s' q).qstate = 1 ∧ (queueOf s' q).deficit = 0 ∧
          (queueOf s' q).tail = (queueOf s q).tail ∧ (queueOf s' q).completeNext = (queueOf s q).completeNext) ∧
        (∀ q, (queueOf s q).qstate = 0 → queueOf s' q = queueOf s q ∨ (queueOf s' q).fetchNext = (queueOf s' q).acceptNext) ∧
        (o.replay = false → s'.occ.state = .running ∧ s'.occ.fetchFrom = max s.time.now t ∧ s'.time = s1.time) ∧
        (o.replay = true → (rec_ = none → s'.occ.state = .twilight ∧ s'.occ.replayStatus = 3) ∧
          (∀ t0 fw ecl dig, rec_ = some (t0, fw, ecl, dig) →
            (fw.toNat ≠ firmwareVersion s → s'.occ.state = .twilight ∧ s'.occ.replayStatus = 3) ∧
            (fw.toNat = firmwareVersion s → ecl.toNat ≠ s.life.eclipse.toNat → s'.occ.state = .twilight ∧ s'.occ.replayStatus = 4) ∧
            (fw.toNat = firmwareVersion s → ecl.toNat = s.life.eclipse.toNat → dig ≠ imageDigest img → s'.occ.state = .twilight ∧
                s'.occ.replayStatus = 5) ∧
            (fw.toNat = firmwareVersion s → ecl.toNat = s.life.eclipse.toNat → dig = imageDigest img → s'.occ.state = .running ∧
                s'.occ.replayStatus = 1 ∧ s'.time.now = t0 ∧ s'.occ.replayIgnored = 0)))))

/-- R48, R50, R302, R336, R337, R352, R362, R367, R498: END abandons a load, starts Twilight, cancels a queued LOAD, or aborts; PACKAGE_RESET resets at
once or after Twilight. Twilight drops what ACCEPT_NEXT has not passed, writes a final ledger with STATE 2 to every open queue once all else
is done, and ends in a wipe that keeps queues' pointers and device settings. A restart of the control processor wipes its RAM, abandons a load
and answers with BUSY the requests that need it; it ends with the patch record loaded from a copy whose signature holds, or from ROM alone. A replay
injects what was recorded. -/
def Obligations.OccupanciesEnd : Prop :=
  ∀ (s : State) (t : Time) (req : ObjReq) (what : Replayed), Active s → let s1 := s.atTime t
    let o := s.occ
    let Dusky (s' : State) (a : AfterTwilight) : Prop := s'.occ.state = .twilight ∧ s'.occ.after = a ∧ s'.occ.drained = false ∧
        s'.mem.check = s.mem.check ∧
      (∀ i, i ∈ s'.items ↔ i ∈ s.items ∧ precedes i.seq (queueOf s i.queue).acceptNext = true) ∧
      (∀ q, (queueOf s' q).acceptNext = (queueOf s q).acceptNext ∧ (queueOf s' q).completeNext = (queueOf s q).completeNext ∧
          (queueOf s' q).tail = (queueOf s q).tail ∧ (queueOf s' q).formed = (queueOf s q).formed)
    let Wiped (s' : State) : Prop := s'.occ.state = .none ∧ s'.occ.image = none ∧ s'.items = [] ∧ s'.cores = [] ∧ s'.clusters = [] ∧
        s'.crossing = [] ∧ s'.mem.check = [] ∧
      (∀ a, a < controlBase → cget s'.mem.cells a = 0) ∧ s'.pool.bufs = [] ∧ s'.pool.resident = [] ∧ s'.weights.retained = [] ∧
          s'.obj.rw = s.obj.rw ∧ s'.faults = s.faults ∧
      (∀ q, (queueOf s' q).tail = (queueOf s q).tail ∧ (queueOf s' q).acceptNext = (queueOf s q).acceptNext ∧
          (queueOf s' q).completeNext = (queueOf s q).completeNext ∧
        (queueOf s' q).sqBase = (queueOf s q).sqBase ∧ (queueOf s' q).depth = (queueOf s q).depth ∧ (queueOf s' q).deficit = 0) ∧
      s'.pool.clients = s.pool.clients ∧ s'.life = s.life ∧ s'.pins = s.pins
    let Abandoned (s' : State) : Prop := s'.occ.state = .none ∧ s'.occ.image = none ∧ s'.occ.reason = 9
    (Served s req → req.opcode = 2 → req.index = 0x1400 → req.sub = 4 →
      (req.payload = [2] →
        (o.state = .none ∨ (o.state = .twilight ∧ o.queuedLoad = none) → ∃ s', Completes (.occEnd req t) s s' ∧ Answered s s' req 7 [] ∧
            NoEffect s s' t) ∧
        (o.state = .loading → ∃ s', Completes (.occEnd req t) s s' ∧ Answered s s' req 0 [] ∧ Abandoned s' ∧ s'.items = s.items ∧
            s'.queues = s.queues) ∧
        (o.state = .running → ∃ s', Completes (.occEnd req t) s s' ∧ Answered s s' req 0 [] ∧ Dusky s' .toNone) ∧
        (o.state = .twilight → o.queuedLoad ≠ none → ∃ s', Completes (.occEnd req t) s s' ∧ Answered s s' req 0 [] ∧
            s'.occ.state = .twilight ∧ s'.occ.queuedLoad = none ∧ s'.occ.reason = 9 ∧ s'.items = s.items)) ∧
      (req.payload = [3] →
        (o.state = .none → ∃ s', Completes (.packageReset req t) s s' ∧ Answered s s' req 0 [] ∧ s'.occ.state = .none ∧ s'.items = [] ∧
            s'.cores = [] ∧ (∀ j, j < s.fabric.ports.length → (vlPort s' j).state = 0) ∧
          s'.global.ops = [] ∧ ∀ u, (unitOf s' u).phase = .live ∨ (unitOf s' u).phase = .retired ∨ (unitOf s' u).phase = .heldOut) ∧
        (o.state = .running → ∃ s', Completes (.packageReset req t) s s' ∧ Answered s s' req 0 [] ∧ Dusky s' .packageReset) ∧
        (o.state = .twilight → o.after ≠ .transition → ∃ s', Completes (.packageReset req t) s s' ∧ Answered s s' req 0 [] ∧
            s'.occ.state = .twilight ∧ s'.occ.after = .packageReset ∧ s'.occ.queuedLoad = none))) ∧
    (let ready : Prop := o.state = .twilight ∧ o.drained = false ∧ s.items = [] ∧ canWrite s = true ∧
        ∀ q ∈ openQueues s, (queueOf s q).formed = [];
      (¬ ready → Completes (.twilightDrained t) s s1) ∧
      (ready → ∃ s', Completes (.twilightDrained t) s s' ∧ s'.occ = { o with drained := true } ∧
          (∀ q ∈ openQueues s, (queueOf s' q).qstate = 2 ∧ (queueOf s' q).tail = (queueOf s q).tail ∧
          (queueOf s' q).acceptNext = (queueOf s q).acceptNext ∧
        (queueOf s' q).ledgerNext = (queueOf s q).completeNext ∧ ∃ l, Output.hostWrite (queueOf s q).ledger l ∈ s'.out ∧ l.length = 64) ∧
            (∀ q, (queueOf s q).qstate = 0 → queueOf s' q = queueOf s q) ∧ s'.mem = s.mem)) ∧
    (o.state = .twilight → o.drained = true → o.queuedLoad = none →
      (o.after = .toNone ∨ o.after = .transition → ∃ s', Completes (.twilightWipeComplete t) s s' ∧ Wiped s') ∧
      (o.after = .packageReset → ∃ s', Completes (.twilightWipeComplete t) s s' ∧ Wiped s' ∧ (∀ j, j < s.fabric.ports.length →
          (vlPort s' j).state = 0) ∧ s'.global.ops = [])) ∧
    (∀ img bad, o.state = .twilight → o.drained = true → o.after = .toNone → o.queuedLoad = some (img, bad) → 256 ≤ rwVal s 0x1400 3 0 →
        rwVal s 0x1400 3 0 = img.header.toNat / 2 ^ 128 % 2 ^ 64 →
      ∃ s', Completes (.twilightWipeComplete t) s s' ∧ s'.occ.state = .loading ∧ s'.occ.image = some img ∧ s'.occ.queuedLoad = none ∧
          s'.items = [] ∧ s'.mem.check = []) ∧
    (o.state ≠ .twilight ∨ o.drained = false → Completes (.twilightWipeComplete t) s s1) ∧
    (s.cp.restarting = true → Completes (.cpWatchdogExpiry t) s s1) ∧
    (s.cp.restarting = false → ∃ s', Completes (.cpWatchdogExpiry t) s s' ∧
      s'.cp = { s.cp with restarting := true, ram := [], ramCheck := [] } ∧ s'.life = { s.life with partialReq := [] } ∧
      NewRecord s s' (dieUnit 2) causeCp ∧ (o.state = .loading → Abandoned s') ∧ (o.state ≠ .loading → s'.occ = o) ∧
      s'.items = s.items ∧ s'.queues = s.queues ∧ s'.cores = s.cores ∧ s'.clusters = s.clusters ∧
      s'.obj.landed = s.obj.landed.filter (fun r => needsCp r = false) ∧
      ((∀ r ∈ s.obj.landed, needsCp r = false) → s'.obj = s.obj ∧ s'.mem = s.mem) ∧
      ∀ r, s.obj.landed.filter needsCp = [r] → Answered s s' r 8 []) ∧
    (s.cp.restarting = false → Completes (.cpRestartComplete t) s s1) ∧
    (s.cp.restarting = true → s.cp.packageStep = 0 → (∀ d, d < 3 → (unitOf s (dieUnit d)).phase ≠ .dusk ∧
        (unitOf s (dieUnit d)).phase ≠ .dawn) →
      ((∀ b, some b ∈ s.life.patchCopies → patchSigned b = false) → Completes (.cpRestartComplete t) s
        { s1 with cp := { s.cp with restarting := false }, life := { s.life with patch := none } }) ∧
      (∀ b, s.life.patchCopies.find? (fun c => c.any patchSigned) = some (some b) → ∃ s', Completes (.cpRestartComplete t) s s' ∧
        s' = { s1 with cp := { s.cp with restarting := false, ram := s'.cp.ram, ramCheck := [] } } ∧
        ∀ k, cget s'.cp.ram k = b.getD k 0)) ∧
    (s.cp.restarting = true → s.cp.packageStep = 0 → s.cap.running = none → (unitOf s (dieUnit 2)).phase ≠ .dusk →
        (unitOf s (dieUnit 2)).phase ≠ .dawn → (unitOf s (dieUnit 0)).phase = .dawn →
      (unitOf s (dieUnit 1)).phase = .live → ∃ s', Completes (.cpRestartComplete t) s s' ∧ s'.cp.restarting = false ∧
          (unitOf s' (dieUnit 0)).phase = .dusk) ∧
    (o.replayStatus ≠ 1 → Completes (.replayInject what t) s s1) ∧
    (o.replayStatus = 1 → Completes (.replayInject .ended t) s { s1 with occ := { o with replayStatus := 2 } } ∧
        (∀ a bs, Completes (.replayInject (.hostRead a bs) t) s s1) ∧
      (∀ u, rwVal s 0x1404 3 0 = 0 → Completes (.replayInject (.dusk u) t) s s1) ∧
      (∀ q v, s.cap.running = none → ∃ s', Completes (.replayInject (.doorbell q v) t) s s' ∧
          Completes (.doorbell q v t) { s with occ := { o with replayStatus := 2 } } { s' with occ := { s'.occ with replayStatus := 2 } }) ∧
      (∀ h secs, s.cap.running = none → ∃ s', Completes (.replayInject (.fronthaul h secs) t) s s' ∧
          Completes (.fhUplaneReceive h secs t)
          { s with occ := { o with replayStatus := 2 } } { s' with occ := { s'.occ with replayStatus := 2 } }) ∧
      (∀ (a : BitVec 42) bs, s.cap.running = none → MemOk s → (∀ j, j < bs.length → InMemory s (a.toNat % 2 ^ 36 + j) ∧
          GoodAt s (a.toNat % 2 ^ 36 + j)) → ∃ s', Completes (.replayInject (.fabric a bs) t) s s' ∧
        ∀ j, j < bs.length → byteAt s' (a.toNat % 2 ^ 36 + j) = bs.getD j 0))

/-- R489 to R494, R498: a lifecycle request is refused without effect, in the order of R491, for its form, SERIAL or COUNT, a pending
transition, the state and signer, its slot, its signature or its body. Accepted, CERTIFY stores the certificate, ENROL_OWNER and
REVOKE_OWNER mark the slot, INSTALL_PATCH raises the floor and restarts the control processor, and each but that adds one to the count; a
transition waits for Twilight unless IMMEDIATE. Its application programs the state of R490, wipes every memory and resets the device. -/
def Obligations.LifecycleAdvances : Prop :=
  ∀ (s : State) (t : Time) (r : LifeReq) (nonce : BitVec 32) (req : ObjReq), Active s → s.cp.restarting = false →
      (unitOf s (dieUnit 2)).phase = .live → let s1 := s.atTime t
    let h := r.header.toNat
    let op := h / 2 ^ 192 % 256
    let slot := h / 2 ^ 184 % 256
    let imm : Bool := h / 2 ^ 208 % 2 == 1
    let forms : List Instr := [.flrWrite, .provision r t, .certify r t, .enrolOwner r t, .revokeOwner r t, .deploy r t, .returnDevice r t,
        .redeploy r t, .decommission r t, .installPatch r t]
    let c := forms.getD op .flrWrite
    let l := s.life
    let Rest (s' : State) : Prop := s' = { s1 with life := s'.life }
    (1 ≤ op → op ≤ 9 →
      (lifeCode s1 r ≠ 0 → Completes c s s1) ∧
      (∀ k, 1 ≤ k → k ≤ 9 → k ≠ op → Completes (forms.getD k .flrWrite) s s1) ∧
      (lifeCode s1 r = 0 → ∃ s', Completes c s s' ∧ s'.life.state = l.state ∧ s'.life.keyGen = l.keyGen ∧ s'.items.Sublist s.items ∧
          s'.queues.length = s.queues.length ∧
        (op = 2 → Rest s' ∧ s'.life = { l with certified := true, certificate := some r.body, requests := l.requests + 1 }) ∧
        (op = 3 → Rest s' ∧ s'.life.requests = l.requests + 1 ∧ s'.life.ownerFused.toNat = l.ownerFused.toNat + 2 ^ slot ∧
            (l.ownerHash.length = 4 → ownerHashOf s' slot = BitVec.ofNat 512 (ofBytesLE r.body)) ∧
          s'.life.ownerRevoked = l.ownerRevoked) ∧
        (op = 4 → Rest s' ∧ s'.life = { l with ownerRevoked := l.ownerRevoked ||| BitVec.ofNat 4 (2 ^ slot), requests := l.requests + 1 } ∧
            bitOf l.ownerRevoked slot = false) ∧
        (op = 9 → s'.cp = { s.cp with restarting := true, ram := [], ramCheck := [] } ∧ s'.life.patchCopies = [some r.body, some r.body] ∧ s'.life.requests = l.requests ∧ ∃ p : Nat, p = ofBytesLE (r.body.take 64) ∧
            s'.life.patchFloor = max l.patchFloor (p / 2 ^ 440 % 256) ∧
          s'.life.patch.map (fun x => x.1.toNat) = some (p / 2 ^ 448 % 2 ^ 32) ∧ l.patchFloor ≤ p / 2 ^ 448 % 2 ^ 32) ∧
        (op = 1 ∨ 5 ≤ op ∧ op ≤ 8 → s'.life.transition = some (op, imm) ∧ s'.life.requests = l.requests ∧ (imm = false →
            s.occ.state = .running → s'.occ.state = .twilight ∧ s'.occ.after = .transition) ∧
          (s.occ.state = .loading → s'.occ.state = .none ∧ s'.occ.reason = 9) ∧ (imm = true → s.occ.state = .running → s'.occ = s.occ ∧
              s'.items = s.items))) ∧
      -- what an accepted request has met (R490, R491)
      (lifeCode s1 r = 0 → h / 2 ^ 384 = Config.serial.toNat ∧ l.transition = none ∧ (op ≠ 9 → h / 2 ^ 224 % 2 ^ 32 = l.requests ∧
          l.requests < 128) ∧
        let signer := h / 2 ^ 200 % 256
        let owner : Prop := signer ≤ 3 ∧ bitOf l.ownerFused signer = true ∧ bitOf l.ownerRevoked signer = false
        (op = 1 → l.state = 0 ∧ signer = 0x10) ∧ (op = 2 → l.state = 1 ∧ l.certified = false) ∧ (op = 3 → (signer = 0x10 ∧ (l.state = 1 ∨
            l.state = 3)) ∨ (owner ∧ l.state = 2)) ∧
        (op = 4 → owner ∧ (l.state = 2 ∨ l.state = 3)) ∧ (op = 5 → owner ∧ l.state = 1 ∧ l.certified = true) ∧ (op = 6 → owner ∧
            l.state = 2) ∧ (op = 7 → owner ∧ l.state = 3) ∧
        (op = 8 → (owner ∨ signer = 0x10) ∧ 1 ≤ l.state ∧ l.state ≤ 3) ∧ (op = 9 → signer = 0x11 ∧ l.state ≤ 3 ∧ s.occ.state = .none))) ∧
    (l.transition = none → Completes (.transitionApply t) s s1) ∧
    (∀ k i, l.transition = some (k, i) → (i = false → s.occ.state ≠ .none → Completes (.transitionApply t) s s1) ∧
      (i = true ∨ s.occ.state = .none → ∃ s', Completes (.transitionApply t) s s' ∧ s'.mem.cells = [] ∧ s'.mem.check = [] ∧ s'.items = [] ∧
          s'.queues = State.reset.queues ∧ s'.obj = State.reset.obj ∧ s'.time.now = 0 ∧
        s'.time.servo = .freerun ∧ s'.occ.state = .none ∧ s'.pins.devnum = (s.pins.devnum ||| s.pins.openStrap) &&& ~~~s.pins.openStrap ∧
            s'.life.transition = none ∧ s'.life.patch = none ∧
        s'.life.requests = l.requests + 1 ∧ s'.life.ownerFused = l.ownerFused ∧ s'.life.ownerRevoked = l.ownerRevoked ∧
            s'.life.certified = l.certified ∧ s'.pending = s.pending ∧
        s'.life.state = (if k = 1 then 1 else if k = 5 ∨ k = 7 then 2 else if k = 6 then 3 else if k = 8 then 4 else l.state) ∧
            (s'.life.keyDestroyed = true ↔ k = 8 ∨ (k ≠ 1 ∧ l.keyDestroyed = true)) ∧
        s'.life.keyGen = l.keyGen + (if k = 1 then 1 else 0))) ∧
    -- attestation (R488, R500)
    (Served s req → req.opcode = 3 → req.index = 0x1107 → req.sub = 0 → req.payload = (if req.who = .pcie then bytesLE 4 nonce.toNat ++
        bytesLE 4 0 ++ bytesLE 4 4 else bytesBE 4 nonce.toNat ++ bytesBE 4 0 ++ bytesBE 4 4) →
      (l.state = 0 ∨ l.state = 4 → ∃ s', Completes (.attestation req t) s s' ∧ Answered s s' req 12 [] ∧ NoEffect s s' t) ∧
      (l.state = 1 ∨ l.state = 2 ∨ l.state = 3 → ∃ s', Completes (.attestation req t) s s' ∧
          Answered s s' req 0 ((attestReport s1 nonce.toNat).take 4) ∧ NoEffect s s' t))

/-- R374, R376, R461, R491, R493, R527, R528, R533: POR_N, PERST_N and a deep dip of a rail put the device into reset with every state at
its reset value but the fuses; it leaves the reset once both pins are high and every rail is good, with the straps sampled, an open strap
taken as 0, reported, and every Vrelol port JOIN_REFUSED. A rail out of tolerance holds the device in reset with ALERT_N low. -/
def Obligations.ResetsAndRails : Prop :=
  ∀ (s : State) (t : Time) (straps opens : BitVec 6) (evt : BitVec 4) (rail mv : Nat), let p := s.pins
    let r := State.reset
    let Fresh (s' : State) : Prop := s'.mem = r.mem ∧ s'.items = [] ∧ s'.queues = r.queues ∧ s'.obj = r.obj ∧ s'.cores = [] ∧
        s'.clusters = [] ∧ s'.crossing = [] ∧ s'.pool = r.pool ∧ s'.weights = r.weights ∧ s'.fh = r.fh ∧ s'.global = r.global ∧
      s'.occ = r.occ ∧ s'.bus = r.bus ∧ s'.pmu = r.pmu ∧ s'.cap = r.cap ∧ s'.time.now = 0 ∧ s'.time.servo = .freerun ∧
          s'.life = { s.life with transition := none, partialReq := [], patch := none, patchCopies := [none, none] } ∧ s'.pending = s.pending ∧
      s'.pins.halted = false ∧ s'.pins.throttle = [0, 0, 0] ∧ s'.pins.temps = p.temps ∧ s'.pins.jtag = 0
    let Held (s' : State) : Prop := Fresh s' ∧ s'.faults = [] ∧ s'.pins.devnum = p.devnum ∧ s'.units = r.units ∧ s'.fabric = r.fabric
    let Leaves (s' : State) : Prop := Fresh s' ∧ Active s' ∧ s'.pins.porLow = false ∧ s'.pins.perstLow = false ∧ s'.pins.railBad = false ∧
        s'.pins.devnum = straps &&& ~~~opens ∧ s'.pcie.bar4 = straps &&& ~~~opens ∧
        s'.time.evt.map (fun e => e.level) = (List.range 4).map (fun i => bitOf evt i) ∧
      (∀ i, i < 6 → (bitOf opens i = true → pinStatus s' (4 + i) = 4) ∧ (bitOf opens i = false → pinStatus s' (4 + i) = 0)) ∧
      (opens = 0 → s'.faults = [] ∧ s'.fabric = r.fabric ∧ s'.units = r.units ∧ s'.pins.alert = false) ∧ (opens ≠ 0 →
          s'.pins.alert = true ∧ ∀ n, n < 8 → bitOf (vlPort s' n).faults 10 = true)
    (∃ s', Completes (.porNAssert t) s s' ∧ Held s' ∧ s'.pins.porLow = true ∧ s'.pins.thermtrip = false ∧ s'.pins.perstLow = p.perstLow) ∧
    (∃ s', Completes (.perstNAssert t) s s' ∧ Held s' ∧ s'.pins.perstLow = true ∧ s'.pins.thermtrip = p.thermtrip ∧
        s'.pins.porLow = p.porLow) ∧
    (p.porLow = false → Completes (.porNDeassert straps opens evt t) s s) ∧ (p.perstLow = false →
        Completes (.perstNDeassert straps opens evt t) s s) ∧
    (p.porLow = true → (p.perstLow = true → Completes (.porNDeassert straps opens evt t) s { s with pins := { p with porLow := false } }) ∧
      (p.perstLow = false → p.railBad = true →
          Completes (.porNDeassert straps opens evt t) s { s with pins := { p with porLow := false, alert := true } }) ∧
      (p.perstLow = false → p.railBad = false → ∃ s', Completes (.porNDeassert straps opens evt t) s s' ∧ Leaves s')) ∧
    (p.perstLow = true → (p.porLow = true →
        Completes (.perstNDeassert straps opens evt t) s { s with pins := { p with perstLow := false } }) ∧
      (p.porLow = false → p.railBad = true →
          Completes (.perstNDeassert straps opens evt t) s { s with pins := { p with perstLow := false, alert := true } }) ∧
      (p.porLow = false → p.railBad = false → ∃ s', Completes (.perstNDeassert straps opens evt t) s s' ∧ Leaves s')) ∧
    (13 ≤ rail → ∀ b, Completes (.railDip rail mv b t) s s) ∧
    (rail < 13 → p.railMv.length = 13 → (∃ s', Completes (.railDip rail mv false t) s { s.atTime t with pins := s' } ∧
        s' = { p with railMv := s'.railMv } ∧ s'.railMv.getD rail 0 = mv ∧ ∀ j, j ≠ rail → s'.railMv.getD j 0 = p.railMv.getD j 0) ∧
      (∃ s', Completes (.railDip rail mv true t) s s' ∧ Held s' ∧ s'.pins.railBad = true ∧ s'.pins.alert = true ∧
          s'.pins.railMv.getD rail 0 = mv ∧ s'.pins.porLow = p.porLow)) ∧
    (p.railBad = true → ((p.porLow = true ∨ p.perstLow = true) → ∃ s', Completes (.railRecovery straps opens evt t) s s' ∧
        s' = { s with pins := { p with railMv := s'.pins.railMv, railBad := false, alert := false } }) ∧
      (p.porLow = false → p.perstLow = false → ∃ s', Completes (.railRecovery straps opens evt t) s s' ∧ Leaves s' ∧
          s'.pins.railMv = [750, 750, 1050, 1050, 400, 400, 750, 850, 900, 900, 1800, 1800, 1800])) ∧
    (p.railBad = false →
        Completes (.railRecovery straps opens evt t)
        s { s with pins := { p with railMv := [750, 750, 1050, 1050, 400, 400, 750, 850, 900, 900, 1800, 1800, 1800] } })

/-- R366, R378, R390, R524, R525, R532, R534 to R538: a sample gives a die's sensors their readings, one outside -40 to 150 °C none and a
record when it becomes so; a die with fewer than half its sensors valid counts as at 100 °C; its throttle level follows the hottest, a rise
with a THROTTLE record, and 105 °C halts the package with every island stopped. A pin fault found where R532 detects it sets its bit with
one record at the address of the pin's status byte; clearing writes none. A silent regulator is marked. -/
def Obligations.SensorsAndPinFaults : Prop :=
  ∀ (s : State) (t : Time) (d : BitVec 2) (rs : List Int) (k : Nat) (f : PinFault) (b1 : BitVec 1), Active s → s.pins.temps.length = 40 →
      s.pins.tempLatched.length = 3 → s.pins.throttle.length = 3 → s.pins.below97.length = 3 → s.pins.avsNoResponse.length = 2 →
      let s1 := s.atTime t
    let p := s.pins
    let first := if d = 0 then 0 else if d = 1 then 16 else 32
    let n := if d = 2 then 8 else 16
    let good (x : Int) : Bool := decide (-10240 ≤ x ∧ x ≤ 38400)
    let oks := rs.filter good
    let lost := ((List.range n).filter (fun i => (p.temps.getD (first + i) none).isSome && !good (rs.getD i 0))).length
    let few : Bool := p.tempLatched.getD d.toNat false || decide (2 * oks.length < n)
    let v := if few then 25600 else oks.foldl max (-10240)
    let old := p.throttle.getD d.toNat 0
    let bit : Nat := match f with | .shortLow => 0 | .shortHigh => 1 | .opened => 2 | .inverted => 3 | .noSignal => 4
    let isOut : Bool := decide (k = 2 ∨ k = 3 ∨ k = 11 ∨ (14 ≤ k ∧ k ≤ 21) ∨ k = 31 ∨ k = 33 ∨ k = 34)
    let isTiming : Bool := decide (k = 10 ∨ (22 ≤ k ∧ k ≤ 25) ∨ k = 32)
    let found : Bool := match f with
      | .shortLow => isOut
      | .shortHigh => isOut
      | .opened => isTiming
      | .inverted => decide (k = 10)
      | .noSignal => decide (k = 10 ∨ k = 12 ∨ k = 13)
    let Same (s' : State) : Prop := s'.items = s.items ∧ s'.queues = s.queues ∧ s'.occ = s.occ ∧ s'.obj = s.obj ∧ s'.cores = s.cores ∧
        (s.cap.running = none → s'.mem = s.mem)
    let Marked (s' : State) (bit : Nat) (on : Bool) : Prop := (∀ j, j ≠ k → pinStatus s' j = pinStatus s j) ∧
        bitOf (pinStatus s' k) bit = on ∧ ∀ x, x ≠ bit → bitOf (pinStatus s' k) x = bitOf (pinStatus s k) x
    (d = 3 → Completes (.sensorSample d rs t) s s1) ∧
    (d ≠ 3 → rs.length = n → ∃ s', Completes (.sensorSample d rs t) s s' ∧ Same s' ∧
      (∀ i, i < n → s'.pins.temps.getD (first + i) none = if good (rs.getD i 0) then some (rs.getD i 0) else none) ∧
      (∀ j, j < first ∨ first + n ≤ j → s'.pins.temps.getD j none = p.temps.getD j none) ∧ s'.pins.tempLatched.getD d.toNat false = few ∧
      let level := s'.pins.throttle.getD d.toNat 0
      let trip : Bool := oks.any (fun x => decide (26880 ≤ x))
      (26112 ≤ v → level = 2) ∧ (25600 ≤ v → v < 26112 → level = 1) ∧ (24832 ≤ v → v < 25600 → level = old) ∧
      (v < 24832 → (p.below97.getD d.toNat none = none → level = old ∧ s'.pins.below97.getD d.toNat none = some s1.time.now) ∧
        ∀ b, p.below97.getD d.toNat none = some b → s'.pins.below97.getD d.toNat none = some b ∧ (b + 10000000 ≤ s1.time.now → level = 0) ∧
            (s1.time.now < b + 10000000 → level = old)) ∧
      (24832 ≤ v → s'.pins.below97.getD d.toNat none = none) ∧ (∀ j, j ≠ d.toNat → s'.pins.throttle.getD j 0 = p.throttle.getD j 0) ∧
      s'.lastFault = s.lastFault + lost + (if old < level then 1 else 0) + (if trip then 1 else 0) ∧
      (old < level → ∃ r, tget s'.faults ((s.lastFault + lost + 1) % 256) = some r ∧ r.cause = causeThrottle ∧ r.unit = dieUnit d.toNat) ∧
      (trip = true → s'.pins.halted = true ∧ s'.pins.thermtrip = true ∧ s'.pins.alert = true ∧ (∀ i, i < 61 →
          (islandOf s' i).stopped = true) ∧
        ∃ r, tget s'.faults (s'.lastFault % 256) = some r ∧ r.cause = causeHalt ∧ r.unit = packageUnit) ∧
      (trip = false → s'.pins.halted = p.halted ∧ s'.pins.thermtrip = p.thermtrip ∧ s'.islands = s.islands)) ∧
    (found = false → Completes (.pinFaultDetect k f t) s s1 ∧ Completes (.pinStatusClear k f t) s s1) ∧
    (found = true → bitOf (pinStatus s k) bit = false → ∃ s', Completes (.pinFaultDetect k f t) s s' ∧ Same s' ∧ Marked s' bit true ∧
        NewRecord s s' 0x7000 causeEnvironment ∧ s'.pins.alert = true ∧
      (∃ r, tget s'.faults ((s.lastFault + 1) % 256) = some r ∧ r.action = 0 ∧ r.address % 2 ^ 36 = 0xD01FEF200 + k) ∧
      (f = .noSignal → (if k = 10 then 2 else 5) ∉ s'.time.available) ∧ (f = .inverted → s'.time.ppsInverted = true)) ∧
    (found = true → bitOf (pinStatus s k) bit = true → ∃ s', Completes (.pinFaultDetect k f t) s s' ∧ Same s' ∧ s'.pins = s.pins ∧
        NoRecord s s') ∧
    (found = true → ∃ s', Completes (.pinStatusClear k f t) s s' ∧ Same s' ∧ Marked s' bit false ∧ NoRecord s s' ∧ (f = .noSignal →
        (if k = 10 then 2 else 5) ∈ s'.time.available) ∧ (f ≠ .noSignal → s'.time = s1.time)) ∧
    (isTiming = false → ∀ b, Completes (.biasSense k b t) s s1) ∧
    (isTiming = true → (∃ s', Completes (.biasSense k true t) s s' ∧ Same s' ∧ Marked s' 2 true ∧ (bitOf (pinStatus s k) 2 = false →
        NewRecord s s' 0x7000 causeEnvironment) ∧ (bitOf (pinStatus s k) 2 = true → NoRecord s s')) ∧
      (∃ s', Completes (.biasSense k false t) s s' ∧ Same s' ∧ Marked s' 2 false ∧ NoRecord s s')) ∧
    (∃ s', Completes (.avsNoResponse b1 t) s s' ∧ Same s' ∧ s'.pins.avsNoResponse.getD b1.toNat false = true ∧
        s'.pins.avsNoResponse.getD (1 - b1.toNat) false = p.avsNoResponse.getD (1 - b1.toNat) false ∧ s'.pins.avs = p.avs ∧
        NewRecord s s' 0x7000 causeEnvironment)

/-- R482 to R485, R449: the sideband takes a dynamic address once, answers the four MCTP control commands, and recovers a stuck line by who
drives it, one record an episode; the management port answers ARP, echoes and solicitations for its own addresses while its link is up; a
JTAG instruction that drives pins acts as BYPASS, with a record, in every occupancy state but NONE. -/
def Obligations.SidebandPortAndJtag : Prop :=
  ∀ (s : State) (t : Time) (a7 : BitVec 7) (who eid : BitVec 8) (ip ip2 : BitVec 32) (mac : BitVec 48) (v6 v62 : BitVec 128)
      (pay : List Byte) (sda scl own : Bool) (us : Nat) (b : Bool) (pre : List Bool), let s1 := s.atTime t
    let Out1 (c : Instr) (o : Output) : Prop := Completes c s { s with out := s.out ++ [o] }
    let quiet : Prop := stopped s = true ∨ s.bus.stuck = true
    let heard : Prop := Active s ∧ s.bus.stuck = false
    let mcast : List Instr := [.i3cEntdaa a7, .setEndpointId who eid, .getEndpointId who, .getMctpVersionSupport who,
        .getMessageTypeSupport who]
    let up : Prop := Active s ∧ s.bus.mgmtUp = true
    let frames : List Instr := [.arpRequest ip mac ip2, .icmpEcho ip ip2 pay, .neighbourDiscovery v6 mac, .icmpv6Echo v6 v62 pay]
    let mine : Prop := rwVal s 0x1020 2 0 ≠ 0 ∧ ip.toNat = rwVal s 0x1020 2 0
    let set6 := rwVal s 0x1020 5 0
    let mine6 : Prop := v6 = linkLocal ∨ (set6 ≠ 0 ∧ v6 = BitVec.ofNat 128 (ofBytesBE (bytesLE 16 set6)))
    let bus := s.bus
    (quiet → ∀ c ∈ mcast, Completes c s s) ∧
    (heard → (bus.i3cAddr = none → Completes (.i3cEntdaa a7) s { s with bus := { bus with i3cAddr := some a7 } }) ∧ (bus.i3cAddr ≠ none →
        Completes (.i3cEntdaa a7) s s) ∧
      (eid ≠ 0 → eid ≠ 0xFF →
          Completes (.setEndpointId who eid)
          s { s with bus := { bus with eid := eid }, out := s.out ++ [.mctp who [0, 0, 1, 0, 0, eid, 0]] }) ∧
      (eid = 0 ∨ eid = 0xFF → Out1 (.setEndpointId who eid) (.mctp who [0, 0, 1, 2])) ∧
          Out1 (.getEndpointId who) (.mctp who [0, 0, 2, 0, bus.eid, 0, 0]) ∧
      Out1 (.getMctpVersionSupport who) (.mctp who ([0, 0, 4, 0] ++ Config.mctpVersions)) ∧
          Out1 (.getMessageTypeSupport who) (.mctp who [0, 0, 5, 0, 2, 0, 0x7E])) ∧
    (¬ up → ∀ c ∈ frames, Completes c s s) ∧
    (up → (¬ mine → Completes (.arpRequest ip mac ip2) s s ∧ Completes (.icmpEcho ip ip2 pay) s s) ∧
      (mine → Out1 (.arpRequest ip mac ip2) (.arpReply mac ip2) ∧ (pay.length ≤ 1472 →
          Out1 (.icmpEcho ip ip2 pay) (.icmpReply ip2.toNat pay)) ∧ (1472 < pay.length → Completes (.icmpEcho ip ip2 pay) s s)) ∧
      (¬ mine6 → Completes (.neighbourDiscovery v6 mac) s s ∧ Completes (.icmpv6Echo v6 v62 pay) s s) ∧
      (mine6 → Out1 (.neighbourDiscovery v6 mac) (.ndReply v6) ∧ (pay.length ≤ 1452 →
          Out1 (.icmpv6Echo v6 v62 pay) (.icmpReply v62.toNat pay)) ∧ (1452 < pay.length → Completes (.icmpv6Echo v6 v62 pay) s s))) ∧
    (Active s → Completes (.mgmtLinkUp b t) s { s1 with bus := { bus with mgmtUp := b } } ∧
      (sda = false → scl = false → Completes (.sidebandStuck sda scl own us t) s { s1 with bus := { bus with stuck := false } }) ∧
      (sda = true ∨ scl = true → us ≤ 35000 → Completes (.sidebandStuck sda scl own us t) s s1) ∧
      (sda = true ∨ scl = true → 35000 < us → ∃ s', Completes (.sidebandStuck sda scl own us t) s s' ∧ s'.items = s.items ∧
          s'.mem = s.mem ∧ s'.queues = s.queues ∧ s'.occ = s.occ ∧
        (bus.stuck = false → NewRecord s s' 0x7000 causeEnvironment) ∧ (bus.stuck = true → NoRecord s s') ∧
        (own = true → s'.bus = { bus with stuck := false, i3cAddr := none, busClears := (bus.busClears + 1) % 2 ^ 32 } ∧ s'.out = s.out) ∧
        (own = false → scl = false → s'.bus = { bus with stuck := true, busClears := (bus.busClears + 1) % 2 ^ 32 } ∧ s'.out = s.out ++
            [.sclPulses 9]) ∧
        (own = false → scl = true → s'.bus = { bus with stuck := true } ∧ s'.out = s.out))) ∧
    -- JTAG (R485)
    (let Only (s' : State) (n : Nat) : Prop := s' =
        { s with pins := { s.pins with jtag := n, boundary := s'.pins.boundary }, out := s'.out, freeCount := s'.freeCount };
      (∃ s', Completes (.jtagBypass b) s s' ∧ Only s' 0 ∧ s'.pins.boundary = s.pins.boundary ∧ s'.out = s.out ++ [.jtag [false, b]] ∧
          s'.freeCount = s.freeCount) ∧
      (∃ s', Completes .jtagIdcode s s' ∧ Only s' 1 ∧ s'.pins.boundary = s.pins.boundary ∧ s'.freeCount = s.freeCount ∧
          ∃ w, s'.out = s.out ++ [.jtag w] ∧ w.length = 32 ∧ ∀ i, i < 32 → w.getD i false = Nat.testBit 0x10348547 i) ∧
      (∃ s', Completes (.jtagSamplePreload pre) s s' ∧ Only s' 2 ∧ s'.pins.boundary = pre ∧ ∃ w, s'.out = s.out ++ [.jtag w] ∧
          w.length = pre.length) ∧
      ∀ x ∈ ([(.jtagExtest t, 3), (.jtagExtestPulse t, 4), (.jtagExtestTrain t, 5), (.jtagClamp t, 6), (.jtagHighz t,
          7)] : List (Instr × Nat)),
        (s.occ.state = .none → Completes x.1 s { s1 with pins := { s.pins with jtag := x.2 } }) ∧
        (s.occ.state ≠ .none → ∃ s', Completes x.1 s s' ∧ s'.pins.jtag = 0 ∧ s'.pins.boundary = s.pins.boundary ∧
            NewRecord s s' 0x7000 causeEnvironment ∧ s'.mem = s.mem ∧ s'.items = s.items ∧ s'.occ = s.occ))

/-- R509, R511 to R514: a wrap of an enabled counter sets its OVERFLOW bit and nothing else of its record; with OVF_IRQ it adds one sample,
with the position captured for cores and clusters only and the packet address for the DSP engine only, and raises PMU_VECTOR, or is lost
where the ring is full. -/
def Obligations.CounterWrapsSample : Prop :=
  ∀ (s : State) (t : Time) (u src : UAddr) (i : BitVec 2) (alm : BitVec 32) (step : BitVec 12) (pc : BitVec 20) (q : BitVec 12)
      (seq : Seq), Active s → let s1 := s.atTime t
    let c : Instr := .counterWrap u i src alm step pc q seq t
    let k := counterIndex u
    let r := counterOf s k
    let cfg := r.config.getD i.toNat 0
    let counts : Prop := unitValid u = true ∧ 1 ≤ uLevel u ∧ bitOf cfg 15 = true ∧ rwVal s 0x38F0 1 0 ≠ 1
    let full : Prop := (s.pmu.written + 2 ^ 32 - rwVal s 0x38F0 4 0) % 2 ^ 32 = 256
    let r' : CounterSt := { r with overflow := r.overflow ||| BitVec.ofNat 4 (2 ^ i.toNat) }
    let pmu1 : PmuSt := { s.pmu with recs := tset s.pmu.recs k r' }
    let vec := rwVal s 0x38F0 2 0xFFFF
    (¬ counts → Completes c s s1) ∧
    (counts → bitOf cfg 13 = false → Completes c s { s1 with pmu := pmu1 }) ∧
    (counts → bitOf cfg 13 = true → full → Completes c s { s1 with pmu := { pmu1 with lost := (s.pmu.lost + 1) % 2 ^ 32 } }) ∧
    (counts → bitOf cfg 13 = true → ¬ full → s.time.now < 2 ^ 64 → t < 2 ^ 64 → ∃ s' w, Completes c s s' ∧
        s'.pmu = { pmu1 with samples := tset s.pmu.samples (s.pmu.written % 256) w, written := (s.pmu.written + 1) % 2 ^ 32 } ∧
      s' = { s1 with pmu := s'.pmu, pcie := s'.pcie, out := s'.out } ∧
      (vec = 0xFFFF → s'.out = s.out ∧ s'.pcie = s.pcie) ∧ (vec < 2048 → s'.out = s.out ++ [.msix vec] ∨ (s'.out = s.out ∧
          vec ∈ s'.pcie.msixPending)) ∧
      bitsOf w 255 192 = s1.time.now ∧ bitsOf w 191 176 = u.toNat ∧ bitsOf w 159 152 = cfg.toNat / 2 ^ 24 ∧ bitsOf w 151 150 = i.toNat ∧
          bitsOf w 149 128 = 0 ∧ bitsOf w 127 96 = alm.toNat ∧
      bitsOf w 63 52 = q.toNat ∧ bitsOf w 51 20 = seq.toNat ∧ bitsOf w 19 0 = 0 ∧
      (3 ≤ uLevel u → bitsOf w 175 160 = 0 ∧ bitsOf w 95 84 = 0 ∧ bitsOf w 83 64 = 0) ∧
      (uLevel u < 3 → bitsOf w 175 160 = src.toNat ∧ bitsOf w 95 84 = step.toNat ∧ (uLevel src = 0 → uKind src = 2 →
          bitsOf w 83 64 = pc.toNat) ∧ (uLevel src ≠ 0 ∨ uKind src ≠ 2 → bitsOf w 83 64 = 0)))


/-- Forms that complete, one by one, each under conditions on the state and its operands alone, with its own effect. R286, R295, R296: a pointer
mismatch empties the queue or FIFO and is recorded; a FLUSH is done at once or waits, and takes effect at packet boundaries; a transfer
issues. R320, R321: a fetched entry that no check refuses waits for its cut, or is accepted. R423, R307, R373, R406, R411, R463, R514: the
writes of the objects that act. R433, R453, R459, R460: the host link's events. R489 to R498: the lifecycle requests. R482, R485: the MCTP
control commands and the JTAG instructions in occupancy state NONE. R509: the wrap of a counter. -/
def Obligations.FormsComplete : Prop :=
  ∀ (s : State) (t : Time), Active s → let s1 := s.atTime t
    let now := max s.time.now t
    let Faulted (s' : State) (u : UAddr) : Prop := ∃ r, tget s'.faults ((s.lastFault + 1) % 256) = some r ∧ r.cause = causePointer ∧ r.unit = u
    -- queues and movers
    (∀ (c : BitVec 3) (q : BitVec 6), let x := qrecOf s c.toNat q.toNat
      ∃ s', Completes (.queuePointerMismatch (.clusterQueue c q) t) s s' ∧ Faulted s' (clusterEng c.toNat 7 6 0) ∧
        qrecOf s' c.toNat q.toNat = { writer := x.writer, reader := x.reader, base := x.base, depth := x.depth, esize := x.esize
                                      packetised := x.packetised }) ∧
    (∀ k : Nat, k < 48 → ∃ s', Completes (.queuePointerMismatch (.tileQueue k) t) s s' ∧ Faulted s' (coreEng k 6 0) ∧ (coreOf s' k).tq = []) ∧
    (∀ e : UAddr, unitValid e = true → uLevel e = 0 → ∃ s', Completes (.queuePointerMismatch (.streamFifo e) t) s s' ∧
      (engMemOf s' e).fifo = {}) ∧
    (∀ (c : BitVec 3) (m : Nat) (x : MovCmd), let u := movUnit s c.toNat m
      m < 6 → m < (clusterOf s c.toNat).movers.length → (clusterOf s c.toNat).queues.length = 64 → canRun s u = true →
      (x.dst.toNat < 64 → queueFieldOk s c.toNat x.dst = true → movOk s c.toNat { x with opcode := 2 } = true →
        let q := qrecOf s c.toNat x.dst.toNat
        ∃ s', Completes (.moverFlush c m x) s s' ∧ MoverRun s s' c.toNat m ∧ s'.mem = s.mem ∧
          qrecOf s' c.toNat x.dst.toNat = { q with flushPend := q.flushPend || !qEmpty s c.toNat q }) ∧
      (∀ n, 0 < (movOf s c.toNat m).toIssue → ∃ s', Completes (.moverTransferIssue c m n true) s s' ∧ s'.mem = s.mem ∧
        (movOf s' c.toNat m).toIssue = (movOf s c.toNat m).toIssue - 1 ∧
        (movOf s' c.toNat m).outstanding = min (if m < 2 then 64 else 96) ((movOf s c.toNat m).outstanding + 1))) ∧
    (∀ (c : BitVec 3) (q : BitVec 6), let x := qrecOf s c.toNat q.toNat
      x.flushPend = true → x.packetised = false ∨ x.readLeft = 0 → ∃ s', Completes (.queueFlushEffect c q) s s' ∧ s'.mem = s.mem ∧
        qrecOf s' c.toNat q.toNat = { x with rptr := x.wptr, rptr2 := x.wptr, flushPend := false }) ∧
    -- items
    (∀ (qn : BitVec 12) (f : Fetched), let q := queueOf s qn.toNat
      let op := f.entry.toNat % 256
      let Got (s' : State) (ph : ItemPhase) : Prop := (queueOf s' qn.toNat).fetchNext = (q.fetchNext + 1) % 2 ^ 32 ∧
        ∃ i ∈ s'.items, i.queue = qn.toNat ∧ i.seq = q.fetchNext ∧ i.opcode = op ∧ i.fetched = f ∧ i.phase = ph
      canFetch s1 qn.toNat = true → f.read = .good → fetchRefusal s1 qn.toNat q.fetchNext f (arrivalOf q q.fetchNext) = none →
      (op = 0 → ∃ s', Completes (.nop qn f t) s s' ∧ Got s' .accepted) ∧
      (op = 1 → ∃ s', Completes (.ulSlot qn f t) s s' ∧ Got s' .waiting) ∧
      (op = 2 → ∃ s', Completes (.dlSlot qn f t) s s' ∧ Got s' .waiting) ∧
      (op = 3 → ∃ s', Completes (.prach qn f t) s s' ∧ Got s' .waiting) ∧
      (op = 4 → ∃ s', Completes (.srsReport qn f t) s s' ∧ Got s' .waiting) ∧
      (op = 5 → ∃ s', Completes (.trainStep qn f t) s s' ∧ Got s' .accepted) ∧
      (op = 6 → ∃ s', Completes (.modelCommit qn f t) s s' ∧ Got s' .accepted) ∧
      (op = 7 → ∃ s', Completes (.capture qn f t) s s' ∧ Got s' .accepted) ∧
      (op = 9 → ∃ s', Completes (.barrier qn f t) s s' ∧ Got s' .accepted)) ∧
    -- objects that act
    (∀ (req : ObjReq) (v : Nat), Served s req → req.opcode = 2 → let i := req.index.toNat
      let sub := req.sub.toNat
      let value (n : Nat) : List Byte := if req.who = .pcie then bytesLE n v else bytesBE n v
      (i = 0x1206 → 1 ≤ sub → sub ≤ 4 → req.payload = value 4 → (if sub = 1 then 1 else 10) ≤ v →
        v ≤ (if sub = 2 then 10000 else 1000000) →
        ∃ s', Completes (.write req t) s s' ∧ Answered s s' req 0 [] ∧ rwVal s' i sub 0 = v) ∧
      (i = 0x1010 → sub = 0 → req.payload = [1] → s.pins.halted = false →
        ∃ s', Completes (.alertAck req t) s s' ∧ Answered s s' req 0 [] ∧ s'.pins.alert = false) ∧
      (i = 0x3700 → sub = 1 → req.payload = value 2 → v < 65536 → unitValid (BitVec.ofNat 16 v) = true →
        ∃ s', Completes (.unitQuery req t) s s' ∧ Answered s s' req 0 [] ∧ rwVal s' i sub 0 = v) ∧
      (i = 0x1310 → sub = 0 → req.payload = [BitVec.ofNat 8 v] → 1 ≤ v → v ≤ 3 → s.occ.state = .none →
        ∃ s', Completes (.fhMode req t) s s' ∧ Answered s s' req 0 [] ∧ fhPorts s' = 2 ^ (v + 1)) ∧
      (i = 0x38F0 → sub = 1 → req.payload = [BitVec.ofNat 8 v] → v < 2 →
        ∃ s', Completes (.freeze req t) s s' ∧ Answered s s' req 0 [] ∧ rwVal s' 0x38F0 1 0 = v) ∧
      (i = 0x1223 → sub = 0 → req.payload = bytesLE 16 v → v < 2 ^ 122 → v % 4 ≠ 3 → barrierFits s1 (globalBody v) now = true →
        ∃ s' o, Completes (.globalOp req t) s s' ∧ Answered s s' req 0 [] ∧ s'.global.counter = s.global.counter + 1 ∧ o ∈ s'.global.ops ∧
          o.armed = true ∧ o.a.op.toNat = v % 4 ∧ o.a.opNumber = s.global.counter) ∧
      (∀ q : Nat, i = 0x2000 + q → q < 4096 → sub = 4 → req.payload = value 4 → (∃ k, 1 ≤ k ∧ k ≤ 16 ∧ v = 2 ^ k) →
        (queueOf s q).qstate = 0 → ∃ s', Completes (.queueOpen req t) s s' ∧ Answered s s' req 0 [] ∧ (queueOf s' q).depth = v ∧
          (queueOf s' q).qstate = 1 ∧ (queueOf s' q).tail = (queueOf s q).firstSeq) ∧
      (∀ q : Nat, i = 0x2000 + q → q < 4096 → sub = 4 → req.payload = List.replicate 4 0 → (queueOf s q).tail = (queueOf s q).completeNext →
        ∃ s', Completes (.queueClose req t) s s' ∧ Answered s s' req 0 [] ∧ (queueOf s' q).qstate = 0)) ∧
    -- the host link
    (s.occ.state = .none → Completes (.pcieFatalError t) s { s1 with pcie := { s.pcie with linkUp := false } } ∧
      Completes (.pcieLinkDown t) s { s1 with pcie := { s.pcie with linkUp := false } } ∧
      Completes (.busMasterDisable t) s { s1 with pcie := { s.pcie with busMaster := false } } ∧
      Completes (.hotReset t) s { s1 with pcie := { s.pcie with
        busMaster := false, d3hot := false, bar2Bits := 36, bar4 := s.pins.devnum, msixTable := [], msixPending := [], doeError := false
        doeReply := [] } }) ∧
    -- the lifecycle
    (∀ r : LifeReq, s.cp.restarting = false → (unitOf s (dieUnit 2)).phase = .live → lifeCode s1 r = 0 → let op := r.header.toNat / 2 ^ 192 % 256
      let imm : Bool := r.header.toNat / 2 ^ 208 % 2 == 1
      let slot := r.header.toNat / 2 ^ 184 % 256
      (op = 1 → ∃ s', Completes (.provision r t) s s' ∧ s'.life.transition = some (1, imm)) ∧
      (op = 2 → ∃ s', Completes (.certify r t) s s' ∧ s'.life.certified = true ∧ s'.life.certificate = some r.body) ∧
      (op = 3 → ∃ s', Completes (.enrolOwner r t) s s' ∧ bitOf s'.life.ownerFused slot = true ∧ s'.life.requests = s.life.requests + 1) ∧
      (op = 4 → ∃ s', Completes (.revokeOwner r t) s s' ∧ bitOf s'.life.ownerRevoked slot = true ∧ s'.life.requests = s.life.requests + 1) ∧
      (op = 5 → ∃ s', Completes (.deploy r t) s s' ∧ s'.life.transition = some (5, imm)) ∧
      (op = 6 → ∃ s', Completes (.returnDevice r t) s s' ∧ s'.life.transition = some (6, imm)) ∧
      (op = 7 → ∃ s', Completes (.redeploy r t) s s' ∧ s'.life.transition = some (7, imm)) ∧
      (op = 8 → ∃ s', Completes (.decommission r t) s s' ∧ s'.life.transition = some (8, imm)) ∧
      (op = 9 → ∃ s', Completes (.installPatch r t) s s' ∧ s'.cp.restarting = true ∧ s'.life.patchCopies = [some r.body, some r.body])) ∧
    -- the sideband and JTAG
    (∀ who : BitVec 8, s.bus.stuck = false →
      Completes (.getEndpointId who) s { s with out := s.out ++ [.mctp who [0, 0, 2, 0, s.bus.eid, 0, 0]] } ∧
      Completes (.getMctpVersionSupport who) s { s with out := s.out ++ [.mctp who ([0, 0, 4, 0] ++ Config.mctpVersions)] } ∧
      Completes (.getMessageTypeSupport who) s { s with out := s.out ++ [.mctp who [0, 0, 5, 0, 2, 0, 0x7E]] }) ∧
    (s.occ.state = .none → Completes (.jtagExtest t) s { s1 with pins := { s.pins with jtag := 3 } } ∧
      Completes (.jtagExtestPulse t) s { s1 with pins := { s.pins with jtag := 4 } } ∧
      Completes (.jtagExtestTrain t) s { s1 with pins := { s.pins with jtag := 5 } } ∧
      Completes (.jtagClamp t) s { s1 with pins := { s.pins with jtag := 6 } } ∧
      Completes (.jtagHighz t) s { s1 with pins := { s.pins with jtag := 7 } }) ∧
    -- counters
    (∀ (u src : UAddr) (i : BitVec 2) (alm : BitVec 32) (step : BitVec 12) (pc : BitVec 20) (q : BitVec 12) (seq : Seq),
      let r := counterOf s (counterIndex u)
      let cfg := r.config.getD i.toNat 0
      unitValid u = true → 1 ≤ uLevel u → bitOf cfg 15 = true → bitOf cfg 13 = false → rwVal s 0x38F0 1 0 ≠ 1 →
      Completes (.counterWrap u i src alm step pc q seq t) s { s1 with pmu := { s.pmu with
        recs := tset s.pmu.recs (counterIndex u) { r with overflow := r.overflow ||| BitVec.ofNat 4 (2 ^ i.toNat) } } })
end

