-- ==== Sys2Proof/Laws/State.lean ====
section
/-! SUPPORT. Laws/State.lean: what the named updates of State leave alone, one lemma per update and field, so that no proof
unfolds a record update. -/

namespace Sys2Proof.Machine

@[simp] theorem atTime_pending (s : State) (t : Time) : (s.atTime t).pending = s.pending := rfl
@[simp] theorem atTime_mem (s : State) (t : Time) : (s.atTime t).mem = s.mem := rfl
@[simp] theorem atTime_crossing (s : State) (t : Time) : (s.atTime t).crossing = s.crossing := rfl
@[simp] theorem atTime_units (s : State) (t : Time) : (s.atTime t).units = s.units := rfl
@[simp] theorem atTime_cores (s : State) (t : Time) : (s.atTime t).cores = s.cores := rfl
@[simp] theorem atTime_clusters (s : State) (t : Time) : (s.atTime t).clusters = s.clusters := rfl
@[simp] theorem atTime_engMem (s : State) (t : Time) : (s.atTime t).engMem = s.engMem := rfl
@[simp] theorem atTime_islands (s : State) (t : Time) : (s.atTime t).islands = s.islands := rfl
@[simp] theorem atTime_dies (s : State) (t : Time) : (s.atTime t).dies = s.dies := rfl
@[simp] theorem atTime_cp (s : State) (t : Time) : (s.atTime t).cp = s.cp := rfl
@[simp] theorem atTime_faults (s : State) (t : Time) : (s.atTime t).faults = s.faults := rfl
@[simp] theorem atTime_lastFault (s : State) (t : Time) : (s.atTime t).lastFault = s.lastFault := rfl
@[simp] theorem atTime_occ (s : State) (t : Time) : (s.atTime t).occ = s.occ := rfl
@[simp] theorem atTime_weights (s : State) (t : Time) : (s.atTime t).weights = s.weights := rfl
@[simp] theorem atTime_queues (s : State) (t : Time) : (s.atTime t).queues = s.queues := rfl
@[simp] theorem atTime_items (s : State) (t : Time) : (s.atTime t).items = s.items := rfl
@[simp] theorem atTime_pool (s : State) (t : Time) : (s.atTime t).pool = s.pool := rfl
@[simp] theorem atTime_shareCur (s : State) (t : Time) : (s.atTime t).shareCur = s.shareCur := rfl
@[simp] theorem atTime_fh (s : State) (t : Time) : (s.atTime t).fh = s.fh := rfl
@[simp] theorem atTime_fabric (s : State) (t : Time) : (s.atTime t).fabric = s.fabric := rfl
@[simp] theorem atTime_global (s : State) (t : Time) : (s.atTime t).global = s.global := rfl
@[simp] theorem atTime_obj (s : State) (t : Time) : (s.atTime t).obj = s.obj := rfl
@[simp] theorem atTime_life (s : State) (t : Time) : (s.atTime t).life = s.life := rfl
@[simp] theorem atTime_pcie (s : State) (t : Time) : (s.atTime t).pcie = s.pcie := rfl
@[simp] theorem atTime_pins (s : State) (t : Time) : (s.atTime t).pins = s.pins := rfl
@[simp] theorem atTime_bus (s : State) (t : Time) : (s.atTime t).bus = s.bus := rfl
@[simp] theorem atTime_pmu (s : State) (t : Time) : (s.atTime t).pmu = s.pmu := rfl
@[simp] theorem atTime_cap (s : State) (t : Time) : (s.atTime t).cap = s.cap := rfl
@[simp] theorem atTime_out (s : State) (t : Time) : (s.atTime t).out = s.out := rfl
@[simp] theorem atTime_freeCount (s : State) (t : Time) : (s.atTime t).freeCount = s.freeCount := rfl

@[simp] theorem emit_pending (s : State) (o : Output) : (s.emit o).pending = s.pending := rfl
@[simp] theorem emit_time (s : State) (o : Output) : (s.emit o).time = s.time := rfl
@[simp] theorem emit_mem (s : State) (o : Output) : (s.emit o).mem = s.mem := rfl
@[simp] theorem emit_crossing (s : State) (o : Output) : (s.emit o).crossing = s.crossing := rfl
@[simp] theorem emit_units (s : State) (o : Output) : (s.emit o).units = s.units := rfl
@[simp] theorem emit_cores (s : State) (o : Output) : (s.emit o).cores = s.cores := rfl
@[simp] theorem emit_clusters (s : State) (o : Output) : (s.emit o).clusters = s.clusters := rfl
@[simp] theorem emit_engMem (s : State) (o : Output) : (s.emit o).engMem = s.engMem := rfl
@[simp] theorem emit_islands (s : State) (o : Output) : (s.emit o).islands = s.islands := rfl
@[simp] theorem emit_dies (s : State) (o : Output) : (s.emit o).dies = s.dies := rfl
@[simp] theorem emit_cp (s : State) (o : Output) : (s.emit o).cp = s.cp := rfl
@[simp] theorem emit_faults (s : State) (o : Output) : (s.emit o).faults = s.faults := rfl
@[simp] theorem emit_lastFault (s : State) (o : Output) : (s.emit o).lastFault = s.lastFault := rfl
@[simp] theorem emit_occ (s : State) (o : Output) : (s.emit o).occ = s.occ := rfl
@[simp] theorem emit_weights (s : State) (o : Output) : (s.emit o).weights = s.weights := rfl
@[simp] theorem emit_queues (s : State) (o : Output) : (s.emit o).queues = s.queues := rfl
@[simp] theorem emit_items (s : State) (o : Output) : (s.emit o).items = s.items := rfl
@[simp] theorem emit_pool (s : State) (o : Output) : (s.emit o).pool = s.pool := rfl
@[simp] theorem emit_shareCur (s : State) (o : Output) : (s.emit o).shareCur = s.shareCur := rfl
@[simp] theorem emit_fh (s : State) (o : Output) : (s.emit o).fh = s.fh := rfl
@[simp] theorem emit_fabric (s : State) (o : Output) : (s.emit o).fabric = s.fabric := rfl
@[simp] theorem emit_global (s : State) (o : Output) : (s.emit o).global = s.global := rfl
@[simp] theorem emit_obj (s : State) (o : Output) : (s.emit o).obj = s.obj := rfl
@[simp] theorem emit_life (s : State) (o : Output) : (s.emit o).life = s.life := rfl
@[simp] theorem emit_pcie (s : State) (o : Output) : (s.emit o).pcie = s.pcie := rfl
@[simp] theorem emit_pins (s : State) (o : Output) : (s.emit o).pins = s.pins := rfl
@[simp] theorem emit_bus (s : State) (o : Output) : (s.emit o).bus = s.bus := rfl
@[simp] theorem emit_pmu (s : State) (o : Output) : (s.emit o).pmu = s.pmu := rfl
@[simp] theorem emit_cap (s : State) (o : Output) : (s.emit o).cap = s.cap := rfl
@[simp] theorem emit_freeCount (s : State) (o : Output) : (s.emit o).freeCount = s.freeCount := rfl

@[simp] theorem setUnit_pending (s : State) (u : UAddr) (x : UnitSt) : (setUnit s u x).pending = s.pending := rfl
@[simp] theorem setUnit_time (s : State) (u : UAddr) (x : UnitSt) : (setUnit s u x).time = s.time := rfl
@[simp] theorem setUnit_mem (s : State) (u : UAddr) (x : UnitSt) : (setUnit s u x).mem = s.mem := rfl
@[simp] theorem setUnit_crossing (s : State) (u : UAddr) (x : UnitSt) : (setUnit s u x).crossing = s.crossing := rfl
@[simp] theorem setUnit_cores (s : State) (u : UAddr) (x : UnitSt) : (setUnit s u x).cores = s.cores := rfl
@[simp] theorem setUnit_clusters (s : State) (u : UAddr) (x : UnitSt) : (setUnit s u x).clusters = s.clusters := rfl
@[simp] theorem setUnit_engMem (s : State) (u : UAddr) (x : UnitSt) : (setUnit s u x).engMem = s.engMem := rfl
@[simp] theorem setUnit_islands (s : State) (u : UAddr) (x : UnitSt) : (setUnit s u x).islands = s.islands := rfl
@[simp] theorem setUnit_dies (s : State) (u : UAddr) (x : UnitSt) : (setUnit s u x).dies = s.dies := rfl
@[simp] theorem setUnit_cp (s : State) (u : UAddr) (x : UnitSt) : (setUnit s u x).cp = s.cp := rfl
@[simp] theorem setUnit_faults (s : State) (u : UAddr) (x : UnitSt) : (setUnit s u x).faults = s.faults := rfl
@[simp] theorem setUnit_lastFault (s : State) (u : UAddr) (x : UnitSt) : (setUnit s u x).lastFault = s.lastFault := rfl
@[simp] theorem setUnit_occ (s : State) (u : UAddr) (x : UnitSt) : (setUnit s u x).occ = s.occ := rfl
@[simp] theorem setUnit_weights (s : State) (u : UAddr) (x : UnitSt) : (setUnit s u x).weights = s.weights := rfl
@[simp] theorem setUnit_queues (s : State) (u : UAddr) (x : UnitSt) : (setUnit s u x).queues = s.queues := rfl
@[simp] theorem setUnit_items (s : State) (u : UAddr) (x : UnitSt) : (setUnit s u x).items = s.items := rfl
@[simp] theorem setUnit_pool (s : State) (u : UAddr) (x : UnitSt) : (setUnit s u x).pool = s.pool := rfl
@[simp] theorem setUnit_shareCur (s : State) (u : UAddr) (x : UnitSt) : (setUnit s u x).shareCur = s.shareCur := rfl
@[simp] theorem setUnit_fh (s : State) (u : UAddr) (x : UnitSt) : (setUnit s u x).fh = s.fh := rfl
@[simp] theorem setUnit_fabric (s : State) (u : UAddr) (x : UnitSt) : (setUnit s u x).fabric = s.fabric := rfl
@[simp] theorem setUnit_global (s : State) (u : UAddr) (x : UnitSt) : (setUnit s u x).global = s.global := rfl
@[simp] theorem setUnit_obj (s : State) (u : UAddr) (x : UnitSt) : (setUnit s u x).obj = s.obj := rfl
@[simp] theorem setUnit_life (s : State) (u : UAddr) (x : UnitSt) : (setUnit s u x).life = s.life := rfl
@[simp] theorem setUnit_pcie (s : State) (u : UAddr) (x : UnitSt) : (setUnit s u x).pcie = s.pcie := rfl
@[simp] theorem setUnit_pins (s : State) (u : UAddr) (x : UnitSt) : (setUnit s u x).pins = s.pins := rfl
@[simp] theorem setUnit_bus (s : State) (u : UAddr) (x : UnitSt) : (setUnit s u x).bus = s.bus := rfl
@[simp] theorem setUnit_pmu (s : State) (u : UAddr) (x : UnitSt) : (setUnit s u x).pmu = s.pmu := rfl
@[simp] theorem setUnit_cap (s : State) (u : UAddr) (x : UnitSt) : (setUnit s u x).cap = s.cap := rfl
@[simp] theorem setUnit_out (s : State) (u : UAddr) (x : UnitSt) : (setUnit s u x).out = s.out := rfl
@[simp] theorem setUnit_freeCount (s : State) (u : UAddr) (x : UnitSt) : (setUnit s u x).freeCount = s.freeCount := rfl

@[simp] theorem modUnit_pending (s : State) (u : UAddr) (f : UnitSt → UnitSt) : (modUnit s u f).pending = s.pending := rfl
@[simp] theorem modUnit_time (s : State) (u : UAddr) (f : UnitSt → UnitSt) : (modUnit s u f).time = s.time := rfl
@[simp] theorem modUnit_mem (s : State) (u : UAddr) (f : UnitSt → UnitSt) : (modUnit s u f).mem = s.mem := rfl
@[simp] theorem modUnit_crossing (s : State) (u : UAddr) (f : UnitSt → UnitSt) : (modUnit s u f).crossing = s.crossing := rfl
@[simp] theorem modUnit_cores (s : State) (u : UAddr) (f : UnitSt → UnitSt) : (modUnit s u f).cores = s.cores := rfl
@[simp] theorem modUnit_clusters (s : State) (u : UAddr) (f : UnitSt → UnitSt) : (modUnit s u f).clusters = s.clusters := rfl
@[simp] theorem modUnit_engMem (s : State) (u : UAddr) (f : UnitSt → UnitSt) : (modUnit s u f).engMem = s.engMem := rfl
@[simp] theorem modUnit_islands (s : State) (u : UAddr) (f : UnitSt → UnitSt) : (modUnit s u f).islands = s.islands := rfl
@[simp] theorem modUnit_dies (s : State) (u : UAddr) (f : UnitSt → UnitSt) : (modUnit s u f).dies = s.dies := rfl
@[simp] theorem modUnit_cp (s : State) (u : UAddr) (f : UnitSt → UnitSt) : (modUnit s u f).cp = s.cp := rfl
@[simp] theorem modUnit_faults (s : State) (u : UAddr) (f : UnitSt → UnitSt) : (modUnit s u f).faults = s.faults := rfl
@[simp] theorem modUnit_lastFault (s : State) (u : UAddr) (f : UnitSt → UnitSt) : (modUnit s u f).lastFault = s.lastFault := rfl
@[simp] theorem modUnit_occ (s : State) (u : UAddr) (f : UnitSt → UnitSt) : (modUnit s u f).occ = s.occ := rfl
@[simp] theorem modUnit_weights (s : State) (u : UAddr) (f : UnitSt → UnitSt) : (modUnit s u f).weights = s.weights := rfl
@[simp] theorem modUnit_queues (s : State) (u : UAddr) (f : UnitSt → UnitSt) : (modUnit s u f).queues = s.queues := rfl
@[simp] theorem modUnit_items (s : State) (u : UAddr) (f : UnitSt → UnitSt) : (modUnit s u f).items = s.items := rfl
@[simp] theorem modUnit_pool (s : State) (u : UAddr) (f : UnitSt → UnitSt) : (modUnit s u f).pool = s.pool := rfl
@[simp] theorem modUnit_shareCur (s : State) (u : UAddr) (f : UnitSt → UnitSt) : (modUnit s u f).shareCur = s.shareCur := rfl
@[simp] theorem modUnit_fh (s : State) (u : UAddr) (f : UnitSt → UnitSt) : (modUnit s u f).fh = s.fh := rfl
@[simp] theorem modUnit_fabric (s : State) (u : UAddr) (f : UnitSt → UnitSt) : (modUnit s u f).fabric = s.fabric := rfl
@[simp] theorem modUnit_global (s : State) (u : UAddr) (f : UnitSt → UnitSt) : (modUnit s u f).global = s.global := rfl
@[simp] theorem modUnit_obj (s : State) (u : UAddr) (f : UnitSt → UnitSt) : (modUnit s u f).obj = s.obj := rfl
@[simp] theorem modUnit_life (s : State) (u : UAddr) (f : UnitSt → UnitSt) : (modUnit s u f).life = s.life := rfl
@[simp] theorem modUnit_pcie (s : State) (u : UAddr) (f : UnitSt → UnitSt) : (modUnit s u f).pcie = s.pcie := rfl
@[simp] theorem modUnit_pins (s : State) (u : UAddr) (f : UnitSt → UnitSt) : (modUnit s u f).pins = s.pins := rfl
@[simp] theorem modUnit_bus (s : State) (u : UAddr) (f : UnitSt → UnitSt) : (modUnit s u f).bus = s.bus := rfl
@[simp] theorem modUnit_pmu (s : State) (u : UAddr) (f : UnitSt → UnitSt) : (modUnit s u f).pmu = s.pmu := rfl
@[simp] theorem modUnit_cap (s : State) (u : UAddr) (f : UnitSt → UnitSt) : (modUnit s u f).cap = s.cap := rfl
@[simp] theorem modUnit_out (s : State) (u : UAddr) (f : UnitSt → UnitSt) : (modUnit s u f).out = s.out := rfl
@[simp] theorem modUnit_freeCount (s : State) (u : UAddr) (f : UnitSt → UnitSt) : (modUnit s u f).freeCount = s.freeCount := rfl

@[simp] theorem setCore_pending (s : State) (k : Nat) (x : CoreSt) : (setCore s k x).pending = s.pending := rfl
@[simp] theorem setCore_time (s : State) (k : Nat) (x : CoreSt) : (setCore s k x).time = s.time := rfl
@[simp] theorem setCore_mem (s : State) (k : Nat) (x : CoreSt) : (setCore s k x).mem = s.mem := rfl
@[simp] theorem setCore_crossing (s : State) (k : Nat) (x : CoreSt) : (setCore s k x).crossing = s.crossing := rfl
@[simp] theorem setCore_units (s : State) (k : Nat) (x : CoreSt) : (setCore s k x).units = s.units := rfl
@[simp] theorem setCore_clusters (s : State) (k : Nat) (x : CoreSt) : (setCore s k x).clusters = s.clusters := rfl
@[simp] theorem setCore_engMem (s : State) (k : Nat) (x : CoreSt) : (setCore s k x).engMem = s.engMem := rfl
@[simp] theorem setCore_islands (s : State) (k : Nat) (x : CoreSt) : (setCore s k x).islands = s.islands := rfl
@[simp] theorem setCore_dies (s : State) (k : Nat) (x : CoreSt) : (setCore s k x).dies = s.dies := rfl
@[simp] theorem setCore_cp (s : State) (k : Nat) (x : CoreSt) : (setCore s k x).cp = s.cp := rfl
@[simp] theorem setCore_faults (s : State) (k : Nat) (x : CoreSt) : (setCore s k x).faults = s.faults := rfl
@[simp] theorem setCore_lastFault (s : State) (k : Nat) (x : CoreSt) : (setCore s k x).lastFault = s.lastFault := rfl
@[simp] theorem setCore_occ (s : State) (k : Nat) (x : CoreSt) : (setCore s k x).occ = s.occ := rfl
@[simp] theorem setCore_weights (s : State) (k : Nat) (x : CoreSt) : (setCore s k x).weights = s.weights := rfl
@[simp] theorem setCore_queues (s : State) (k : Nat) (x : CoreSt) : (setCore s k x).queues = s.queues := rfl
@[simp] theorem setCore_items (s : State) (k : Nat) (x : CoreSt) : (setCore s k x).items = s.items := rfl
@[simp] theorem setCore_pool (s : State) (k : Nat) (x : CoreSt) : (setCore s k x).pool = s.pool := rfl
@[simp] theorem setCore_shareCur (s : State) (k : Nat) (x : CoreSt) : (setCore s k x).shareCur = s.shareCur := rfl
@[simp] theorem setCore_fh (s : State) (k : Nat) (x : CoreSt) : (setCore s k x).fh = s.fh := rfl
@[simp] theorem setCore_fabric (s : State) (k : Nat) (x : CoreSt) : (setCore s k x).fabric = s.fabric := rfl
@[simp] theorem setCore_global (s : State) (k : Nat) (x : CoreSt) : (setCore s k x).global = s.global := rfl
@[simp] theorem setCore_obj (s : State) (k : Nat) (x : CoreSt) : (setCore s k x).obj = s.obj := rfl
@[simp] theorem setCore_life (s : State) (k : Nat) (x : CoreSt) : (setCore s k x).life = s.life := rfl
@[simp] theorem setCore_pcie (s : State) (k : Nat) (x : CoreSt) : (setCore s k x).pcie = s.pcie := rfl
@[simp] theorem setCore_pins (s : State) (k : Nat) (x : CoreSt) : (setCore s k x).pins = s.pins := rfl
@[simp] theorem setCore_bus (s : State) (k : Nat) (x : CoreSt) : (setCore s k x).bus = s.bus := rfl
@[simp] theorem setCore_pmu (s : State) (k : Nat) (x : CoreSt) : (setCore s k x).pmu = s.pmu := rfl
@[simp] theorem setCore_cap (s : State) (k : Nat) (x : CoreSt) : (setCore s k x).cap = s.cap := rfl
@[simp] theorem setCore_out (s : State) (k : Nat) (x : CoreSt) : (setCore s k x).out = s.out := rfl
@[simp] theorem setCore_freeCount (s : State) (k : Nat) (x : CoreSt) : (setCore s k x).freeCount = s.freeCount := rfl

@[simp] theorem modCore_pending (s : State) (k : Nat) (f : CoreSt → CoreSt) : (modCore s k f).pending = s.pending := rfl
@[simp] theorem modCore_time (s : State) (k : Nat) (f : CoreSt → CoreSt) : (modCore s k f).time = s.time := rfl
@[simp] theorem modCore_mem (s : State) (k : Nat) (f : CoreSt → CoreSt) : (modCore s k f).mem = s.mem := rfl
@[simp] theorem modCore_crossing (s : State) (k : Nat) (f : CoreSt → CoreSt) : (modCore s k f).crossing = s.crossing := rfl
@[simp] theorem modCore_units (s : State) (k : Nat) (f : CoreSt → CoreSt) : (modCore s k f).units = s.units := rfl
@[simp] theorem modCore_clusters (s : State) (k : Nat) (f : CoreSt → CoreSt) : (modCore s k f).clusters = s.clusters := rfl
@[simp] theorem modCore_engMem (s : State) (k : Nat) (f : CoreSt → CoreSt) : (modCore s k f).engMem = s.engMem := rfl
@[simp] theorem modCore_islands (s : State) (k : Nat) (f : CoreSt → CoreSt) : (modCore s k f).islands = s.islands := rfl
@[simp] theorem modCore_dies (s : State) (k : Nat) (f : CoreSt → CoreSt) : (modCore s k f).dies = s.dies := rfl
@[simp] theorem modCore_cp (s : State) (k : Nat) (f : CoreSt → CoreSt) : (modCore s k f).cp = s.cp := rfl
@[simp] theorem modCore_faults (s : State) (k : Nat) (f : CoreSt → CoreSt) : (modCore s k f).faults = s.faults := rfl
@[simp] theorem modCore_lastFault (s : State) (k : Nat) (f : CoreSt → CoreSt) : (modCore s k f).lastFault = s.lastFault := rfl
@[simp] theorem modCore_occ (s : State) (k : Nat) (f : CoreSt → CoreSt) : (modCore s k f).occ = s.occ := rfl
@[simp] theorem modCore_weights (s : State) (k : Nat) (f : CoreSt → CoreSt) : (modCore s k f).weights = s.weights := rfl
@[simp] theorem modCore_queues (s : State) (k : Nat) (f : CoreSt → CoreSt) : (modCore s k f).queues = s.queues := rfl
@[simp] theorem modCore_items (s : State) (k : Nat) (f : CoreSt → CoreSt) : (modCore s k f).items = s.items := rfl
@[simp] theorem modCore_pool (s : State) (k : Nat) (f : CoreSt → CoreSt) : (modCore s k f).pool = s.pool := rfl
@[simp] theorem modCore_shareCur (s : State) (k : Nat) (f : CoreSt → CoreSt) : (modCore s k f).shareCur = s.shareCur := rfl
@[simp] theorem modCore_fh (s : State) (k : Nat) (f : CoreSt → CoreSt) : (modCore s k f).fh = s.fh := rfl
@[simp] theorem modCore_fabric (s : State) (k : Nat) (f : CoreSt → CoreSt) : (modCore s k f).fabric = s.fabric := rfl
@[simp] theorem modCore_global (s : State) (k : Nat) (f : CoreSt → CoreSt) : (modCore s k f).global = s.global := rfl
@[simp] theorem modCore_obj (s : State) (k : Nat) (f : CoreSt → CoreSt) : (modCore s k f).obj = s.obj := rfl
@[simp] theorem modCore_life (s : State) (k : Nat) (f : CoreSt → CoreSt) : (modCore s k f).life = s.life := rfl
@[simp] theorem modCore_pcie (s : State) (k : Nat) (f : CoreSt → CoreSt) : (modCore s k f).pcie = s.pcie := rfl
@[simp] theorem modCore_pins (s : State) (k : Nat) (f : CoreSt → CoreSt) : (modCore s k f).pins = s.pins := rfl
@[simp] theorem modCore_bus (s : State) (k : Nat) (f : CoreSt → CoreSt) : (modCore s k f).bus = s.bus := rfl
@[simp] theorem modCore_pmu (s : State) (k : Nat) (f : CoreSt → CoreSt) : (modCore s k f).pmu = s.pmu := rfl
@[simp] theorem modCore_cap (s : State) (k : Nat) (f : CoreSt → CoreSt) : (modCore s k f).cap = s.cap := rfl
@[simp] theorem modCore_out (s : State) (k : Nat) (f : CoreSt → CoreSt) : (modCore s k f).out = s.out := rfl
@[simp] theorem modCore_freeCount (s : State) (k : Nat) (f : CoreSt → CoreSt) : (modCore s k f).freeCount = s.freeCount := rfl

@[simp] theorem setCluster_pending (s : State) (c : Nat) (x : ClusterSt) : (setCluster s c x).pending = s.pending := rfl
@[simp] theorem setCluster_time (s : State) (c : Nat) (x : ClusterSt) : (setCluster s c x).time = s.time := rfl
@[simp] theorem setCluster_mem (s : State) (c : Nat) (x : ClusterSt) : (setCluster s c x).mem = s.mem := rfl
@[simp] theorem setCluster_crossing (s : State) (c : Nat) (x : ClusterSt) : (setCluster s c x).crossing = s.crossing := rfl
@[simp] theorem setCluster_units (s : State) (c : Nat) (x : ClusterSt) : (setCluster s c x).units = s.units := rfl
@[simp] theorem setCluster_cores (s : State) (c : Nat) (x : ClusterSt) : (setCluster s c x).cores = s.cores := rfl
@[simp] theorem setCluster_engMem (s : State) (c : Nat) (x : ClusterSt) : (setCluster s c x).engMem = s.engMem := rfl
@[simp] theorem setCluster_islands (s : State) (c : Nat) (x : ClusterSt) : (setCluster s c x).islands = s.islands := rfl
@[simp] theorem setCluster_dies (s : State) (c : Nat) (x : ClusterSt) : (setCluster s c x).dies = s.dies := rfl
@[simp] theorem setCluster_cp (s : State) (c : Nat) (x : ClusterSt) : (setCluster s c x).cp = s.cp := rfl
@[simp] theorem setCluster_faults (s : State) (c : Nat) (x : ClusterSt) : (setCluster s c x).faults = s.faults := rfl
@[simp] theorem setCluster_lastFault (s : State) (c : Nat) (x : ClusterSt) : (setCluster s c x).lastFault = s.lastFault := rfl
@[simp] theorem setCluster_occ (s : State) (c : Nat) (x : ClusterSt) : (setCluster s c x).occ = s.occ := rfl
@[simp] theorem setCluster_weights (s : State) (c : Nat) (x : ClusterSt) : (setCluster s c x).weights = s.weights := rfl
@[simp] theorem setCluster_queues (s : State) (c : Nat) (x : ClusterSt) : (setCluster s c x).queues = s.queues := rfl
@[simp] theorem setCluster_items (s : State) (c : Nat) (x : ClusterSt) : (setCluster s c x).items = s.items := rfl
@[simp] theorem setCluster_pool (s : State) (c : Nat) (x : ClusterSt) : (setCluster s c x).pool = s.pool := rfl
@[simp] theorem setCluster_shareCur (s : State) (c : Nat) (x : ClusterSt) : (setCluster s c x).shareCur = s.shareCur := rfl
@[simp] theorem setCluster_fh (s : State) (c : Nat) (x : ClusterSt) : (setCluster s c x).fh = s.fh := rfl
@[simp] theorem setCluster_fabric (s : State) (c : Nat) (x : ClusterSt) : (setCluster s c x).fabric = s.fabric := rfl
@[simp] theorem setCluster_global (s : State) (c : Nat) (x : ClusterSt) : (setCluster s c x).global = s.global := rfl
@[simp] theorem setCluster_obj (s : State) (c : Nat) (x : ClusterSt) : (setCluster s c x).obj = s.obj := rfl
@[simp] theorem setCluster_life (s : State) (c : Nat) (x : ClusterSt) : (setCluster s c x).life = s.life := rfl
@[simp] theorem setCluster_pcie (s : State) (c : Nat) (x : ClusterSt) : (setCluster s c x).pcie = s.pcie := rfl
@[simp] theorem setCluster_pins (s : State) (c : Nat) (x : ClusterSt) : (setCluster s c x).pins = s.pins := rfl
@[simp] theorem setCluster_bus (s : State) (c : Nat) (x : ClusterSt) : (setCluster s c x).bus = s.bus := rfl
@[simp] theorem setCluster_pmu (s : State) (c : Nat) (x : ClusterSt) : (setCluster s c x).pmu = s.pmu := rfl
@[simp] theorem setCluster_cap (s : State) (c : Nat) (x : ClusterSt) : (setCluster s c x).cap = s.cap := rfl
@[simp] theorem setCluster_out (s : State) (c : Nat) (x : ClusterSt) : (setCluster s c x).out = s.out := rfl
@[simp] theorem setCluster_freeCount (s : State) (c : Nat) (x : ClusterSt) : (setCluster s c x).freeCount = s.freeCount := rfl

@[simp] theorem modCluster_pending (s : State) (c : Nat) (f : ClusterSt → ClusterSt) : (modCluster s c f).pending = s.pending := rfl
@[simp] theorem modCluster_time (s : State) (c : Nat) (f : ClusterSt → ClusterSt) : (modCluster s c f).time = s.time := rfl
@[simp] theorem modCluster_mem (s : State) (c : Nat) (f : ClusterSt → ClusterSt) : (modCluster s c f).mem = s.mem := rfl
@[simp] theorem modCluster_crossing (s : State) (c : Nat) (f : ClusterSt → ClusterSt) : (modCluster s c f).crossing = s.crossing := rfl
@[simp] theorem modCluster_units (s : State) (c : Nat) (f : ClusterSt → ClusterSt) : (modCluster s c f).units = s.units := rfl
@[simp] theorem modCluster_cores (s : State) (c : Nat) (f : ClusterSt → ClusterSt) : (modCluster s c f).cores = s.cores := rfl
@[simp] theorem modCluster_engMem (s : State) (c : Nat) (f : ClusterSt → ClusterSt) : (modCluster s c f).engMem = s.engMem := rfl
@[simp] theorem modCluster_islands (s : State) (c : Nat) (f : ClusterSt → ClusterSt) : (modCluster s c f).islands = s.islands := rfl
@[simp] theorem modCluster_dies (s : State) (c : Nat) (f : ClusterSt → ClusterSt) : (modCluster s c f).dies = s.dies := rfl
@[simp] theorem modCluster_cp (s : State) (c : Nat) (f : ClusterSt → ClusterSt) : (modCluster s c f).cp = s.cp := rfl
@[simp] theorem modCluster_faults (s : State) (c : Nat) (f : ClusterSt → ClusterSt) : (modCluster s c f).faults = s.faults := rfl
@[simp] theorem modCluster_lastFault (s : State) (c : Nat) (f : ClusterSt → ClusterSt) : (modCluster s c f).lastFault = s.lastFault := rfl
@[simp] theorem modCluster_occ (s : State) (c : Nat) (f : ClusterSt → ClusterSt) : (modCluster s c f).occ = s.occ := rfl
@[simp] theorem modCluster_weights (s : State) (c : Nat) (f : ClusterSt → ClusterSt) : (modCluster s c f).weights = s.weights := rfl
@[simp] theorem modCluster_queues (s : State) (c : Nat) (f : ClusterSt → ClusterSt) : (modCluster s c f).queues = s.queues := rfl
@[simp] theorem modCluster_items (s : State) (c : Nat) (f : ClusterSt → ClusterSt) : (modCluster s c f).items = s.items := rfl
@[simp] theorem modCluster_pool (s : State) (c : Nat) (f : ClusterSt → ClusterSt) : (modCluster s c f).pool = s.pool := rfl
@[simp] theorem modCluster_shareCur (s : State) (c : Nat) (f : ClusterSt → ClusterSt) : (modCluster s c f).shareCur = s.shareCur := rfl
@[simp] theorem modCluster_fh (s : State) (c : Nat) (f : ClusterSt → ClusterSt) : (modCluster s c f).fh = s.fh := rfl
@[simp] theorem modCluster_fabric (s : State) (c : Nat) (f : ClusterSt → ClusterSt) : (modCluster s c f).fabric = s.fabric := rfl
@[simp] theorem modCluster_global (s : State) (c : Nat) (f : ClusterSt → ClusterSt) : (modCluster s c f).global = s.global := rfl
@[simp] theorem modCluster_obj (s : State) (c : Nat) (f : ClusterSt → ClusterSt) : (modCluster s c f).obj = s.obj := rfl
@[simp] theorem modCluster_life (s : State) (c : Nat) (f : ClusterSt → ClusterSt) : (modCluster s c f).life = s.life := rfl
@[simp] theorem modCluster_pcie (s : State) (c : Nat) (f : ClusterSt → ClusterSt) : (modCluster s c f).pcie = s.pcie := rfl
@[simp] theorem modCluster_pins (s : State) (c : Nat) (f : ClusterSt → ClusterSt) : (modCluster s c f).pins = s.pins := rfl
@[simp] theorem modCluster_bus (s : State) (c : Nat) (f : ClusterSt → ClusterSt) : (modCluster s c f).bus = s.bus := rfl
@[simp] theorem modCluster_pmu (s : State) (c : Nat) (f : ClusterSt → ClusterSt) : (modCluster s c f).pmu = s.pmu := rfl
@[simp] theorem modCluster_cap (s : State) (c : Nat) (f : ClusterSt → ClusterSt) : (modCluster s c f).cap = s.cap := rfl
@[simp] theorem modCluster_out (s : State) (c : Nat) (f : ClusterSt → ClusterSt) : (modCluster s c f).out = s.out := rfl
@[simp] theorem modCluster_freeCount (s : State) (c : Nat) (f : ClusterSt → ClusterSt) : (modCluster s c f).freeCount = s.freeCount := rfl

@[simp] theorem setQueue_pending (s : State) (q : Nat) (x : QueueSt) : (setQueue s q x).pending = s.pending := rfl
@[simp] theorem setQueue_time (s : State) (q : Nat) (x : QueueSt) : (setQueue s q x).time = s.time := rfl
@[simp] theorem setQueue_mem (s : State) (q : Nat) (x : QueueSt) : (setQueue s q x).mem = s.mem := rfl
@[simp] theorem setQueue_crossing (s : State) (q : Nat) (x : QueueSt) : (setQueue s q x).crossing = s.crossing := rfl
@[simp] theorem setQueue_units (s : State) (q : Nat) (x : QueueSt) : (setQueue s q x).units = s.units := rfl
@[simp] theorem setQueue_cores (s : State) (q : Nat) (x : QueueSt) : (setQueue s q x).cores = s.cores := rfl
@[simp] theorem setQueue_clusters (s : State) (q : Nat) (x : QueueSt) : (setQueue s q x).clusters = s.clusters := rfl
@[simp] theorem setQueue_engMem (s : State) (q : Nat) (x : QueueSt) : (setQueue s q x).engMem = s.engMem := rfl
@[simp] theorem setQueue_islands (s : State) (q : Nat) (x : QueueSt) : (setQueue s q x).islands = s.islands := rfl
@[simp] theorem setQueue_dies (s : State) (q : Nat) (x : QueueSt) : (setQueue s q x).dies = s.dies := rfl
@[simp] theorem setQueue_cp (s : State) (q : Nat) (x : QueueSt) : (setQueue s q x).cp = s.cp := rfl
@[simp] theorem setQueue_faults (s : State) (q : Nat) (x : QueueSt) : (setQueue s q x).faults = s.faults := rfl
@[simp] theorem setQueue_lastFault (s : State) (q : Nat) (x : QueueSt) : (setQueue s q x).lastFault = s.lastFault := rfl
@[simp] theorem setQueue_occ (s : State) (q : Nat) (x : QueueSt) : (setQueue s q x).occ = s.occ := rfl
@[simp] theorem setQueue_weights (s : State) (q : Nat) (x : QueueSt) : (setQueue s q x).weights = s.weights := rfl
@[simp] theorem setQueue_items (s : State) (q : Nat) (x : QueueSt) : (setQueue s q x).items = s.items := rfl
@[simp] theorem setQueue_pool (s : State) (q : Nat) (x : QueueSt) : (setQueue s q x).pool = s.pool := rfl
@[simp] theorem setQueue_shareCur (s : State) (q : Nat) (x : QueueSt) : (setQueue s q x).shareCur = s.shareCur := rfl
@[simp] theorem setQueue_fh (s : State) (q : Nat) (x : QueueSt) : (setQueue s q x).fh = s.fh := rfl
@[simp] theorem setQueue_fabric (s : State) (q : Nat) (x : QueueSt) : (setQueue s q x).fabric = s.fabric := rfl
@[simp] theorem setQueue_global (s : State) (q : Nat) (x : QueueSt) : (setQueue s q x).global = s.global := rfl
@[simp] theorem setQueue_obj (s : State) (q : Nat) (x : QueueSt) : (setQueue s q x).obj = s.obj := rfl
@[simp] theorem setQueue_life (s : State) (q : Nat) (x : QueueSt) : (setQueue s q x).life = s.life := rfl
@[simp] theorem setQueue_pcie (s : State) (q : Nat) (x : QueueSt) : (setQueue s q x).pcie = s.pcie := rfl
@[simp] theorem setQueue_pins (s : State) (q : Nat) (x : QueueSt) : (setQueue s q x).pins = s.pins := rfl
@[simp] theorem setQueue_bus (s : State) (q : Nat) (x : QueueSt) : (setQueue s q x).bus = s.bus := rfl
@[simp] theorem setQueue_pmu (s : State) (q : Nat) (x : QueueSt) : (setQueue s q x).pmu = s.pmu := rfl
@[simp] theorem setQueue_cap (s : State) (q : Nat) (x : QueueSt) : (setQueue s q x).cap = s.cap := rfl
@[simp] theorem setQueue_out (s : State) (q : Nat) (x : QueueSt) : (setQueue s q x).out = s.out := rfl
@[simp] theorem setQueue_freeCount (s : State) (q : Nat) (x : QueueSt) : (setQueue s q x).freeCount = s.freeCount := rfl

@[simp] theorem modQueue_pending (s : State) (q : Nat) (f : QueueSt → QueueSt) : (modQueue s q f).pending = s.pending := rfl
@[simp] theorem modQueue_time (s : State) (q : Nat) (f : QueueSt → QueueSt) : (modQueue s q f).time = s.time := rfl
@[simp] theorem modQueue_mem (s : State) (q : Nat) (f : QueueSt → QueueSt) : (modQueue s q f).mem = s.mem := rfl
@[simp] theorem modQueue_crossing (s : State) (q : Nat) (f : QueueSt → QueueSt) : (modQueue s q f).crossing = s.crossing := rfl
@[simp] theorem modQueue_units (s : State) (q : Nat) (f : QueueSt → QueueSt) : (modQueue s q f).units = s.units := rfl
@[simp] theorem modQueue_cores (s : State) (q : Nat) (f : QueueSt → QueueSt) : (modQueue s q f).cores = s.cores := rfl
@[simp] theorem modQueue_clusters (s : State) (q : Nat) (f : QueueSt → QueueSt) : (modQueue s q f).clusters = s.clusters := rfl
@[simp] theorem modQueue_engMem (s : State) (q : Nat) (f : QueueSt → QueueSt) : (modQueue s q f).engMem = s.engMem := rfl
@[simp] theorem modQueue_islands (s : State) (q : Nat) (f : QueueSt → QueueSt) : (modQueue s q f).islands = s.islands := rfl
@[simp] theorem modQueue_dies (s : State) (q : Nat) (f : QueueSt → QueueSt) : (modQueue s q f).dies = s.dies := rfl
@[simp] theorem modQueue_cp (s : State) (q : Nat) (f : QueueSt → QueueSt) : (modQueue s q f).cp = s.cp := rfl
@[simp] theorem modQueue_faults (s : State) (q : Nat) (f : QueueSt → QueueSt) : (modQueue s q f).faults = s.faults := rfl
@[simp] theorem modQueue_lastFault (s : State) (q : Nat) (f : QueueSt → QueueSt) : (modQueue s q f).lastFault = s.lastFault := rfl
@[simp] theorem modQueue_occ (s : State) (q : Nat) (f : QueueSt → QueueSt) : (modQueue s q f).occ = s.occ := rfl
@[simp] theorem modQueue_weights (s : State) (q : Nat) (f : QueueSt → QueueSt) : (modQueue s q f).weights = s.weights := rfl
@[simp] theorem modQueue_items (s : State) (q : Nat) (f : QueueSt → QueueSt) : (modQueue s q f).items = s.items := rfl
@[simp] theorem modQueue_pool (s : State) (q : Nat) (f : QueueSt → QueueSt) : (modQueue s q f).pool = s.pool := rfl
@[simp] theorem modQueue_shareCur (s : State) (q : Nat) (f : QueueSt → QueueSt) : (modQueue s q f).shareCur = s.shareCur := rfl
@[simp] theorem modQueue_fh (s : State) (q : Nat) (f : QueueSt → QueueSt) : (modQueue s q f).fh = s.fh := rfl
@[simp] theorem modQueue_fabric (s : State) (q : Nat) (f : QueueSt → QueueSt) : (modQueue s q f).fabric = s.fabric := rfl
@[simp] theorem modQueue_global (s : State) (q : Nat) (f : QueueSt → QueueSt) : (modQueue s q f).global = s.global := rfl
@[simp] theorem modQueue_obj (s : State) (q : Nat) (f : QueueSt → QueueSt) : (modQueue s q f).obj = s.obj := rfl
@[simp] theorem modQueue_life (s : State) (q : Nat) (f : QueueSt → QueueSt) : (modQueue s q f).life = s.life := rfl
@[simp] theorem modQueue_pcie (s : State) (q : Nat) (f : QueueSt → QueueSt) : (modQueue s q f).pcie = s.pcie := rfl
@[simp] theorem modQueue_pins (s : State) (q : Nat) (f : QueueSt → QueueSt) : (modQueue s q f).pins = s.pins := rfl
@[simp] theorem modQueue_bus (s : State) (q : Nat) (f : QueueSt → QueueSt) : (modQueue s q f).bus = s.bus := rfl
@[simp] theorem modQueue_pmu (s : State) (q : Nat) (f : QueueSt → QueueSt) : (modQueue s q f).pmu = s.pmu := rfl
@[simp] theorem modQueue_cap (s : State) (q : Nat) (f : QueueSt → QueueSt) : (modQueue s q f).cap = s.cap := rfl
@[simp] theorem modQueue_out (s : State) (q : Nat) (f : QueueSt → QueueSt) : (modQueue s q f).out = s.out := rfl
@[simp] theorem modQueue_freeCount (s : State) (q : Nat) (f : QueueSt → QueueSt) : (modQueue s q f).freeCount = s.freeCount := rfl

@[simp] theorem modEngMem_pending (s : State) (u : UAddr) (f : EngMem → EngMem) : (modEngMem s u f).pending = s.pending := rfl
@[simp] theorem modEngMem_time (s : State) (u : UAddr) (f : EngMem → EngMem) : (modEngMem s u f).time = s.time := rfl
@[simp] theorem modEngMem_mem (s : State) (u : UAddr) (f : EngMem → EngMem) : (modEngMem s u f).mem = s.mem := rfl
@[simp] theorem modEngMem_crossing (s : State) (u : UAddr) (f : EngMem → EngMem) : (modEngMem s u f).crossing = s.crossing := rfl
@[simp] theorem modEngMem_units (s : State) (u : UAddr) (f : EngMem → EngMem) : (modEngMem s u f).units = s.units := rfl
@[simp] theorem modEngMem_cores (s : State) (u : UAddr) (f : EngMem → EngMem) : (modEngMem s u f).cores = s.cores := rfl
@[simp] theorem modEngMem_clusters (s : State) (u : UAddr) (f : EngMem → EngMem) : (modEngMem s u f).clusters = s.clusters := rfl
@[simp] theorem modEngMem_islands (s : State) (u : UAddr) (f : EngMem → EngMem) : (modEngMem s u f).islands = s.islands := rfl
@[simp] theorem modEngMem_dies (s : State) (u : UAddr) (f : EngMem → EngMem) : (modEngMem s u f).dies = s.dies := rfl
@[simp] theorem modEngMem_cp (s : State) (u : UAddr) (f : EngMem → EngMem) : (modEngMem s u f).cp = s.cp := rfl
@[simp] theorem modEngMem_faults (s : State) (u : UAddr) (f : EngMem → EngMem) : (modEngMem s u f).faults = s.faults := rfl
@[simp] theorem modEngMem_lastFault (s : State) (u : UAddr) (f : EngMem → EngMem) : (modEngMem s u f).lastFault = s.lastFault := rfl
@[simp] theorem modEngMem_occ (s : State) (u : UAddr) (f : EngMem → EngMem) : (modEngMem s u f).occ = s.occ := rfl
@[simp] theorem modEngMem_weights (s : State) (u : UAddr) (f : EngMem → EngMem) : (modEngMem s u f).weights = s.weights := rfl
@[simp] theorem modEngMem_queues (s : State) (u : UAddr) (f : EngMem → EngMem) : (modEngMem s u f).queues = s.queues := rfl
@[simp] theorem modEngMem_items (s : State) (u : UAddr) (f : EngMem → EngMem) : (modEngMem s u f).items = s.items := rfl
@[simp] theorem modEngMem_pool (s : State) (u : UAddr) (f : EngMem → EngMem) : (modEngMem s u f).pool = s.pool := rfl
@[simp] theorem modEngMem_shareCur (s : State) (u : UAddr) (f : EngMem → EngMem) : (modEngMem s u f).shareCur = s.shareCur := rfl
@[simp] theorem modEngMem_fh (s : State) (u : UAddr) (f : EngMem → EngMem) : (modEngMem s u f).fh = s.fh := rfl
@[simp] theorem modEngMem_fabric (s : State) (u : UAddr) (f : EngMem → EngMem) : (modEngMem s u f).fabric = s.fabric := rfl
@[simp] theorem modEngMem_global (s : State) (u : UAddr) (f : EngMem → EngMem) : (modEngMem s u f).global = s.global := rfl
@[simp] theorem modEngMem_obj (s : State) (u : UAddr) (f : EngMem → EngMem) : (modEngMem s u f).obj = s.obj := rfl
@[simp] theorem modEngMem_life (s : State) (u : UAddr) (f : EngMem → EngMem) : (modEngMem s u f).life = s.life := rfl
@[simp] theorem modEngMem_pcie (s : State) (u : UAddr) (f : EngMem → EngMem) : (modEngMem s u f).pcie = s.pcie := rfl
@[simp] theorem modEngMem_pins (s : State) (u : UAddr) (f : EngMem → EngMem) : (modEngMem s u f).pins = s.pins := rfl
@[simp] theorem modEngMem_bus (s : State) (u : UAddr) (f : EngMem → EngMem) : (modEngMem s u f).bus = s.bus := rfl
@[simp] theorem modEngMem_pmu (s : State) (u : UAddr) (f : EngMem → EngMem) : (modEngMem s u f).pmu = s.pmu := rfl
@[simp] theorem modEngMem_cap (s : State) (u : UAddr) (f : EngMem → EngMem) : (modEngMem s u f).cap = s.cap := rfl
@[simp] theorem modEngMem_out (s : State) (u : UAddr) (f : EngMem → EngMem) : (modEngMem s u f).out = s.out := rfl
@[simp] theorem modEngMem_freeCount (s : State) (u : UAddr) (f : EngMem → EngMem) : (modEngMem s u f).freeCount = s.freeCount := rfl

end Sys2Proof.Machine
end

