-- ==== Sys2Proof/Laws/Tables.lean ====
section
/-! SUPPORT. Laws/Tables.lean: reading a table after a write, and what writing through the accessors of units, cores,
clusters and queues does to each of them. -/

namespace Sys2Proof.Machine

@[simp] theorem tget_tset_same {α : Type} (t : Tbl α) (k : Nat) (v : α) : tget (tset t k v) k = some v := by
  induction t with
  | nil => simp [tset, tget]
  | cons p t ih =>
    obtain ⟨j, x⟩ := p
    by_cases h1 : k < j
    · simp [tset, h1, tget]
    · by_cases h2 : k = j
      · subst h2; simp [tset, tget]
      · have h3 : ¬ j = k := fun h => h2 h.symm
        simp [tset, h1, h2, tget, h3, ih]

theorem tget_tset_other {α : Type} (t : Tbl α) (k i : Nat) (v : α) (h : i ≠ k) : tget (tset t k v) i = tget t i := by
  induction t with
  | nil => simp [tset, tget, Ne.symm h]
  | cons p t ih =>
    obtain ⟨j, x⟩ := p
    by_cases h1 : k < j
    · simp [tset, h1, tget, Ne.symm h]
    · by_cases h2 : k = j
      · subst h2; simp [tset, tget, Ne.symm h]
      · simp only [tset, h1, h2, if_false, tget, ih]

theorem tget_tset {α : Type} (t : Tbl α) (k i : Nat) (v : α) :
    tget (tset t k v) i = if i = k then some v else tget t i := by
  split
  · next h => subst h; simp
  · next h => exact tget_tset_other t k i v h

@[simp] theorem tget_tdel_same {α : Type} (t : Tbl α) (k : Nat) : tget (tdel t k) k = none := by
  induction t with
  | nil => rfl
  | cons p t ih =>
    obtain ⟨j, x⟩ := p
    by_cases h : j = k
    · simp_all [tdel]
    · simp_all [tdel, tget]

theorem tget_tdel_other {α : Type} (t : Tbl α) (k i : Nat) (h : i ≠ k) : tget (tdel t k) i = tget t i := by
  induction t with
  | nil => rfl
  | cons p t ih =>
    obtain ⟨j, x⟩ := p
    by_cases h1 : j = k
    · have h2 : ¬ k = i := fun e => h e.symm
      simp_all [tdel, tget]
    · simp_all [tdel, tget]

@[simp] theorem lmod_length {α : Type} (l : List α) (i : Nat) (f : α → α) : (lmod l i f).length = l.length := by
  induction l generalizing i with
  | nil => rfl
  | cons x t ih => cases i <;> simp [lmod, ih]

@[simp] theorem lmod_get_same {α : Type} (l : List α) (i : Nat) (f : α → α) (d : α) (h : i < l.length) :
    (lmod l i f).getD i d = f (l.getD i d) := by
  induction l generalizing i with
  | nil => simp at h
  | cons x t ih =>
    cases i with
    | zero => simp [lmod]
    | succ i => simpa [lmod] using ih i (by simpa using h)

theorem lmod_get_other {α : Type} (l : List α) (i j : Nat) (f : α → α) (d : α) (h : j ≠ i) :
    (lmod l i f).getD j d = l.getD j d := by
  induction l generalizing i j with
  | nil => rfl
  | cons x t ih =>
    cases i with
    | zero => cases j with
      | zero => exact absurd rfl h
      | succ j => simp [lmod]
    | succ i => cases j with
      | zero => simp [lmod]
      | succ j => simpa [lmod] using ih i j (fun e => h (by rw [e]))

@[simp] theorem unitOf_setUnit_same (s : State) (u : UAddr) (x : UnitSt) : unitOf (setUnit s u x) u = x := by
  simp [unitOf, setUnit]
theorem unitOf_setUnit_other (s : State) (u v : UAddr) (x : UnitSt) (h : v ≠ u) :
    unitOf (setUnit s u x) v = unitOf s v := by
  have h1 : v.toNat ≠ u.toNat := fun e => h (BitVec.eq_of_toNat_eq e)
  simp [unitOf, setUnit, tget_tset_other _ _ _ _ h1]
@[simp] theorem unitOf_modUnit_same (s : State) (u : UAddr) (f : UnitSt → UnitSt) : unitOf (modUnit s u f) u = f (unitOf s u) := by
  simp [modUnit]
theorem unitOf_modUnit_other (s : State) (u v : UAddr) (f : UnitSt → UnitSt) (h : v ≠ u) :
    unitOf (modUnit s u f) v = unitOf s v := unitOf_setUnit_other s u v _ h

@[simp] theorem coreOf_setCore_same (s : State) (k : Nat) (x : CoreSt) : coreOf (setCore s k x) k = x := by
  simp [coreOf, setCore]
theorem coreOf_setCore_other (s : State) (k j : Nat) (x : CoreSt) (h : j ≠ k) : coreOf (setCore s k x) j = coreOf s j := by
  simp [coreOf, setCore, tget_tset_other _ _ _ _ h]
@[simp] theorem coreOf_modCore_same (s : State) (k : Nat) (f : CoreSt → CoreSt) : coreOf (modCore s k f) k = f (coreOf s k) := by
  simp [modCore]
theorem coreOf_modCore_other (s : State) (k j : Nat) (f : CoreSt → CoreSt) (h : j ≠ k) :
    coreOf (modCore s k f) j = coreOf s j := coreOf_setCore_other s k j _ h

@[simp] theorem clusterOf_setCluster_same (s : State) (c : Nat) (x : ClusterSt) : clusterOf (setCluster s c x) c = x := by
  simp [clusterOf, setCluster]
theorem clusterOf_setCluster_other (s : State) (c j : Nat) (x : ClusterSt) (h : j ≠ c) :
    clusterOf (setCluster s c x) j = clusterOf s j := by
  simp [clusterOf, setCluster, tget_tset_other _ _ _ _ h]
@[simp] theorem clusterOf_modCluster_same (s : State) (c : Nat) (f : ClusterSt → ClusterSt) :
    clusterOf (modCluster s c f) c = f (clusterOf s c) := by
  simp [modCluster]
theorem clusterOf_modCluster_other (s : State) (c j : Nat) (f : ClusterSt → ClusterSt) (h : j ≠ c) :
    clusterOf (modCluster s c f) j = clusterOf s j := clusterOf_setCluster_other s c j _ h

@[simp] theorem queueOf_setQueue_same (s : State) (q : Nat) (x : QueueSt) : queueOf (setQueue s q x) q = x := by
  simp [queueOf, setQueue]
theorem queueOf_setQueue_other (s : State) (q j : Nat) (x : QueueSt) (h : j ≠ q) :
    queueOf (setQueue s q x) j = queueOf s j := by
  simp [queueOf, setQueue, tget_tset_other _ _ _ _ h]
@[simp] theorem queueOf_modQueue_same (s : State) (q : Nat) (f : QueueSt → QueueSt) :
    queueOf (modQueue s q f) q = f (queueOf s q) := by
  simp [modQueue]
theorem queueOf_modQueue_other (s : State) (q j : Nat) (f : QueueSt → QueueSt) (h : j ≠ q) :
    queueOf (modQueue s q f) j = queueOf s j := queueOf_setQueue_other s q j _ h

end Sys2Proof.Machine
end

