-- ==== Sys2Proof/Laws/Dsp.lean ====
section
/-! SUPPORT. Laws/Dsp.lean: what issuing a DSP instruction answers. -/

namespace Sys2Proof.Machine

/-- The control state that an instruction's effect leaves, before its packet goes on. -/
def fxState (x : Fx) (d0 : DspSt) : DspSt :=
  let d := x.upd.getD d0
  { d with
    flight := d.flight ++ x.writes.map (fun w => { due := d.cycle + w.1, issued := d.cycle, dest := w.2.1, val := w.2.2 })
    stores := d.stores ++ x.stores }

theorem fxState_writes (ws : List (Nat × DspDest × BitVec 64)) (n : Nat) : fxState { writes := ws, sat := n } = withResults ws := by
  funext d; simp [fxState, withResults]

theorem fxState_none : fxState {} = fun d => d := by
  funext d; simp [fxState]

theorem fxState_upd (d' : DspSt) (d : DspSt) : fxState { upd := some d' } d = d' := by
  simp [fxState]

theorem clash_false {s : State} {k : Nat} {slot : BitVec 1} {x : Fx} {w : BitVec 32} (h : DspTurn s k slot w (x.writes.map (fun w => w.2.1))) :
    clash (dspOf s k) slot x = false := by
  obtain ⟨-, -, -, -, h⟩ := h
  rw [Bool.eq_false_iff]
  intro hc
  simp only [clash, Bool.and_eq_true, beq_iff_eq, List.any_eq_true] at hc
  obtain ⟨hs, w, hw, f, hf, h1, h2⟩ := hc
  exact (h hs).2.2.2 f hf h1 (List.mem_map.2 ⟨w, hw, h2.symm⟩)

/-- An effect that signals nothing: its results, its counted reads and its limitings. -/
theorem applyFx_none {s : State} {k : Nat} {x : Fx} (h : x.signal = none) :
    applyFx s k x = setSat (counted (modDsp s k (fxState x)) x.reads) k (deUnit k) 0x23 x.sat := by
  simp only [applyFx, h]; rfl

/-- An instruction whose effect neither faults nor signals, in its turn, answers the state that `dspAfter` names. -/
theorem dspIssue_next {s : State} {k : Nat} {slot : BitVec 1} {w : BitVec 32} {f : State → DspSt → Fx}
    (h : DspTurn s k slot w ((f s (dspOf s k)).writes.map (fun w => w.2.1))) (hf : (f s (dspOf s k)).fault = none)
    (hg : (f s (dspOf s k)).signal = none) :
    dspIssue k slot w f s = .next (dspAfter s k slot (fxState (f s (dspOf s k))) (f s (dspOf s k)).sat (f s (dspOf s k)).reads) := by
  have hc := clash_false h
  obtain ⟨h1, h2, h3, h4, h5⟩ := h
  have e1 : (48 ≤ k || stopped s || !canRun s (deUnit k)) = false := by
    simp only [Active] at h2
    simp [h2, h3]; omega
  by_cases hs : slot = 0
  · obtain ⟨a, b, c⟩ := h4 hs
    subst hs
    simp only [dspIssue, e1, a, b, c, hf, applyFx_none hg]
    simp [dspAfter, counted]
  · have hs1 : slot = 1 := by bv_omega
    obtain ⟨a, b, c, -⟩ := h5 hs1
    subst hs1
    simp only [dspIssue, e1, hc, a, b, c, hf, applyFx_none hg]
    simp [dspAfter]

end Sys2Proof.Machine
end

