-- ==== Sys2Proof/Laws/Memory.lean ====
section
/-! SUPPORT. Laws/Memory.lean: reading a byte list after a write, and that every operation over memory keeps its canonical
form. -/

namespace Sys2Proof.Machine

/-! ## The byte list -/

/-- Canonical form as a pairwise order, the form in which the operations below keep it. -/
theorem cellsWf_iff (m : List Host.Cell) :
    cellsWf m = true ↔ m.Pairwise (fun p q => p.1 < q.1) ∧ ∀ p ∈ m, p.2 ≠ 0 := by
  induction m with
  | nil => simp [cellsWf]
  | cons p t ih =>
    obtain ⟨a, b⟩ := p
    cases t with
    | nil => simp [cellsWf]
    | cons q t =>
      obtain ⟨a', b'⟩ := q
      simp only [cellsWf, Bool.and_eq_true, bne_iff_ne, ne_eq, decide_eq_true_eq, ih, List.pairwise_cons, List.mem_cons]
      constructor
      · rintro ⟨⟨hb, hlt⟩, ⟨h1, h2⟩, h3⟩
        refine ⟨⟨?_, h1, h2⟩, ?_⟩
        · rintro x (rfl | hx)
          · exact hlt
          · exact Nat.lt_trans hlt (h1 x hx)
        · rintro x (rfl | hx)
          · exact hb
          · exact h3 x hx
      · rintro ⟨⟨h1, h2, h3⟩, h4⟩
        exact ⟨⟨h4 (a, b) (Or.inl rfl), h1 (a', b') (Or.inl rfl)⟩, ⟨h2, h3⟩, fun x hx => h4 x (Or.inr hx)⟩

theorem cput_mem (m : List Host.Cell) (a : Nat) (b : Byte) (x : Host.Cell) (h : x ∈ cput m a b) :
    x ∈ m ∨ (x = (a, b) ∧ b ≠ 0) := by
  induction m with
  | nil => simp only [cput] at h; split at h <;> simp_all
  | cons p t ih =>
    obtain ⟨j, y⟩ := p
    simp only [cput] at h
    split at h
    · split at h
      · exact Or.inl h
      · next hb => rcases List.mem_cons.mp h with h | h
                   · exact Or.inr ⟨h, hb⟩
                   · exact Or.inl h
    · split at h
      · split at h
        · exact Or.inl (List.mem_cons_of_mem _ h)
        · next hb => rcases List.mem_cons.mp h with h | h
                     · exact Or.inr ⟨h, hb⟩
                     · exact Or.inl (List.mem_cons_of_mem _ h)
      · rcases List.mem_cons.mp h with rfl | h
        · simp
        · rcases ih h with h | h
          · exact Or.inl (List.mem_cons_of_mem _ h)
          · exact Or.inr h

theorem cellsWf_cput {m : List Host.Cell} (a : Nat) (b : Byte) (h : cellsWf m = true) : cellsWf (cput m a b) = true := by
  rw [cellsWf_iff] at h ⊢
  obtain ⟨hp, hz⟩ := h
  constructor
  · induction m with
    | nil => simp only [cput]; split <;> simp
    | cons p t ih =>
      obtain ⟨j, y⟩ := p
      have hp' := List.pairwise_cons.mp hp
      simp only [cput]
      split
      · next hlt =>
        split
        · exact hp
        · refine List.pairwise_cons.mpr ⟨?_, hp⟩
          intro x hx
          rcases List.mem_cons.mp hx with rfl | hx
          · exact hlt
          · exact Nat.lt_trans hlt (hp'.1 x hx)
      · next hlt =>
        split
        · next he =>
          split
          · exact hp'.2
          · refine List.pairwise_cons.mpr ⟨?_, hp'.2⟩
            intro x hx
            have := hp'.1 x hx
            simpa [he] using this
        · next hne =>
          refine List.pairwise_cons.mpr ⟨?_, ih hp'.2 (fun x hx => hz x (List.mem_cons_of_mem _ hx))⟩
          intro x hx
          rcases cput_mem t a b x hx with hx | ⟨rfl, _⟩
          · exact hp'.1 x hx
          · show j < a
            omega
  · intro x hx
    rcases cput_mem m a b x hx with hx | ⟨rfl, hb⟩
    · exact hz x hx
    · exact hb

theorem cellsWf_cputs {m : List Host.Cell} (a : Nat) (bs : List Byte) (h : cellsWf m = true) :
    cellsWf (cputs m a bs) = true := by
  induction bs generalizing m a with
  | nil => exact h
  | cons b bs ih => exact ih (a + 1) (cellsWf_cput a b h)

theorem cellsWf_filter {m : List Host.Cell} (f : Host.Cell → Bool) (h : cellsWf m = true) : cellsWf (m.filter f) = true := by
  rw [cellsWf_iff] at h ⊢
  exact ⟨h.1.filter f, fun x hx => h.2 x (List.mem_filter.mp hx).1⟩

theorem cellsWf_cwipe {m : List Host.Cell} (a n : Nat) (h : cellsWf m = true) : cellsWf (cwipe m a n) = true :=
  cellsWf_filter _ h

theorem cellsWf_foldl_cput {α : Type} (l : List α) (f : α → Nat) (g : α → Byte) {m : List Host.Cell} (h : cellsWf m = true) :
    cellsWf (l.foldl (fun m p => cput m (f p) (g p)) m) = true := by
  induction l generalizing m with
  | nil => exact h
  | cons x t ih => exact ih (cellsWf_cput _ _ h)

/-- A byte after one byte was written: that byte, or what stood there. -/
theorem cget_cput {m : List Host.Cell} (a i : Nat) (b : Byte) (h : cellsWf m = true) :
    cget (cput m a b) i = if i = a then b else cget m i := by
  rw [cellsWf_iff] at h
  obtain ⟨hp, hz⟩ := h
  clear hz
  have below : ∀ (t : List Host.Cell) (x : Nat), (∀ p ∈ t, x < p.1) → cget t x = 0 := by
    intro t x hx
    induction t with
    | nil => rfl
    | cons p t ih =>
      obtain ⟨j, y⟩ := p
      have h1 : x < j := hx (j, y) (List.mem_cons_self ..)
      have h2 : ¬ j = x := by omega
      simp only [cget, h2, if_false]
      exact ih (fun p hp => hx p (List.mem_cons_of_mem _ hp))
  induction m with
  | nil =>
    by_cases hb : b = 0
    · subst hb; simp [cput, cget]
    · rw [cput, if_neg hb]
      by_cases hi : i = a
      · subst hi; simp [cget]
      · have : ¬ a = i := fun e => hi e.symm
        simp [cget, hi, this]
  | cons p t ih =>
    obtain ⟨j, y⟩ := p
    have hp' := List.pairwise_cons.mp hp
    have hr := ih hp'.2
    simp only [cput]
    by_cases h1 : a < j
    · have hlow : ∀ p ∈ (j, y) :: t, a < p.1 := by
        intro p hm
        rcases List.mem_cons.mp hm with rfl | hm
        · exact h1
        · exact Nat.lt_trans h1 (hp'.1 p hm)
      by_cases hb : b = 0
      · simp only [h1, hb, if_true]
        by_cases hi : i = a
        · subst hi; simp [below _ _ hlow]
        · simp [hi]
      · simp only [h1, hb, if_true, if_false]
        by_cases hi : i = a
        · subst hi; simp [cget]
        · have : ¬ a = i := fun e => hi e.symm
          simp [cget, hi, this]
    · by_cases h2 : a = j
      · subst h2
        by_cases hb : b = 0
        · simp only [Nat.lt_irrefl, hb, if_true, if_false]
          by_cases hi : i = a
          · subst hi
            rw [if_pos rfl]
            exact below t i (fun p hm => hp'.1 p hm)
          · have : ¬ a = i := fun e => hi e.symm
            simp [cget, hi, this]
        · simp only [Nat.lt_irrefl, hb, if_true, if_false]
          by_cases hi : i = a
          · subst hi; simp [cget]
          · have : ¬ a = i := fun e => hi e.symm
            simp [cget, hi, this]
      · simp only [h1, h2, if_false, cget]
        by_cases h3 : j = i
        · have : ¬ i = a := by omega
          simp [h3, this]
        · simp only [h3, if_false]
          exact hr

/-- A byte after a run of bytes was written. -/
theorem cget_cputs {m : List Host.Cell} (a i : Nat) (bs : List Byte) (h : cellsWf m = true) :
    cget (cputs m a bs) i = if a ≤ i ∧ i < a + bs.length then bs.getD (i - a) 0 else cget m i := by
  induction bs generalizing m a with
  | nil =>
    have : ¬ (a ≤ i ∧ i < a) := by omega
    simp [cputs, this]
  | cons b bs ih =>
    rw [cputs, ih (a + 1) (cellsWf_cput a b h), cget_cput a i b h]
    by_cases h1 : i = a
    · subst h1
      have : ¬ (i + 1 ≤ i ∧ i < i + 1 + bs.length) := by omega
      simp
    · by_cases h2 : a + 1 ≤ i ∧ i < a + 1 + bs.length
      · have h3 : a ≤ i ∧ i < a + (b :: bs).length := by simp; omega
        have h4 : i - a = (i - (a + 1)) + 1 := by omega
        rw [if_pos h2, if_pos h3, h4]
        simp
      · have h3 : ¬ (a ≤ i ∧ i < a + (b :: bs).length) := by simp; omega
        rw [if_neg h2, if_neg h3, if_neg h1]

@[simp] theorem cgets_length (m : List Host.Cell) (a n : Nat) : (cgets m a n).length = n := by
  induction n generalizing a with
  | zero => rfl
  | succ n ih => simp [cgets, ih]

theorem cgets_getD (m : List Host.Cell) (a n i : Nat) (h : i < n) : (cgets m a n).getD i 0 = cget m (a + i) := by
  induction n generalizing a i with
  | zero => omega
  | succ n ih =>
    cases i with
    | zero => simp [cgets]
    | succ i =>
      have := ih (a + 1) i (by omega)
      simp only [cgets, List.getD_cons_succ, this]
      congr 1; omega

/-! ## What leaves memory alone -/

@[simp] theorem countEvent_mem (s : State) (rec ev inst v : Nat) : (countEvent s rec ev inst v).mem = s.mem := by
  unfold countEvent
  split
  · rfl
  · split <;> rfl

@[simp] theorem countUnit_mem (s : State) (u : UAddr) (ev v : Nat) : (countUnit s u ev v).mem = s.mem := by
  unfold countUnit
  split
  · exact countEvent_mem ..
  · rfl

@[simp] theorem countCorrected_mem (s : State) (a : Nat) : (countCorrected s a).mem = s.mem := countUnit_mem ..

@[simp] theorem recordFaultAt_mem (s : State) (u : UAddr) (c : BitVec 8) (x : BitVec 4) (r : Nat) (q : BitVec 12) (n : Seq) (a : Nat) :
    (recordFaultAt s u c x r q n a).mem = s.mem := rfl

@[simp] theorem recordFault_mem (s : State) (u : UAddr) (c : BitVec 8) (x : BitVec 4) (a : Nat) : (recordFault s u c x a).mem = s.mem := by
  unfold recordFault
  dsimp only
  split <;> exact recordFaultAt_mem ..

@[simp] theorem countDram_mem (s : State) (ev a n : Nat) : (countDram s ev a n).mem = s.mem := by
  unfold countDram
  split
  · rfl
  · split
    · exact countUnit_mem ..
    · rfl

@[simp] theorem sendToken_mem (s : State) (src dst : UAddr) (kind tag value : Nat) : (sendToken s src dst kind tag value).mem = s.mem := rfl

/-! ## Every memory operation keeps the canonical form -/

/-- Two states with the same memory agree on its form. -/
theorem memOk_of_mem {s t : State} (e : t.mem = s.mem) (h : MemOk s) : MemOk t := by
  unfold MemOk at h ⊢; rw [e]; exact h

/-- The form depends on the bytes alone. -/
theorem memOk_of_cells {s t : State} (e : t.mem.cells = s.mem.cells) (h : MemOk s) : MemOk t := by
  unfold MemOk Memory.wf at h ⊢; rw [e]; exact h

/-- A run of updates keeps the form if each of them does. -/
theorem memOk_foldl {α : Type} {f : State → α → State} (hf : ∀ s x, MemOk s → MemOk (f s x)) (l : List α) {s : State}
    (h : MemOk s) : MemOk (l.foldl f s) := by
  induction l generalizing s with
  | nil => exact h
  | cons x t ih => exact ih (hf s x h)

theorem reset_memOk : MemOk State.reset := rfl

/-- The write of a run of bytes. -/
theorem memOk_cputs {s : State} (t : State) (a : Nat) (bs : List Byte) (e : t.mem.cells = cputs s.mem.cells a bs) (h : MemOk s) :
    MemOk t := by
  unfold MemOk Memory.wf at h ⊢; rw [e]; exact cellsWf_cputs a bs h

theorem memOk_countUnit {s : State} (u : UAddr) (ev v : Nat) (h : MemOk s) : MemOk (countUnit s u ev v) :=
  memOk_of_mem (countUnit_mem ..) h

theorem memOk_writePiece {s : State} (a : Nat) (bs : List Byte) (h : MemOk s) : MemOk (writePiece s a bs) := by
  have hp : cellsWf (cputs s.mem.cells a bs) = true := cellsWf_cputs a bs h
  unfold writePiece
  dsimp only
  split
  · exact hp
  · split
    · exact hp
    · refine memOk_of_mem (countCorrected_mem ..) ?_
      exact cellsWf_cputs a bs (cellsWf_cputs (32 * (a / 32)) _ h)
    · exact memOk_of_mem (recordFault_mem ..) hp
    · exact memOk_of_mem (recordFault_mem ..) hp

theorem memOk_mirrorPiece {s : State} (a : Nat) (bs : List Byte) (h : MemOk s) : MemOk (mirrorPiece s a bs) := by
  unfold mirrorPiece
  split
  · exact h
  · split
    · refine memOk_foldl (fun s p hs => memOk_writePiece p.1 p.2 hs) _ ?_
      split
      · exact memOk_of_mem (by rw [countUnit_mem, countDram_mem]) h
      · exact h
    · exact h

theorem memOk_dropWrite {s : State} (master : UAddr) (a : Nat) (h : MemOk s) : MemOk (dropWrite s master a) := by
  have hc : (countEvent s 0x3800 0x74 0 1).mem.cells = s.mem.cells := by rw [countEvent_mem]
  unfold dropWrite
  dsimp only
  split
  · split
    · split <;> exact memOk_of_cells hc h
    · exact memOk_of_cells hc h
  · exact memOk_of_cells hc h

theorem memOk_writeLocal {s : State} (master : UAddr) (a : Nat) (bs : List Byte) (mirror : Bool) (h : MemOk s) :
    MemOk (writeLocal s master a bs mirror) := by
  have hf := memOk_foldl (f := fun (s : State) (p : Nat × List Byte) =>
      if placeOf s p.1 = .reserved then s
      else if mirror then mirrorPiece (writePiece s p.1 p.2) p.1 p.2 else writePiece s p.1 p.2)
    (fun s p hs => by
      show MemOk (if _ then _ else _)
      split
      · exact hs
      · split
        · exact memOk_mirrorPiece _ _ (memOk_writePiece _ _ hs)
        · exact memOk_writePiece _ _ hs)
    (pieces bs.length a bs) (memOk_of_mem (countDram_mem s 0x51 a bs.length) h)
  unfold writeLocal
  dsimp only
  split
  · exact memOk_dropWrite _ _ hf
  · exact hf

theorem memOk_wipeRange {s : State} (a n : Nat) (h : MemOk s) : MemOk (wipeRange s a n) := cellsWf_cwipe a n h

theorem memOk_copyRange {s : State} (src dst n : Nat) (h : MemOk s) : MemOk (copyRange s src dst n) :=
  cellsWf_foldl_cput (s.mem.cells.filter (fun p => inRange src n p.1)) (fun p => p.1 - src + dst) (fun p => p.2)
    (memOk_wipeRange dst n h)

theorem memOk_putCodeword {s : State} (w : Nat) (bs : List Byte) (h : MemOk s) : MemOk (putCodeword s w bs) :=
  cellsWf_cputs (32 * w) bs h

theorem memOk_repairCw {s t : State} {w : Nat} (e : repairCw s w = some t) (h : MemOk s) : MemOk t := by
  unfold repairCw at e
  split at e
  · cases e
  · split at e
    · cases e; exact memOk_putCodeword w _ h
    · cases e

theorem memOk_repairBlock {s : State} (a : Nat) (h : MemOk s) : MemOk (repairBlock s a) := by
  refine memOk_foldl (fun s w hs => ?_) _ h
  cases e : repairCw s w with
  | none => exact hs
  | some t => exact memOk_repairCw e hs

theorem memOk_capRingWrite {s : State} (base size off : Nat) (bs : List Byte) (h : MemOk s) : MemOk (capRingWrite s base size off bs) :=
  memOk_writeLocal _ _ _ _ (memOk_writeLocal _ _ _ _ h)

theorem memOk_capRecord {s : State} (kind source : Nat) (time : Time) (payload : List Byte) (h : MemOk s) :
    MemOk (capRecord s kind source time payload) := by
  unfold capRecord
  split
  · exact h
  · extract_lets wanted bs n base s1 s2 e s3 s4 s5 space loss all k s6 s7
    split
    · exact h
    · split
      · split
        · split
          · exact memOk_of_mem rfl (memOk_capRingWrite _ _ _ _ h)
          · exact h
        · split
          · exact memOk_of_mem rfl (memOk_capRingWrite _ _ _ _ h)
          · refine memOk_of_mem (recordFaultAt_mem ..) ?_
            show MemOk s3
            unfold s3
            split
            · exact memOk_capRingWrite _ _ _ _ h
            · exact h
      · refine memOk_of_mem ?_ h
        split
        · show s7.mem = s.mem
          unfold s7
          split <;> rfl
        · rfl

theorem memOk_timingEvent {s : State} (event : Nat) (u : UAddr) (arg : Nat) (h : MemOk s) : MemOk (timingEvent s event u arg) :=
  memOk_capRecord _ _ _ _ h

theorem memOk_poisonCw {s : State} (w : Nat) (h : MemOk s) : MemOk (poisonCw s w) := memOk_of_cells rfl h

theorem memOk_scrubCw {s : State} (w : Nat) (h : MemOk s) : MemOk (scrubCw s w) := by
  unfold scrubCw
  split
  · exact memOk_of_mem (countCorrected_mem ..) (memOk_putCodeword w _ h)
  · split
    · exact memOk_of_cells rfl h
    · exact memOk_poisonCw w h
  · exact h

theorem memOk_scrubRange {s : State} (a n : Nat) (h : MemOk s) : MemOk (scrubRange s a n) :=
  memOk_foldl (fun _ w hs => memOk_scrubCw w hs) _ h

theorem memOk_repairOne {s : State} (w : Nat) (h : MemOk s) : MemOk (repairOne s w) := by
  unfold repairOne
  split
  · cases e : repairCw s w with
    | none => exact memOk_poisonCw w h
    | some t => exact memOk_repairCw e h
  · exact h

theorem memOk_runRepairs {s : State} (d : Nat) (h : MemOk s) : MemOk (runRepairs s d) :=
  memOk_foldl (fun _ w hs => memOk_repairOne w hs) _ (memOk_of_cells rfl h)

theorem memOk_wipeOccupancy {s : State} (h : MemOk s) : MemOk (wipeOccupancy s) := cellsWf_filter _ h

theorem memOk_takeMirrors {s : State} (holds : Region → Bool) (h : MemOk s) : MemOk (takeMirrors s holds) :=
  memOk_foldl (fun _ _ hs => memOk_copyRange _ _ _ hs) _ h

theorem memOk_restoreMirror {s : State} (d : Nat) (h : MemOk s) : MemOk (restoreMirror s d) :=
  memOk_foldl (fun _ _ hs => memOk_copyRange _ _ _ hs) _ (memOk_foldl (fun _ _ hs => memOk_copyRange _ _ _ hs) _ h)

theorem memOk_placeSections {s : State} (d : Nat) (h : MemOk s) : MemOk (placeSections s d) := by
  unfold placeSections
  split
  · exact h
  · refine memOk_foldl (fun s e hs => ?_) _ (memOk_foldl (fun s e hs => ?_) _ h)
    all_goals exact cellsWf_cputs _ _ hs

theorem memOk_restoreSections {s : State} (d : Nat) (h : MemOk s) : MemOk (restoreSections s d) := by
  unfold restoreSections
  split
  · exact h
  · exact memOk_foldl (fun _ _ hs => memOk_copyRange _ _ _ hs) _ h

theorem memOk_placeLists {s : State} (p : Plan) (nom : UAddr) (d base : Nat) (h : MemOk s) : MemOk (placeLists s p nom d base) :=
  memOk_foldl (fun _ _ hs => memOk_copyRange _ _ _ hs) _ (memOk_foldl (fun _ _ hs => memOk_copyRange _ _ _ hs) _ h)

theorem memOk_reloadCore {s : State} (k n : Nat) (h : MemOk s) : MemOk (reloadCore s k n) := by
  unfold reloadCore
  split
  · exact h
  · exact memOk_of_mem rfl (memOk_placeLists _ (coreUnit n) (k / 24) (coreBase s k) h)

theorem memOk_putWindow {s : State} (base size : Nat) (cells : List Host.Cell) (h : MemOk s) : MemOk (putWindow s base size cells) :=
  cellsWf_foldl_cput cells (fun c => c.1) (fun c => c.2) (cellsWf_cwipe base size h)

theorem foldl_mem {α : Type} {f : State → α → State} (hf : ∀ s x, (f s x).mem = s.mem) (l : List α) (s : State) :
    (l.foldl f s).mem = s.mem := by
  induction l generalizing s with
  | nil => rfl
  | cons x t ih => exact (ih (f s x)).trans (hf s x)

@[simp] theorem raiseVector_mem (s : State) (v : Nat) : (raiseVector s v).mem = s.mem := by
  unfold raiseVector
  split
  · rfl
  · split <;> rfl

@[simp] theorem drainVectors_mem (s : State) : (drainVectors s).mem = s.mem := by
  unfold drainVectors
  split
  · exact foldl_mem (fun s v => emit_mem s (.msix v)) _ _
  · rfl

@[simp] theorem ringDoorbell_mem (s : State) (qn v : Nat) : (ringDoorbell s qn v).mem = s.mem := by
  unfold ringDoorbell
  dsimp only
  repeat' split
  all_goals rfl

/-- The response of an object request: over PCI Express it is written into the window. -/
theorem memOk_answer {s : State} (req : ObjReq) (abort : Nat) (payload : List Byte) (h : MemOk s) : MemOk (answer s req abort payload) := by
  unfold answer
  dsimp only
  split
  · exact memOk_of_mem (raiseVector_mem ..) (cellsWf_cputs _ _ h)
  · exact h
  · split <;> exact h

theorem memOk_objGo {s : State} (h : MemOk s) : MemOk (objGo s) := by
  unfold objGo
  split
  · exact h
  · dsimp only [landReq]
    split
    · exact memOk_answer _ _ _ (memOk_of_mem rfl h)
    · exact memOk_of_mem rfl h

theorem memOk_writeObjCtrl {s : State} (v : Nat) (h : MemOk s) : MemOk (writeObjCtrl s v) := by
  have hs : ∀ (b : Bool) (x y : State), x.mem = s.mem → y.mem = s.mem → (if b then x else y).mem = s.mem := by
    intro b x y hx hy; cases b <;> assumption
  have e : ∀ b c : Bool, (let s1 := if b then objDoneClear s else s; if c then objOverrunClear s1 else s1).mem = s.mem := by
    intro b c; cases b <;> cases c <;> rfl
  unfold writeObjCtrl
  dsimp only
  split
  · exact memOk_objGo (memOk_of_mem (e _ _) h)
  · exact memOk_of_mem (e _ _) h

theorem memOk_liveDoorbell {s : State} (qn v : Nat) (h : MemOk s) : MemOk (liveDoorbell s qn v) := by
  unfold liveDoorbell
  split
  · exact h
  · exact memOk_of_mem (ringDoorbell_mem ..) (memOk_capRecord _ _ _ _ h)

theorem memOk_ctlWrite {s : State} (master : UAddr) (off : Nat) (bs : List Byte) (h : MemOk s) : MemOk (ctlWrite s master off bs) := by
  unfold ctlWrite
  dsimp only
  split
  · exact cellsWf_cputs _ _ h
  · split
    · exact memOk_writeObjCtrl _ h
    · exact h
  · split <;> exact h
  · split
    · exact memOk_liveDoorbell _ _ h
    · exact h
  · split
    · exact memOk_of_mem (drainVectors_mem _) h
    · exact h
  · exact h
  · exact memOk_dropWrite _ _ h

/-- A write at a local address keeps the form, wherever it goes. -/
theorem memOk_busWrite {s : State} (master : UAddr) (a : Nat) (bs : List Byte) (mirror : Bool) (h : MemOk s) :
    MemOk (busWrite s master a bs mirror) := by
  unfold busWrite
  split
  · exact h
  · split
    · exact memOk_ctlWrite _ _ _ h
    · exact memOk_writeLocal _ _ _ _ h

end Sys2Proof.Machine
end

