-- ==== Sys2Proof/Laws/Stream.lean ====
section
/-! SUPPORT. Laws/Stream.lean: what a command's rows find of a stream FIFO (R291): an idle FIFO gives them back in order and is idle again. -/

namespace Sys2Proof.Machine

/-- The FIFO holds the rows `b`, all in the bank being filled. -/
def StreamFifo.Holds (f : StreamFifo) (b : List (List Byte)) : Prop :=
  f.wptr = f.rptr ∧ f.wptr < 4 ∧ f.banks = if f.wptr % 2 = 0 then [b, []] else [[], b]

theorem fifo_pass_take {f : StreamFifo} {b : List (List Byte)} (h : f.Holds b) :
    (f.pass.take).1 = b ∧ (f.pass.take).2.Holds [] := by
  obtain ⟨h1, h2, h3⟩ := h
  have h5 : f.rptr = 0 ∨ f.rptr = 1 ∨ f.rptr = 2 ∨ f.rptr = 3 := by omega
  rcases h5 with e | e | e | e <;> rw [e] at h1 <;> rw [h1] at h3 <;>
    simp [StreamFifo.pass, StreamFifo.take, StreamFifo.empty, StreamFifo.Holds, h1, e, h3, lmod]

theorem fifo_put {f : StreamFifo} {b : List (List Byte)} (cap : Nat) (row : List Byte) (h : f.Holds b) :
    ∃ g : StreamFifo, g.Holds (b ++ [row]) ∧ f.put cap row = if cap ≤ (b ++ [row]).length then g.pass else g := by
  obtain ⟨h1, h2, h3⟩ := h
  have h5 : f.rptr = 0 ∨ f.rptr = 1 ∨ f.rptr = 2 ∨ f.rptr = 3 := by omega
  refine ⟨{ f with banks := lmod f.banks (f.wptr % 2) (fun b => b ++ [row]) }, ?_, ?_⟩
  · rcases h5 with e | e | e | e <;> rw [e] at h1 <;> rw [h1] at h3 <;> simp [StreamFifo.Holds, h1, e, h3, lmod]
  · rcases h5 with e | e | e | e <;> rw [e] at h1 <;> rw [h1] at h3 <;> simp [StreamFifo.put, h1, h3, lmod]

theorem fifo_take_held {g : StreamFifo} {b : List (List Byte)} (h : g.Holds b) : g.take = ([], g) := by
  simp [StreamFifo.take, StreamFifo.empty, h.1]

/-- What the FIFO held, and the rows behind it, come out in order; nothing stays. -/
theorem fifo_run {cap : Nat} (rows : List (List Byte)) : ∀ {f : StreamFifo} {b : List (List Byte)}, f.Holds b →
    (StreamFifo.run cap f rows).1 = b ++ rows ∧ (StreamFifo.run cap f rows).2.Holds [] := by
  induction rows with
  | nil =>
    intro f b h
    have hb : f.banks.getD (f.wptr % 2) [] = b := by
      obtain ⟨h1, h2, h3⟩ := h
      have h5 : f.wptr % 2 = 0 ∨ f.wptr % 2 = 1 := by omega
      rcases h5 with e | e <;> simp [h3, e]
    simp only [StreamFifo.run, hb]
    split
    · rename_i he
      simp only [List.isEmpty_iff] at he
      subst he
      exact ⟨rfl, h⟩
    · simpa using fifo_pass_take h
  | cons row rest ih =>
    intro f b h
    obtain ⟨g, hg, e⟩ := fifo_put cap row h
    simp only [StreamFifo.run, e]
    split
    · obtain ⟨a, c⟩ := fifo_pass_take hg
      obtain ⟨x, y⟩ := ih c
      exact ⟨by rw [a, x]; simp, y⟩
    · rw [fifo_take_held hg]
      obtain ⟨x, y⟩ := ih hg
      exact ⟨by rw [x]; simp, y⟩

theorem fifoIdle_iff (s : State) (u : UAddr) : FifoIdle s u ↔ (engMemOf s u).fifo.Holds [] := by
  simp only [FifoIdle, StreamFifo.Holds, ite_self]
  constructor
  · rintro ⟨a, b, c⟩; exact ⟨b, by omega, a⟩
  · rintro ⟨a, b, c⟩; exact ⟨c, a, by omega⟩

/-- A command's rows pass through an idle FIFO unchanged, and the FIFO is idle again. -/
theorem stream_idle {s : State} {u : UAddr} (rows : List (List Byte)) (h : FifoIdle s u) :
    (stream s u rows).1 = rows ∧ FifoIdle (stream s u rows).2 u := by
  obtain ⟨x, y⟩ := fifo_run (cap := bankRows u) rows ((fifoIdle_iff s u).1 h)
  refine ⟨by simpa [stream] using x, (fifoIdle_iff _ u).2 ?_⟩
  have e : engMemOf (stream s u rows).2 u = { engMemOf s u with fifo := (StreamFifo.run (bankRows u) (engMemOf s u).fifo rows).2 } := by
    simp [stream, modEngMem, engMemOf, tget_tset_same]
  rw [e]; exact y

end Sys2Proof.Machine
end

