-- ==== Sys2Proof/Laws/Units.lean ====
section
/-! SUPPORT. Laws/Units.lean: what the unit addresses of cores, clusters and dies read as, and the shape of a timed meaning. -/

namespace Sys2Proof.Machine

theorem timed_active {s : State} (h : stopped s = false) (t : Time) (f : State → State) : timed s t f = .next (f (s.atTime t)) := by
  simp [timed, h]

theorem timed_stopped {s : State} (h : stopped s = true) (t : Time) (f : State → State) : timed s t f = .next (s.atTime t) := by
  simp [timed, h]

@[simp] theorem stopped_atTime (s : State) (t : Time) : stopped (s.atTime t) = stopped s := rfl
@[simp] theorem unitOf_atTime (s : State) (t : Time) (u : UAddr) : unitOf (s.atTime t) u = unitOf s u := rfl
@[simp] theorem coreOf_atTime (s : State) (t : Time) (k : Nat) : coreOf (s.atTime t) k = coreOf s k := rfl
@[simp] theorem clusterOf_atTime (s : State) (t : Time) (c : Nat) : clusterOf (s.atTime t) c = clusterOf s c := rfl
@[simp] theorem queueOf_atTime (s : State) (t : Time) (q : Nat) : queueOf (s.atTime t) q = queueOf s q := rfl
@[simp] theorem atTime_now (s : State) (t : Time) : (s.atTime t).time.now = max s.time.now t := rfl

theorem coreUnit_level : ∀ k, k < 48 → uLevel (coreUnit k) = 1 := by decide
theorem coreUnit_no : ∀ k, k < 48 → coreNo (coreUnit k) = k := by decide
theorem coreUnit_core : ∀ k, k < 48 → uCore (coreUnit k) ≤ 5 := by decide
theorem coreUnit_valid : ∀ k, k < 48 → unitValid (coreUnit k) = true := by decide
theorem coreUnit_parent : ∀ k, k < 48 → parentOf (coreUnit k) = clusterUnit (k / 6) := by decide
theorem clusterUnit_level : ∀ c, c < 8 → uLevel (clusterUnit c) = 2 := by decide
theorem clusterUnit_no : ∀ c, c < 8 → uCluster (clusterUnit c) = c := by decide
theorem clusterUnit_valid : ∀ c, c < 8 → unitValid (clusterUnit c) = true := by decide
theorem clusterUnit_parent : ∀ c, c < 8 → parentOf (clusterUnit c) = dieUnit (c / 4) := by decide
theorem dieUnit_level : ∀ d, d < 3 → uLevel (dieUnit d) = 3 := by decide
theorem dieUnit_die : ∀ d, d < 3 → uDie (dieUnit d) = d := by decide
theorem dieUnit_valid : ∀ d, d < 3 → unitValid (dieUnit d) = true := by decide
theorem dieUnit_parent : ∀ d, d < 3 → parentOf (dieUnit d) = packageUnit := by decide

end Sys2Proof.Machine
end

