-- ==== Sys2Proof/Laws/Tokens.lean ====
section
/-! SUPPORT. Laws/Tokens.lean: the fields of a token that a unit makes, and what its arrival does. -/

namespace Sys2Proof.Machine

theorem mkToken_toNat (src : UAddr) (kind tag value : Nat) :
    (mkToken src kind tag value).toNat = src.toNat * 2 ^ 48 + kind % 16 * 2 ^ 44 + tag % 256 * 2 ^ 32 + value % 2 ^ 32 := by
  have h := src.isLt
  simp only [mkToken, BitVec.toNat_ofNat]
  omega

theorem tokKind_mkToken (src : UAddr) (kind tag value : Nat) : tokKind (mkToken src kind tag value) = kind % 16 := by
  simp only [tokKind, bitsOf, mkToken_toNat, Nat.shiftRight_eq_div_pow]
  omega

theorem tokTag_mkToken (src : UAddr) (kind tag value : Nat) : tokTag (mkToken src kind tag value) = tag % 256 := by
  simp only [tokTag, bitsOf, mkToken_toNat, Nat.shiftRight_eq_div_pow]
  omega

theorem tokValue_mkToken (src : UAddr) (kind tag value : Nat) : tokValue (mkToken src kind tag value) = value % 2 ^ 32 := by
  simp only [tokValue, bitsOf, mkToken_toNat, Nat.shiftRight_eq_div_pow]
  omega

theorem tokSource_mkToken (src : UAddr) (kind tag value : Nat) : tokSource (mkToken src kind tag value) = src := by
  have h := src.isLt
  apply BitVec.eq_of_toNat_eq
  simp only [tokSource, bitsOf, mkToken_toNat, Nat.shiftRight_eq_div_pow, BitVec.toNat_ofNat]
  omega

/-- What a token event sets in the DSP engine of a core, and nothing else. -/
theorem dspEvent_cases (s : State) (k tag : Nat) :
    dspEvent s k tag = s ∨ ∃ p, dspEvent s k tag = modCore s k (fun x => { x with dsp := { x.dsp with pend := p } }) := by
  simp only [dspEvent]
  split
  · exact Or.inl rfl
  · split
    · exact Or.inr ⟨_, rfl⟩
    · exact Or.inl rfl

end Sys2Proof.Machine
end

