-- ==== Sys2Proof/WellFormed.lean ====
section
/-! DEFINITION. WellFormed.lean: the commands whose operands name things that exist: units by R30 and R31, cores, arrays, movers,
ports, pins, windows, steps. A command outside this form names something that the block does not have; the block is sent none. -/

namespace Sys2Proof

open Machine (unitValid)

/-- The owner of a queue exists. -/
def ownerOk : QueueOwner → Bool
  | .clusterQueue _ _ => true
  | .tileQueue k => decide (k < 48)
  | .streamFifo e => unitValid e

/-- The operands of a command name things that exist. -/
def Instr.wf : Instr → Bool
  | .unitCommand unit _ _ => unitValid unit
  | .readyToken dst _ _ => unitValid dst
  | .creditToken dst _ _ => unitValid dst
  | .doneToken dst _ _ => unitValid dst
  | .fenceToken dst _ _ => unitValid dst
  | .tickFire dst _ _ => unitValid dst
  | .faultToken dst _ _ => unitValid dst
  | .stepStart sequencer eng _ => unitValid sequencer && unitValid eng
  | .watchdogExpiry unit _ => unitValid unit
  | .unitDawn unit _ _ => unitValid unit
  | .dieRestoreComplete _ _ => true
  | .cpWatchdogExpiry _ => true
  | .clockDroop island _ _ => decide (island < 61)
  | .clockRestart island _ => decide (island < 61)
  | .maNop core step _ => decide (core < 48) && decide (step < 4096)
  | .maLoad core step _ => decide (core < 48) && decide (step < 4096)
  | .maPassWs core step _ => decide (core < 48) && decide (step < 4096)
  | .maPassIs core step _ => decide (core < 48) && decide (step < 4096)
  | .maPassOs core step _ => decide (core < 48) && decide (step < 4096)
  | .maEmit core step _ => decide (core < 48) && decide (step < 4096)
  | .maCommandComplete core array _ => decide (core < 48) && decide (array < 4)
  | .tileSlotReserve core => decide (core < 48)
  | .veNop core step _ => decide (core < 48) && decide (step < 4096)
  | .veCopy core step _ => decide (core < 48) && decide (step < 4096)
  | .veAdd core step _ => decide (core < 48) && decide (step < 4096)
  | .veSub core step _ => decide (core < 48) && decide (step < 4096)
  | .veMul core step _ => decide (core < 48) && decide (step < 4096)
  | .veMin core step _ => decide (core < 48) && decide (step < 4096)
  | .veMax core step _ => decide (core < 48) && decide (step < 4096)
  | .veAbs core step _ => decide (core < 48) && decide (step < 4096)
  | .veNeg core step _ => decide (core < 48) && decide (step < 4096)
  | .veConj core step _ => decide (core < 48) && decide (step < 4096)
  | .veAbs2 core step _ => decide (core < 48) && decide (step < 4096)
  | .veLlradd core step _ => decide (core < 48) && decide (step < 4096)
  | .veRecip core step _ => decide (core < 48) && decide (step < 4096)
  | .veRsqrt core step _ => decide (core < 48) && decide (step < 4096)
  | .veSqrt core step _ => decide (core < 48) && decide (step < 4096)
  | .veDiv core step _ => decide (core < 48) && decide (step < 4096)
  | .veExp core step _ => decide (core < 48) && decide (step < 4096)
  | .veExp2 core step _ => decide (core < 48) && decide (step < 4096)
  | .veLog core step _ => decide (core < 48) && decide (step < 4096)
  | .veLog2 core step _ => decide (core < 48) && decide (step < 4096)
  | .veTanh core step _ => decide (core < 48) && decide (step < 4096)
  | .veSigmoid core step _ => decide (core < 48) && decide (step < 4096)
  | .veSilu core step _ => decide (core < 48) && decide (step < 4096)
  | .veGelu core step _ => decide (core < 48) && decide (step < 4096)
  | .veSinpi core step _ => decide (core < 48) && decide (step < 4096)
  | .veCospi core step _ => decide (core < 48) && decide (step < 4096)
  | .veEpi core step _ => decide (core < 48) && decide (step < 4096)
  | .vePermute core step _ => decide (core < 48) && decide (step < 4096)
  | .veDeinterleave core step _ => decide (core < 48) && decide (step < 4096)
  | .veInterleave core step _ => decide (core < 48) && decide (step < 4096)
  | .veReverse core step _ => decide (core < 48) && decide (step < 4096)
  | .veSwapPairs core step _ => decide (core < 48) && decide (step < 4096)
  | .veRotate core step _ => decide (core < 48) && decide (step < 4096)
  | .vePack core step _ => decide (core < 48) && decide (step < 4096)
  | .veUnpack core step _ => decide (core < 48) && decide (step < 4096)
  | .veReduceSum core step _ => decide (core < 48) && decide (step < 4096)
  | .veReduceSumsq core step _ => decide (core < 48) && decide (step < 4096)
  | .veReduceMax core step _ => decide (core < 48) && decide (step < 4096)
  | .veReduceMin core step _ => decide (core < 48) && decide (step < 4096)
  | .veReduceMaxabs core step _ => decide (core < 48) && decide (step < 4096)
  | .veReduceArgmax core step _ => decide (core < 48) && decide (step < 4096)
  | .veDemap core step _ => decide (core < 48) && decide (step < 4096)
  | .veCommandComplete core _ => decide (core < 48)
  | .queuePointerMismatch owner _ => ownerOk owner
  | .dspNopCommand core _ => decide (core < 48)
  | .dspRun core _ => decide (core < 48)
  | .dspRunComplete core _ => decide (core < 48)
  | .dspBoundExpiry core _ => decide (core < 48)
  | .dspInterrupt core => decide (core < 48)
  | .dspWaitResume core => decide (core < 48)
  | .dspNop core _ => decide (core < 48)
  | .dspMov core _ _ => decide (core < 48)
  | .dspAdd core _ _ => decide (core < 48)
  | .dspSub core _ _ => decide (core < 48)
  | .dspAdds core _ _ => decide (core < 48)
  | .dspSubs core _ _ => decide (core < 48)
  | .dspAnd core _ _ => decide (core < 48)
  | .dspOr core _ _ => decide (core < 48)
  | .dspXor core _ _ => decide (core < 48)
  | .dspShl core _ _ => decide (core < 48)
  | .dspShra core _ _ => decide (core < 48)
  | .dspShrr core _ _ => decide (core < 48)
  | .dspShrl core _ _ => decide (core < 48)
  | .dspMin core _ _ => decide (core < 48)
  | .dspMax core _ _ => decide (core < 48)
  | .dspAbss core _ _ => decide (core < 48)
  | .dspClz core _ _ => decide (core < 48)
  | .dspDivs core _ _ => decide (core < 48)
  | .dspCmplt core _ _ => decide (core < 48)
  | .dspCadd core _ _ => decide (core < 48)
  | .dspCsub core _ _ => decide (core < 48)
  | .dspCaddj core _ _ => decide (core < 48)
  | .dspCsubj core _ _ => decide (core < 48)
  | .dspCneg core _ _ => decide (core < 48)
  | .dspCconj core _ _ => decide (core < 48)
  | .dspCord core _ _ => decide (core < 48)
  | .dspCmul4 core _ _ => decide (core < 48)
  | .dspCmulj4 core _ _ => decide (core < 48)
  | .dspCmac4 core _ _ => decide (core < 48)
  | .dspCmacj4 core _ _ => decide (core < 48)
  | .dspCmacs core _ _ => decide (core < 48)
  | .dspExt core _ _ => decide (core < 48)
  | .dspLoad core _ _ => decide (core < 48)
  | .dspStore core _ _ => decide (core < 48)
  | .dspStridedLoad core _ _ => decide (core < 48)
  | .dspStridedStore core _ _ => decide (core < 48)
  | .dspSeta core _ _ => decide (core < 48)
  | .dspAdda core _ _ => decide (core < 48)
  | .dspModa core _ _ => decide (core < 48)
  | .dspMova core _ _ => decide (core < 48)
  | .dspMovm core _ _ => decide (core < 48)
  | .dspMovda core _ _ => decide (core < 48)
  | .dspMovdm core _ _ => decide (core < 48)
  | .dspMovl core _ _ => decide (core < 48)
  | .dspMovz core _ _ => decide (core < 48)
  | .dspBr core _ => decide (core < 48)
  | .dspBrz core _ _ => decide (core < 48)
  | .dspBrnz core _ _ => decide (core < 48)
  | .dspBrn core _ _ => decide (core < 48)
  | .dspBrnn core _ _ => decide (core < 48)
  | .dspCall core _ => decide (core < 48)
  | .dspJmpa core _ => decide (core < 48)
  | .dspLoop core _ => decide (core < 48)
  | .dspHalt core => decide (core < 48)
  | .dspReti core => decide (core < 48)
  | .dspIen core _ => decide (core < 48)
  | .dspWait core _ => decide (core < 48)
  | .dspSignal core _ _ => decide (core < 48)
  | .dspMvls core _ => decide (core < 48)
  | .dspMvsl core _ => decide (core < 48)
  | .dspMvsd core _ => decide (core < 48)
  | .dspMvds core _ => decide (core < 48)
  | .dspMvad core _ => decide (core < 48)
  | .dspMvda core _ => decide (core < 48)
  | .ceNop _ _ _ => true
  | .ceDerm _ _ _ => true
  | .ceDecode _ _ _ => true
  | .ceEncode _ _ _ => true
  | .ceCrc _ _ _ => true
  | .ceCommandComplete _ _ _ => true
  | .peNop _ _ => true
  | .peDecode _ _ => true
  | .peEncode _ _ => true
  | .peCommandComplete _ _ => true
  | .peBorrowedCommand _ _ => true
  | .moverNop _ m _ => decide (m < 6)
  | .moverCopy _ m _ _ => decide (m < 6)
  | .moverFill _ m _ => decide (m < 6)
  | .moverRelay _ m _ _ => decide (m < 6)
  | .moverFlush _ m _ => decide (m < 6)
  | .queueFlushEffect _ _ => true
  | .moverTransferIssue _ m _ _ => decide (m < 6)
  | .moverCommandComplete _ m _ => decide (m < 6)
  | .refreshWindow _ k _ => decide (k < 512)
  | .refreshWindowEnd _ _ => true
  | .sramScrub _ _ => true
  | .bar2Write _ data _ => decide (data.length ≤ 4096)
  | .bar2Read _ _ _ => true
  | .bar4Write _ data _ => decide (data.length ≤ 4096)
  | .bar4Read _ _ _ => true
  | .bar4Select _ => true
  | .atomicOpRequest => true
  | .poisonedWriteReceived _ _ => true
  | .hostReadError _ _ _ => true
  | .pcieReplay flits _ => decide (0 < flits)
  | .pcieFatalError _ => true
  | .pcieLinkDown _ => true
  | .busMasterDisable _ => true
  | .hotReset _ => true
  | .pcieMasteringRestored _ => true
  | .pcieRetrainNarrower _ _ _ => true
  | .d3hotWrite _ => true
  | .flrWrite => true
  | .doeDiscovery _ => true
  | .doeAttestation _ _ => true
  | .doeAbort => true
  | .doorbell _ _ _ => true
  | .nop _ _ _ => true
  | .ulSlot _ _ _ => true
  | .dlSlot _ _ _ => true
  | .prach _ _ _ => true
  | .srsReport _ _ _ => true
  | .trainStep _ _ _ => true
  | .modelCommit _ _ _ => true
  | .capture _ _ _ => true
  | .move _ _ _ _ => true
  | .barrier _ _ _ => true
  | .admissionCut _ => true
  | .contextSwapComplete _ _ _ => true
  | .shareDispatch _ _ _ => true
  | .completionForm _ _ _ => true
  | .modTimeExpiry _ _ => true
  | .fhUplaneReceive h _ _ => decide (h.port < 16)
  | .fhFrameDiscard h _ => decide (h.port < 16)
  | .ecpriDelayMeasurement h _ _ _ => decide (h.port < 16)
  | .fhWindowClose _ _ symbol _ => decide (symbol < 14)
  | .fhDlSectionSend _ _ symbol stream _ _ _ => decide (symbol < 14) && decide (stream < 64)
  | .fhDlWindowClose _ _ symbol _ => decide (symbol < 14)
  | .fhLinkDown port _ _ => decide (port < 16)
  | .fhMode _ _ => true
  | .laserInputChange _ _ _ => true
  | .rxOverPower port _ _ => decide (port < 16)
  | .ptpFrameReceive h mgmtPort _ _ => (mgmtPort || h.port < 16)
  | .esmcMessage port _ _ => decide (port ≤ 16)
  | .ppsInEdge _ _ _ => true
  | .phaseSourceLoss _ => true
  | .servoLock _ => true
  | .holdoverLimitExceeded _ => true
  | .todNext _ _ => true
  | .stepAccept _ _ => true
  | .meridian _ => true
  | .trigOutEdge _ _ => true
  | .ppsOutEdge _ => true
  | .evtInEdge _ _ _ _ => true
  | .vlLinkTrain _ _ _ _ _ _ => true
  | .vlJoin _ _ _ => true
  | .vlDataFlit _ _ _ => true
  | .vlIdleFlit _ _ _ _ _ _ => true
  | .vlReplayTimeout _ _ => true
  | .vlRetrain _ _ _ _ => true
  | .vlWrite _ _ data _ => decide (data.length ≤ 4096)
  | .vlRead _ _ _ => true
  | .vlReadData _ _ data _ => decide (data.length ≤ 4096)
  | .vlToken _ _ _ _ => true
  | .vlE2eAck _ _ _ => true
  | .linkStateFlood _ _ _ => true
  | .globalOpSend _ _ _ => true
  | .globalOpAnnounce _ _ _ => true
  | .globalOpAct _ => true
  | .snapshotMarker _ _ _ _ => true
  | .globalOpAck _ _ _ _ => true
  | .globalOp _ _ => true
  | .objGo _ => true
  | .objDoneClear => true
  | .objOverrunClear => true
  | .mctpMessage _ _ _ _ _ => true
  | .mgmtDatagram _ _ _ _ => true
  | .read _ _ => true
  | .write _ _ => true
  | .readBlock _ _ => true
  | .writeBlock _ _ => true
  | .commit _ _ => true
  | .subscribe _ _ => true
  | .alertAck _ _ => true
  | .unitQuery _ _ => true
  | .queueOpen _ _ => true
  | .queueClose _ _ => true
  | .load _ _ _ _ => true
  | .loadChecksComplete _ _ => true
  | .occEnd _ _ => true
  | .packageReset _ _ => true
  | .twilightDrained _ => true
  | .twilightWipeComplete _ => true
  | .replayInject _ _ => true
  | .counterWrap unit _ sourceUnit _ _ _ _ _ _ => unitValid unit && unitValid sourceUnit
  | .freeze _ _ => true
  | .provision _ _ => true
  | .certify _ _ => true
  | .enrolOwner _ _ => true
  | .revokeOwner _ _ => true
  | .deploy _ _ => true
  | .returnDevice _ _ => true
  | .redeploy _ _ => true
  | .decommission _ _ => true
  | .installPatch _ _ => true
  | .transitionApply _ => true
  | .attestation _ _ => true
  | .porNAssert _ => true
  | .porNDeassert _ _ _ _ => true
  | .perstNAssert _ => true
  | .perstNDeassert _ _ _ _ => true
  | .railDip rail _ _ _ => decide (rail < 13)
  | .railRecovery _ _ _ _ => true
  | .sensorSample die _ _ => die != 3
  | .avsNoResponse _ _ => true
  | .pinFaultDetect k _ _ => decide (k < 256)
  | .biasSense k _ _ => decide (k < 256)
  | .sidebandStuck _ _ _ _ _ => true
  | .i3cEntdaa _ => true
  | .setEndpointId _ _ => true
  | .getEndpointId _ => true
  | .getMctpVersionSupport _ => true
  | .getMessageTypeSupport _ => true
  | .arpRequest _ _ _ => true
  | .icmpEcho _ _ _ => true
  | .neighbourDiscovery _ _ => true
  | .icmpv6Echo _ _ _ => true
  | .jtagBypass _ => true
  | .jtagIdcode => true
  | .jtagSamplePreload _ => true
  | .jtagExtest _ => true
  | .jtagExtestPulse _ => true
  | .jtagExtestTrain _ => true
  | .jtagClamp _ => true
  | .jtagHighz _ => true
  | .cpRestartComplete _ => true
  | .fhLinkUp port _ _ => decide (port < 16)
  | .mgmtLinkUp _ _ => true
  | .pinStatusClear k _ _ => decide (k < 256)
  | .doeError _ _ => true
  | .ptpMessageTransmit port _ => decide (port ≤ 16)
  | .esmcTransmit _ => true

end Sys2Proof
end

