-- ==== Sys2Proof/Tests/Slice0.lean ====
section
/-! SUPPORT. Tests of single commands on small states, and for every obligation
with hypotheses a witness that meets them. The expected values are written out
from spec/. -/

namespace Sys2Proof.Tests
open Sys2Proof Sys2Proof.Machine
set_option maxRecDepth 2000
set_option Elab.async false
set_option linter.unusedTactic false
set_option linter.unreachableTactic false

/-! ## States to start from -/

/-- An Almanac that plans nothing. -/
def noPlan : Plan :=
  { lists := [], windows := [], dist := [], ticks := [], outerTags := [], barrierTags := [], scopes := [], shareCosts := [], carriers := [],
    grids := [], learned := false, unsupported := false, timed := [], tokenIntervals := [], codingFits := true, fronthaulUl := 0,
    fronthaulDl := 0, hostOut := 0, hostIn := 0, pcieBudget := 0, vlBudgets := [], vlFits := true, dramTraffic := [], programs := [],
    queueCfg := [], tables := [], weights0 := [], weightFmts := [], adaptable := [], optimiser := [], adaptQueue := none,
    optimiserBytes := 0, slotBytes := [], adaptRegion := (0, 0), retention := [], pinReserve := [], fallback := [], contexts := 0,
    resident := 0, contextBytes := 0, poolPages := 0, poolAt := 0, reuseDistance := 0, regions := [], captureRegion := (0, 0),
    captureFits := true, restoreBytes := 0, narrowing := [], narrowFrom := [], outlierMaps := [], narrowTo := [], peerNarrowing := [],
    queuePlan := [], envelope := [] }

/-- An occupancy that runs the Almanac `p`. -/
def running (p : Plan) : State :=
  { State.reset with occ := { State.reset.occ with
      state := .running, image := some { header := 0, sections := [], body := [], key := [], signature := [], plan := p } } }


/-- The state after a command. -/
def after (c : Instr) (s : State) : State :=
  match exec c s with
  | .next t => t
  | _ => State.reset

/-! ## Ill-formed commands are refused -/

theorem test_wf_unit : (Instr.unitDawn 0xFFFF true 0).wf = false := by decide
theorem test_wf_core : (Instr.tileSlotReserve 48).wf = false := by decide
theorem test_wf_step : (Instr.veNop 0 4096 (veCmdOfWord 0)).wf = false := by decide
theorem test_wf_array : (Instr.maCommandComplete 0 4 0).wf = false := by decide
theorem test_wf_island : (Instr.clockRestart 61 0).wf = false := by decide
theorem test_wf_mover : (Instr.moverCommandComplete 0 6 0).wf = false := by decide
theorem test_wf_queue_owner : (Instr.queuePointerMismatch (.tileQueue 48) 0).wf = false := by decide
theorem test_wf_window : (Instr.refreshWindow 0 512 0).wf = false := by decide
theorem test_wf_rail : (Instr.railDip 13 0 true 0).wf = false := by decide
theorem test_wf_pin : (Instr.biasSense 256 true 0).wf = false := by decide
theorem test_wf_port : (Instr.fhLinkDown 16 true 0).wf = false := by decide
theorem test_wf_die : (Instr.sensorSample 3 [] 0).wf = false := by decide
theorem test_wf_symbol : (Instr.fhDlWindowClose 0 0 14 0).wf = false := by decide
theorem test_wf_replay : (Instr.pcieReplay 0 0).wf = false := by decide
theorem test_wf_length : (Instr.bar2Write 0 (List.replicate 4097 0) 0).wf = false := by
  show decide ((List.replicate 4097 (0 : Byte)).length ≤ 4096) = false
  rw [List.length_replicate]
  rfl
theorem test_wf_accepts : (Instr.unitDawn (veUnit 47) true 0).wf = true := by decide

/-! ## What reset leaves, steps -/

/-- R376: network time 0 in FREERUN. -/
theorem test_reset_time : State.reset.time.now = 0 ∧ State.reset.time.servo = .freerun := by decide
theorem test_reset_memory : Memory.wf State.reset.mem = true := by decide
theorem test_step_runs : step { State.reset with pending := [.flrWrite, .jtagIdcode] } = .next { State.reset with pending := [.jtagIdcode] } := by
  rfl
theorem witness_StepRunsFront : ({ State.reset with pending := [.flrWrite] } : State).pending = .flrWrite :: [] := rfl
theorem witness_NoCommandStops : State.reset.pending = [] := rfl
theorem witness_StepKeepsMemory : MemOk State.reset ∧ step State.reset = .next State.reset := ⟨by unfold MemOk; decide, rfl⟩
theorem witness_TimeAndFusesGoOneWay : Completes (.porNAssert 0) State.reset (after (.porNAssert 0) State.reset) ∧
    State.reset.life.transition = none := ⟨rfl, rfl⟩


/-! ## Tokens, slices, recovery (spec/01, spec/11) -/

/-- A token of a core's vector engine. -/
def tokTo (kind tag value : Nat) : Tok := mkToken (veUnit 3) kind tag value

/-- `s` with the token `tok` on its way to `dst`. -/
def crossed (s : State) (dst : UAddr) (tok : Tok) : State := { s with crossing := [{ dst := dst, tok := tok, behind := [] }] }
/-- A TICK of TAG 255 for cluster 7 at every Meridian. -/
def tickPlan : TickPlan := { dst := clusterUnit 7, tag := 255, at_ := .meridian 0 }
def ticking : State := running { noPlan with ticks := [tickPlan] }

theorem test_ready_counts : coreTokens (after (.readyToken (coreUnit 3) (tokTo 1 7 0) 5) (crossed State.reset (coreUnit 3) (tokTo 1 7 0))) 3 7 = 1 := by
  decide
theorem test_tick_counts : clusterTokens (after (.tickFire (clusterUnit 7) 255 0) ticking) 7 255 = 1 ∧
    clusterTokens (after (.tickFire (clusterUnit 7) 255 5) ticking) 7 255 = 0 := by decide
/-- R23: a token behind another of its path does not arrive. -/
theorem test_fence_waits_its_turn :
    let s : State := { State.reset with crossing := [⟨coreUnit 3, tokTo 1 7 0, []⟩, ⟨coreUnit 3, tokTo 4 0 0, []⟩] }
    (after (.fenceToken (coreUnit 3) (tokTo 4 0 0) 5) s).crossing = s.crossing := by decide

theorem witness_TokensAndSteps_core : ∀ x ∈ [((1 : Nat), (255 : Nat)), (4, 0)], let tok := tokTo x.1 x.2 0
    let s := crossed State.reset (coreUnit 47) tok
    Active s ∧ x.2 < 256 ∧ tokKind tok = x.1 ∧ x.2 = tokTag tok ∧ Oldest s (coreUnit 47) tok ⟨coreUnit 47, tok, []⟩ ∧ 47 < 48 ∧
      coreTokens s 47 x.2 < 255 := by
  unfold Active Oldest; decide
theorem witness_TokensAndSteps_cluster : ∀ x ∈ [((1 : Nat), (255 : Nat)), (4, 0)], let tok := mkToken (dieUnit 2) x.1 x.2 0
    Active State.reset ∧ x.2 < 256 ∧ tokKind tok = x.1 ∧ x.2 = tokTag tok ∧ arriving State.reset (clusterUnit 7) tok = none ∧
      tokSource tok = dieUnit 2 ∧ 7 < 8 ∧ clusterTokens State.reset 7 x.2 < 255 := by
  unfold Active; decide
theorem witness_TokensAndSteps_tick : Active ticking ∧ homeOf ticking (clusterUnit 7) = clusterUnit 7 ∧
    planOf ticking = some { noPlan with ticks := [tickPlan] } ∧ tickDue (ticking.atTime 0) tickPlan.at_ = true ∧
    copyRuns ticking (clusterUnit 7) = true ∧ lastTick ticking (clusterUnit 7) (BitVec.ofNat 8 255) ≠ some (max ticking.time.now 0) ∧
    clusterTokens ticking 7 255 < 255 := by
  unfold Active; decide
theorem witness_TokensAndSteps_away : Active State.reset ∧ arriving State.reset (coreUnit 3) (tokTo 6 0 0) = none ∧
    tokSource (tokTo 6 0 0) ≠ dieUnit 2 ∧ tickDue (ticking.atTime 5) tickPlan.at_ = false := by
  unfold Active; decide

/-- The sequencer of core 0. -/
def seq0 : UAddr := coreEng 0 6 0
def slice1 : Slice := { pos := 1, queue := 2, seq := 3 }
def slice9 : Slice := { slice1 with pos := 9 }
/-- A list of one step of core 0's vector engine, which waits for one token of TAG 5. -/
def oneStep : StepList :=
  { pos := 1, seq := seq0, eng := veUnit 0, base := 0, copyAt := 0, steps := [{ cmd := .ve 0, await := [(5, 1)], emits := [] }] }
/-- Cluster 0's list, whose only step is the child slice at position 1. -/
def oneChild : StepList :=
  { pos := 9, seq := clusterEng 0 7 6 0, eng := coreUnit 3, base := 0, copyAt := 0, steps := [{ cmd := .child 1, await := [], emits := [] }] }
/-- The slice at position 9 has one child, which core 3 runs. -/
def treePlan : Plan := { noPlan with lists := [oneStep, oneChild], dist := [{ pos := 9, kids := [(1, coreUnit 3)] }] }
/-- Unit `u` holds slice `sl`, and nothing else. -/
def holds (s : State) (u : UAddr) (sl : Slice) : State :=
  setUnit s u { unitOf s u with used := 1, cmds := 1, held := [sl], watchdog := some 4 }
/-- Core 0 runs slice 1 and has counted a token of TAG 5; cluster 0 runs slice 9. -/
def stepState : State :=
  let s := holds (holds (running treePlan) (coreUnit 0) slice1) (clusterUnit 0) slice9
  after (.readyToken (coreUnit 0) (tokTo 1 5 0) 1) (crossed s (coreUnit 0) (tokTo 1 5 0))

/-- R45: starting the step subtracts the awaited counts and the credit. -/
theorem test_step_starts : coreTokens (after (.stepStart seq0 (veUnit 0) 9) stepState) 0 5 = 0 ∧
    (unitOf (after (.stepStart seq0 (veUnit 0) 9) stepState) (veUnit 0)).used = 1 := by decide
theorem test_child_starts :
    (unitOf (after (.stepStart (clusterEng 0 7 6 0) (coreUnit 3) 9) stepState) (coreUnit 3)).held = [slice1] := by decide
theorem witness_TokensAndSteps_step : Active stepState ∧ unitValid seq0 = true ∧ uLevel seq0 = 0 ∧ uKind seq0 = 6 ∧
    canRun stepState seq0 = true ∧ nextBad stepState seq0 (veUnit 0) = none ∧
    nextStep stepState seq0 (veUnit 0) = some (0, { cmd := .ve 0, await := [(5, 1)], emits := [] }) ∧
    (∀ p, StepCmd.ve 0 ≠ .child p) ∧ (∀ w, StepCmd.ve 0 ≠ .ma w) ∧
    awaitMet (seqOf stepState seq0).tokens [(5, 1)] = true ∧ Ready stepState (engineFor stepState (veUnit 0)) := by
  refine ⟨?_, by decide, by decide, by decide, by decide, by decide, by decide, ?_, ?_, by decide, ?_⟩
  · unfold Active; decide
  · intro _ h; cases h
  · intro _ h; cases h
  · unfold Ready; decide
theorem witness_TokensAndSteps_child : let q := clusterEng 0 7 6 0
    Active stepState ∧ unitValid q = true ∧ uLevel q = 0 ∧ uKind q = 6 ∧ canRun stepState q = true ∧ nextBad stepState q (coreUnit 3) = none ∧
    nextStep stepState q (coreUnit 3) = some (0, { cmd := .child 1, await := [], emits := [] }) ∧ (∀ w, StepCmd.child 1 ≠ .ma w) ∧
    awaitMet (seqOf stepState q).tokens [] = true ∧ childTarget stepState q 1 = some (coreUnit 3, slice1) ∧ Ready stepState (coreUnit 3) ∧
    (unitOf stepState (coreUnit 3)).stalled = [] ∧ turnOf stepState (coreUnit 3) slice1 = true := by
  refine ⟨?_, by decide, by decide, by decide, by decide, by decide, by decide, ?_, by decide, by decide, ?_, by decide, by decide⟩
  · unfold Active; decide
  · intro _ h; cases h
  · unfold Ready; decide
/-- The word of core 0's step reads as poison. -/
def badWord : State := { stepState with mem := { stepState.mem with check := [(coreBase stepState 0 / 32, 0xFFFFFFFF)] } }
/-- Core 0's clock stands. -/
def coldClock : State := { stepState with islands := [(0, { stopped := true })] }
theorem witness_TokensAndSteps_stops : Active badWord ∧ canRun badWord seq0 = true ∧ (nextBad badWord seq0 (veUnit 0)).isSome = true ∧
    Active coldClock ∧ canRun coldClock seq0 = false := by
  unfold Active; decide

/-- Cluster 0 holds slice 9; its child slice has not been sent. -/
def parentHolds : State := holds (running treePlan) (clusterUnit 0) slice9
/-- Core 3 holds the child too. -/
def holding : State := holds parentHolds (coreUnit 3) slice1
/-- Core 3's port has every slot taken. -/
def fullPort : State := setUnit parentHolds (coreUnit 3) { unitOf State.reset (coreUnit 3) with used := unitDepth (coreUnit 3) }

theorem test_slice_held : (unitOf (after (.unitCommand (coreUnit 3) slice1 4) parentHolds) (coreUnit 3)).held = [slice1] ∧
    (unitOf (after (.unitCommand (coreUnit 3) slice1 4) parentHolds) (coreUnit 3)).watchdog = some 4 := by decide
theorem test_slice_stalls : (unitOf (after (.unitCommand (coreUnit 3) slice1 4) fullPort) (coreUnit 3)).stalled = [slice1] := by decide
theorem witness_SlicesComeAndGo_send : Active parentHolds ∧ unitValid (coreUnit 3) = true ∧
    servingUnit parentHolds (coreUnit 3) slice1.pos = coreUnit 3 ∧ distributes parentHolds (coreUnit 3) (coreUnit 3) slice1 = true ∧
    Ready parentHolds (coreUnit 3) ∧ (unitOf parentHolds (coreUnit 3)).stalled = [] ∧ turnOf parentHolds (coreUnit 3) slice1 = true ∧
    (unitOf parentHolds (coreUnit 3)).held = [] ∧ (unitOf parentHolds (coreUnit 3)).hold = none := by
  unfold Active Ready; decide
theorem witness_SlicesComeAndGo_more : Active holding ∧ unitValid packageUnit = true ∧ servingUnit holding packageUnit slice1.pos = packageUnit ∧
    Ready (holds holding packageUnit slice9) packageUnit ∧ (unitOf (holds holding packageUnit slice9) packageUnit).held ≠ [] ∧
    turnOf (holds holding packageUnit slice9) packageUnit slice1 = true := by
  unfold Active Ready; decide
theorem witness_SlicesComeAndGo_stall : Active fullPort ∧ unitValid (coreUnit 3) = true ∧
    servingUnit fullPort (coreUnit 3) slice1.pos = coreUnit 3 ∧ distributes fullPort (coreUnit 3) (coreUnit 3) slice1 = true ∧
    ¬ Ready fullPort (coreUnit 3) := by
  unfold Active Ready; decide
theorem witness_SlicesComeAndGo_not_sent : coreUnit 4 ≠ packageUnit ∧ distributes parentHolds (coreUnit 4) (coreUnit 4) slice1 = false := by decide
/-- A token of core 3 to its cluster. -/
def up3 (kind value : Nat) : Tok := mkToken (coreUnit 3) kind 0 value
theorem witness_SlicesComeAndGo_credit : let s := crossed holding (clusterUnit 0) (up3 2 1)
    Active s ∧ Oldest s (clusterUnit 0) (up3 2 1) ⟨clusterUnit 0, up3 2 1, []⟩ ∧ tokKind (up3 2 1) = 2 ∧
    tokSource (up3 2 1) = coreUnit 3 ∧ 1 ≤ tokValue (up3 2 1) ∧ tokValue (up3 2 16) ≤ 16 ∧
    tokValue (up3 2 1) ≤ (unitOf s (coreUnit 3)).used ∧ inService s (coreUnit 3) = true ∧ (unitOf s (coreUnit 3)).stalled = [] := by
  unfold Active Oldest; decide
theorem witness_SlicesComeAndGo_credit_bad : (∀ n ∈ [0, 17], Oldest (crossed holding (clusterUnit 0) (up3 2 n)) (clusterUnit 0) (up3 2 n)
    ⟨clusterUnit 0, up3 2 n, []⟩) ∧ tokValue (up3 2 0) = 0 ∧ 16 < tokValue (up3 2 17) := by
  unfold Oldest; decide
/-- R22: a CREDIT token of 17 credits is recorded and frees nothing. -/
theorem test_credit_17 : let s := after (.creditToken (clusterUnit 0) (up3 2 17) 5) (crossed holding (clusterUnit 0) (up3 2 17))
    s.lastFault = 1 ∧ (unitOf s (coreUnit 3)).used = 1 := by decide
theorem witness_SlicesComeAndGo_done : let s := crossed holding (clusterUnit 0) (up3 3 1)
    Active s ∧ Oldest s (clusterUnit 0) (up3 3 1) ⟨clusterUnit 0, up3 3 1, []⟩ ∧ tokKind (up3 3 1) = 3 ∧
    tokSource (up3 3 1) = coreUnit 3 ∧ coreUnit 3 ≠ clusterUnit 0 ∧ coreTokens s (coreNo (clusterUnit 0)) 0 < 255 ∧
    clusterTokens s 0 0 < 255 ∧ (unitOf s (coreUnit 3)).held = [slice1] ∧
    (unitOf s (coreUnit 3)).held.find? (fun x => x.pos == BitVec.ofNat 32 (tokValue (up3 3 1))) = some slice1 := by
  unfold Active Oldest; decide
theorem test_done_ends : (unitOf (after (.doneToken (clusterUnit 0) (up3 3 1) 9) (crossed holding (clusterUnit 0) (up3 3 1))) (coreUnit 3)).watchdog = none := by
  decide
/-- Die 0 runs slice 9, whose only child slice cluster 2 runs. -/
def diePlan : Plan := { noPlan with dist := [{ pos := 9, kids := [(1, clusterUnit 2)] }] }
def dieHolds : State :=
  crossed (holds (holds (running diePlan) (dieUnit 0) slice9) (clusterUnit 2) slice1) (dieUnit 0) (mkToken (clusterUnit 2) 3 0 1)
theorem witness_SlicesComeAndGo_die : Active dieHolds ∧ uLevel (dieUnit 0) = 3 ∧ (unitOf dieHolds (clusterUnit 2)).held = [slice1] ∧
    (unitOf dieHolds (dieUnit 0)).held.find? (fun p => p.queue == slice1.queue && p.seq == slice1.seq &&
      (kidsOf dieHolds p.pos).any (fun k => k.1 == slice1.pos)) = some slice9 ∧
    (∀ k ∈ kidsOf dieHolds slice9.pos, { slice9 with pos := k.1 } ∈ (unitOf dieHolds (dieUnit 0)).kidsDone ++ [slice1]) ∧
    doneTag dieHolds slice9.pos = none ∧ clusterUnit 2 ≠ dieUnit 0 := by
  refine ⟨by unfold Active; decide, by decide, by decide, by decide, ?_, by decide, by decide⟩
  rw [show kidsOf dieHolds slice9.pos = [(1, clusterUnit 2)] by decide]
  intro k hk
  rw [List.mem_singleton.mp hk]
  decide

/-- A FAULT token of core 3, of its record 1. -/
theorem witness_UnitsStopAndReturn_fault : let s := crossed holding (parentOf (coreUnit 3)) (up3 6 1)
    Active s ∧ uLevel (coreUnit 3) ≤ 2 ∧ unitValid (coreUnit 3) = true ∧ inService s (coreUnit 3) = true ∧ (unitOf s (coreUnit 3)).retrying = false ∧
    Oldest s (parentOf (coreUnit 3)) (up3 6 1) ⟨parentOf (coreUnit 3), up3 6 1, []⟩ ∧ tokKind (up3 6 1) = 6 ∧ tokSource (up3 6 1) = coreUnit 3 ∧
    mirroredFault s (tokValue (up3 6 1)) = none ∧ coreTokens s (coreNo (parentOf (coreUnit 3))) (tokTag (up3 6 1)) < 255 ∧
    clusterTokens s (uCluster (parentOf (coreUnit 3))) (tokTag (up3 6 1)) < 255 := by
  unfold Active Oldest; decide
theorem witness_UnitsStopAndReturn_dusk : Active holding ∧ inService holding (coreUnit 3) = true ∧ (unitOf holding (coreUnit 3)).retrying = false ∧
    (unitOf holding (coreUnit 3)).watchdog = some 4 ∧ (unitOf holding (coreUnit 3)).hold = none ∧
    4 + timeoutOf holding (coreUnit 3) ≤ max holding.time.now (4 + timeoutOf holding (coreUnit 3)) ∧ holding.cap.running = none ∧
    (unitOf (setUnit holding (coreUnit 3) { unitOf holding (coreUnit 3) with hold := some 9 }) (coreUnit 3)).hold = some 9 := by
  unfold Active; decide
/-- R354: the watchdog of a core whose only list waits for a TAG that comes from the fronthaul does not count; the token that ends the wait
lets it go on from where it stood. -/
theorem test_watchdog_pauses :
    let s := holds (holds (running { treePlan with outerTags := [(seq0, 5)] }) (clusterUnit 0) slice9) (coreUnit 0) slice1
    let h := settleDogs (s.atTime 10) (coreUnit 0)
    (unitOf h (coreUnit 0)).hold = some 10 ∧
      (unitOf (after (.readyToken (coreUnit 0) (tokTo 1 5 0) 60) (crossed h (coreUnit 0) (tokTo 1 5 0))) (coreUnit 0)).watchdog = some 54 := by decide
def inDusk : State := after (.watchdogExpiry (coreUnit 3) 100000000000) holding
theorem test_watchdog_dusk : (unitOf inDusk (coreUnit 3)).phase = .dusk ∧ inDusk.lastFault = 1 := by decide
theorem test_dawn : (unitOf (after (.unitDawn (coreUnit 3) true 100000000001) inDusk) (coreUnit 3)).phase = .live := by decide
theorem witness_UnitsStopAndReturn_dawn : Active inDusk ∧ inDusk.cap.running = none ∧ uLevel (coreUnit 3) ≤ 2 ∧ unitValid (coreUnit 3) = true ∧
    (unitOf inDusk (coreUnit 3)).phase = .dusk := by
  and_intros <;> first | decide | (unfold Active; decide) | (unfold Ready; decide)
/-- Core 3 in Dusk, with nothing to run. -/
def idleDusk : State := setUnit (running noPlan) (coreUnit 3) { unitOf State.reset (coreUnit 3) with phase := .dusk }
theorem witness_UnitsStopAndReturn_idle : Active idleDusk ∧ idleDusk.cap.running = none ∧ (unitOf idleDusk (coreUnit 3)).phase = .dusk ∧
    slicesOf idleDusk (coreUnit 3) = [] ∧ (unitOf idleDusk (coreUnit 3)).stalled = [] := by
  unfold Active; decide
def dieDawn : State := setUnit (running noPlan) (dieUnit 1) { unitOf State.reset (dieUnit 1) with phase := .dawn }
theorem witness_UnitsStopAndReturn_die : Active dieDawn ∧ dieDawn.cap.running = none ∧ (unitOf dieDawn (dieUnit (1#1).toNat)).phase = .dawn ∧
    dieDawn.cp.packageStep = 0 ∧ dieDawn.dies.length = 2 ∧ (dieDawn.dies.getD (1 - (1#1).toNat) {}).faultHeld = false := by
  and_intros <;> first | decide | (unfold Active; decide) | (unfold Ready; decide)
theorem witness_UnitsStopAndReturn_clock : Active State.reset ∧ 60 < 61 ∧ (islandOf State.reset 60).stopped = false ∧
    State.reset.occ.locked = false ∧ ({ State.reset with occ := { State.reset.occ with locked := true } } : State).occ.locked = true ∧
    (islandOf (after (.clockDroop 60 false 3) State.reset) 60).stopped = true := by
  and_intros <;> first | decide | (unfold Active; decide)


/-! ## The DSP engine (spec/07) -/

/-- Core 0 has a program region of 16 packets, and a RUN of 100 × 16 cycles is open there. -/
def dspPlan : Plan := { noPlan with programs := [{ core := coreUnit 0, base := 0, copyAt := 0, words := List.replicate 16 0 }] }
def runCmd : DspCmd := { dspCmdOfWord 0 with opcode := 1, bound := 100, handler := 9, hen := 1 }
def dspRun0 : DspSt := { cmd := some runCmd }
def dspState (d : DspSt) : State := setCore (running dspPlan) 0 { coreOf State.reset 0 with dsp := d }
/-- Its packet at PC is the word `w` in slot `slot`, a NOP in the other. -/
def dspAt (d : DspSt) (slot : Nat) (w : BitVec 32) : State :=
  writeLocal (dspState d) (deUnit 0) (coreBase State.reset 0 + 8 * d.pc.toNat + 4 * slot) (bytesLE 4 w.toNat) false
/-- Slot 0 issued, and wrote D5. -/
def slot0Done : DspSt := { dspRun0 with slot0 := true, flight := [{ due := 1, issued := 0, dest := .d 5, val := 9 }] }
/-- Core 0's engine may issue `w` in `slot`. -/
theorem test_dsp_words : (aluWord 1 { lw := 2, dd := 31, da := 1, db := 2, imm6 := 63 }).toNat = 0x10DF0 * 2 ^ 12 + 2 ^ 11 + 2 * 64 + 63 := by decide

theorem witness_DspArithmetic_slot0 : (1 : BitVec 2) ≠ 3 ∧
    ∀ opc ∈ [(0 : BitVec 5), 1, 2, 3, 4, 5, 6, 7, 8, 9, 10, 11, 12, 13, 14, 15, 16, 17],
      let w := aluWord opc { lw := 1, dd := 31, da := 1, db := 2, imm6 := 63 }
      DspTurn (dspAt dspRun0 0 w) 0 0 w [.d 31] := by
  unfold DspTurn Active; decide
theorem witness_DspArithmetic_slot1 : (0 : BitVec 2) ≠ 3 ∧ let w := aluWord 1 { lw := 0, dd := 6, da := 1, db := 2, imm6 := 0 }
    DspTurn (dspAt slot0Done 1 w) 0 1 w [.d 6] := by
  unfold DspTurn Active; decide

/-- D1 and D2 of 16-bit lanes, from the high lane: 0x8000, 0x7FFF, −1, 3 and −1, 1, 1, 2. -/
def laneRegs : DspSt := { dspRun0 with d := lmod (lmod dspRun0.d 1 (fun _ => 0x80007FFFFFFF0003#64)) 2 (fun _ => 0xFFFF000100010002#64) }
def alu (imm : BitVec 6) : AluF := { lw := 0, dd := 3, da := 1, db := 2, imm6 := imm }
/-- What the instruction of the word `w` wrote to D3. -/
def d3 (w : BitVec 32) (c : Instr) (d : DspSt) : BitVec 64 := dReg (dspOf (after (.dspNop 0 1) (after c (dspAt d 0 w))) 0) 3
theorem test_dsp_add : d3 (aluWord 1 (alu 0)) (.dspAdd 0 0 (alu 0)) laneRegs = 0x7FFF800000000005#64 := by decide
theorem test_dsp_adds : d3 (aluWord 3 (alu 0)) (.dspAdds 0 0 (alu 0)) laneRegs = 0x80007FFF00000005#64 := by decide
theorem test_dsp_abss : d3 (aluWord 14 (alu 0)) (.dspAbss 0 0 (alu 0)) laneRegs = 0x7FFF7FFF00010003#64 := by decide
/-- R211: 3 / 2 = 1.5 and −1 / 2 = −0.5 round to 2 and 0. -/
theorem test_dsp_shrr : d3 (aluWord 10 (alu 1)) (.dspShrr 0 0 (alu 1)) laneRegs = 0xC000400000000002#64 := by decide
theorem test_dsp_shra : d3 (aluWord 9 (alu 16)) (.dspShra 0 0 (alu 16)) laneRegs = 0xFFFF0000FFFF0000#64 := by decide
theorem test_dsp_clz : d3 (aluWord 15 (alu 0)) (.dspClz 0 0 (alu 0)) laneRegs = 0x000000010000000E#64 := by decide
/-- R219: rem 1, q 0x80000000, divisor 2: t = 3, one is taken off. -/
theorem test_dsp_divs : d3 (aluWord 16 (alu 0)) (.dspDivs 0 0 (alu 0))
    { dspRun0 with d := lmod (lmod dspRun0.d 1 (fun _ => 0x0000000180000000#64)) 2 (fun _ => 2#64) } = 0x0000000100000001#64 := by decide
/-- R209: the word in the packet is another: nothing issues. -/
theorem test_dsp_other_word : exec (.dspAdd 0 0 (alu 0)) (dspAt dspRun0 0 0) = .next (dspAt dspRun0 0 0) := by rfl

theorem witness_DspMultiplies_cadd : (1 : BitVec 2).toNat < 2 ∧ ∀ opc ∈ [(0 : BitVec 4), 1, 2, 3, 4, 5, 6],
    let w := caddWord opc { dd := 15, da := 1, db := 2, sh := 1 }
    DspTurn (dspAt dspRun0 0 w) 0 0 w [.d (2 * 15), .d (2 * 15 + 1)] ∧ DspTurn (dspAt slot0Done 1 w) 0 1 w [.d (2 * 15), .d (2 * 15 + 1)] := by
  unfold DspTurn Active; decide
theorem witness_DspMultiplies_cmul : ∀ opc ∈ [(0 : BitVec 3), 1, 5], let w := cmulWord opc { dd := 2, da := 1, db := 0, sh := 15 }
    (1 : BitVec 4).toNat < 2 ∧ DspTurn (dspAt dspRun0 0 w) 0 0 w [.d 4, .d 5] := by
  unfold DspTurn Active; decide
theorem witness_DspMultiplies_cmac : (∀ opc ∈ [(2 : BitVec 3), 3], let w := cmulWord opc { dd := 8, da := 1, db := 2, sh := 0 }
      bitsOf (8#4) 1 0 = 0 ∧ bitsOf (8#4) 3 3 = 1 ∧ DspTurn (dspAt dspRun0 0 w) 0 0 w ((List.range 8).map (fun j => .acRead (8 * 1 + j)))) ∧
    let w := cmulWord 4 { dd := 3, da := 1, db := 2, sh := 0 }
    DspTurn (dspAt dspRun0 0 w) 0 0 w ((List.range 8).map (fun j => .acRead (8 * bitsOf (3#4) 3 3 + j))) := by
  unfold DspTurn Active; decide

/-- A load of 16 bytes by MODE 1 from address 0x10, a store of 2 bytes at the top of core memory by MODE 2. -/
def memRegs : DspSt := { dspRun0 with a := lmod (lmod dspRun0.a 1 (fun _ => 0x10)) 2 (fun _ => 0x600000), m := lmod dspRun0.m 1 (fun _ => 0x82000010#32) }
def ld16 : LsF := { size := 3, mode := 1, dd := 4, ai := 1, imm := 0 }
def st2 : LsF := { size := 0, mode := 2, dd := 5, ai := 2, imm := -1 }
theorem witness_DspLoadsAndStores_load : let w := lsWord 4 ld16
    let s := dspAt memRegs 0 w
    ld16.mode ≠ 3 ∧ (ld16.mode ≠ 2 → ld16.imm = 0) ∧ (ld16.size = 3 → ld16.dd.toNat % 2 = 0) ∧
    ((16 : Nat) : Int) = (aReg memRegs 1).toNat + 0 ∧ 16 % 2 ^ (ld16.size.toNat + 1) = 0 ∧ 16 + 2 ^ (ld16.size.toNat + 1) ≤ 0x600000 ∧
    (readLocal s (coreBase s 0 + 16) 16).poisoned = false ∧ (readLocal s (coreBase s 0 + 16) 16).uncorrectable = false ∧
    DspTurn s 0 0 w [.d 4, .d 5, .a 1] := by
  unfold DspTurn Active; decide
theorem witness_DspLoadsAndStores_store : let w := lsWord 5 st2
    st2.mode ≠ 3 ∧ (st2.size = 3 → st2.dd.toNat % 2 = 0) ∧
    ((0x5FFFFE : Nat) : Int) = (aReg memRegs 2).toNat + st2.imm.toInt * (2 : Nat) ∧ 0x5FFFFE % 2 = 0 ∧ 0x5FFFFE + 2 ≤ 0x600000 ∧
    DspTurn (dspAt memRegs 0 w) 0 0 w [] := by
  unfold DspTurn Active; decide
def strided : StrF := { ord := 1, post := 1, dd := 2, ai := 1, stride := 3 }
theorem witness_DspLoadsAndStores_strided : (∀ j, j < 4 → (16 + 4 * 3 * (if j = 1 then 2 else if j = 2 then 1 else j)) % 4 = 0 ∧
      16 + 4 * 3 * (if j = 1 then 2 else if j = 2 then 1 else j) + 4 ≤ 0x600000) ∧
    (∀ j, j < 4 → (readLocal (dspAt memRegs 0 (strWord 0 strided)) (coreBase State.reset 0 + (16 + 12 * j)) 4).poisoned = false ∧
      (readLocal (dspAt memRegs 0 (strWord 0 strided)) (coreBase State.reset 0 + (16 + 12 * j)) 4).uncorrectable = false) ∧
    DspTurn (dspAt memRegs 0 (strWord 0 strided)) 0 0 (strWord 0 strided) [.d 4, .d 5, .a 1] ∧
    DspTurn (dspAt memRegs 0 (strWord 1 strided)) 0 0 (strWord 1 strided) [.a 1] := by
  unfold DspTurn Active; decide
theorem witness_DspLoadsAndStores_post : bitOf 0x00000010#32 31 = false ∧ bitOf 0x82000010#32 31 = true ∧ bitsOf 0x97000000#32 28 24 = 23 := by decide
/-- R207: the example of the spec. -/
theorem test_dsp_reverse_carry : postMod 0x1000 0x82000010#32 = 0x1010 ∧ postMod 0x1010 0x82000010#32 = 0x1008 ∧
    postMod 0x100C 0x82000010#32 = 0x101C ∧ postMod 0x101C 0x82000010#32 = 0x1000 := by decide

theorem witness_DspMovesRegisters : ∀ x ∈ [((0 : BitVec 3), DspDest.a 15), (1, .a 15), (2, .a 15), (3, .a 15), (4, .m 15), (5, .d 7), (6, .d 7)],
    let w := addrWord x.1 { ai := 15, dd := 7, imm16 := 0 }
    DspTurn (dspAt dspRun0 0 w) 0 0 w [x.2] ∧ DspTurn (dspAt slot0Done 1 w) 0 1 w [x.2] := by
  unfold DspTurn Active; decide
theorem witness_DspMovesRegisters_imm : ∀ opc ∈ [(0 : BitVec 2), 1], let w := immWord opc { dd := 3, lane := 2, imm16 := 0xBEEF }
    DspTurn (dspAt dspRun0 0 w) 0 0 w [.d 3] := by
  unfold DspTurn Active; decide
theorem witness_DspMovesRegisters_sys : ∀ x ∈ [((0 : BitVec 3), (3 : BitVec 4)), (1, 3), (2, 0), (2, 1), (3, 0), (4, 15), (5, 15)],
    let w := sysWord x.1 { dd := 3, sel := x.2 }
    DspTurn (dspAt dspRun0 0 w) 0 0 w [] := by
  unfold DspTurn Active; decide
theorem test_dsp_movl : d3 (immWord 0 { dd := 3, lane := 2, imm16 := 0xBEEF }) (.dspMovl 0 0 { dd := 3, lane := 2, imm16 := 0xBEEF }) { dspRun0 with d := lmod dspRun0.d 3 (fun _ => 0x1111222233334444#64) } =
    0x1111BEEF33334444#64 := by decide

/-- A list whose step runs on core 0's DSP engine. -/
def dspStep : AStep := { cmd := .de 0, await := [], emits := [{ dst := coreUnit 1, kind := 1, tag := 2, value := 3 }] }
def signalState : State :=
  let s := setCore (running { dspPlan with lists := [{ pos := 1, seq := seq0, eng := deUnit 0, base := 0x1000, copyAt := 0, steps := [dspStep] }] }) 0
    { coreOf State.reset 0 with dsp := dspRun0, seq := { ({} : SeqSt) with running := [((deUnit 0).toNat, [0])] } }
  writeLocal (holds s (coreUnit 0) slice1) (deUnit 0) (coreBase s 0) (bytesLE 4 (ctlWord 12 ((5 : BitVec 8) ++ (3 : BitVec 5) ++ 0#11)).toNat) false
theorem witness_DspControl : DspTurn (dspAt dspRun0 0 0) 0 0 0 [] ∧ DspTurn (dspAt slot0Done 1 0) 0 1 0 [] ∧ dspRun0.branch = none ∧
    sameRegion (dspAt dspRun0 0 0) 0 0 15 = true ∧ (aReg dspRun0 3).toNat % 8 = 0 ∧ (aReg dspRun0 3).toNat < 8 * 2 ^ 20 ∧
    (2 : BitVec 10) ≠ 0 ∧ sameRegion (dspAt dspRun0 0 0) 0 0 (0 + 1) = true ∧ sameRegion (dspAt dspRun0 0 0) 0 0 (0 + 2) = true ∧
    0 + 2 < 2 ^ 20 := by
  unfold DspTurn Active; decide
theorem witness_DspControl_words : ∀ x ∈ [(0, 15), (5, 15), (1, 0x30000F), (2, 0x30000F), (3, 0x30000F), (4, 0x30000F), (6, 0x300000), (9, 0), (8, 0),
      (7, (loopBits { level := 3, csrc := 0, body := 2, count := 9 }).toNat), (7, (loopBits { level := 0, csrc := 1, body := 2, count := 64 }).toNat),
      (10, 1), (11, 7)], let w := ctlWord (BitVec.ofNat 4 x.1) (BitVec.ofNat 24 x.2)
    DspTurn (dspAt dspRun0 0 w) 0 0 w [] := by
  unfold DspTurn Active; decide
theorem witness_DspControl_signal : tget (coreOf signalState 0).seq.running (deUnit 0).toNat = some (0 :: []) ∧
    (stepListOf signalState (coreEng 0 6 0) (deUnit 0))[0]? = some dspStep ∧
    DspTurn signalState 0 0 (ctlWord 12 ((5 : BitVec 8) ++ (3 : BitVec 5) ++ 0#11)) [] := by
  unfold DspTurn Active; decide
theorem test_dsp_branch : (dspOf (after (.dspBr 0 12) (dspAt dspRun0 0 (ctlWord 0 12))) 0).branch = some (12, 3, false) := by decide

/-- Level 3 ends its body at packet 4 with a count of 2, level 0 with a count of 1. -/
def loopEnd (l : Nat) (n : BitVec 22) : DspSt := { dspRun0 with pc := 4, loops := lmod dspRun0.loops l (fun _ => 1#1 ++ 0#1 ++ n ++ 2#20 ++ 4#20) }
theorem witness_DspPacketsFollow_loops : (loopEnd 3 2).branch = none ∧ bitOf ((loopEnd 3 2).loops.getD 3 0) 63 = true ∧
    bitOf ((loopEnd 3 2).loops.getD 3 0) 62 = (loopEnd 3 2).hm ∧ bitsOf ((loopEnd 3 2).loops.getD 3 0) 19 0 = (loopEnd 3 2).pc.toNat ∧
    1 < bitsOf ((loopEnd 3 2).loops.getD 3 0) 61 40 ∧ bitsOf ((loopEnd 0 1).loops.getD 0 0) 61 40 ≤ 1 ∧
    bitsOf ((loopEnd 0 1).loops.getD 0 0) 19 0 = (loopEnd 0 1).pc.toNat ∧
    (∀ j, j ≠ 0 → j < 4 → bitOf ((loopEnd 0 1).loops.getD j 0) 63 = false) := by
  refine ⟨by decide, by decide, by decide, by decide, by decide, by decide, by decide, ?_⟩
  intro j hj h
  match j, hj, h with
  | 1, _, _ => decide
  | 2, _, _ => decide
  | 3, _, _ => decide
theorem test_dsp_loop_back : (nextPacket (loopEnd 3 2)).pc = 2 ∧ (nextPacket (loopEnd 0 1)).pc = 5 := by decide
theorem witness_DspPacketsFollow_branch : ({ dspRun0 with branch := some (7, 1 + 2, false) } : DspSt).branch = some (7, 1 + 2, false) ∧
    ({ dspRun0 with branch := some (7, 1, false) } : DspSt).branch = some (7, 1, false) ∧
    ({ dspRun0 with branch := some (0, 1, true) } : DspSt).branch = some (0, 1, true) ∧ ∀ l, l < 4 → bitOf (dspRun0.loops.getD l 0) 63 = false := by
  decide
theorem witness_DspPacketsFollow_end : DspTurn (dspState slot0Done) 0 1 0 [] ∧ (dspOf (dspState slot0Done) 0).halted = false := by
  unfold DspTurn Active; decide
theorem test_dsp_lands : dReg (dspOf (after (.dspNop 0 1) (dspState slot0Done)) 0) 5 = 9 := by decide

theorem witness_DspRunsAndStops_run : 0 < 48 ∧ Active (dspState {}) ∧ canRun (dspState {}) (deUnit 0) = true ∧ (dspOf (dspState {}) 0).cmd = none ∧
    (dspOf (dspState {}) 0).halted = false ∧ runCmd.rsvdA = 0 ∧ runCmd.rsvdB = 0 ∧ runCmd.bound ≠ 0 := by
  and_intros <;> first | decide | (unfold Active; decide)
def pending_ : DspSt := { dspRun0 with ie := true, pend := 4, waiting := some 2 }
theorem witness_DspRunsAndStops_interrupt : Active (dspState pending_) ∧ canRun (dspState pending_) (deUnit 0) = true ∧ (dspOf (dspState pending_) 0).cmd = some runCmd ∧ runCmd.hen = 1 ∧ pending_.ie = true ∧
    pending_.hm = false ∧ pending_.pend ≠ 0 ∧ pending_.slot0 = false ∧ pending_.branch = none ∧ pending_.halted = false ∧
    pending_.waiting = some 2 ∧ bitOf pending_.pend (2 : BitVec 3).toNat = true := by
  and_intros <;> first | decide | (unfold Active; decide)
/-- R232: the handler's first packet issues at HANDLER, ELR holds the packet that would have issued. -/
theorem test_dsp_interrupt : (dspOf (after (.dspInterrupt 0) (dspState pending_)) 0).pc = 9 ∧ (dspOf (after (.dspInterrupt 0) (dspState pending_)) 0).hm = true := by
  decide
def badAddr : DspSt := { dspRun0 with a := lmod dspRun0.a 1 (fun _ => 0x11) }
theorem witness_DspRunsAndStops_access : ∀ cls ∈ [(4 : BitVec 4), 5], let f : LsF := { ld16 with mode := 0, size := 0 }
    DspTurn (dspAt badAddr 0 (lsWord cls f)) 0 0 (lsWord cls f) [] ∧ f.mode = 0 ∧ f.imm = 0 ∧
    0x11 = (aReg (dspOf (dspState badAddr) 0) 1).toNat ∧ (0x11 % 2 ≠ 0 ∨ 0x600000 < 0x11 + 2) := by
  unfold DspTurn Active; decide
theorem witness_DspRunsAndStops_fetch : mayOpen { dspRun0 with pc := 16 } = true ∧ Active (dspState { dspRun0 with pc := 16 }) ∧
    canRun (dspState { dspRun0 with pc := 16 }) (deUnit 0) = true ∧ regionAt (dspState { dspRun0 with pc := 16 }) 0 16 = none := by
  and_intros <;> first | decide | (unfold Active; decide)
def boundRun : DspSt := { dspRun0 with cycle := 1600, halted := true }
theorem witness_DspRunsAndStops_bound : Active (dspState boundRun) ∧ (dspOf (dspState boundRun) 0).cmd = some runCmd ∧ 16 * runCmd.bound.toNat ≤ 1600 ∧
    (dspOf (dspState boundRun) 0).halted = true ∧ (dspOf (dspState boundRun) 0).slot0 = false ∧ clocked (dspState boundRun) (deUnit 0) = true := by
  and_intros <;> first | decide | (unfold Active; decide)
/-- R232: an interrupt that is due is taken before the next packet. -/
theorem test_dsp_no_packet_while_due : exec (.dspNop 0 0) (dspState { dspRun0 with ie := true, pend := 4 }) =
    .next (dspState { dspRun0 with ie := true, pend := 4 }) := by rfl


/-! ## The vector engine (spec/04) -/

/-- A real FP32 command of 2 rows of 4 elements, A and B from core memory, the result to core memory. -/
def veBase : VeCmd :=
  { veCmdOfWord 0 with
    opfmt := 8, fmtA := 8, fmtB := 8, fmtD := 8, srcA := 2, srcB := 2, dst := 1, rows := 2, cols := 4, pitchA := 1, pitchB := 1
    pitchD := 1, aAddr := 0, bAddr := 16, dAddr := 32, auxAddr := 64 }
def veCx : VeCmd := { veBase with cplx := 1 }
def veLlr : VeCmd := { veBase with opfmt := 3, fmtA := 2, fmtB := 2, fmtD := 2, opcode := 0x1A }
def veDem : VeCmd := { veBase with cplx := 1, fmtD := 2, opcode := 0x50, subop := 1, bcast := 2 }

/-- One command for each opcode, of good fields. -/
def veSamples : List VeCmd :=
  [{ veBase with opcode := 1 }, { veCx with opcode := 0x10 }, { veBase with opcode := 0x11 }, { veCx with opcode := 0x12 },
   { veCx with opcode := 0x12, breal := 1 }, { veBase with opcode := 0x14 }, { veBase with opcode := 0x15 }, { veBase with opcode := 0x16 },
   { veBase with opcode := 0x17 }, { veCx with opcode := 0x18 }, { veCx with opcode := 0x19 }, veLlr, { veBase with opcode := 0x20, subop := 15 },
   { veBase with opcode := 0x02, subop := 1, bias := 1 }, { veBase with opcode := 0x30 }, { veBase with opcode := 0x31, subop := 4 },
   { veBase with opcode := 0x32 }, { veBase with opcode := 0x33 }, { veBase with opcode := 0x40, axis := 1 }, veDem]

theorem test_ve_samples_fit : veSamples.all veOk = true := by decide
/-- R142: OPCODE 0x40 with SUBOP 2 in bits 255 to 240 is REDUCE MAX; SUBOP 6 is reserved. -/
theorem test_ve_word : veInstrOf 3 5 (0x4002#256 <<< 240) = some (.veReduceMax 3 5 (veCmdOfWord (0x4002#256 <<< 240))) ∧
    veInstrOf 3 5 (0x4006#256 <<< 240) = none := by decide
theorem test_ve_reserved_opcode : veOk { veBase with opcode := 0x13 } = false := by decide
theorem test_ve_minus_over_real : veOk { veCx with opcode := 0x14 } = false := by decide

theorem witness_VectorCommandsRun : ∀ x ∈ [(Instr.veAdd, 0x10, none), (Instr.veRsqrt, 0x20, some 3), (Instr.veReduceSum, 0x40, some 0)],
    x ∈ veForms ∧ VeTurn State.reset 0 (veForm veBase x.2.1 x.2.2) ∧ (veForm veBase x.2.1 x.2.2).rows ≠ 0 ∧ (veForm veBase x.2.1 x.2.2).cols ≠ 0 := by
  intro x hx
  simp only [List.mem_cons, List.not_mem_nil, or_false] at hx
  rcases hx with rfl | rfl | rfl
  · refine ⟨by simp [veForms], ⟨?_, by rfl, ?_⟩, by decide, by decide⟩ <;> decide
  · refine ⟨by simp [veForms], ⟨?_, by rfl, ?_⟩, by decide, by decide⟩ <;> decide
  · refine ⟨by simp [veForms], ⟨?_, by rfl, ?_⟩, by decide, by decide⟩ <;> decide
theorem witness_VectorCommandsRun_empty : 0 < 48 ∧ Active State.reset ∧ canRun State.reset (veUnit 0) = true ∧
    VeTurn State.reset 0 { veBase with opcode := 0 } ∧ VeTurn State.reset 0 (veForm { veBase with rows := 0 } 0x10 none) ∧
    ({ veBase with rows := 0 } : VeCmd).rows = 0 := by
  and_intros <;> first | decide | (unfold Active; decide)
theorem witness_VectorCommandsRun_waits : veOk (veForm { veBase with srcA := 1 } 0x10 none) = true ∧
    (coreOf State.reset 0).tq.length < veSlots (veForm { veBase with srcA := 1 } 0x10 none) ∧
    veOk (veForm { veBase with rows := 65 } 0x10 none) = false := by decide

/-- 1.0 + 2.0 from core memory: 0x3F800000 and 0x40000000 make 0x40400000. -/
def veMem : State := writeLocal (writeLocal State.reset (coreUnit 0) (coreBase State.reset 0) [0, 0, 0x80, 0x3F] false) (coreUnit 0)
  (coreBase State.reset 0 + 1024) [0, 0, 0, 0x40] false
theorem test_ve_add : (readLocal (after (.veAdd 0 0 veBase) veMem) (coreBase State.reset 0 + 2048) 4).bytes = [0, 0, 0x40, 0x40] := by decide
theorem test_ve_busy : (coreOf (after (.veAdd 0 7 veBase) veMem) 0).veBusy = [7] := by decide

theorem witness_ElementArithmetic : (∀ c ∈ veSamples, veOk c = true ∧ veSlots c ≤ (coreOf State.reset 0).tq.length ∧ 1 < c.rows.toNat ∧ 3 < c.cols.toNat) ∧
    -(2 ^ 31) ≤ (2 ^ 31 - 1 : Int) ∧ (2 ^ 31 - 1 : Int) < 2 ^ 31 ∧ [(zeroVal, zeroVal)] ≠ [] := by
  refine ⟨by decide, by decide, by decide, by simp⟩
/-- R101: an INT32 accumulator saturates. -/
theorem test_int32_saturates : ((macLine .int32 false (ofInt (2 ^ 31 - 1), zeroVal) [((ofInt 1, zeroVal), (ofInt 1, zeroVal))]).1).1 = ofInt (2 ^ 31 - 1) := by
  decide
theorem witness_VectorRows : (∀ c ∈ veSamples, veOk c = true ∧ veSlots c ≤ (coreOf State.reset 0).tq.length ∧ 0 < c.rows.toNat ∧ 3 < c.cols.toNat) ∧
    veOk { veBase with opcode := 0x40, axis := 0, cols := 2, subop := 1 } = true ∧ veOk { veBase with opcode := 0x40, axis := 0, subop := 5 } = true ∧
    veOk { veBase with opcode := 0x02, subop := 6, bcast := 3, srcB := 0 } = true ∧ 5 ≤ 5 ∧ (Val.inf false).isNeg = false ∧ zeroVal.isZero = true := by
  decide
/-- R134: the reciprocal of −0 is −∞. -/
theorem test_recip_negative_zero : (funcVal 8 2 negZero zeroVal).1 = .inf true := by decide
/-- R141: a NaN variance erases the symbol. -/
theorem test_demap_erased : demapSym 1 oneVal (oneVal, oneVal) .nan = ([0, 0], 0) := by decide

/-! ## The matrix arrays (spec/03) -/

/-- A LOAD of 2 rows of 3 FP16 elements into arrays 0 and 3. -/
def maBase : MatCmd :=
  { matCmdOfWord 0 with
    opcode := 1, arrays := 9, fmtS := 6, fmtT := 6, rows := 2, depth := 2, cols := 3, sPitch := 1, tPitch := 1, tAddr := 64, tStep := 64 }
/-- Core 0 after that LOAD. -/
def maLoaded : State := after (.maLoad 0 0 maBase) State.reset
theorem witness_MatrixLoads : MaTurn State.reset 0 0 maBase ∧ MaShape State.reset 0 ∧ maBase.depth ≠ 0 ∧ maBase.cols ≠ 0 ∧
    ∀ r, r < 2 → GoodRead (maRead State.reset 0 (64 * (0 + r * 1)) (rowBytes 6 false 3)) := by
  and_intros <;> first | decide | (unfold Active; decide) | (unfold FifoIdle; decide) | (unfold GoodRead; decide)
theorem test_load_holds : ((coreOf maLoaded 0).arrays.getD 3 {}).held.cols = 3 ∧ ((coreOf maLoaded 0).arrays.getD 1 {}).held.cols = 0 := by decide
theorem witness_MatrixPasses : ∀ df : BitVec 2, df = 0 ∨ df = 1 → MaTurn maLoaded 0 0 { maBase with opcode := 2, dataflow := df } ∧ MaShape maLoaded 0 ∧
    (2 : BitVec 10) ≠ 0 ∧ ∀ a ∈ [0, 3], ∀ r, r < 2 →
      GoodRead (maRead maLoaded 0 (64 * (64 + a * 64 + r)) (rowBytes 6 false 2)) := by
  intro df h
  rcases h with rfl | rfl <;> refine ⟨?_, ?_, by decide, ?_⟩
  · and_intros <;> first | decide | (unfold Active; decide) | (unfold FifoIdle; decide)
  · unfold MaShape; decide
  · unfold GoodRead; decide
  · and_intros <;> first | decide | (unfold Active; decide) | (unfold FifoIdle; decide)
  · unfold MaShape; decide
  · unfold GoodRead; decide
theorem witness_MatrixPasses_width : ∀ a ∈ [0, 3], passWidth maLoaded 0 { maBase with opcode := 2 } a ≤ maWidth (maBase.cplx == 1) := by decide
/-- R106: under ACC = 0 a PASS leaves the value beyond the three columns of its block. -/
theorem test_pass_leaves_columns :
    let s := modCore maLoaded 0 (fun c => { c with arrays := lmod c.arrays 0 (fun m => { m with tiles := lmod m.tiles 0 (fun _ =>
      { fmt := .fp32, vals := [(tileKey false 0 3 0, 0x3F800000)] }) }) })
    tileWord (tileOf (after (.maPassWs 0 0 { maBase with arrays := 1 }) s) 0 0 0) 0 3 0 = 0x3F800000 := by decide
theorem witness_MatrixOuterProducts : MaTurn State.reset 0 0 { maBase with opcode := 2, dataflow := 2 } ∧ MaShape State.reset 0 ∧ maBase.rows ≠ 0 ∧
    maBase.cols ≠ 0 ∧ maBase.depth ≠ 0 ∧ (∀ y, y < 2 → GoodRead (maRead State.reset 0 (64 * y) (rowBytes 6 false 3)) ∧
      ∀ i ∈ [0, 3], GoodRead (maRead State.reset 0 (64 * (64 + i * 64 + y)) (rowBytes 6 false 2))) := by
  refine ⟨?_, by unfold MaShape; decide, by decide, by decide, by decide, by unfold GoodRead; decide⟩
  and_intros <;> first | decide | (unfold Active; decide) | (unfold FifoIdle; decide)
/-- A tile queue with one slot free. -/
def tightQueue : State := modCore State.reset 0 (fun x => { x with tq := List.replicate 15 ⟨0, 0, .fp32, false, 1, 1, [], []⟩ })
theorem witness_MatrixEmitsAndWaits : MaShape State.reset 0 ∧ MaTurn State.reset 0 0 { maBase with opcode := 3 } ∧ maBase.rows ≠ 0 ∧
    MaTurn State.reset 0 0 { maBase with opcode := 0 } ∧ maZero { maBase with opcode := 0 } = true ∧ maZero { maBase with cols := 0 } = true ∧
    MaTurn State.reset 0 0 { maBase with cols := 0 } := by
  refine ⟨by unfold MaShape; decide, ?_, by decide, ?_, by decide, by decide, ?_⟩ <;> and_intros <;> first | decide | (unfold Active; decide) | (unfold FifoIdle; decide)
theorem witness_MatrixEmitsAndWaits_waits : let c : MatCmd := { maBase with opcode := 3 }
    MaShape tightQueue 0 ∧ 0 < 48 ∧ Active tightQueue ∧ canRun tightQueue (coreUnit 0) = true ∧
    (∀ i ∈ maArrays c, inService tightQueue (maUnit 0 i) = true ∧ outStalled tightQueue (maUnit 0 i) = false) ∧ c.arrays ≠ 0 ∧
    maFieldsOk c = true ∧ (coreOf tightQueue 0).maWait = [] ∧ (coreOf tightQueue 0).veWait = [] ∧
    16 < (coreOf tightQueue 0).tq.length + (maArrays c).length := by
  unfold MaShape Active; decide
theorem witness_MatrixEmitsAndWaits_goes_on : MaTurn (modCore tightQueue 0 (fun x => { x with tq := [] })) 0 0 { maBase with opcode := 3 } := by
  unfold MaTurn Active FifoIdle; decide
theorem test_emit_waits : (coreOf (after (.maEmit 0 5 maBase) tightQueue) 0).maWait.length = 1 := by decide
theorem test_emit_sends : (coreOf (after (.maEmit 0 5 maBase) State.reset) 0).tq.length = 2 := by decide

/-! ## Commands complete -/

/-- Core 0's list for the vector engine runs its step 0, and so do array 1's, the DSP engine's, CE 1's, the PE's and mover 2's lists. -/
def busySeq : SeqSt :=
  { ({} : SeqSt) with running := [(maUnit 0 1, 0), (veUnit 0, 0), (deUnit 0, 0), (ceUnit 0 1, 0), (peUnit 0, 0), (moverUnit 0 2, 0)].map (fun x => (x.1.toNat, [x.2])) }
def busyState : State :=
  { State.reset with
    cores := [(0, { ({} : CoreSt) with seq := busySeq, veBusy := [0], arrays := lmod (List.replicate 4 {}) 1 (fun m => { m with busy := [0] })
                                       dsp := { dspRun0 with halted := true } })]
    clusters := [(0, { ({} : ClusterSt) with
      seq := busySeq, ce := lmod ({} : ClusterSt).ce 1 (fun e => { e with busy := [0] }), pe := { ({} : ClusterSt).pe with busy := [0] }
      movers := lmod ({} : ClusterSt).movers 2 (fun m => { m with eng := { m.eng with busy := [0] } }) })] }
theorem witness_CommandsComplete : Active busyState ∧ 0 < 48 ∧ (coreOf busyState 0).veBusy = 0 :: [] ∧ 1 < 4 ∧
    ((coreOf busyState 0).arrays.getD 1 {}).busy = 0 :: [] ∧ (dspOf busyState 0).cmd.isSome = true ∧ (dspOf busyState 0).halted = true ∧
    (dspOf busyState 0).slot0 = false ∧ (dspOf busyState 0).cycle < boundCycles (dspOf busyState 0) ∧
    [veUnit 0, maUnit 0 1, deUnit 0, engineFor busyState (ceUnit 0 1), peUnit 0, movUnit busyState 0 2].all (clocked busyState) = true ∧
    ((clusterOf busyState 0).ce.getD 1 {}).busy = 0 :: [] ∧ (clusterOf busyState 0).pe.busy = 0 :: [] ∧
    unitGone busyState (peUnit 0) = false ∧ (movOf busyState 0 2).eng.busy = 0 :: [] ∧ (movOf busyState 0 2).flushing = none ∧
    canRun State.reset (deUnit 0) = true ∧ (dspOf State.reset 0).cmd = none ∧ (dspOf State.reset 0).halted = false ∧
    (dspCmdOfWord 0).rsvdA = 0 ∧ (dspCmdOfWord 0).rsvdB = 0 := by
  and_intros <;> first | decide | (unfold Active; decide)
/-- Core 0's DSP list runs its only step, which emits a READY token, or the slice's DONE. -/
def doneStep : AStep := { cmd := .de 0, await := [], emits := [{ dst := 0, kind := 3, tag := 7, value := 0 }] }
def endsWith (st : AStep) : State :=
  let s := setCore (running { dspPlan with lists := [{ pos := 1, seq := seq0, eng := deUnit 0, base := 0x1000, copyAt := 0, steps := [st] }] }) 0
    { coreOf State.reset 0 with dsp := { dspRun0 with halted := true }, seq := { ({} : SeqSt) with running := [((deUnit 0).toNat, [0])] } }
  holds (holds s (coreUnit 0) slice1) (deUnit 0) slice1
theorem witness_CommandsComplete_step : ∀ st ∈ [dspStep, doneStep], let s := endsWith st
    tget (seqOf s seq0).running (deUnit 0).toNat = some (0 :: []) ∧ (planList s seq0 (deUnit 0)).isSome = true ∧
    ((planList s seq0 (deUnit 0)).map (fun l => l.steps)) = some [st] := by decide
theorem witness_CommandsComplete_done : let s := endsWith doneStep
    (∀ e ∈ dspStep.emits, e.kind ≠ 3) ∧ runningSlice s (parentOf seq0) = some slice1 ∧ kidsOf s slice1.pos = [] ∧ uLevel (parentOf seq0) ≠ 4 ∧
    deUnit 0 ≠ parentOf seq0 ∧ clocked s (deUnit 0) = true := by decide
/-- R18, R28, R45: the DSP engine's CREDIT, the core's DONE of TAG 7 and the core's own CREDIT follow one another. -/
theorem test_done_step : ((after (.dspRunComplete 0 9) (endsWith doneStep)).crossing).map (fun c => (tokSource c.tok, c.dst, tokKind c.tok, tokTag c.tok)) =
    [(deUnit 0, seq0, 2, 0), (coreUnit 0, clusterUnit 0, 3, 7), (coreUnit 0, clusterUnit 0, 2, 0)] := by decide

/-! ## The coding and polar engines (spec/08) -/

/-- Z = 2, KP = 4, NCB = 8, E = 6 of QPSK, input at byte 0, output at byte 128, result word at byte 256. -/
def ceBase : CeCmd :=
  { ceCmdOfWord 0 with opcode := 1, z := 2, kp := 4, ncb := 8, e := 6, qm := 2, iter := 1, crc := 1, outAddr := 1024, resAddr := 2048 }
theorem witness_CodingCommandsRun_derm : let u := engineFor State.reset (ceUnit (7 : BitVec 3).toNat (1 : BitVec 1).toNat)
    Active State.reset ∧ canRun State.reset u = true ∧ ceOk (ceIssued State.reset 7 ceBase none) = true ∧ ceZero ceBase = false ∧
    GoodRead (readLocal State.reset (ceInput 7 ceBase).1 (ceInput 7 ceBase).2) ∧ errBad State.reset u 0 codeWords = false := by
  unfold Active GoodRead; decide
/-- An uncorrectable error in the memories of coding engine 1 of cluster 7. -/
def ceBad : State := { State.reset with engMem := [((ceUnit 7 1).toNat, { errs := [(5, true)] })] }
theorem witness_CodingCommandsRun_bad_memory : Active ceBad ∧ canRun ceBad (ceUnit 7 1) = true ∧ ¬ errBad ceBad (ceUnit 7 1) 0 codeWords = false ∧
    GoodRead (readLocal ceBad (ceInput 7 ceBase).1 (ceInput 7 ceBase).2) := by
  unfold Active GoodRead; decide
theorem witness_CodingCommandsRun_decode : ceOk { ceBase with opcode := 2 } = true ∧ ceZero { ceBase with opcode := 2 } = false ∧
    GoodRead (readLocal State.reset (clusterBase 7 + 0 / 8) 8) := by
  and_intros <;> decide
theorem witness_CodingCommandsRun_encode : ceOk { ceBase with opcode := 3 } = true ∧ ceZero { ceBase with opcode := 3 } = false ∧
    GoodBits State.reset 7 0 4 ∧ carried { ceBase with opcode := 3 } ≠ [] ∧ ({ ceBase with opcode := 3, e := 0 } : CeCmd).e = 0 ∧
    carried { ceBase with opcode := 3, ncb := 0 } = [] ∧ ceOk { ceBase with opcode := 3, ncb := 0 } = true := by
  and_intros <;> decide
theorem witness_CodingCommandsRun_crc : ceOk { ceBase with opcode := 4, attach := 1 } = true ∧ ceOk { ceBase with opcode := 4, attach := 0 } = true ∧
    GoodBits State.reset 7 0 6 ∧ GoodBits State.reset 7 0 (6 + (ceCrcType 1).1) := by
  and_intros <;> decide
theorem witness_CodingCommandsRun_away : ceOk { ceBase with z := 1 } = false ∧ ceOk { ceBase with opcode := 0 } = true ∧ ceZero { ceBase with opcode := 0 } = true ∧
    ceOk { ceBase with opcode := 3, kp := 0, e := 0, ncb := 0 } = true ∧ ceZero { ceBase with opcode := 3, kp := 0, e := 0, ncb := 0 } = true := by decide
theorem test_ce_turned_away : (after (.ceDerm 7 1 ⟨{ ceBase with z := 1 }, none⟩) State.reset).lastFault = 1 := by decide
/-- R247, by TS 38.212: 24 bits are one block of base graph 2 with K' = 40, Z = 7; 10,000 bits at rate 0.68 two of base graph 1. -/
theorem test_segments : segOf 24 512 = ⟨true, 1, 40, 7, 30⟩ ∧ segOf 10000 700 = ⟨false, 2, 5036, 240, 244⟩ := by decide
/-- R249: the CRC24A of one bit 1 is the polynomial 0x86_4CFB. -/
theorem test_crc_one : crcBits (ceCrcType 1).1 (ceCrcType 1).2 [true] = (List.range 24).map (fun i => Nat.testBit 0x864CFB (23 - i)) := by decide

theorem witness_CodeRules : isFiller { ceBase with f := 16 } 2 = true ∧ ceBase.e.toNat ≤ (carried ceBase).length ∧ 5 < (carried ceBase).length ∧
    (carried { ceBase with e := 10 }).length < 10 ∧ 10 ≤ 2 * (carried { ceBase with e := 10 }).length ∧
    ceBase.kp.toNat ≤ (ldpcN (ceBase.bg == 1) + 2) * ceBase.z.toNat ∧ (∀ v ∈ [(-127 : Int), 127], -127 ≤ v ∧ v ≤ 127) ∧
    bitsOf (0xFF : BitVec 16) 15 8 = 0 ∧ ([true, false] : List Bool).length = 2 ^ 1 ∧
    (∀ j, j < 2 ^ 1 → [(-3 : Int), 5].getD j 0 ≠ 0 ∧ ((polarXform 1 [true, false]).getD j false = true ↔ [(-3 : Int), 5].getD j 0 < 0)) ∧
    [3].contains 3 = true ∧ ([] : List Nat).contains 3 = false := by
  and_intros <;> decide
theorem test_polar_transform : polarXform 1 [true, true] = [false, true] := by decide

/-- N = 32, 8 message bits with a CRC, 16 coded bits. -/
def peBase : PeCmd := { peCmdOfWord 0 with opcode := 1, logn := 5, list := 1, crc := 1, k := 12, e := 16, outAddr := 1024 }
theorem witness_PolarCommandsRun : Active State.reset ∧ canRun State.reset (peUnit (3 : BitVec 3).toNat) = true ∧
    errBad State.reset (peUnit 3) 0 codeWords = false ∧ peOk peBase = true ∧ peZero peBase = false ∧
    GoodRead (readLocal State.reset (clusterBase 3 + 0 / 8) 16) ∧ peOk { peBase with opcode := 2 } = true ∧ peZero { peBase with opcode := 2 } = false ∧
    GoodBits State.reset 3 0 (peMsg { peBase with opcode := 2 }) ∧ peOk { peBase with logn := 4 } = false ∧ peOk { peBase with opcode := 0 } = true ∧
    peZero { peBase with opcode := 0 } = true := by
  and_intros <;> first | decide | (unfold Active; decide)
/-- The polar engine of cluster 3 is retired. -/
def peRetired : State := setUnit State.reset (peUnit 3) { unitOf State.reset (peUnit 3) with phase := .retired }
def borrowedBusy : State := setCluster peRetired 2 { clusterOf peRetired 2 with borrowed := [(1, peBase, 0), (1, peBase, 1)] }
theorem witness_PolarCommandsRun_helper : Active peRetired ∧ canRun peRetired (clusterUnit 3) = true ∧ unitGone peRetired (peUnit 3) = true ∧
    (∃ h, peHelper peRetired 3 = some h ∧ canRun peRetired (peUnit h) = true ∧ h ≠ 3 ∧ errBad peRetired (peUnit h) 0 codeWords = false ∧ (clusterOf peRetired h).borrowed.length < 2 ∧
      peOk (borrowedCmd peBase 0) = true ∧ peZero (borrowedCmd peBase 0) = false ∧ peOk (borrowedCmd { peBase with opcode := 2 } 0) = true) := by
  refine ⟨by unfold Active; decide, by decide, by decide, (peHelper peRetired 3).getD 9, by decide, by decide, by decide, by decide, by decide, by decide, by decide, by decide⟩


/-! ## Memory, movers and cluster queues (spec/09) -/

/-- Codewords 0 and 1 hold poison. -/
def badMem : State := { State.reset with mem := { State.reset.mem with check := [(0, 0xFFFFFFFF), (1, 0xFFFFFFFF)] } }
theorem witness_MemoryReadsBack : MemOk badMem ∧ placeOf badMem (0x5FFFFFFF0 + 15) ≠ .reserved ∧ GoodAt badMem 64 ∧
    (30 ≤ 32 * 1 ∧ 32 * 1 + 32 ≤ 30 + (List.replicate 40 (7 : Byte)).length ∧ placeOf badMem (32 * 1) ≠ .reserved) ∧
    (List.replicate 40 (7 : Byte) ≠ [] ∧ 32 * 0 < 30 ∧ 30 < 32 * 0 + 32 ∧ placeOf badMem (32 * 0) ≠ .reserved ∧ ¬ GoodAt badMem (32 * 0)) ∧
    (29 < 30 ∧ 30 + (List.replicate 40 (7 : Byte)).length ≤ 96 ∧ (30 + (List.replicate 40 (7 : Byte)).length + 31) / 32 ≤ 96 / 32) ∧
    placeOf badMem 0xC20000000 = .reserved ∧
    (∀ i, i < [1, (2 : Byte)].length → placeOf badMem (0xC20000000 + i) = .reserved) ∧
    (badMem.mem.dropped.any (fun d => d.1 == veUnit 0 && d.2.1 == badMem.time.meridians)) = false := by
  and_intros <;> first | decide | (unfold MemOk; decide) | (unfold GoodAt GoodRead; decide)
theorem test_write_reads_back : byteAt (writeLocal State.reset (veUnit 0) 0x5FFFFFFFF [0xA5] false) 0x5FFFFFFFF = 0xA5 := by decide
theorem test_write_whole_codeword_heals : (readLocal (writeLocal badMem (veUnit 0) 30 (List.replicate 40 7) false) 32 32).poisoned = false ∧
    (readLocal (writeLocal badMem (veUnit 0) 30 (List.replicate 40 7) false) 0 32).poisoned = true := by decide

/-- A mover command with no fields set. -/
def mov0 : MovCmd := movCmdOfWord 0
/-- Two lines of two bytes from cluster 0 to cluster 1. -/
def mov1 : MovCmd := { mov0 with src := 0xC00000000, dst := 0xC04000000, length := 2, lines := 2, srcPitch := 8, dstPitch := 4 }
theorem witness_MoversMoveBytes : Active State.reset ∧ 5 < 6 ∧ 5 < (clusterOf State.reset (7 : BitVec 3).toNat).movers.length ∧
    canRun State.reset (movUnit State.reset (7 : BitVec 3).toNat 5) = true ∧ MemOk State.reset ∧ mov0.length = 0 ∧ mov0.src.toNat < 2 ^ 32 := by
  and_intros <;> first | decide | (unfold Active; decide) | (unfold MemOk; decide)
def mov1Src (i j : Nat) : Nat := (((mov1.src.toNat : Int) + i * movPitch mov1.srcPitch + j) % 2 ^ 42).toNat
def mov1Dst (i j : Nat) : Nat := (((mov1.dst.toNat : Int) + i * movPitch mov1.dstPitch + j) % 2 ^ 42).toNat
theorem witness_MoversMoveBytes_copy :
    mov1.length ≠ 0 ∧ mov1.lines ≠ 0 ∧ mov1.mirror = 0 ∧ mov1.dstSpace = 0 ∧ mov1.srcSpace = 0 ∧
    movOk State.reset 7 { mov1 with opcode := 1 } = true ∧
    (∀ k, k < 4 → ∀ k', k' < 4 → (mov1Dst (k / 2) (k % 2) = mov1Dst (k' / 2) (k' % 2) → k = k') ∧
      mov1Src (k / 2) (k % 2) ≠ mov1Dst (k' / 2) (k' % 2)) := by
  and_intros <;> decide
theorem witness_MoversMoveBytes_copy_own : OwnByte State.reset 0xC00000000 ∧ OwnByte State.reset 0xC00000001 ∧ OwnByte State.reset 0xC00000008 ∧
    OwnByte State.reset 0xC00000009 ∧ OwnByte State.reset 0xC04000000 ∧ OwnByte State.reset 0xC04000001 ∧ OwnByte State.reset 0xC04000004 ∧
    OwnByte State.reset 0xC04000005 := by
  unfold OwnByte InMemory GoodAt GoodRead
  decide
/-- The host lets the device read and write. -/
def hostUp : State := { State.reset with pcie := { State.reset.pcie with linkUp := true, busMaster := true } }
theorem witness_MoversMoveBytes_host : canMaster hostUp = true ∧ movOk hostUp 7 { mov1 with opcode := 1, srcSpace := 1, src := 0, lines := 1 } = true ∧
    0 % 2 ^ 36 + 2 ≤ 2 ^ 36 ∧ min 2 (bufLen ((bufsOf hostUp 7).getD 0 0) - 0) ≤ [(1 : Byte), 2].length := by decide
theorem witness_MoversMoveBytes_fill : movOk State.reset 7 { mov1 with opcode := 2, src := 0xFFFFFFFF } = true ∧
    (0xFFFFFFFF : BitVec 42).toNat < 2 ^ 32 ∧ 2 ^ 32 ≤ mov1.src.toNat ∧ movOk State.reset 7 { mov1 with opcode := 1, groups := 1 } = false ∧
    movOk State.reset 7 { mov1 with opcode := 2, srcSpace := 3, groups := 1 } = false := by decide
theorem test_mover_copy : (readLocal (after (.moverCopy 7 5 mov1 []) (writeLocal State.reset 0 0xC00000008 [1, 2] false)) 0xC04000004 2).bytes = [1, 2] := by
  decide
theorem test_mover_fill : (readLocal (after (.moverFill 7 5 { mov1 with src := 0x04030201, length := 5, dstPitch := 8 }) State.reset) 0xC04000008 6).bytes =
    [1, 2, 3, 4, 1, 0] := by decide

/-- A 2 × 1 kernel over a plane of 2 × 1, stride 1. -/
def geo1 : RelayGeo := { relayGeoOfWord 0 with inW := 2, inH := 1, sx := 1, sy := 1, dx := 1, dy := 1, kw := 2, kh := 1, ux := 1, uy := 1 }
def rel1 : MovCmd := { mov0 with src := 0xC00000000, dst := 0xC04000000, length := 2, groups := 1, srcPitch := 2, dstPitch := 2, planePitch := 1 }
theorem witness_RelayGathersPlanes : Active State.reset ∧ 1 < 2 ∧ 1 < (clusterOf State.reset (0 : BitVec 3).toNat).movers.length ∧
    canRun State.reset (movUnit State.reset (0 : BitVec 3).toNat 1) = true ∧ MemOk State.reset ∧ relayCmdOk 1 rel1 geo1 = true ∧
    0 < geo1.inW.toNat ∧ 0 < geo1.inH.toNat ∧ rel1.groups.toNat * rel1.length.toNat ≠ 0 ∧ rel1.srcSpace = 0 ∧ rel1.dstSpace = 0 ∧
    rel1.mirror = 0 ∧ relayCmdOk 1 { rel1 with groups := 0 } geo1 = true ∧ ({ rel1 with groups := 0 } : MovCmd).groups.toNat = 0 := by
  and_intros <;> first | decide | (unfold Active; decide) | (unfold MemOk; decide)
/-- One position of two bytes in each of two planes: the four destinations, the sources and their distance. -/
theorem witness_RelayGathersPlanes_bytes : OwnByte State.reset 0xC04000000 ∧ OwnByte State.reset 0xC04000001 ∧ OwnByte State.reset 0xC04000040 ∧
    OwnByte State.reset 0xC04000041 ∧ OwnByte State.reset 0xC00000000 ∧ OwnByte State.reset 0xC00000001 ∧ OwnByte State.reset 0xC00000002 ∧
    OwnByte State.reset 0xC00000003 := by
  unfold OwnByte InMemory GoodAt GoodRead
  decide
theorem test_relay : (readLocal (after (.moverRelay 0 1 rel1 ⟨geo1, []⟩) (writeLocal State.reset 0 0xC00000000 [1, 2, 3, 4] false)) 0xC04000000 66).bytes =
    [1, 2] ++ List.replicate 62 0 ++ [3, 4] := by decide

/-- Queue 63 of cluster 2: two entries of 32 bytes at 0x40. -/
def queueRec : QRec := { depth := 2, esize := 0, base := 1, writer := 5, reader := 7 }
def withRec (q : QRec) : State := modQrec State.reset 2 63 (fun _ => q)
def queueOne : State := withRec { queueRec with wptr := 1, wptr2 := 1 }
def fillQ : MovCmd := { mov0 with src := 5, dst := 63, dstSpace := 2, length := 32, lines := 1 }
theorem witness_QueuesHoldEntries : let s := queueOne
    Active s ∧ 5 < (clusterOf s (2 : BitVec 3).toNat).movers.length ∧ (clusterOf s (2 : BitVec 3).toNat).queues.length = 64 ∧
    canRun s (movUnit s (2 : BitVec 3).toNat 5) = true ∧ MemOk s ∧ (qrecOf s 2 63).depth ≠ 0 ∧ (qrecOf s 2 63).wptr < 2 * (qrecOf s 2 63).depth ∧
    (qrecOf s 2 63).rptr < 2 * (qrecOf s 2 63).depth ∧ qCount (qrecOf s 2 63) = 1 ∧
    64 * (qrecOf s 2 63).base + (qrecOf s 2 63).depth * qEntryBytes (qrecOf s 2 63) ≤ clusterBytes := by
  and_intros <;> first | decide | (unfold Active; decide) | (unfold MemOk; decide)
theorem witness_QueuesHoldEntries_good : ∀ j, j < 64 → GoodAt queueOne (clusterBase 2 + 64 * 1 + j) := by
  unfold GoodAt GoodRead
  decide
theorem witness_QueuesHoldEntries_write : fillQ.dst.toNat = 63 ∧ fillQ.dstSpace = 2 ∧ fillQ.srcSpace = 0 ∧ fillQ.length.toNat ≠ 0 ∧ fillQ.lines = 1 ∧
    movOk queueOne 2 { fillQ with opcode := 2 } = true ∧ (32 + 32 - 1) / 32 + 0 ≤ (qrecOf queueOne 2 63).depth - qCount (qrecOf queueOne 2 63) ∧
    (qrecOf queueOne 2 63).depth - qCount (qrecOf queueOne 2 63) < (64 + 32 - 1) / 32 ∧ (qrecOf queueOne 2 63).depth < (64 + 32 - 1) / 32 + 1 ∧
    movOk queueOne 2 { fillQ with opcode := 2, length := 64, packet := 1 } = true := by decide
def takeQ : MovCmd := { mov0 with src := 63, dst := 0xD00000000, srcSpace := 2, length := 1, lines := 1 }
theorem witness_QueuesHoldEntries_read : takeQ.src.toNat = 63 ∧ takeQ.mirror = 0 ∧ (qrecOf queueOne 2 63).packetised = false ∧
    movOk queueOne 2 { takeQ with opcode := 1 } = true ∧ (1 + 32 - 1) / 32 ≤ qCount (qrecOf queueOne 2 63) ∧ OwnByte queueOne 0xD00000000 ∧
    (∀ j, j < 64 → 0xD00000000 % 2 ^ 36 ≠ clusterBase 2 + 64 * 1 + j) ∧ qCount (qrecOf (withRec queueRec) 2 63) = 0 ∧
    movOk (withRec queueRec) 2 { takeQ with opcode := 1 } = true := by
  unfold OwnByte InMemory GoodAt GoodRead
  decide
theorem witness_QueuesHoldEntries_flush : movOk queueOne 2 { fillQ with opcode := 2 } = true ∧ fillQ.dstSpace ≠ 3 ∧
    (qrecOf (withRec { queueRec with flushPend := true }) 2 63).flushPend = true ∧ (qrecOf queueOne 2 63).readLeft = 0 ∧
    (movOf (modMov queueOne 2 5 (fun x => { x with toIssue := 1 })) 2 5).toIssue ≠ 0 := by decide
theorem test_queue_underrun : (qrecOf (after (.moverCopy 2 5 takeQ []) (withRec queueRec)) 2 63).underrun = true := by decide
theorem test_queue_waits : exec (.moverFill 2 5 { fillQ with length := 64 }) queueOne = .next queueOne := by rfl

/-- A single-byte error at codeword 0, two of them at codeword 1, poison at codeword 2. -/
def scarred : State := { State.reset with mem := { State.reset.mem with check := [(0, 0x00000001), (1, 0x01010101), (2, 0xFFFFFFFF)] } }
theorem witness_RefreshScrubsMemory : Active scarred ∧ scarred.mem.repairs = [] ∧ scarred.dies.length = 2 ∧ MemOk scarred ∧
    511 < 512 ∧ inSubframe scarred (max scarred.time.now (511 * 1953125 / 1000 + meridianOffset scarred)) = 511 * 1953125 / 1000 ∧
    inSubframe scarred (max scarred.time.now 1) ≠ 511 * 1953125 / 1000 ∧ cwStateAt scarred 0 = .single 3 1 ∧
    cwStateAt scarred 1 = .uncorrectable ∧ cwStateAt scarred 2 = .poison ∧ (mirrorOf scarred 32).isSome = false ∧ (workingOf scarred 32).isSome = false := by
  and_intros <;> first | decide | (unfold Active; decide) | (unfold MemOk; decide)
theorem witness_RefreshScrubsMemory_sram : placeOf scarred (clusterBase 7) = .cluster 7 ∧ placeOf scarred (coreBase scarred 47) = .core 47 ∧
    placeOf scarred ioBase = .ioSram := by decide
/-- The uncorrectable codeword lies in a mirrored region. -/
def mirrored : State :=
  { running { noPlan with regions := [{ base := 0, bytes := 4096, mirrorAt := some (dramBase 1) }] } with mem := scarred.mem }
theorem witness_RefreshScrubsMemory_mirrored : Active mirrored ∧ cwStateAt mirrored 1 = .uncorrectable ∧ (mirrorOf mirrored 32).isSome = true := by
  unfold Active; decide
theorem test_refresh_window : ((after (.refreshWindow 0 0 0) State.reset).dies.getD 0 {}).refreshing = some 160 ∧
    ((after (.refreshWindowEnd 0 159) (after (.refreshWindow 0 0 0) State.reset)).dies.getD 0 {}).refreshing = some 160 ∧
    ((after (.refreshWindowEnd 0 160) (after (.refreshWindow 0 0 0) State.reset)).dies.getD 0 {}).refreshing = none := by decide

/-! ## The host's side of the link (spec/14) -/

def route5 : Route := { dev := 5, hops := 1, next := 5, port := 3 }
/-- Through BAR4 the host reaches device `n`; device 5 has a route. -/
def bar4At (n : BitVec 6) : State :=
  { hostUp with pcie := { hostUp.pcie with bar4 := n }, fabric := { hostUp.fabric with routes := [route5] } }
theorem witness_HostRequests : Active hostUp ∧ hostUp.pcie.linkUp = true ∧ hostUp.pcie.d3hot = false ∧
    (2 ^ 36 - 1) + [(1 : Byte)].length ≤ 2 ^ hostUp.pcie.bar2Bits ∧ 2 ^ hostUp.pcie.bar2Bits < (2 ^ 36 - 1) + 2 ∧
    placeOf hostUp (2 ^ 36 - 1) ≠ .control ∧ [(1 : Byte)] ≠ [] ∧
    (∀ j, j < 2 → placeOf hostUp (0x600000000 + j) ≠ .control) ∧ hostUp.pcie.bar4.toNat = devnum hostUp := by
  and_intros <;> first | decide | (unfold Active; decide)
theorem witness_HostRequests_peer : (bar4At 5).pcie.bar4.toNat ≠ devnum (bar4At 5) ∧ routeTo (bar4At 5) 5 = some route5 ∧
    routeTo (bar4At 63) 63 = none ∧ (bar4At 63).pcie.bar4.toNat ≠ devnum (bar4At 63) ∧
    ((bar4At 63).mem.dropped.any (fun x => x.1 == dieUnit 2 && x.2.1 == (bar4At 63).time.meridians)) = false ∧
    (bar4At 5).fabric.reads = [] := by
  and_intros <;> decide
theorem test_bar4_without_route : (after (.bar4Read 0 3 0) (bar4At 63)).out = [.readReply [0, 0, 0] false] := by decide
theorem test_bar2_beyond : (after (.bar2Read (2 ^ 36) 1 0) hostUp).out = [.unsupportedRequest] := by decide

theorem witness_ControlBlock : Active hostUp ∧ hostUp.pcie.linkUp = true ∧ hostUp.pcie.d3hot = false ∧ hostUp.pcie.bar2Bits = 36 ∧
    ¬ (([1, 2, 3] : List Byte).length = 4 ∨ ([1, 2, 3] : List Byte).length = 8) ∧ hostUp.obj.busy = false ∧
    ({ hostUp.obj with busy := true } : ObjSt).busy = true ∧ (unitOf hostUp (dieUnit 2)).phase = .live ∧ hostUp.cp.restarting = false ∧
    hostUp.pcie.doeError = false ∧ (hostUp.life.state = 1 ∨ hostUp.life.state = 2 ∨ hostUp.life.state = 3) ∧
    ofBytesLE (cgets hostUp.mem.cells (controlBase + 0x1000) 16) / 2 ^ 32 % 2 ^ 32 ≤ 4080 := by
  and_intros <;> first | decide | (unfold Active; decide)
/-- The I/O die is out of service. -/
def ioDown : State := setUnit hostUp (dieUnit 2) { unitOf hostUp (dieUnit 2) with phase := .dusk }
theorem witness_ControlBlock_away : Active ioDown ∧ ioDown.pcie.linkUp = true ∧ ioDown.pcie.d3hot = false ∧ ioDown.pcie.bar2Bits = 36 ∧
    ioDown.obj.busy = false ∧ (unitOf ioDown (dieUnit 2)).phase ≠ .live := by
  unfold Active; decide
/-- R453: BAR4_SELECT takes the low six bits. -/
theorem test_bar4_select : (after (.bar2Write (controlBase + 8) [0xC5, 0, 0, 0, 0, 0, 0, 0] 0) hostUp).pcie.bar4 = 5 := by decide
theorem test_go_overrun : (after (.objGo 0) (after (.objGo 0) hostUp)).obj.overrun = true := by decide

/-- A host read that returned nothing but a good empty answer. -/
def emptyFetch : Fetched := { entry := 0, bufs := [], allocs := [], rels := [], read := .good }
/-- Queue 3 is open, its next entry to fetch is 5, and item 4 of it has been accepted; context 7 is being swapped in. -/
def linkState (bm : Bool) : State :=
  let s := running noPlan
  { s with
    pcie := { s.pcie with linkUp := true, busMaster := bm }
    queues := [(3, { queueOf s 3 with
      qstate := 1, depth := 16, tail := 9, fetchNext := 5, acceptNext := 5, formed := [{ seq := 2, entry := 5, outputs := [] }] })]
    items := [{ newItem s 3 4 emptyFetch 0 with phase := .accepted }, { newItem s 3 3 emptyFetch 0 with phase := .waiting }]
    pool := { s.pool with swaps := [{ context := 7, victim := none, landed := false }] } }
theorem witness_HostLinkEvents_replay : Active (linkState true) ∧ 0 < 1 ∧ (linkState true).cap.running = none ∧
    planOf (linkState true) = some noPlan ∧ noPlan.pcieBudget < (linkState true).pcie.replayed + 1 ∧ (linkState true).pcie.overBudget = false ∧
    ({ noPlan with pcieBudget := 1 } : Plan).pcieBudget ≥ (linkState true).pcie.replayed + 1 := by
  and_intros <;> first | decide | rfl | (unfold Active; decide)
theorem witness_HostLinkEvents_mastering : (linkState true).occ.state ≠ .none ∧ State.reset.occ.state = .none ∧ canMaster (linkState true) = true ∧
    canMaster (linkState false) = false ∧ (unitOf (linkState false) (dieUnit 2)).phase = .live ∧ (linkState false).pins.halted = false ∧
    3 ∈ openQueues (linkState false) ∧ (linkState false).items.any (fun i => i.phase == .waiting) = true := by decide
theorem witness_HostLinkEvents_narrower : 32 ≤ State.reset.pcie.speed ∧ State.reset.pcie.width ≤ State.reset.pcie.width ∧ 32 ≠ State.reset.pcie.speed := by decide
theorem witness_HostLinkEvents_reads : HostRead.poison ≠ .good ∧ HostRead.timeout ≠ .good ∧ (queueOf (linkState true) (3 : BitVec 12).toNat).fetchNext = (5 : Seq).toNat ∧
    (queueOf (linkState true) 3).qstate = 1 ∧ (queueOf (linkState true) 3).fetchNext ≠ (queueOf (linkState true) 3).tail ∧
    (linkState true).occ.state = .running ∧ canWrite (linkState true) = true ∧
    (∃ i ∈ (linkState true).items, i.queue = 3 ∧ i.seq = 4 ∧ i.phase = .accepted) ∧ (∃ w ∈ (linkState true).pool.swaps, w.context = 7) ∧
    ({ (linkState true).occ with state := .loading } : OccSt).state = .loading := by
  and_intros <;> decide
theorem test_poisoned_swap : (after (.hostReadError (.swapIn 7) .poison 0) (linkState true)).pool.swaps = [] ∧
    (after (.hostReadError (.swapIn 7) .poison 0) (linkState true)).lastFault = 1 := by decide
theorem test_flr_keeps : after .flrWrite (linkState true) = linkState true := by rfl


/-! ## The work queues (spec/10) -/

/-- Queues 3 and 9 share the engines with weights 4 and 1. -/
def queuePlan1 : Plan :=
  { noPlan with
    queuePlan := [BitVec.ofNat 64 (3 * 2 ^ 52 + 2 ^ 51 + 4 * 2 ^ 35 + 1023 * 2 ^ 25), BitVec.ofNat 64 (9 * 2 ^ 52 + 2 ^ 51 + 2 ^ 35 + 1023 * 2 ^ 25)]
    contexts := 20, resident := 10, captureFits := true, captureRegion := (0x1000000, 0x100000), retention := [(2, 4)], pinReserve := [(2, 3)]
    shareCosts := [(5, 300), (6, 40)], envelope := [0x07FFFFFFFFFFFFFF00000000000000#128, 0x0407FFFFFFFFFFFFFF00000000000000#128] }
/-- Queue 3 is open with entry 7 to fetch; network time is 5 ms. -/
def queueState : State :=
  let s := running queuePlan1
  { s with
    pcie := { s.pcie with linkUp := true, busMaster := true }
    time := { s.time with now := 5000000 }
    weights := { s.weights with retained := [{ carrier := 2, queue := 3, seq := 4, slotTime := 100, slotNo := 5, weights := [], users := [] }] }
    queues := [(3, { queueOf s 3 with
      qstate := 1, depth := 16, tail := 9, fetchNext := 7, acceptNext := 7, formNext := 7, completeNext := 7
      arrivals := [(9, 4990000), (8, 4000000)] })] }
def withQ3 (f : QueueSt → QueueSt) : State := modQueue queueState 3 f
theorem witness_DoorbellsMoveTail : Active queueState ∧ queueState.cap.running = none ∧ queueState.occ.replayStatus ≠ 1 ∧
    ({ queueState.occ with replayStatus := 1 } : OccSt).replayStatus = 1 ∧ (queueOf queueState 3).tail < 2 ^ 32 ∧
    (queueOf queueState 3).completeNext < 2 ^ 32 ∧ (queueOf queueState (4 : BitVec 12).toNat).qstate = 0 ∧ (queueOf queueState 3).qstate ≠ 0 ∧
    (9 + 2 ^ 32 - 8 % 2 ^ 32) % 2 ^ 32 = 1 ∧ (23 + 2 ^ 32 - 9 % 2 ^ 32) % 2 ^ 32 = 14 ∧ (23 + 2 ^ 32 - 7 % 2 ^ 32) % 2 ^ 32 ≤ (queueOf queueState 3).depth ∧
    (queueOf queueState 3).depth < (24 + 2 ^ 32 - 7 % 2 ^ 32) % 2 ^ 32 ∧ ((9 + 2 ^ 31) + 2 ^ 32 - 9 % 2 ^ 32) % 2 ^ 32 = 2 ^ 31 := by
  and_intros <;> first | decide | (unfold Active; decide)
/-- The moderation timer of queue 3 has run since 4 ms with a MOD_TIME of 1 µs and a vector that is unmasked, or masked. -/
def moderated (masked : Bool) : State :=
  let s := withQ3 (fun q => { q with timer := some 4000000, modTime := 1, vector := 5 })
  { s with pcie := { s.pcie with msixTable := if masked then [] else [(5, 0)] } }
theorem witness_DoorbellsMoveTail_timer : (queueOf (moderated false) 3).timer = some 4000000 ∧ (queueOf (moderated false) 3).modTime ≠ 0 ∧
    4000000 + 1 * 1000 ≤ max (moderated false).time.now 0 ∧ (queueOf (moderated false) 3).vector < 2048 ∧ canMaster (moderated false) = true ∧
    bitOf (msixEntry (moderated false) 5) 96 = false ∧ bitOf (msixEntry (moderated true) 5) 96 = true := by decide
/-- R308: TAIL runs up to DEPTH ahead of COMPLETE_NEXT. -/
theorem test_doorbell_full : (queueOf (after (.doorbell 3 23 0) queueState) 3).tail = 23 ∧ (queueOf (after (.doorbell 3 24 0) queueState) 3).tail = 9 ∧
    (after (.doorbell 3 24 0) queueState).lastFault = 1 := by decide

/-- An entry of opcode `op` with its own bits `body`, for item 7. -/
def entry (op body : Nat) : Fetched :=
  { emptyFetch with entry := BitVec.ofNat 1024 (op + 7 * 2 ^ 64 + 6000000 * 2 ^ 96 + 7000000 * 2 ^ 128 + body) }
def refused (f : Fetched) (s : State) : Option Status := fetchRefusal s 3 7 f (arrivalOf (queueOf s 3) 7)
/-- A move of two bytes from 0x2000 to the first cluster. -/
def moveEntry : Fetched :=
  { emptyFetch with entry := BitVec.ofNat 1024 (8 + 7 * 2 ^ 64 + 0x2000 * 2 ^ 358 + 0xC00000000 * 2 ^ 316 + 2 * 2 ^ 280) }
def nopEntry : Fetched := { emptyFetch with entry := BitVec.ofNat 1024 (7 * 2 ^ 64) }
def trainEntry : Fetched := { emptyFetch with entry := BitVec.ofNat 1024 (5 + 7 * 2 ^ 64 + 2 ^ 268 + 3 * 2 ^ 352 + 4 * 2 ^ 320) }
def commitEntry : Fetched := { emptyFetch with entry := BitVec.ofNat 1024 (6 + 7 * 2 ^ 64 + 8000000 * 2 ^ 96) }
def captureEntry : Fetched := { emptyFetch with entry := BitVec.ofNat 1024 (7 + 7 * 2 ^ 64 + 2 ^ 256) }
def captureOn : Fetched := { emptyFetch with entry := BitVec.ofNat 1024 (7 + 7 * 2 ^ 64 + 2 ^ 256 + 2 ^ 258 + 31 * 2 ^ 265 + 4096 * 2 ^ 270) }
def barrierEntry : Fetched := { emptyFetch with entry := BitVec.ofNat 1024 (9 + 7 * 2 ^ 64 + 6000000 * 2 ^ 128 + 9 * 2 ^ 370) }
def notOpen : State := withQ3 (fun q => { q with qstate := 0 })
theorem witness_ItemsFetched : Active queueState ∧ queueState.cap.running = none ∧ canFetch (queueState.atTime 0) 3 = true ∧
    canFetch (notOpen.atTime 0) 3 = false ∧ nopEntry.read = .good ∧ nopEntry.entry.toNat % 256 ≤ 9 ∧ barrierEntry.entry.toNat % 256 = 9 := by
  and_intros <;> first | decide +kernel | (unfold Active; decide)
theorem witness_ItemsFetched_accepted : refused nopEntry queueState = none ∧ refused trainEntry queueState = none ∧
    bitOf trainEntry.entry 273 = false ∧ refused commitEntry queueState = none ∧ refused captureEntry queueState = none ∧
    refused captureOn queueState = none ∧ refused barrierEntry queueState = none := by decide +kernel
theorem witness_ItemsFetched_capture : capEmpty (capSetOf captureEntry) = true ∧ capEmpty (capSetOf captureOn) = false ∧
    pinsOf queueState trainEntry.entry = [(2, 3, 4)] := by decide +kernel
/-- Carrier 0 is enabled. -/
def cellState : State :=
  { queueState with obj := { queueState.obj with
      rw := [(256 * 0x1310 + 0, 3)]
      inForce := tset (tset (tset (tset [] (256 * carrierIndex 0 0 + 1) 1) (256 * carrierIndex 0 0 + 2) 1) (256 * carrierIndex 0 0 + 4) 1) (256 * carrierIndex 0 0 + 6) 2 } }
def slotEntry : Fetched :=
  { emptyFetch with entry := BitVec.ofNat 1024 (1 + 7 * 2 ^ 64 + 6000000 * 2 ^ 96 + 7000000 * 2 ^ 128 + 2 ^ 185), bufs := [0] }
theorem witness_ItemsFetched_slot : refused slotEntry (cellState.atTime 0) = none ∧ canFetch (cellState.atTime 0) 3 = true := by decide +kernel
/-- The same slot sent for 6 ms when only its header is empty, when it comes too late, and before an image is loaded. -/
theorem witness_ItemsFetched_why : refused { slotEntry with bufs := [] } (cellState.atTime 0) = some .refusedFormat ∧
    slotTimeOf slotEntry.entry 6000001 < 6000001 + leadOf cellState 1 ∧ refused slotEntry hostUp = some .refusedNotLoaded ∧
    slotTimeOf commitEntry.entry 7999999 < 7999999 + 50000 ∧ cellState.occ.state ≠ .none ∧
    bitOf ((planEntry queueState 3).getD 0) (25 + 0) = true := by decide +kernel
theorem witness_ItemsFetched_move : refused moveEntry queueState = none ∧ eMoveSrcHost moveEntry.entry = false ∧
    eMoveDstHost moveEntry.entry = false ∧ Memory.wf queueState.mem = true := by decide +kernel
theorem witness_ItemsFetched_move_own : OwnByte queueState 0x2000 ∧ OwnByte queueState 0x2001 ∧ OwnByte queueState 0xC00000000 ∧
    OwnByte queueState 0xC00000001 := by
  unfold OwnByte InMemory GoodAt GoodRead
  decide
theorem test_nop_accepted : (after (.nop 3 nopEntry 0) queueState).items.map (fun i => (i.seq, i.phase, i.doneAt)) = [(7, .accepted, some 5000000)] := by
  decide +kernel

/-- Item 7 is an uplink slot of carrier 0 that waits for its cut. -/
def slotItem (s : State) : Item := { newItem s 3 7 slotEntry 4000000 with slotTime := 6000000, deadline := 7000000 }
def waitingState : State := { cellState with items := [slotItem cellState] }
theorem witness_CutsAndTurns_cut : Active waitingState ∧ waitingState.occ.state = .running ∧ canWrite waitingState = true ∧
    (∃ i ∈ waitingState.items, i.phase = .waiting ∧ 1 ≤ i.opcode ∧ i.opcode ≤ 4 ∧
      (i.slotTime : Int) - leadOf waitingState i.opcode ≤ max waitingState.time.now 6000000) ∧
    (∀ i ∈ waitingState.items, ¬ ((i.slotTime : Int) - leadOf waitingState i.opcode ≤ max waitingState.time.now 0)) := by
  and_intros <;> first | decide +kernel | (unfold Active; decide +kernel)
theorem witness_CutsAndTurns_swap : ∃ w ∈ (linkState true).pool.swaps, w.context = (7 : BitVec 20).toNat := by decide
/-- Queues 3 and 9 each have an accepted item waiting; queue 3 owes `d3`. -/
def shareState (d3 : Int) : State :=
  let s := queueState
  { s with
    queues := [(3, { queueOf s 3 with deficit := d3 }), (9, { queueOf s 3 with deficit := 0 })]
    items := [{ slotItem s with phase := .accepted }, { slotItem s with queue := 9, phase := .accepted }]
    shareCur := 0 }
theorem witness_CutsAndTurns_share : let s := shareState 0
    shareCost s 5 ≤ 400 ∧ shareCost s 6 ≤ 400 ∧ (shareItem s 3).isSome = true ∧ (shareItem s 9).isSome = true ∧
    bitOf ((planEntry s 3).getD 0) 51 = true ∧ bitOf ((planEntry s 9).getD 0) 51 = true ∧
    (3 + 4096 - s.shareCur - 1) % 4096 < (9 + 4096 - s.shareCur - 1) % 4096 ∧ bitsOf ((planEntry s 3).getD 0) 50 35 = 4 ∧
    (0 : Int) < 0 + 4 * 64 ∧ (-256 : Int) + 4 * 64 ≤ 0 ∧ (shareItem (shareState (-256)) 3).isSome = true ∧ ¬ shareCost s 5 ≤ 0 := by decide +kernel
theorem test_share_turn : (queueOf (after (.shareDispatch 400 [(3, 5), (9, 6)] 0) (shareState 0)) 3).deficit = 256 - shareCost (shareState 0) 5 := by decide +kernel

/-- The item next in order of queue 3 is in phase `p`. -/
def formState (p : ItemPhase) (master : Bool) : State :=
  { waitingState with
    pcie := { waitingState.pcie with busMaster := master }
    items := [{ slotItem cellState with phase := p, doneAt := if p = .accepted ∧ master then some 5000000 else none }] }
theorem witness_CompletionsForm : Active (formState .waiting true) ∧ (formState .waiting true).cap.running = none ∧
    (∃ i, (formState .waiting true).items.find? (fun x => x.queue == 3 && x.seq == (queueOf (formState .waiting true) 3).formNext) = some i ∧
      i.seq < 2 ^ 32 ∧ i.opcode < 256 ∧ i.queue = (3 : BitVec 12).toNat) ∧ isReady ((formState .accepted true).atTime 7000000) ((formState .accepted true).items.headD (slotItem cellState)) = true ∧
    canWrite (formState .accepted true) = true ∧ canWrite (formState .accepted false) = false ∧ (queueOf (formState .accepted true) 3).formed = [] ∧
    isEmptySlot (slotItem cellState) = true := by
  refine ⟨by unfold Active; decide +kernel, by decide +kernel, ⟨slotItem cellState, by decide +kernel, by decide +kernel, by decide +kernel, by decide +kernel⟩, ?_⟩
  decide +kernel
/-- An uplink item with one transport block of 24 bits in one resource block. -/
def busySlot (s : State) : Item :=
  { slotItem s with fetched := { slotEntry with allocs := [BitVec.ofNat 256 (2 ^ 216 + 24 * 2 ^ 130)] }, phase := .accepted }
theorem witness_CompletionsForm_busy : isEmptySlot (busySlot cellState) = false ∧ (busySlot cellState).doneAt = none ∧
    (busySlot cellState).opcode = 1 ∧ isEmptySlot (slotItem cellState) = true ∧ max cellState.time.now 0 < (slotItem cellState).deadline := by
  decide +kernel

/-! ## The fronthaul (spec/15) -/

def grid2 : GridPlan := { carrier := 2, prach := false, base := 0xC00000000, slotBytes := 100000, slots := 4, streamBytes := 30000, symbolBytes := 2000 }
def cSection : CSection := { op := 1, carrier := 2, slot := 5000000, symbol := 4, port := 3, eaxc := 20, sectionId := 6, first := 1, count := 5, got := [] }
/-- Carrier 2 runs on port 3, uncompressed; `got` of the section expected has come. -/
def fhState (got : List (Nat × Nat × List Int)) : State :=
  let s := running { noPlan with grids := [grid2] }
  { s with
    time := { s.time with now := 5000000 }
    fh := { s.fh with ports := s.fh.ports.set 3 { s.fh.ports.getD 3 {} with up := true }, sections := [{ cSection with got := got }] }
    obj := { s.obj with
      rw := [(256 * 0x1203 + 1, 3), (256 * 0x1203 + 2, 1), (256 * 0x1310 + 0, 3)]
      inForce := ([(0, 1, 1), (0, 2, 1), (0, 4, 0), (0, 5, 24), (0, 6, 2), (0, 7, 2), (0, 19, 0), (2, 1, 1), (3, 1, 3 * 65536 + 10), (3, 2, 3 * 65536 + 20), (4, 1, 3 * 65536 + 10), (5, 5, 10 * 65536 + 3000),
        (6, 5, 3000 * 65536 + 10)].foldl (fun t x => tset t (256 * carrierIndex 2 x.1 + x.2.1) x.2.2) []) } }
/-- A frame to port 3 from another station. -/
def fhHead : FhHead :=
  { port := 3, dst := Config.mac 3, src := Config.mac 3 + 1, tags := [], etherType := 0xAEFE, fcsOk := true, frame := List.replicate 64 0, revision := 1
    cBit := false, msgType := 0, eBit := true }
def uSection : FhSection := { eaxc := 20, sectionId := 6, slot := 5000000, symbol := 4, first := 1, count := 1, payload := List.replicate 48 1 }
theorem fhHead_src_ne : fhHead.src ≠ Config.mac 3 := by
  show Config.mac 3 + 1 ≠ Config.mac 3
  bv_omega
theorem witness_FronthaulReceives : let s := fhState []
    Active s ∧ s.cap.running = none ∧ fhHead.port < s.fh.ports.length ∧ s.occ.replayStatus ≠ 1 ∧ fhHead.port < fhPorts s ∧ (fhPort s fhHead.port).up = true ∧
    fhHead.fcsOk = true ∧ fhHead.tags.length ≤ 1 ∧ 64 ≤ fhHead.frame.length ∧ fhHead.frame.length ≤ 9216 ∧ fhHead.src ≠ Config.mac fhHead.port ∧
    fhHead.dst = Config.mac fhHead.port ∧ fhHead.etherType = 0xAEFE ∧ fhHead.revision = 1 ∧ fhHead.cBit = false ∧ fhHead.msgType = 0 ∧ fhHead.eBit = true ∧
    ¬ (({ fhHead with msgType := 2 } : FhHead).msgType = 0) := by
  and_intros <;> first | decide +kernel | rfl | (unfold Active; decide) | exact fhHead_src_ne
theorem witness_FronthaulReceives_sections : mappedStream (fhState []) 3 21 5000000 = none ∧ mappedStream (fhState []) 3 20 5000000 = some (2, 1) ∧
    carField (fhState []) 2 2 ≠ 2 ∧ uSection.count ≠ 0 ∧ uSection.count * groupBytes (carFieldAt (fhState []) 2 19 5000000) ≤ uSection.payload.length ∧
    ({ uSection with payload := [] } : FhSection).payload.length < 1 * groupBytes (carFieldAt (fhState []) 2 19 5000000) ∧
    max (fhState []).time.now 0 < (ulWindow (fhState []) 2 5000000 4).1 ∧ (ulWindow (fhState []) 2 5000000 4).2 < max (fhState []).time.now 5400000 ∧
    (ulWindow (fhState []) 2 5000000 4).1 ≤ max (fhState []).time.now 5360000 ∧ max (fhState []).time.now 5360000 ≤ (ulWindow (fhState []) 2 5000000 4).2 := by
  decide +kernel
/-- What is expected starts and ends where the section does; PRB 1 has come, or has not. -/
theorem witness_FronthaulReceives_take : cSection.carrier = 2 ∧ cSection.slot = uSection.slot ∧ cSection.symbol = uSection.symbol ∧ cSection.port = fhHead.port ∧
    cSection.eaxc = uSection.eaxc ∧ cSection.sectionId = uSection.sectionId ∧ cSection.first ≤ uSection.first ∧
    uSection.first + uSection.count ≤ cSection.first + cSection.count ∧
    covered (rowGot (fhState [(1, 1, List.replicate 24 0)]).fh.sections ((fhState [(1, 1, List.replicate 24 0)]).fh.sections.headD cSection)) 1 = true ∧
    covered (rowGot (fhState []).fh.sections cSection) 1 = false ∧ gridOf (fhState []) 2 (cSection.op == 3) = some grid2 := by decide +kernel
theorem witness_FronthaulReceives_grid : let base := grid2.base + slotNumber (fhState []) (carMu (fhState []) 2) 5000000 % max grid2.slots 1 * grid2.slotBytes + 1 * grid2.streamBytes + 4 * grid2.symbolBytes
    ∀ k, k < 104 → InMemory (fhState []) (base + k) ∧ (mirrorOf (fhState []) (base + k)).isSome = false := by
  unfold InMemory
  decide +kernel
theorem witness_FronthaulReceives_close : (2, 5000000, 4) ∉ (fhState []).fh.complete ∧ max (fhState []).time.now 0 < (ulWindow (fhState []) 2 5000000 4).2 ∧
    (ulWindow (fhState []) 2 5000000 4).2 ≤ max (fhState []).time.now 5400000 := by decide +kernel
theorem witness_TransportCodesReadBack_gain : (-128 : Int) ≤ -128 ∧ (127 : Int) ≤ 127 ∧ 16 + 16 % 16 < 256 ∧
    gained 0 (.inf true) ∈ List.replicate 24 (gained 0 (.inf true)) := by
  refine ⟨by decide, by decide, by decide, by simp⟩
/-- R63: 0 dB is unity; 24 units are 6 dB, a factor of 1.99526; −32 dB is 0.02512. -/
theorem test_gain : gainCoeff 10 0 = 1024 ∧ gainCoeff 10 24 = 2043 ∧ gainCoeff 10 (-128) = 26 := by decide +kernel
theorem witness_TransportCodesReadBack_compress : 6 ≤ 6 ∧ 6 ≤ 16 ∧ 16 ≤ 16 ∧ (List.replicate 24 (-1 : Int)).length = 24 := by decide
/-- R471: 300 does not fit the eight bits below the sign of a 9-bit mantissa, 150 at exponent 1 does. -/
theorem test_compress : (compressGroup 25 (List.replicate 24 300)).1.headD 0 = 1 ∧ groupParts 25 (compressGroup 25 (List.replicate 24 300)).1 = List.replicate 24 300 := by
  decide +kernel

/-- A downlink slot of carrier 2 with a transport block of 24 bits is accepted. -/
def dlItem : Item :=
  { newItem (fhState []) 3 4 { emptyFetch with
      entry := BitVec.ofNat 1024 (2 + 2 * 2 ^ 8), allocs := [BitVec.ofNat 256 (2 ^ 216 + 2 ^ 208 + 24 * 2 ^ 130)] } 0 with
    slotTime := 5000000, phase := .accepted }
def dlState : State := { fhState [] with items := [dlItem] }
/-- The same with nothing to send. -/
def dlEmpty : State := { dlState with items := [{ dlItem with fetched := { dlItem.fetched with allocs := [] } }] }
def mayFh (s : State) (t : Time) : Prop :=
  0 < streamsOf s 2 1 ∧ (portUp s (streamPort s 2 1 0 5000000) && !bitOf (fhPort s (streamPort s 2 1 0 5000000)).faults 7) = true ∧
    (dlWindow s 2 5000000 4).1 ≤ max s.time.now t ∧ max s.time.now t ≤ (dlWindow s 2 5000000 4).2
theorem witness_FronthaulSendsAndLinks_dl : Active dlState ∧ dlState.fh.ports.length = 16 ∧ dlState.fh.lasers.length = 4 ∧ mayFh dlState 5260000 ∧
    ¬ mayFh dlState 0 ∧ (2, 5000000, 4) ∉ dlState.fh.dlClosed ∧
    (dlWindow dlState 2 5000000 4).2 ≤ max dlState.time.now 5285837 ∧ max dlState.time.now 0 < (dlWindow dlState 2 5000000 4).2 := by
  refine ⟨by unfold Active; decide +kernel, by decide +kernel, by decide +kernel, by unfold mayFh; decide +kernel, by unfold mayFh; decide +kernel, ?_⟩
  decide +kernel
theorem witness_FronthaulSendsAndLinks_sends : dlState.items.find? (fun j => j.phase == .accepted && j.opcode == 2 && eCarrier j.fetched.entry == 2 &&
      j.slotTime == 5000000) = some dlItem ∧ isEmptySlot dlItem = false ∧
    (sectionParts (dlState.atTime 5260000) dlItem 0 4 0 1).length = 24 ∧ sectionParts (dlState.atTime 5260000) dlItem 0 4 0 0 = [] ∧
    (∀ j ∈ dlEmpty.items, isEmptySlot j = true) := by
  refine ⟨by rfl, by decide +kernel, by rfl, by rfl, ?_⟩
  intro j hj
  rw [List.mem_singleton.mp hj]
  decide +kernel
theorem witness_FronthaulSendsAndLinks_unsent : ∃ r ∈ itemRuns dlState dlItem, ∃ st u, r.sym ≤ 0 ∧ 0 < r.sym + r.nsym ∧ st < streamsOf dlState 2 1 ∧
    r.first ≤ u ∧ u < r.first + r.count ∧ sentUnit dlState 2 5000000 0 st u = false := by
  refine ⟨(itemRuns dlState dlItem).headD ⟨9, 9, 9, 9, 9⟩, by decide +kernel, 0, 0, by decide +kernel⟩
theorem witness_FronthaulSendsAndLinks_measure : let h := { fhHead with msgType := 5 }
    h.port < fhPorts dlState ∧ (fhPort dlState h.port).up = true ∧ h.src ≠ Config.mac h.port ∧ h.dst = Config.mac h.port ∧ h.msgType = 5 ∧
    (portUp dlState 3 && !bitOf (fhPort dlState 3).faults 7) = true ∧ 3 < 16 ∧ rwVal dlState 0x1203 1 0 = 3 ∧ rwVal dlState 0x1203 2 1 = 1 ∧
    (portUp dlState 4 && !bitOf (fhPort dlState 4).faults 7) = false ∧ fhPorts dlState ≤ 16 := by
  and_intros <;> first | decide +kernel | rfl | exact fhHead_src_ne
/-- Port 3 with the conditions `f`. -/
def fhFaults (f : BitVec 16) : State := modFh dlState 3 (fun p => { p with faults := f })
theorem witness_FronthaulSendsAndLinks_link : 3 < fhPorts dlState ∧ 4 * (16 / fhPorts dlState) / 8 = 3 * (16 / fhPorts dlState) / 8 ∧
    bitOf (fhPort dlState 4).faults 0 = false ∧ bitOf (fhPort dlState 3).faults 0 = false ∧ bitOf (fhPort (fhFaults 1) 3).faults 0 = true ∧
    bitOf (fhPort (fhFaults 64) 3).faults 6 = true ∧ bitOf (fhPort dlState 3).faults 6 = false ∧ bitOf (fhPort dlState 3).faults 7 = false ∧
    bitOf (fhPort dlState 3).faults 8 = false ∧ (5000 : Int) < 5001 := by decide +kernel
theorem test_laser_dims : (after (.laserInputChange 3 11999 0) State.reset).fh.lasers = [0, 0, 0, 1] := by decide +kernel
theorem test_laser_holds : (after (.laserInputChange 3 12500 0) (after (.laserInputChange 3 11999 0) State.reset)).fh.lasers = [0, 0, 0, 1] := by decide +kernel


/-! ## Network time, triggers and Meridians (spec/12) -/

/-- At 5 ms the servo is in `sv`, the sources `av` are available; the management port or fronthaul port 3 is the PTP slave. -/
def servoState (sv : Servo) (av : List Nat) (mgmt : Bool) (occ : OccState) : State :=
  let s := State.reset
  { s with
    occ := { s.occ with state := occ }
    bus := { s.bus with mgmtUp := true }
    fh := { s.fh with ports := s.fh.ports.set 3 { s.fh.ports.getD 3 {} with up := true, peer := some (Config.mac 3 + 1, none) } }
    time := { s.time with now := 5000000, servo := sv, available := av, belowSince := some 0 }
    obj := { s.obj with
      rw := [(256 * 0x1202 + 1, 1), (256 * 0x1202 + 2, 2), (256 * 0x1202 + 3, 3), (256 * 0x1203 + 1, if mgmt then 16 else 3),
        (256 * 0x1203 + 2, if mgmt then 2 else 1), (256 * 0x1203 + 5, 3)] } }
def sourceUsed (s : State) (av : List Nat) : Option Nat := (sourceList s).find? (fun v => v ≤ 3 && av.contains v)
theorem witness_ServoFollowsSource : Active (servoState .freerun [] true .none) ∧ (servoState .freerun [] true .none).occ.replayStatus ≠ 1 ∧
    rwVal (servoState .freerun [] true .none) 0x1203 1 0 = 16 ∧ rwVal (servoState .freerun [] true .none) 0x1203 2 1 = 2 ∧ State.reset.bus.mgmtUp = false ∧
    (servoState .freerun [] true .none).bus.mgmtUp = true ∧ sourceUsed (servoState .freerun [] true .none) [1] = some 1 ∧
    sourceUsed { servoState .freerun [] true .none with obj := { State.reset.obj with rw := [(256 * 0x1202 + 1, 5)] } } [5] = none ∧
    (servoState .freerun [] true .none).time.servo = .freerun ∧ (servoState .freerun [] true .none).occ.state = .none ∧
    (servoState .locked [1] true .running).time.servo = .locked := by
  and_intros <;> first | decide +kernel | (unfold Active; decide)
/-- R380, R381: offsets on both sides of JUMP_THRESHOLD (100 ns) and of LOCK_THRESHOLD (50 ns), in quarter nanoseconds. -/
theorem witness_ServoFollowsSource_offsets : 4 * rwVal (servoState .holdover [1] true .running) 0x1206 3 100 < (401 : Int).natAbs ∧
    (-400 : Int).natAbs ≤ 4 * rwVal (servoState .holdover [1] true .running) 0x1206 3 100 ∧
    (199 : Int).natAbs < 4 * rwVal (servoState .holdover [1] true .running) 0x1206 1 50 ∧
    ¬ ((200 : Int).natAbs < 4 * rwVal (servoState .holdover [1] true .running) 0x1206 1 50) := by decide +kernel
def ptpHead : FhHead := { fhHead with dst := 0x0180C200000E, etherType := 0x88F7 }
theorem witness_ServoFollowsSource_port : let s := servoState .locked [1] false .none
    ptpHead.port < s.fh.ports.length ∧ ptpHead.port < fhPorts s ∧ rwVal s 0x1203 1 0 = ptpHead.port ∧ rwVal s 0x1203 2 1 = 1 ∧ (fhPort s ptpHead.port).up = true ∧
    (fhPort s ptpHead.port).peer = some (ptpHead.src, ptpHead.tags.head?) ∧ ptpHead.fcsOk = true ∧ ptpHead.tags.length ≤ 1 ∧ 64 ≤ ptpHead.frame.length ∧
    ptpHead.frame.length ≤ 9216 ∧ ptpHead.src ≠ Config.mac ptpHead.port ∧ ptpHead.etherType = 0x88F7 ∧ ptpHead.dst = 0x0180C200000E ∧
    sourceUsed s [1] = some 1 ∧ ¬ (({ ptpHead with etherType := 5 } : FhHead).etherType = 0x88F7) := by
  and_intros <;> first | decide +kernel | rfl | exact fhHead_src_ne
theorem witness_ServoFollowsSource_pulse : (servoState .locked [2] false .none).time.todNext = none ∧
    sourceUsed (servoState .locked [2] false .none) [2] = some 2 ∧ sourceUsed (servoState .locked [1] false .none) [1, 2] = some 1 ∧
    ({ (servoState .locked [2] false .none).time with todNext := some 7 } : TimeSt).todNext = some 7 := by decide +kernel
/-- A WRITE of TOD_NEXT and one of STEP_ACCEPT by the management port. -/
def todReq : ObjReq := { who := .sideband 4, opcode := 2, index := 0x1205, sub := 0, view := false, tid := 9, payload := bytesBE 8 77 }
def stepReq : ObjReq := { who := .sideband 4, opcode := 2, index := 0x1208, sub := 2, view := false, tid := 9, payload := [1] }
theorem witness_ServoFollowsSource_objects : (∀ s ∈ [servoState .locked [1] true .none, servoState .locked [1] true .running],
      s.obj.landed = [] ∧ (unitOf s (dieUnit 2)).phase = .live ∧ s.cp.restarting = false) ∧ todReq.payload = bytesBE 8 (77 : BitVec 64).toNat ∧
    (servoState .locked [1] true .running).occ.state ≠ .none ∧ 3 < fhPorts (servoState .locked [1] true .none) ∧
    (fhPort (servoState .locked [1] true .none) 3).up = true ∧ rwVal (servoState .locked [1] true .none) 0x1203 5 0 = 3 := by decide +kernel
theorem witness_ServoFollowsSource_loss : sourceUsed (servoState .locked [] true .none) [] = none ∧
    sourceUsed (servoState .locked [1] true .none) (servoState .locked [1] true .none).time.available = some 1 ∧
    (servoState .acquiring [1] true .none).time.belowSince = some 0 ∧ 0 + 10000000000 ≤ max (servoState .acquiring [1] true .none).time.now 10000000000 ∧
    ¬ (0 + 10000000000 ≤ max (servoState .acquiring [1] true .none).time.now 9999999999) ∧ (servoState .locked [1] true .none).time.servo ≠ .holdover := by
  decide +kernel
/-- The error of holdover is not evaluated: where it is beyond the limit, this state meets the record's conditions. -/
theorem witness_ServoFollowsSource_limit (h : 1100 < Config.holdoverError (freqSource (servoState .holdover [] true .none)) 5000000) :
    (servoState .holdover [] true .none).time.servo = .holdover ∧ (servoState .holdover [] true .none).time.teExceeded = false ∧
    rwVal (servoState .holdover [] true .none) 0x1206 4 1100 < Config.holdoverError (freqSource (servoState .holdover [] true .none))
      (max (servoState .holdover [] true .none).time.now 5000000 - (servoState .holdover [] true .none).time.holdoverSince) := by
  refine ⟨by decide +kernel, by decide +kernel, ?_⟩
  have e : rwVal (servoState .holdover [] true .none) 0x1206 4 1100 = 1100 := by decide +kernel
  rw [e]
  exact h
/-- R381: in FREERUN without an occupancy the first offset is applied at once. -/
theorem test_first_offset : (after (.ptpFrameReceive ptpHead true 40 5000000) (servoState .freerun [] true .none)).time.now = 4999990 ∧
    (after (.ptpFrameReceive ptpHead true 40 5000000) (servoState .freerun [] true .none)).time.servo = .acquiring := by decide +kernel

/-- Trigger 3 has the record `w`, event input 1 selects rising edges and has kept `n`. -/
def trigState (w n : Nat) : State :=
  let s := State.reset
  { s with
    time := { s.time with now := 100, evt := [{}, { count := n }, {}, {}] }
    obj := { s.obj with
      rw := [(256 * 0x1219 + 1, 1)]
      inForce := tset [(256 * 0x1213 + 1, w)] (256 * carrierIndex 2 0 + 9) 1 } }
theorem witness_TriggersAndEvents : Active (trigState 0 0) ∧ inForce (trigState 0 0) 0x1213 1 0 / 2 ^ 125 % 8 = 0 ∧
    inForce (trigState (2 ^ 125) 0) 0x1213 1 0 / 2 ^ 125 % 8 = 1 ∧ (2 * 2 ^ 125 + 10 * 2 ^ 64 + 9 * 2 ^ 32) / 2 ^ 125 % 8 = 2 ∧
    (2 * 2 ^ 125 + 10 * 2 ^ 64 + 9 * 2 ^ 32) / 2 ^ 64 % 2 ^ 32 = 10 ∧ (2 * 2 ^ 125 + 10 * 2 ^ 64 + 9 * 2 ^ 32) / 2 ^ 32 % 2 ^ 32 = 9 ∧
    inForce (trigState (3 * 2 ^ 125 + 2 * 2 ^ 119) 0) 0x1213 1 0 / 2 ^ 125 % 8 = 3 ∧ carField (trigState (3 * 2 ^ 125 + 2 * 2 ^ 119) 0) 2 9 = 1 ∧
    inForce (trigState (4 * 2 ^ 125) 0) 0x1213 1 0 / 2 ^ 125 % 8 = 4 := by
  and_intros <;> first | decide +kernel | (unfold Active; decide)
theorem witness_TriggersAndEvents_input : rwVal (trigState 0 0) 0x1219 1 0 = 1 ∧ (((trigState 0 15).time.evt.getD 1 {}).level ≠ true) ∧
    (15 + 2 ^ 32 - rwVal (trigState 0 15) 0x1219 3 0 % 2 ^ 32) % 2 ^ 32 = 15 ∧ (16 + 2 ^ 32 - rwVal (trigState 0 16) 0x1219 3 0 % 2 ^ 32) % 2 ^ 32 = 16 ∧
    4999 < 5000 ∧ ¬ (rwVal (trigState 0 0) 0x1219 1 0 = 3 ∨ (rwVal (trigState 0 0) 0x1219 1 0 = 1 ∧ false = true) ∨ rwVal (trigState 0 0) 0x1219 1 0 = 2) := by
  decide +kernel
theorem test_event_kept : tget ((after (.evtInEdge 1 true 5000 120) (trigState 0 15)).time.evt.getD 1 {}).ring 15 = some 120 ∧
    ((after (.evtInEdge 1 true 5000 120) (trigState 0 16)).time.evt.getD 1 {}).lost = 1 := by decide +kernel
theorem test_pps_out : (after (.ppsOutEdge 1000000000) State.reset).time.ppsOut = true ∧ (after (.ppsOutEdge 1100000000) State.reset).time.ppsOut = false := by
  decide +kernel

def pendingCommit : Commit := { target := 3000000, mask := 4, vals := [(256 * 0x1213 + 1, 9)] }
def meridianState : State :=
  { trigState 5 0 with
    obj := { (trigState 5 0).obj with commits := [pendingCommit] }
    cap := { (trigState 5 0).cap with changes := [(3000000, capSetOf captureOn)] } }
theorem witness_MeridianTakesEffect : Active meridianState ∧ meridianState.cap.running = none ∧ rwVal meridianState 0x1209 1 0 < 1000000 ∧
    ((max meridianState.time.now 3000000 : Int) - rwVal meridianState 0x1209 1 0) % 1000000 = 0 ∧ meridianState.time.meridians = 0 ∧
    ¬ (((max meridianState.time.now 3000001 : Int) - rwVal meridianState 0x1209 1 0) % 1000000 = 0) ∧ (unitOf meridianState (dieUnit 2)).phase = .live ∧
    (unitOf meridianState (dieUnit 2)).dawnAt = 0 ∧
    (∃ c ∈ meridianState.obj.commits, c.target ≤ 3000000 ∧ (∀ d ∈ meridianState.obj.commits, d.target ≤ 3000000 → d = c) ∧ (∃ p ∈ c.vals, p.1 = 256 * 0x1213 + 1)) ∧
    (∃ c ∈ meridianState.cap.changes, c.1 ≤ 3000000) ∧ meridianState.fabric.changeAt = none := by
  and_intros <;> first | decide +kernel | (unfold Active; decide)
theorem test_meridian_commits : tget (after (.meridian 3000000) meridianState).obj.inForce (256 * 0x1213 + 1) = some 9 ∧
    (after (.meridian 3000000) meridianState).time.subframe = 3 := by decide +kernel
/-- A MODEL_COMMIT for 3 ms is converted since 2 ms; an uplink slot at 3 ms waits. -/
def swapState : State :=
  { meridianState with
    weights := { meridianState.weights with
      inForce := [1], spare := [2]
      swaps := [{ queue := 9, seq := 4, target := 3000000, revert := false, slipped := false, converted := some 2000000 }] }
    items := [{ slotItem cellState with slotTime := 3000000, gen := 0 }] }
theorem witness_MeridianTakesEffect_swap : Active swapState ∧ swapState.cap.running = none ∧ swapState.time.meridians = 0 ∧
    max swapState.time.now 3000000 = 3000000 ∧ (swapState.weights.swaps.map (fun w => (w.converted, w.target))) = [(some 2000000, 3000000)] ∧
    2000000 + 50000 ≤ 3000000 ∧ (∃ i ∈ swapState.items, ¬ (i.queue = 9 ∧ i.seq = 4) ∧ isSlotOp i.opcode ∧ 3000000 ≤ i.slotTime) := by
  and_intros <;> first | decide +kernel | (unfold Active; decide +kernel)
/-- R87, R90: the sets change places, the generation counts, and the slot uses it. -/
theorem test_meridian_swaps : let s := after (.meridian 3000000) swapState
    s.weights.inForce = [2] ∧ s.weights.spare = [1] ∧ s.weights.gen = 1 ∧ s.items.map (fun i => i.gen) = [1] := by decide +kernel

/-! ## The object server (spec/13) -/

/-- A request of the sideband port. -/
def side (op : BitVec 8) (idx : BitVec 16) (sub : BitVec 8) (pay : List Byte) : ObjReq :=
  { who := .sideband 4, opcode := op, index := idx, sub := sub, view := true, tid := 42, payload := pay }
def host (op : BitVec 8) (idx : BitVec 16) (sub : BitVec 8) (pay : List Byte) : ObjReq :=
  { side op idx sub pay with who := .pcie }
def withLanded (l : List ObjReq) : State := { State.reset with obj := { State.reset.obj with landed := l } }
def cpDown : State := { State.reset with cp := { State.reset.cp with restarting := true } }
/-- What the words of a request name, as seen at 0. -/
def named (r : ObjReq) : Found := findObj (State.reset.atTime 0) r.index.toNat r.sub.toNat
def entryIs (f : Found) (p : Entry → Bool) : Bool :=
  match f with
  | .entry e => p e
  | _ => false
theorem witness_ObjectsRead : Active State.reset ∧ (∃ r ∈ (withLanded [side 2 0 0 [], side 1 0 0 []]).obj.landed.head?, r ≠ side 1 0 0 []) ∧
    (withLanded [side 1 0 0 []]).obj.landed.head? = some (side 1 0 0 []) ∧ State.reset.obj.landed = [] ∧ (unitOf State.reset (dieUnit 2)).phase = .live ∧
    State.reset.cp.restarting = false ∧ cpDown.cp.restarting = true ∧ (side 1 0x1407 0 []).index.toNat = 0x1407 ∧ (side 7 0 0 []).opcode.toNat > 6 := by
  and_intros <;> first | decide | (unfold Active; decide) | exact ⟨side 2 0 0 [], rfl, by decide⟩
theorem witness_ObjectsRead_read : named (side 1 0x1234 0 []) = .noObject ∧ named (side 1 0x30F0 1 []) = .noUnit ∧ named (side 1 0x1000 9 []) = .noSub ∧
    entryIs (named (side 1 0x1010 0 [])) (fun e => e.acc == Acc.wo) = true ∧ entryIs (named (side 1 0x1222 0 [])) (fun e => e.ty == 14) = true ∧
    entryIs (named (side 1 0x1200 0 [])) (fun e => e.acc != Acc.wo && e.ty != 14 && decide (e.size ≤ 1024)) = true ∧
    entryIs (named (side 1 0x4100 4 [])) (fun e => e.acc == Acc.rws) = true ∧ (side 1 0x1200 0 [1]).payload ≠ [] := by decide +kernel
theorem witness_ObjectsRead_block : (side 3 0x1222 0 []).index.toNat ≠ 0x1107 ∧ entryIs (named (side 3 0x1206 3 [])) (fun e => !(e.ty == 12 || e.ty == 13 || e.ty == 14)) = true ∧
    (List.replicate 12 (0 : Byte)).length = 12 ∧ domainBytes (State.reset.atTime 0) 0x1222 99 = none ∧ (domainBytes (State.reset.atTime 0) 0x1222 0).isSome = true ∧
    entryIs (named (side 3 0x4107 2 [])) (fun e => e.acc != Acc.wo && e.ty == 13 && e.size == 560) = true ∧ (bytesLE 560 0).length < 561 ∧ 560 ≤ (bytesLE 560 0).length := by
  decide +kernel
def mgmtUp (landed : List ObjReq) (recent : List (Nat × BitVec 16 × BitVec 32 × Time × List Byte)) : State :=
  { State.reset with bus := { State.reset.bus with mgmtUp := true }, obj := { State.reset.obj with landed := landed, recent := recent, rw := [(256 * 0x1401 + 2, 0x18)] } }
theorem witness_ObjectsRead_lands : State.reset.bus.stuck = false ∧ State.reset.bus.mgmtUp = false ∧ (mgmtUp [] []).bus.mgmtUp = true ∧
    (∀ r ∈ State.reset.obj.landed, r.who ≠ Requester.sideband 4) ∧ (∃ r ∈ (withLanded [side 1 0 0 []]).obj.landed, r.who = Requester.sideband 4) ∧
    (mgmtUp [] [(5, 6, 42, 0, [1])]).obj.recent.find? (fun x => x.1 == 5 && x.2.1 == 6 && x.2.2.1 == 42 && decide (1000000000 ≤ x.2.2.2.1 + 1000000000)) = some (5, 6, 42, 0, [1]) ∧
    (mgmtUp [] [(5, 6, 42, 0, [1])]).obj.recent.find? (fun x => x.1 == 5 && x.2.1 == 6 && x.2.2.1 == 42 && decide (1000000001 ≤ x.2.2.2.1 + 1000000000)) = none ∧
    ((mgmtUp (List.replicate 64 { side 1 0 0 [] with who := .mgmt 7 8 }) []).obj.landed.filter (fun r => r.who == .mgmt 7 8)).length = 64 := by decide +kernel
theorem witness_ObjectsRead_away : (unitOf (mgmtUp [] []) (dieUnit 2)).phase = .live ∧ (mgmtUp [] []).cp.restarting = false ∧
    (unitOf ioDown (dieUnit 2)).phase ≠ .live ∧ cpDown.cp.restarting = true ∧ (side 5 0 0 []).opcode = 5 ∧ (0x1407 : BitVec 16).toNat = 0x1407 := by decide
/-- R50: a message that needs the restarting control processor is answered BUSY. -/
theorem test_cp_busy : (after (.mctpMessage 4 0x7E 0x1E5C (bytesBE 16 (1 * 2 ^ 120 + 0x1407 * 2 ^ 104 + 2 ^ 64 + 9)) 0) cpDown).obj.landed = [] ∧
    (after (.mctpMessage 4 0x7E 0x1E5C (bytesBE 16 (1 * 2 ^ 120 + 0x1200 * 2 ^ 104 + 2 ^ 64 + 9)) 0) cpDown).obj.landed.length = 1 := by decide +kernel
/-- R446: the worked example, a READ of COMMIT_MASK that holds 0x18, by the management port. -/
theorem test_worked_read :
    (let s := after (.mgmtDatagram 5 6 [0x01, 0x14, 0x01, 0x02, 0, 0, 0, 0, 0, 0, 0, 0, 0, 0, 0, 0x2A] 0) (mgmtUp [] [])
     (after (.read (s.obj.landed.headD (side 0 0 0 [])) 0) s).out) =
    [.response (.mgmt 5 6) [0x81, 0x14, 0x01, 0x02, 0, 0, 0, 0, 0, 0, 0, 0x08, 0, 0, 0, 0x2A, 0, 0, 0, 0, 0, 0, 0, 0x18]] := by decide +kernel

/-- A WRITE of `v` in `n` bytes. -/
def wr (idx : BitVec 16) (sub : BitVec 8) (n v : Nat) : ObjReq := side 2 idx sub (bytesBE n v)
def runs : State := running noPlan
theorem witness_ObjectsWritten : Active State.reset ∧ (wr 0x1234 0 1 0).opcode = 2 ∧ named (wr 0x1234 0 1 0) = .noObject ∧ named (wr 0x30F0 1 1 0) = .noUnit ∧
    named (wr 0x1000 9 1 0) = .noSub ∧ entryIs (named (wr 0x1200 0 1 0)) (fun e => e.acc == Acc.ro) = true ∧
    entryIs (named (wr 0x4100 12 2 256)) (fun e => e.acc == Acc.rws && e.size == 2 && decide (e.lo ≤ 256) && decide (4096 ≤ e.hi) && e.ty != 13) = true ∧
    entryIs (named (wr 0x3001 3 4 5)) (fun e => e.acc == Acc.rws && e.size == 4 && e.ty != 13) = true ∧
    entryIs (named (wr 0x4100 4 1 4)) (fun e => e.acc == Acc.rws && decide (e.hi < 4)) = true ∧ 0x3001 < 0x3700 ∧ (wr 0x4100 12 2 256).payload.length = 2 := by
  and_intros <;> first | decide +kernel | (unfold Active; decide)
theorem witness_ObjectsWritten_settings : (wr 0x1206 1 4 1).payload = bytesBE 4 1 ∧ (0 : Nat) < 1 ∧ 9 < 10 ∧ 10000 < 10001 ∧ 999999 < 1000000 ∧ runs.occ.state ≠ .none ∧
    State.reset.occ.state = .none ∧ State.reset.pins.halted = false ∧ unitValid (BitVec.ofNat 16 0xFFFF) = false ∧ unitValid (BitVec.ofNat 16 0) = true ∧
    (side 2 0x1310 0 [3]).payload = [BitVec.ofNat 8 3] ∧ (side 2 0x38F0 1 [1]).payload = [BitVec.ofNat 8 1] := by decide +kernel
/-- A BARRIER of tag 7 with a lead of 5,000 ns, and one of the reserved operation. -/
theorem witness_ObjectsWritten_global : (7 * 2 ^ 114 + 3) % 4 = 3 ∧ (7 * 2 ^ 114) % 4 ≠ 3 ∧ 7 * 2 ^ 114 < 2 ^ 122 ∧
    barrierFits (State.reset.atTime 0) (globalBody (7 * 2 ^ 114)) (State.reset.atTime 0).time.now = true ∧ (side 2 0x1223 0 (bytesLE 16 (7 * 2 ^ 114))).payload = bytesLE 16 (7 * 2 ^ 114) := by
  decide +kernel
theorem witness_ObjectsWritten_queues : (wr 0x2FFF 4 4 65536).index.toNat = 0x2000 + 4095 ∧ 65536 = 2 ^ 16 ∧ (wr 0x2FFF 4 4 65536).payload = bytesBE 4 65536 ∧
    (queueOf State.reset 4095).qstate = 0 ∧ (queueOf queueState 3).qstate ≠ 0 ∧ (queueOf queueState 3).tail ≠ (queueOf queueState 3).completeNext ∧
    (queueOf State.reset 4095).tail = (queueOf State.reset 4095).completeNext ∧ ¬ (∃ k, k < 17 ∧ (3 : Nat) = 2 ^ k) := by decide +kernel
theorem witness_ObjectsWritten_block : (side 4 0x4107 2 (bytesBE 4 0 ++ bytesBE 4 559 ++ bytesBE 4 1 ++ [7])).index.toNat % 0x80 = 7 ∧ 559 + [(7 : Byte)].length ≤ 560 ∧
    560 < 560 + [(7 : Byte)].length ∧ [(7 : Byte)].length ≤ 1000 := by decide +kernel
theorem test_write_staged : tget (after (.write (wr 0x4100 12 2 512) 0) State.reset).obj.staged (256 * 0x4100 + 12) = some 512 := by decide +kernel
/-- R11: the reserved bits of a stream map are not kept. -/
theorem test_write_reserved : tget (after (.write (wr 0x4103 1 4 (2 ^ 31 + 5)) 0) State.reset).obj.staged (256 * 0x4103 + 1) = some 5 := by decide +kernel
theorem test_queue_opens : (queueOf (after (.queueOpen (wr 0x2FFF 4 4 65536) 0) State.reset) 4095).depth = 65536 := by decide +kernel

/-- Entries of a subscription: PERIOD, COUNT and one index and subindex. -/
def subReq (period n : Nat) (idx sub : Byte) : ObjReq := side 6 0 0 (bytesBE 2 period ++ bytesBE 2 n ++ [0x12, idx, sub, 0])
def oldSub : Sub := { who := .sideband 4, tid := 9, period := 3, entries := [], ringAddr := 0, ringSlots := 1, seq := 5 }
theorem witness_CommitsAndSubscriptions : Active State.reset ∧ (side 5 0 0 (bytesBE 8 (4 : BitVec 64).toNat)).payload = bytesBE 8 4 ∧ (side 5 0 0 [1]).payload.length ≠ 8 ∧
    (side 2 0x1401 1 [1]).payload = [1] ∧ (2 : Nat) < 32 ∧ 4 = 2 ^ 2 := by
  and_intros <;> first | decide +kernel | (unfold Active; decide)
/-- What the entries of three subscriptions name: a value, a domain, and nothing. -/
theorem witness_CommitsAndSubscriptions_known : 4 ≤ (subReq 1000 1 0 0).payload.length ∧ ofBytesBE ((subReq 1000 1 0 0).payload.take 2) = 1000 ∧
    ofBytesBE (((subReq 1000 1 0 0).payload.drop 2).take 2) = 1 ∧ entryIs (findObj (State.reset.atTime 0) 0x1200 0) (fun e => e.ty != 14 && e.acc != Acc.wo && decide (12 + e.size ≤ 1024)) = true ∧
    entryIs (findObj (State.reset.atTime 0) 0x1222 0) (fun e => e.ty == 14) = true ∧ findObj (State.reset.atTime 0) 0x12FF 0 = .noObject ∧ (subReq 1000 1 0 0).payload.length = 4 + 4 * 1 + 0 ∧
    (subReq 1000 1 0 0).payload.length ≠ 4 + 4 * 2 + 0 := by decide +kernel
theorem witness_CommitsAndSubscriptions_limits : State.reset.obj.subs.length < 64 ∧ ((List.replicate 16 oldSub).filter (fun b => b.who = Requester.sideband 4)).length = 16 ∧ 1000 < 1001 := by
  decide +kernel
theorem test_subscribed : ((after (.subscribe (subReq 1000 1 0 0) 0) State.reset).obj.subs.map (fun b => (b.period, b.entries))) = [(1000, [(0x1200, 0)])] := by decide +kernel
theorem test_commit_pending : ((after (.commit (side 5 0 0 (bytesBE 8 (2 ^ 33))) 0) State.reset).obj.commits.map (fun c => c.target)) = [1000000] := by decide +kernel


/-! ## Vrelol (spec/12, spec/15) -/

/-- This is device 4; port 2 is as `p`, port 5 as `q`; device 6 is reached by port 5, device 9 by port 4. -/
def vlState (p q : VlPort) : State :=
  let s := running { noPlan with vlBudgets := List.replicate 8 3, barrierTags := [(9, coreUnit 7), (8, coreUnit 6)] }
  { s with
    pins := { s.pins with devnum := 4 }
    time := { s.time with now := 5000000 }
    fabric := { s.fabric with
      ports := (s.fabric.ports.set 2 p).set 5 q
      routes := [{ dev := 6, hops := 2, next := 3, port := 5 }, { dev := 9, hops := 2, next := 3, port := 4 }]
      landed := [(6, [0])] } }
def trained : VlPort := { state := 1, identity := 1 }
def joined : VlPort := { state := 2, peer := some (3, 1), shared := [6144, 6144, 512] }
def peerWord (dev : BitVec 6) (c : BitVec 32) : JoinWord := { devnum := dev, constellation := c, port := 7, keyHash := 5 }
def newLinks (s : State) : LinkState := { dev := 9, keyHash := ownKeyHash s + 1, fseq := 0, timeFromLinks := false, links := [(1, 4)] }
theorem newLinks_other (s : State) : (newLinks s).keyHash ≠ ownKeyHash s := by
  show ownKeyHash s + 1 ≠ ownKeyHash s
  generalize ownKeyHash s = x
  bv_omega
theorem witness_LinksTrainAndJoin : Active (vlState trained joined) ∧ (vlState trained joined).fabric.ports.length = 8 ∧
    (vlPort (vlState trained joined) (2 : BitVec 3).toNat).state = 1 ∧ (vlPort (vlState trained joined) 5).state = 2 ∧
    ((12 : BitVec 4) &&& 3 = 3 ∨ (12 : BitVec 4) &&& 12 = 12) ∧ ¬ ((6 : BitVec 4) &&& 3 = 3 ∨ (6 : BitVec 4) &&& 12 = 12) ∧
    (peerWord 63 1).constellation = (vlPort (vlState trained joined) 2).identity ∧ (peerWord 63 1).devnum ≠ (vlState trained joined).pins.devnum ∧
    (vlState trained joined).pins.openStrap = 0 ∧ (peerWord 4 1).devnum = (vlState trained joined).pins.devnum := by
  and_intros <;> first | decide +kernel | (unfold Active; decide +kernel)
theorem witness_LinksTrainAndJoin_retrain : (vlPort (vlState trained joined) 2).peer = none ∧ (vlPort (vlState trained joined) 5).peer ≠ none ∧
    (vlPort (vlState { joined with stuck := 15 } joined) 2).stuck < 16 ∧ 16 ≤ (vlPort (vlState { joined with stuck := 16 } joined) 2).stuck ∧
    (vlPort (vlState joined joined) 2).waiting = [] := by decide +kernel
theorem witness_LinksTrainAndJoin_news : (vlPort (vlState joined joined) 2).state = 2 ∧ (newLinks (vlState joined joined)).keyHash ≠ ownKeyHash (vlState joined joined) ∧
    (∀ k ∈ (vlState joined joined).fabric.known, k.keyHash = (newLinks (vlState joined joined)).keyHash → k.fseq < (newLinks (vlState joined joined)).fseq) ∧
    ¬ ((vlPort (vlState trained joined) 2).state = 2) := by
  refine ⟨by decide +kernel, newLinks_other _, ?_, by decide +kernel⟩
  intro k h
  cases h
theorem test_pair_trains : (vlPort (after (.vlLinkTrain 2 3 false false false 0) (vlState {} joined)) 2).halfRate = true ∧
    (vlPort (after (.vlLinkTrain 2 6 false false false 0) (vlState {} joined)) 2).state = 0 := by decide +kernel

theorem witness_TransportCodesReadBack_flit : ([] : List Byte).length ≤ 240 ∧ (List.replicate 240 (1 : Byte)).length ≤ 240 ∧ 127 < 128 ∧ 0 < 128 := by decide
/-- A flit of header `h` that carries a WRITE segment of four bytes for device 4. -/
def segHere (ty vc len : Nat) (e2e : Nat) : BitVec 128 := segHeader ty 6 4 vc 12 0 len 3 0x2000 0 e2e
def data4 : List Byte := [1, 2, 3, 4]
def flitBody : List Byte := segBytes (segHere 1 0 4 5) data4 ++ List.replicate (240 - (segBytes (segHere 1 0 4 5) data4).length) 0
def linkHead (fseq vc kind crd : Nat) : Nat := fseq * 2 ^ 52 + 99 * 2 ^ 40 + kind * 2 ^ 37 + vc * 2 ^ 35 + crd * 2 ^ 21
def joined9 : VlPort := { joined with rxSeq := 9, replay := [(5, 99)], stuck := 15 }
theorem witness_FlitsTravel_flit : (openFlit (mkFlit (linkHead 10 0 1 0) flitBody)).2 = true ∧
    (openFlit (mkFlit (linkHead 10 0 1 0) flitBody)).1.take 248 = bytesLE 8 (linkHead 10 0 1 0) ++ flitBody ∧ (openFlit (mkFlit (linkHead 10 0 1 0) flitBody ^^^ 0xFFFFFF000000)).2 = false := by
  decide +kernel
theorem witness_FlitsTravel : Active (vlState joined9 joined) ∧ (vlState joined9 joined).fabric.ports.length = 8 ∧ (vlPort (vlState joined9 joined) 2).state = 2 ∧
    (vlPort (vlState trained joined) 2).state ≠ 2 ∧ flitBody.length = 240 ∧ ((vlPort (vlState joined9 joined) 2).replay.all (fun x => x.1 != 99)) = true ∧
    (10 : BitVec 12) = (vlPort (vlState joined9 joined) 2).rxSeq + 1 ∧ (vlPort (vlState joined9 joined) 2).streams.length = 3 ∧
    (vlPort (vlState joined9 joined) 2).streams.getD 0 [] = [] ∧ segType (segHere 1 0 4 5) ≠ 0 ∧ data4.length = segData (segHere 1 0 4 5) ∧ data4.length ≤ 208 := by
  and_intros <;> first | decide +kernel | (unfold Active; decide +kernel)
theorem witness_FlitsTravel_order : (9 : BitVec 12) ≠ (vlPort (vlState joined9 joined) 2).rxSeq + 1 ∧ ((vlPort (vlState joined9 joined) 2).rxSeq - 9).toNat < 2048 ∧
    2048 ≤ ((vlPort (vlState joined9 joined) 2).rxSeq - (11 : BitVec 12)).toNat ∧ ((vlPort (vlState joined9 joined) 2).rxSeq - (11 : BitVec 12)).toNat < 4096 := by decide +kernel
theorem witness_FlitsTravel_idle : (vlPort (vlState joined9 joined) 2).waiting = [] ∧ (vlPort (vlState joined9 joined) 2).shared.length = 3 ∧
    6144 < (vlPort (vlState joined9 joined) 2).shared.getD 0 0 + 1 ∧ (vlPort (vlState { joined9 with shared := [6143, 6144, 512] } joined) 2).shared.getD 0 0 + 1 ≤ 6144 ∧
    timeBy (vlState joined9 joined) 2 = false ∧ (vlPort (vlState joined9 joined) 2).replay.findIdx? (fun x => x.1 == 5) = some 0 := by decide +kernel
theorem witness_FlitsTravel_replay : (vlPort (vlState joined joined) 2).replay = [] ∧ (vlPort (vlState joined9 joined) 2).replay ≠ [] ∧
    (vlPort (vlState joined9 joined) 2).stuck < 16 ∧ (vlState joined9 joined).cap.running = none ∧ (vlPort (vlState { joined9 with replayed := 3 } joined) 2).overBudget = false ∧
    (planOf (vlState joined9 joined)).map (fun p => p.vlBudgets.getD 2 0) = some 3 ∧ (vlPort (vlState { joined9 with replayed := 2 } joined) 2).replayed + 1 ≤ 3 := by decide +kernel
theorem test_crc_asks : (vlPort (after (.vlDataFlit 2 (mkFlit (linkHead 10 0 1 0) flitBody ^^^ 0xFFFFFF000000) 0) (vlState joined9 joined)) 2).nak = true := by decide +kernel

/-- Segment `h` with `d` has come on port 2. -/
def segState (h : BitVec 128) (d : List Byte) (q : VlPort) : State :=
  vlState { joined with streams := if segVc h = 0 then [segBytes h d, [], []] else [[], segBytes h d, []] } q
theorem witness_SegmentsLand : let s := segState (segHere 1 0 4 5) data4 joined
    Active s ∧ s.cap.running = none ∧ s.occ.replayStatus ≠ 1 ∧ s.fabric.ports.length = 8 ∧ (vlPort s 2).state = 2 ∧ (vlPort s 2).peer ≠ none ∧
    segVc (segHere 1 0 4 5) < 3 ∧ (vlPort s 2).streams.length = 3 ∧ (vlPort s 2).streams.getD 0 [] = segBytes (segHere 1 0 4 5) data4 ++ [] ∧
    segDst (segHere 1 0 4 5) = devnum s ∧ segLen (segHere 1 0 4 5) ≤ 2048 ∧ segType (segHere 1 0 4 5) = 1 ∧ descriptorOf s (segTensor (segHere 1 0 4 5)) = none ∧
    data4.length = segLen (segHere 1 0 4 5) ∧ MemOk s ∧ (vlPort (vlState trained joined) 2).state ≠ 2 := by
  and_intros <;> first | decide +kernel | (unfold Active; decide +kernel) | (unfold MemOk; decide +kernel)
theorem witness_SegmentsLand_known : let s := segState (segHere 1 0 4 0) data4 joined
    BitVec.ofNat 16 (segE2e (segHere 1 0 4 0)) ∈ (tget s.fabric.landed (segSrc (segHere 1 0 4 0))).getD [] ∧
    BitVec.ofNat 16 (segE2e (segHere 1 0 4 5)) ∉ (tget s.fabric.landed (segSrc (segHere 1 0 4 5))).getD [] ∧ routeTo s 6 = some { dev := 6, hops := 2, next := 3, port := 5 } ∧
    (vlPort s 5).state = 2 ∧ (vlPort s 5).waiting = [] ∧ (vlPort s 5).replay = [] ∧ 1 ≤ (vlPort s 5).shared.getD 1 0 := by decide +kernel
theorem witness_SegmentsLand_place : ∀ j, j < 4 → InMemory (vlState joined joined) (segAddr (segHere 1 0 4 5) % 2 ^ 36 + j) ∧
    GoodAt (vlState joined joined) (segAddr (segHere 1 0 4 5) % 2 ^ 36 + j) := by
  unfold InMemory GoodAt GoodRead
  decide
theorem witness_SegmentsLand_forward : 2048 < segLen (segHere 1 0 2049 5) ∧ (let h := segHeader 1 6 9 0 12 0 4 62 0x2000 0 5
    segDst h ≠ devnum (segState h data4 joined) ∧ segHops h < 63 ∧ routeTo (segState h data4 joined) (segDst h) = some { dev := 9, hops := 2, next := 3, port := 4 } ∧
    (vlPort (segState h data4 joined) 4).state ≠ 2) := by decide +kernel
def hostRead : ReadOut := { tag := 12, head := 12, addr := 5, len := 4, got := none }
theorem witness_SegmentsLand_read : segType (segHere 2 0 4 5) = 2 ∧ (vlPort (segState (segHere 2 0 4 5) [] trained) 5).state ≠ 2 ∧ segType (segHere 3 1 4 5) = 3 ∧
    hostRead.tag = segTag (segHere 3 1 4 5) ∧ hostRead.head = hostRead.tag ∧ hostRead.got = none ∧ [hostRead].count hostRead = 1 ∧ segType (segHere 5 1 0 5) = 5 ∧
    (segState (segHere 5 1 0 5) [] joined).fabric.narrow = [] ∧ tget (segState (segHere 5 1 0 5) [] joined).fabric.newHop 6 = none := by decide +kernel
def tokSeg (e2e : Nat) : BitVec 128 := segHeader 4 6 4 0 12 0 8 3 (coreUnit 5).toNat 0 e2e
theorem witness_SegmentsLand_token : segType (tokSeg 5) = 4 ∧ segAddr (tokSeg 5) % 65536 = (coreUnit 5).toNat ∧ tokKind (mkToken (coreUnit 1) 1 7 99) = 1 ∧
    coreTokens (segState (tokSeg 5) (bytesLE 8 (mkToken (coreUnit 1) 1 7 99).toNat) joined) 5 7 < 255 := by decide +kernel
/-- The image narrows tensor 7. -/
def narrowState : State := { vlState joined joined with occ := (running { noPlan with narrowing := [BitVec.ofNat 128 (7 * 2 ^ 112)] }).occ }
def fullSeg : BitVec 128 := segHeader 1 6 4 0 12 0 2048 3 0x2000 7 5
theorem witness_SegmentsLand_part : Active narrowState ∧ segType fullSeg = 1 ∧ segDst fullSeg = devnum narrowState ∧ segLen fullSeg = 2048 ∧
    (descriptorOf narrowState (segTensor fullSeg)).isSome = true ∧ (vlPort narrowState 2).streams.getD (segVc fullSeg) [] = [] ∧
    BitVec.ofNat 16 (segE2e fullSeg) ∉ (tget narrowState.fabric.landed (segSrc fullSeg)).getD [] := by
  and_intros <;> first | decide +kernel | (unfold Active; decide +kernel)
theorem test_segment_lands : (readLocal (after (.vlWrite 2 (segHere 1 0 4 5) data4 0) (segState (segHere 1 0 4 5) data4 joined)) 0x2000 5).bytes = [1, 2, 3, 4, 0] := by decide +kernel
theorem test_segment_once : (after (.vlWrite 2 (segHere 1 0 4 0) data4 0) (segState (segHere 1 0 4 0) data4 joined)).mem.cells = [] := by decide +kernel

def announced (op : BitVec 2) (dev : BitVec 6) (tm : Time) : Announce :=
  { op := op, t := tm, participants := 0x18, initiator := dev, opNumber := 17, tag := 9 }
def opOf (a : Announce) (sent : Bool) : OpSt :=
  { a := a, lead := 100, armed := true, sent := sent, acted := 8, uncertain := 0, missed := 0, refused := 0, role := 0, slot := 0 }
def opState (ops : List OpSt) : State :=
  let s := vlState joined joined
  { s with global := { s.global with ops := ops } }
theorem witness_GlobalOperationsRun_send : Active (opState []) ∧ (opState [opOf (announced 0 4 6000000) false]).global.ops = [opOf (announced 0 4 6000000) false] ∧
    (announced 0 4 6000000).initiator.toNat = devnum (opState []) ∧ (announced 0 4 6000000).t ≤ max (opState []).time.now 5999900 + 100 ∧
    max (opState []).time.now 5999899 + 100 < (announced 0 4 6000000).t := by
  and_intros <;> first | decide +kernel | (unfold Active; decide +kernel)
theorem witness_GlobalOperationsRun_announce : (vlPort (opState []) 2).state = 2 ∧ (announced 0 3 6000000).initiator ≠ (opState []).pins.devnum ∧
    ¬ (∃ x ∈ (opState []).global.ops, x.a.initiator = 3 ∧ x.a.opNumber = 17) ∧ max (opState []).time.now 0 < (announced 0 3 6000000).t ∧
    (announced 0 3 6000000).t ≤ max (opState []).time.now 6000000 ∧ ((opState []).global.ops.filter (fun x => x.armed)).length < 8 ∧
    8 ≤ ((opState (List.replicate 8 (opOf (announced 0 5 6000000) true))).global.ops.filter (fun x => x.armed)).length ∧
    bitOf (announced 0 3 6000000).participants (devnum (opState [])) = true ∧ (announced 0 4 0).initiator = (opState []).pins.devnum := by
  and_intros <;> decide +kernel
/-- A barrier of TAG 9, a snapshot and a reset, armed for 6 ms. -/
theorem witness_GlobalOperationsRun_act : let s := opState [opOf (announced 0 3 6000000) true]
    (∀ x ∈ s.global.ops, x.armed = true → max s.time.now 0 < x.a.t) ∧ (announced 0 3 6000000).t ≤ max s.time.now 6000000 ∧
    (planOf s).map (fun p => p.barrierTags.filter (fun b => b.1 = 9)) = some [(9, coreUnit 7)] ∧ (announced 0 3 6000000).tag ≠ 0 ∧ coreTokens s 7 9 < 255 ∧
    joinedPorts s ≠ [] ∧ s.global.early = [] ∧ s.global.pending = [] ∧ s.occ.state = .running ∧ (announced 1 3 0).op = 1 ∧ (announced 2 3 0).op = 2 := by
  and_intros <;> decide +kernel
theorem witness_GlobalOperationsRun_answer : (announced 0 4 0).initiator = (opState []).pins.devnum ∧ bitOf (announced 0 4 0).participants 3 = true := by decide +kernel
def snapOf (missing : List Nat) : Snapshot :=
  { t := 6000000, number := 0, gen := 0, ports := List.replicate 8 (0, 7, 0, 0), queues := [], counters := [], missing := missing }
theorem witness_GlobalOperationsRun_marker : 2 ∈ (snapOf [2]).missing ∧ (snapOf [2]).ports.length = 8 ∧ (snapOf [2]).t = (announced 1 3 6000000).t ∧
    (snapOf [2]).missing.filter (fun m => m ≠ 2) = [] ∧ (snapOf [2, 5]).missing.filter (fun m => m ≠ 2) ≠ [] := by decide +kernel
theorem test_barrier_ticks : coreTokens (after (.globalOpAct 6000000) (opState [opOf (announced 0 3 6000000) true])) 7 9 = 1 := by decide +kernel


/-! ## Occupancies and the lifecycle (spec/10, spec/16) -/

/-- An image of seven empty sections that plans nothing, signed with a key of zeros. -/
def emptyImage : Image :=
  { header := BitVec.ofNat 2048 (5824 * 2 ^ 128 + 7 * 2 ^ 96 + 128 * 2 ^ 64 + 0x0348 * 2 ^ 48 + 2 ^ 32 + 0x514C4F4E + 100 * 2 ^ 288 + 400 * 2 ^ 304)
    sections := [1, 2, 3, 4, 8, 9, 10].map (fun ty => BitVec.ofNat 256 (ty * 2 ^ 240))
    body := List.replicate 32 0, key := List.replicate 1984 0, signature := List.replicate 3328 0
    plan := { noPlan with reuseDistance := 1, contextBytes := 4096 } }
/-- In `st`, with the lengths that a LOAD of the empty image names, owner slot 0 of the key of zeros. -/
def loadState (st : OccState) (life len : Nat) : State :=
  let s := State.reset
  { s with
    occ := { s.occ with state := st, image := if st = .loading then some emptyImage else none }
    life := { s.life with state := life, ownerHash := some (Config.shake256 (List.replicate 1952 0)) :: List.replicate 3 none }
    obj := { s.obj with rw := [(256 * 0x1400 + 3, len)] } }
def loadReq (v : Byte) : ObjReq := side 2 0x1400 4 [v]
theorem witness_LoadsStartOccupancies : Active (loadState .none 2 5824) ∧ (loadState .none 2 5824).obj.landed = [] ∧
    (unitOf (loadState .none 2 5824) (dieUnit 2)).phase = .live ∧ (loadState .none 2 5824).cp.restarting = false ∧ (loadReq 1).payload = [1] ∧
    (loadState .running 2 5824).occ.state = .running ∧ (loadState .none 1 5824).life.state ≠ 2 ∧ (loadState .none 1 5824).life.state ≠ 3 ∧
    (loadState .twilight 3 5824).occ.state = .twilight ∧ (loadState .none 3 5824).life.state = 3 ∧ rwVal (loadState .none 2 5824) 0x1400 3 0 = 5824 ∧
    256 ≤ 5824 ∧ 5824 = emptyImage.header.toNat / 2 ^ 128 % 2 ^ 64 ∧ 255 < 256 ∧ (loadState .none 2 5824).occ.image = none := by
  and_intros <;> first | decide +kernel | rfl | (unfold Active; decide +kernel)
/-- Signatures are not evaluated: this image meets every check where its signature verifies. -/
theorem witness_LoadsStartOccupancies_passes (h : Config.mldsaVerify (List.replicate 1952 0) (imageDigest emptyImage) (List.replicate 3309 0) = true) :
    loadFault ((loadState .loading 2 5824).atTime 0) emptyImage (hdLocked emptyImage.header || (loadState .loading 2 5824).occ.replay)
      (loadState .loading 2 5824).occ.copyBad = none := by
  have k : emptyImage.key.take 1952 = List.replicate 1952 0 := by decide +kernel
  have g : emptyImage.signature.take 3309 = List.replicate 3309 0 := by decide +kernel
  have o : ownerHashOf ((loadState .loading 2 5824).atTime 0) (hdKeySlot emptyImage.header) = Config.shake256 (List.replicate 1952 0) := by
    rw [show hdKeySlot emptyImage.header = 0 by decide +kernel]
    rfl
  have e : signatureFits ((loadState .loading 2 5824).atTime 0) emptyImage = true := by
    have a : ((loadState .loading 2 5824).atTime 0).life.state = 2 := by rfl
    have b : bitOf ((loadState .loading 2 5824).atTime 0).life.ownerFused (hdKeySlot emptyImage.header) = true := by decide +kernel
    have c : bitOf ((loadState .loading 2 5824).atTime 0).life.ownerRevoked (hdKeySlot emptyImage.header) = false := by decide +kernel
    have d : ((emptyImage.key.drop 1952).all (fun x => x == 0) && (emptyImage.signature.drop 3309).all (fun x => x == 0)) = true := by decide +kernel
    simp only [Bool.and_eq_true] at d
    simp only [signatureFits, k, g, o, a, b, c, h, d.1, d.2, if_true, Bool.and_true, Bool.not_false, beq_self_eq_true]
  have p : (headerFits emptyImage && (List.range 10).all (fun t => countFits emptyImage (t + 1)) && (badSection emptyImage).isNone && envelopeFits emptyImage.plan
      && decide (emptyImage.plan.reuseDistance ≠ 0) && (badStep emptyImage.plan).isNone && windowsFit emptyImage.plan && !emptyImage.plan.unsupported
      && narrowingFits emptyImage.plan && leadsFit ((loadState .loading 2 5824).atTime 0) emptyImage && unitsFit emptyImage.plan && programsFit emptyImage.plan) = true := by decide +kernel
  have q : (fixedFits ((loadState .loading 2 5824).atTime 0) emptyImage.plan && memoryFits ((loadState .loading 2 5824).atTime 0) emptyImage
      && contextsFit ((loadState .loading 2 5824).atTime 0) emptyImage && bandwidthFits ((loadState .loading 2 5824).atTime 0) emptyImage.plan
      && engineTimeFits ((loadState .loading 2 5824).atTime 0) emptyImage (hdLocked emptyImage.header || (loadState .loading 2 5824).occ.replay)) = true := by decide +kernel
  simp only [Bool.and_eq_true, Option.isNone_iff_eq_none, decide_eq_true_eq, Bool.not_eq_true'] at p q
  obtain ⟨⟨⟨⟨⟨⟨⟨⟨⟨⟨⟨p1, p2⟩, p3⟩, p4⟩, p5⟩, p6⟩, p7⟩, p8⟩, p9⟩, p10⟩, p11⟩, p12⟩ := p
  obtain ⟨⟨⟨⟨q1, q2⟩, q3⟩, q4⟩, q5⟩ := q
  simp [loadFault, e, p1, p2, p3, p4, p5, p6, p7, p8, p9, p10, q1, q2, q3, q4, q5, p11, p12, show (loadState .loading 2 5824).occ.copyBad = false from rfl]
theorem witness_LoadsStartOccupancies_fails : loadFault ((loadState .loading 2 5824).atTime 0) emptyImage false true = some (1, 0, 0, 0) ∧
    (loadState .loading 2 5824).occ.image = some emptyImage ∧ (loadState .loading 2 5824).cap.running = none ∧
    armedCapture (loadState .loading 2 5824) = { armedCapture (loadState .loading 2 5824) with mode := 0 } := by
  and_intros <;> first | decide +kernel | rfl

/-- In `st`; queue 3 has an item before ACCEPT_NEXT and one at it. -/
def endState (st : OccState) (drained : Bool) : State :=
  { loadState st 2 5824 with
    occ := { (loadState st 2 5824).occ with drained := drained }
    pcie := { State.reset.pcie with linkUp := true, busMaster := true }
    queues := [(3, { queueOf State.reset 3 with qstate := 1, depth := 16, tail := 9, fetchNext := 8, acceptNext := 6, completeNext := 5 })] }
def queued (img : Option (Image × Bool)) : State := { endState .twilight true with occ := { (endState .twilight true).occ with queuedLoad := img } }
theorem witness_OccupanciesEnd : Active (endState .none false) ∧ (endState .none false).obj.landed = [] ∧ (unitOf (endState .none false) (dieUnit 2)).phase = .live ∧
    (endState .none false).cp.restarting = false ∧ (loadReq 2).payload = [2] ∧ (loadReq 3).payload = [3] ∧ (endState .running false).occ.state = .running ∧
    (endState .loading false).occ.state = .loading ∧ (endState .twilight false).occ.queuedLoad = none ∧ (queued (some (emptyImage, false))).occ.queuedLoad ≠ none ∧
    (endState .twilight false).occ.after ≠ .transition ∧ (endState .twilight false).items = [] ∧ canWrite (endState .twilight false) = true ∧
    openQueues (endState .twilight false) = [3] ∧ (queueOf (endState .twilight false) 3).formed = [] ∧ (endState .twilight true).occ.drained = true ∧
    (endState .twilight true).occ.after = .toNone ∧ rwVal (queued (some (emptyImage, false))) 0x1400 3 0 = 5824 := by
  and_intros <;> first | decide +kernel | rfl | (unfold Active; decide +kernel) | (intro h; cases h)
/-- The control processor restarts; the recovery of die 0 waits for it. -/
def cpBack (p : Phase) : State :=
  let s := { State.reset with cp := { restarting := true, packageStep := 0 } }
  setUnit s (dieUnit 0) { unitOf s (dieUnit 0) with phase := p }
theorem witness_OccupanciesEnd_processor : (cpBack .live).cp.restarting = true ∧ (cpBack .live).cp.packageStep = 0 ∧
    (∀ d, d < 3 → (unitOf (cpBack .live) (dieUnit d)).phase ≠ .dusk ∧ (unitOf (cpBack .live) (dieUnit d)).phase ≠ .dawn) ∧ (cpBack .dawn).cap.running = none ∧
    (unitOf (cpBack .dawn) (dieUnit 0)).phase = .dawn ∧ (unitOf (cpBack .dawn) (dieUnit 1)).phase = .live ∧ (unitOf (cpBack .dawn) (dieUnit 2)).phase = .live := by decide +kernel
/-- A START of the library waits as landed while the control processor's watchdog runs out. -/
theorem witness_OccupanciesEnd_watchdog : State.reset.cp.restarting = false ∧ (withLanded [loadReq 2]).obj.landed.filter needsCp = [loadReq 2] ∧
    (∀ r ∈ (withLanded [side 1 0x1000 1 []]).obj.landed, needsCp r = false) ∧ (endState .running false).occ.state ≠ .loading := by
  and_intros <;> first | rfl | decide +kernel | (intro r h; rw [List.mem_singleton.mp h]; decide +kernel)
/-- The second copy of the patch record verifies, or there is none. -/
def patched (b : List Byte) : State := { cpBack .live with life := { State.reset.life with patchCopies := [none, some b] } }
theorem witness_OccupanciesEnd_patch (b : List Byte) (v : patchSigned b = true) : (patched b).life.patchCopies.find? (fun c => c.any patchSigned) = some (some b) ∧
    ∀ x, some x ∈ (cpBack .live).life.patchCopies → patchSigned x = false := by
  refine ⟨by simp [patched, v], fun x h => ?_⟩
  rw [show (cpBack .live).life.patchCopies = [none, none] from rfl] at h
  simp at h
def replaying : State := { State.reset with occ := { State.reset.occ with replayStatus := 1 } }
theorem witness_OccupanciesEnd_replay : replaying.occ.replayStatus = 1 ∧ State.reset.occ.replayStatus ≠ 1 ∧ rwVal replaying 0x1404 3 0 = 0 ∧ replaying.cap.running = none ∧ MemOk replaying ∧
    (∀ j, j < [(5 : Byte)].length → InMemory replaying ((0xD00000000 : BitVec 42).toNat % 2 ^ 36 + j) ∧ GoodAt replaying ((0xD00000000 : BitVec 42).toNat % 2 ^ 36 + j)) := by
  refine ⟨rfl, by decide, by decide +kernel, by decide +kernel, by unfold MemOk; decide +kernel, ?_⟩
  unfold InMemory GoodAt GoodRead
  decide
/-- R336: an END while the image loads abandons the load. -/
theorem test_end_abandons : (after (.occEnd (loadReq 2) 0) (endState .loading false)).occ.reason = 9 ∧ (after (.occEnd (loadReq 2) 0) (endState .loading false)).occ.state = .none := by decide +kernel
theorem test_drained : (queueOf (after (.twilightDrained 0) (endState .twilight false)) 3).qstate = 2 := by decide +kernel

/-! A lifecycle request starts with the device's serial number, which is not evaluated. -/
theorem bitsOf_append_low (a : BitVec 128) (b : BitVec 384) (hi lo : Nat) (h : hi < 384) : bitsOf (a ++ b) hi lo = bitsOf b hi lo := by
  unfold bitsOf
  apply Nat.eq_of_testBit_eq
  intro i
  simp only [Nat.testBit_mod_two_pow, Nat.testBit_shiftRight, BitVec.testBit_toNat, BitVec.getLsbD_append]
  by_cases c : i < hi + 1 - lo
  · have : lo + i < 384 := by omega
    simp [c, this]
  · simp [c]
theorem bitsOf_append_high (a : BitVec 128) (b : BitVec 384) : BitVec.ofNat 128 (bitsOf (a ++ b) 511 384) = a := by
  apply BitVec.eq_of_getLsbD_eq
  intro i hi
  simp only [bitsOf, BitVec.getLsbD_ofNat, Nat.testBit_mod_two_pow, Nat.testBit_shiftRight, BitVec.testBit_toNat, BitVec.getLsbD_append]
  have : ¬ (384 + i < 384) := by omega
  simp [this, hi]
/-- Operation `op` on slot `slot` by `signer`, COUNT 0, for the serial number `z`. -/
def lifeReqAt (z : BitVec 128) (op signer slot n : Nat) : LifeReq :=
  { header := z ++ BitVec.ofNat 384 (signer * 2 ^ 200 + op * 2 ^ 192 + slot * 2 ^ 184 + n * 2 ^ 160), body := List.replicate n 0
    ownerKey := if signer ≤ 3 then List.replicate 1952 0 else [], signature := List.replicate 3309 0, length := 64 + n + (if signer ≤ 3 then 1952 else 0) + 3309 }
def lifeReq (op signer slot n : Nat) : LifeReq := lifeReqAt Config.serial op signer slot n
/-- Lifecycle state `st`, owner slots `fused`, the key of zeros in each. -/
def lifeState (st : Nat) (fused : BitVec 4) : State :=
  { State.reset with life := { State.reset.life with state := st, ownerFused := fused, ownerHash := List.replicate 4 (some (Config.shake256 (List.replicate 1952 0))) } }
/-- A request is accepted where its signature verifies and every check that reads no serial number holds. -/
theorem lifeReq_accepted (s : State) (op signer slot n : Nat) (t : s.life.transition = none) (u : s.life.requests = 0)
    (c : (lifeFormOk (lifeReqAt 0 op signer slot n) && lifePermitted s (lifeReqAt 0 op signer slot n) && lifeSlotOk s (lifeReqAt 0 op signer slot n)
      && lqCount (lifeReqAt 0 op signer slot n) == 0 && lqOp (lifeReqAt 0 op signer slot n) != 2 && lqOp (lifeReqAt 0 op signer slot n) != 9) = true)
    (v : lifeSignedOk s (lifeReq op signer slot n) = true) : lifeCode s (lifeReq op signer slot n) = 0 := by
  have e (hi lo : Nat) (h : hi < 384) (z : BitVec 128) : bitsOf (lifeReqAt z op signer slot n).header hi lo = bitsOf (lifeReqAt 0 op signer slot n).header hi lo :=
    (bitsOf_append_low _ _ hi lo h).trans (bitsOf_append_low _ _ hi lo h).symm
  have e1 : lqOp (lifeReq op signer slot n) = lqOp (lifeReqAt 0 op signer slot n) := e 199 192 (by decide) _
  have e2 : lqSigner (lifeReq op signer slot n) = lqSigner (lifeReqAt 0 op signer slot n) := e 207 200 (by decide) _
  have e3 : lqSlot (lifeReq op signer slot n) = lqSlot (lifeReqAt 0 op signer slot n) := e 191 184 (by decide) _
  have e4 : lqCount (lifeReq op signer slot n) = lqCount (lifeReqAt 0 op signer slot n) := e 255 224 (by decide) _
  have e5 : lqSerial (lifeReq op signer slot n) = Config.serial := bitsOf_append_high _ _
  have form : lifeFormOk (lifeReq op signer slot n) = lifeFormOk (lifeReqAt 0 op signer slot n) := by
    unfold lifeFormOk lifeLength lqBodyBytes
    rw [e1, e2, e3]
    unfold lifeReq
    rw [e 183 160 (by decide), e 207 200 (by decide), e 199 192 (by decide), e 383 256 (by decide), e 223 209 (by decide), e 159 0 (by decide)]
    rfl
  have permitted : lifePermitted s (lifeReq op signer slot n) = lifePermitted s (lifeReqAt 0 op signer slot n) := by
    unfold lifePermitted
    rw [e1, e2]
  have free : lifeSlotOk s (lifeReq op signer slot n) = lifeSlotOk s (lifeReqAt 0 op signer slot n) := by
    unfold lifeSlotOk
    rw [e1, e3]
  simp only [Bool.and_eq_true, beq_iff_eq, bne_iff_ne] at c
  obtain ⟨⟨⟨⟨⟨c1, c2⟩, c3⟩, c4⟩, c5⟩, c6⟩ := c
  have count : lifeCountOk s (lifeReq op signer slot n) = true := by
    unfold lifeCountOk
    rw [e5, e4, c4, u]
    simp
  have body : lifeBodyOk s (lifeReq op signer slot n) = true := by
    unfold lifeBodyOk
    rw [e1]
    split
    · exact absurd ‹_› c5
    · exact absurd ‹_› c6
    · rfl
  simp [lifeCode, codeIf, firstCode, t, form.trans c1, count, permitted.trans c2, free.trans c3, v, body]
/-- Where the signatures verify, each of these is accepted: PROVISION, ENROL_OWNER and DECOMMISSION by the vendor, the others by owner 0. -/
theorem witness_LifecycleAdvances_accepted (v : ∀ k d, Config.mldsaVerify k d (List.replicate 3309 0) = true) :
    lifeCode (lifeState 0 0) (lifeReq 1 0x10 0 0) = 0 ∧ lifeCode (lifeState 3 1) (lifeReq 3 0x10 1 64) = 0 ∧ lifeCode (lifeState 2 3) (lifeReq 4 0 1 0) = 0 ∧
    lifeCode (lifeState 1 1) (lifeReq 5 0 0 0) = 0 ∧ lifeCode (lifeState 2 1) (lifeReq 6 0 0 0) = 0 ∧ lifeCode (lifeState 3 1) (lifeReq 7 0 0 0) = 0 ∧
    lifeCode (lifeState 2 1) (lifeReq 8 0x10 0 0) = 0 := by
  have w (st : Nat) (f : BitVec 4) (op signer slot n : Nat) (h : lqSigner (lifeReqAt 0 op signer slot n) = 0x10) :
      lifeSignedOk (lifeState st f) (lifeReq op signer slot n) = true := by
    have e : lqSigner (lifeReq op signer slot n) = 0x10 := ((bitsOf_append_low _ _ 207 200 (by decide)).trans (bitsOf_append_low _ _ 207 200 (by decide)).symm).trans h
    unfold lifeSignedOk
    rw [e]
    exact v _ _
  have x (st : Nat) (f : BitVec 4) (op slot n : Nat) (hf : bitOf f 0 = true) (h : lqSigner (lifeReqAt 0 op 0 slot n) = 0) :
      lifeSignedOk (lifeState st f) (lifeReq op 0 slot n) = true := by
    have e : lqSigner (lifeReq op 0 slot n) = 0 := ((bitsOf_append_low _ _ 207 200 (by decide)).trans (bitsOf_append_low _ _ 207 200 (by decide)).symm).trans h
    have o : ownerHashOf (lifeState st f) 0 = Config.shake256 (List.replicate 1952 0) := by
      unfold ownerHashOf
      rw [show bitOf (lifeState st f).life.ownerFused 0 = true from hf]
      rfl
    unfold lifeSignedOk
    rw [e, o]
    show (Config.shake256 (List.replicate 1952 0) == Config.shake256 (List.replicate 1952 0) && _) = true
    rw [beq_self_eq_true, Bool.true_and]
    exact v _ _
  refine ⟨?_, ?_, ?_, ?_, ?_, ?_, ?_⟩
  · exact lifeReq_accepted _ _ _ _ _ rfl rfl (by decide +kernel) (w _ _ _ _ _ _ (by decide +kernel))
  · exact lifeReq_accepted _ _ _ _ _ rfl rfl (by decide +kernel) (w _ _ _ _ _ _ (by decide +kernel))
  · exact lifeReq_accepted _ _ _ _ _ rfl rfl (by decide +kernel) (x _ _ _ _ _ (by decide) (by decide +kernel))
  · exact lifeReq_accepted _ _ _ _ _ rfl rfl (by decide +kernel) (x _ _ _ _ _ (by decide) (by decide +kernel))
  · exact lifeReq_accepted _ _ _ _ _ rfl rfl (by decide +kernel) (x _ _ _ _ _ (by decide) (by decide +kernel))
  · exact lifeReq_accepted _ _ _ _ _ rfl rfl (by decide +kernel) (x _ _ _ _ _ (by decide) (by decide +kernel))
  · exact lifeReq_accepted _ _ _ _ _ rfl rfl (by decide +kernel) (w _ _ _ _ _ _ (by decide +kernel))
theorem witness_LifecycleAdvances : Active State.reset ∧ State.reset.cp.restarting = false ∧ (unitOf State.reset (dieUnit 2)).phase = .live ∧
    lifeCode (State.reset.atTime 0) { lifeReqAt 0 6 0 0 0 with length := 0 } ≠ 0 ∧ State.reset.life.transition = none ∧ (lifeState 2 1).life.ownerHash.length = 4 ∧
    runs.occ.state ≠ .none ∧ ({ State.reset.life with transition := some (6, false) } : LifeSt).transition = some (6, false) := by
  and_intros <;> first | decide +kernel | rfl | (unfold Active; decide)
theorem witness_LifecycleAdvances_attest : (lifeState 0 0).life.state = 0 ∧ (lifeState 4 0).life.state = 4 ∧ (lifeState 3 0).life.state = 3 ∧ (lifeState 3 0).obj.landed = [] ∧
    (side 3 0x1107 0 (bytesBE 4 (7 : BitVec 32).toNat ++ bytesBE 4 0 ++ bytesBE 4 4)).payload.length = 12 := by
  and_intros <;> first | decide +kernel | rfl
/-- R490: a RETURN applied makes the state RETURNED, wipes the memory and counts. -/
theorem test_transition_returns :
    let s := { State.reset with life := { State.reset.life with transition := some (6, false) }, mem := { State.reset.mem with cells := [(5, 1)] } }
    (after (.transitionApply 0) s).life.state = 3 ∧ (after (.transitionApply 0) s).mem.cells = [] ∧ (after (.transitionApply 0) s).life.requests = 1 := by decide +kernel


/-! ## Pins, ports and counters (spec/14, spec/16, spec/17) -/

def pinState (por perst rail : Bool) : State :=
  { State.reset with pins := { State.reset.pins with porLow := por, perstLow := perst, railBad := rail } }
theorem witness_ResetsAndRails : (pinState true false false).pins.porLow = true ∧ (pinState true true false).pins.perstLow = true ∧
    (pinState true false true).pins.railBad = true ∧ State.reset.pins.porLow = false ∧ State.reset.pins.perstLow = false ∧ State.reset.pins.railBad = false ∧
    12 < 13 ∧ 13 ≤ 13 ∧ State.reset.pins.railMv.length = 13 ∧ bitOf (32 : BitVec 6) 5 = true ∧ (0 : BitVec 6) = 0 ∧ (32 : BitVec 6) ≠ 0 := by decide
/-- R374: leaving reset samples the straps; an open one reads 0. -/
theorem test_straps : (after (.porNDeassert 0x3F 0x20 0 0) (pinState true false false)).pins.devnum = 0x1F := by decide +kernel

theorem witness_SensorsAndPinFaults : Active State.reset ∧ State.reset.pins.temps.length = 40 ∧ State.reset.pins.tempLatched.length = 3 ∧
    State.reset.pins.throttle.length = 3 ∧ State.reset.pins.below97.length = 3 ∧ State.reset.pins.avsNoResponse.length = 2 ∧
    (List.replicate 16 (26880 : Int)).length = 16 ∧ (List.replicate 8 (24831 : Int)).length = 8 ∧ ((2 : BitVec 2) ≠ 3) := by
  and_intros <;> first | decide | (unfold Active; decide)
/-- Pin 10 carries PPS_IN, pin 2 an output: what R532 detects and what it does not. -/
theorem witness_SensorsAndPinFaults_pins : bitOf (pinStatus State.reset 10) 4 = false ∧ bitOf (pinStatus State.reset 2) 0 = false ∧
    bitOf (pinStatus { State.reset with pins := { State.reset.pins with status := [(10, 16)] } } 10) 4 = true ∧
    ¬ (10 = 2 ∨ 10 = 3 ∨ 10 = 11 ∨ (14 ≤ 10 ∧ 10 ≤ 21) ∨ 10 = 31 ∨ 10 = 33 ∨ 10 = 34) ∧ (22 ≤ 25 ∧ 25 ≤ 25) ∧
    ({ State.reset.pins with below97 := [some 3, none, none] } : PinSt).below97.getD 0 none = some 3 ∧ 3 + 10000000 ≤ max State.reset.time.now 10000003 ∧
    max State.reset.time.now 10000002 < 3 + 10000000 := by decide +kernel
/-- R538: 105 °C halts the package. -/
theorem test_thermtrip : (after (.sensorSample 2 (List.replicate 8 26880) 0) State.reset).pins.halted = true ∧
    (after (.sensorSample 2 (List.replicate 8 26879) 0) State.reset).pins.halted = false := by decide +kernel

def portState (stuck up : Bool) (addr : Option (BitVec 7)) : State :=
  { State.reset with
    bus := { State.reset.bus with stuck := stuck, mgmtUp := up, i3cAddr := addr }
    obj := { State.reset.obj with rw := [(256 * 0x1020 + 2, 5), (256 * 0x1020 + 5, 2 ^ 120)] } }
theorem witness_SidebandPortAndJtag : Active (portState false true none) ∧ (portState true true none).bus.stuck = true ∧ (portState false true none).bus.stuck = false ∧
    (portState false true none).bus.i3cAddr = none ∧ (portState false true (some 4)).bus.i3cAddr ≠ none ∧ (8 : BitVec 8) ≠ 0 ∧ (8 : BitVec 8) ≠ 0xFF ∧
    (portState false true none).bus.mgmtUp = true ∧ ¬ ((portState false false none).bus.mgmtUp = true) ∧
    (rwVal (portState false true none) 0x1020 2 0 ≠ 0 ∧ (5 : BitVec 32).toNat = rwVal (portState false true none) 0x1020 2 0) ∧
    (6 : BitVec 32).toNat ≠ rwVal (portState false true none) 0x1020 2 0 ∧ (List.replicate 1472 (0 : Byte)).length ≤ 1472 ∧ 1472 < (List.replicate 1473 (0 : Byte)).length ∧
    (List.replicate 1452 (0 : Byte)).length ≤ 1452 ∧ rwVal (portState false true none) 0x1020 5 0 ≠ 0 ∧ 35000 < 35001 ∧
    State.reset.occ.state = .none ∧ runs.occ.state ≠ .none := by
  refine ⟨by unfold Active; decide, ?_⟩
  decide +kernel
/-- R485: the identification word. -/
theorem test_idcode : (after .jtagIdcode State.reset).out = [.jtag ((List.range 32).map (fun i => Nat.testBit 0x10348547 i))] := by decide +kernel
theorem test_extest_running : (after (.jtagExtest 0) runs).pins.jtag = 0 ∧ (after (.jtagExtest 0) runs).lastFault = 1 ∧ (after (.jtagExtest 0) State.reset).pins.jtag = 3 := by
  decide +kernel

/-- Counter 3 of core 7 has CONFIG `cfg`; `n` samples have been written. -/
def counterState (cfg : BitVec 32) (n : Nat) : State :=
  { State.reset with
    pmu := { State.reset.pmu with recs := [(counterIndex (coreUnit 7), { config := [0, 0, 0, cfg], overflow := 1 })], written := n }
    obj := { State.reset.obj with rw := [(256 * 0x38F0 + 2, 5)] } }
theorem witness_CounterWrapsSample : Active (counterState 0x6600A000 0) ∧ unitValid (coreUnit 7) = true ∧ 1 ≤ uLevel (coreUnit 7) ∧
    bitOf ((counterOf (counterState 0x6600A000 0) (counterIndex (coreUnit 7))).config.getD 3 0) 15 = true ∧ rwVal (counterState 0x6600A000 0) 0x38F0 1 0 ≠ 1 ∧
    bitOf ((counterOf (counterState 0x6600A000 0) (counterIndex (coreUnit 7))).config.getD 3 0) 13 = true ∧
    bitOf ((counterOf (counterState 0x66008000 0) (counterIndex (coreUnit 7))).config.getD 3 0) 13 = false ∧
    bitOf ((counterOf (counterState 0 0) (counterIndex (coreUnit 7))).config.getD 3 0) 15 = false ∧
    ((counterState 0x6600A000 255).pmu.written + 2 ^ 32 - rwVal (counterState 0x6600A000 255) 0x38F0 4 0) % 2 ^ 32 ≠ 256 ∧
    ((counterState 0x6600A000 256).pmu.written + 2 ^ 32 - rwVal (counterState 0x6600A000 256) 0x38F0 4 0) % 2 ^ 32 = 256 ∧
    (counterState 0x6600A000 0).time.now < 2 ^ 64 ∧ rwVal (counterState 0x6600A000 0) 0x38F0 2 0xFFFF < 2048 ∧ rwVal State.reset 0x38F0 2 0xFFFF = 0xFFFF ∧
    uLevel (coreUnit 7) < 3 ∧ 3 ≤ uLevel (dieUnit 1) := by
  refine ⟨by unfold Active; decide, ?_⟩
  decide +kernel
theorem test_wrap_samples : (after (.counterWrap (coreUnit 7) 3 (deUnit 7) 1 2 3 4 5 6) (counterState 0x6600A000 0)).pmu.written = 1 ∧
    (after (.counterWrap (coreUnit 7) 3 (deUnit 7) 1 2 3 4 5 6) (counterState 0x6600A000 256)).pmu.lost = 1 := by decide +kernel

/-! ## Forms that complete -/

/-- Cluster 2 with a transfer of mover 5 to issue; queue 63 with a flush to take effect. -/
theorem witness_FormsComplete_movers : Active queueOne ∧ (2 : BitVec 3).toNat < 6 ∧ 5 < (clusterOf queueOne (2 : BitVec 3).toNat).movers.length ∧
    (clusterOf queueOne (2 : BitVec 3).toNat).queues.length = 64 ∧ canRun queueOne (movUnit queueOne (2 : BitVec 3).toNat 5) = true ∧ fillQ.dst.toNat < 64 ∧
    queueFieldOk queueOne 2 fillQ.dst = true ∧ movOk queueOne 2 { fillQ with opcode := 2 } = true ∧
    0 < (movOf (modMov queueOne 2 5 (fun x => { x with toIssue := 1 })) 2 5).toIssue ∧
    (qrecOf (withRec { queueRec with flushPend := true }) 2 63).flushPend = true ∧ (qrecOf (withRec { queueRec with flushPend := true }) 2 63).packetised = false ∧
    unitValid (veUnit 3) = true ∧ uLevel (veUnit 3) = 0 ∧ 47 < 48 := by
  and_intros <;> first | decide +kernel | (unfold Active; decide)
def srsEntry : Fetched := { slotEntry with entry := slotEntry.entry + 3 }
theorem witness_FormsComplete_items : canFetch (cellState.atTime 0) 3 = true ∧ Active cellState ∧ refused nopEntry (queueState.atTime 0) = none ∧ nopEntry.entry.toNat % 256 = 0 ∧
    refused slotEntry (cellState.atTime 0) = none ∧ slotEntry.entry.toNat % 256 = 1 ∧
    refused { slotEntry with entry := slotEntry.entry + 1 } (cellState.atTime 0) = none ∧ (slotEntry.entry + 1).toNat % 256 = 2 ∧
    refused srsEntry (cellState.atTime 0) = none ∧ srsEntry.entry.toNat % 256 = 4 ∧
    refused trainEntry (queueState.atTime 0) = none ∧ trainEntry.entry.toNat % 256 = 5 ∧ refused commitEntry (queueState.atTime 0) = none ∧ commitEntry.entry.toNat % 256 = 6 ∧
    refused captureEntry (queueState.atTime 0) = none ∧ captureEntry.entry.toNat % 256 = 7 ∧ refused barrierEntry (queueState.atTime 0) = none ∧ barrierEntry.entry.toNat % 256 = 9 := by
  refine ⟨?_, ?_, ?_⟩
  · decide +kernel
  · unfold Active
    decide +kernel
  · decide +kernel
/-- A PRACH item at an occasion of its configuration, with a deadline late enough for it. -/
def prachEntry : Fetched := { slotEntry with entry := slotEntry.entry + 2 }
theorem prachEntry_facts : prachEntry.read = .good ∧ headerOk prachEntry 7 = true ∧
    ((planEntry (cellState.atTime 0) 3).map (fun w => qpMask w (eOp prachEntry.entry))).getD true = true ∧ bodyOk (cellState.atTime 0) prachEntry = true ∧
    tooLate (cellState.atTime 0) prachEntry.entry 4000000 = false ∧ cellState.occ.state ≠ .none ∧ arrivalOf (queueOf (cellState.atTime 0) 3) 7 = 4000000 := by
  decide +kernel
theorem prachEntry_envelope : (planEntry (cellState.atTime 0) 3).isSome = true ∧ eOp prachEntry.entry = 3 ∧
    carEnabled (cellState.atTime 0) (eCarrier prachEntry.entry) = true ∧ withinEnvelope (cellState.atTime 0) prachEntry 6000000 = true ∧
    (slotItems (cellState.atTime 0) (eCarrier prachEntry.entry) (dirOf 3) 6000000).all (fun i => i.opcode != 3) = true ∧
    deadlineOf prachEntry.entry 4000000 = 7000000 ∧ slotTimeOf prachEntry.entry 4000000 = 6000000 ∧
    (queueOf cellState 3).lastDeadline = none := by
  decide +kernel
theorem witness_FormsComplete_prach (h : onGrid (cellState.atTime 0) prachEntry.entry 6000000 = true)
    (d : deadlineLeast (cellState.atTime 0) prachEntry.entry 6000000 ≤ 7000000) :
    refused prachEntry (cellState.atTime 0) = none ∧ prachEntry.entry.toNat % 256 = 3 := by
  obtain ⟨p1, p2, p3, p4, p5, p6, p7⟩ := prachEntry_facts
  obtain ⟨e1, e2, e3, e4, e5, e6, e7, e8⟩ := prachEntry_envelope
  have a : prachEntry.allocs = [] := rfl
  have r : prachEntry.rels = [] := rfl
  have e : envelopeOk (cellState.atTime 0) 3 prachEntry 4000000 = true := by
    simp [envelopeOk, e1, e2, e3, e4, e5, e6, e7, e8, d, a, r, isSlotOp]
  refine ⟨?_, by decide +kernel⟩
  unfold refused fetchRefusal
  rw [p7]
  simp [p1, p2, p3, p4, p5, p6, e7, h, e]
theorem witness_FormsComplete_objects : (wr 0x1206 2 4 10000).payload = bytesBE 4 10000 ∧ (wr 0x1010 0 1 1).payload = [1] ∧
    State.reset.pins.halted = false ∧ (wr 0x3700 1 2 (coreUnit 5).toNat).payload = bytesBE 2 (coreUnit 5).toNat ∧
    unitValid (BitVec.ofNat 16 (coreUnit 5).toNat) = true ∧ (wr 0x1310 0 1 3).payload = [BitVec.ofNat 8 3] ∧ State.reset.occ.state = .none ∧
    (wr 0x38F0 1 1 1).payload = [BitVec.ofNat 8 1] ∧ barrierFits (State.reset.atTime 0) (globalBody (7 * 2 ^ 114)) (max State.reset.time.now 0) = true ∧
    (wr 0x2003 4 4 65536).payload = bytesBE 4 (2 ^ 16) ∧ (queueOf State.reset 3).qstate = 0 ∧ (wr 0x2003 4 4 0).payload = List.replicate 4 0 ∧
    (queueOf State.reset 3).tail = (queueOf State.reset 3).completeNext ∧ 0x2003 = 0x2000 + 3 := by decide +kernel
theorem witness_FormsComplete_served : Served State.reset (wr 0x1206 2 4 10000) ∧ Served State.reset (wr 0x2003 4 4 65536) := by
  unfold Served
  decide +kernel
theorem witness_FormsComplete : State.reset.bus.stuck = false ∧ State.reset.occ.state = .none ∧ State.reset.cp.restarting = false ∧
    (unitOf State.reset (dieUnit 2)).phase = .live ∧ bitOf ((counterOf (counterState 0x66008000 0) (counterIndex (coreUnit 7))).config.getD 3 0) 15 = true ∧
    bitOf ((counterOf (counterState 0x66008000 0) (counterIndex (coreUnit 7))).config.getD 3 0) 13 = false ∧ rwVal (counterState 0x66008000 0) 0x38F0 1 0 ≠ 1 := by
  decide +kernel
end Sys2Proof.Tests
end

section
/-! PROOFS. Requests served and answered, and the WRITE of a queue's DEPTH (O47; R307, R330, R438 to R445). A pair that opens writes its
ledger to the host (R307), whoever asked for it, so the device's outputs grow even where the requester's own link carries no answer. -/

namespace Sys2Proof.Machine

/-! ## Serving a request -/

/-- A device that runs applies a command's meaning at the command's time. -/
theorem timed_of_running {s : State} (h : stopped s = false) (t : Time) (f : State → State) : timed s t f = .next (f (s.atTime t)) := by
  simp [timed, h]

/-- The request that is its turn and passes its checks acts, and is then answered without an abort code (R438, R445). -/
theorem serve_of_accepted {req : ObjReq} {f : State → State × Nat × List Byte} {s s1 : State} (hclaim : claim s req = some s1)
    (hbusy : isBusy s1 req = false) (haccept : (f s1).2.1 = 0) : serve req true f s = answer (f s1).1 req 0 (f s1).2.2 := by
  simp [serve, hclaim, hbusy, haccept]

/-- A WRITE that passes its checks acts with the value that it carries. -/
theorem writeObj_of_accepted {s : State} {req : ObjReq} {v : Nat} (h : writeCheck s req = (0, v)) :
    writeObj s req = (applyWrite s req.index.toNat req.sub.toNat v, 0, []) := by
  simp [writeObj, h]

/-- To a management port whose link is down no answer leaves (R487). -/
theorem answer_out_of_mgmt_down {s : State} {req : ObjReq} {addr : Nat} {port : BitVec 16} (hwho : req.who = .mgmt addr port)
    (hdown : s.bus.mgmtUp = false) (abort : Nat) (payload : List Byte) : (answer s req abort payload).out = s.out := by
  simp [answer, hwho, hdown]

/-! ## The ledger of a queue that opens -/

@[simp] theorem raiseVector_bus (s : State) (v : Nat) : (raiseVector s v).bus = s.bus := by
  unfold raiseVector
  split
  · rfl
  · split <;> rfl

theorem raiseVector_out_prefix (s : State) (v : Nat) : s.out <+: (raiseVector s v).out := by
  unfold raiseVector
  split
  · exact List.prefix_rfl
  · split
    · exact List.prefix_rfl
    · exact List.prefix_append ..

@[simp] theorem moderate_bus (s : State) (q n : Nat) : (moderate s q n).bus = s.bus := by
  simp only [moderate]
  split <;> simp

theorem moderate_out_prefix (s : State) (q n : Nat) : s.out <+: (moderate s q n).out := by
  simp only [moderate]
  split
  · exact raiseVector_out_prefix (modQueue s q _) _
  · exact List.prefix_rfl

@[simp] theorem writeLedger_bus (s : State) (q : Nat) : (writeLedger s q).bus = s.bus := by
  simp only [writeLedger]
  split <;> simp

/-- A ledger leaves for the host whenever the device can write there (R330). -/
theorem writeLedger_out_prefix {s : State} (h : canWrite s = true) (q : Nat) :
    s.out ++ [.hostWrite (queueOf s q).ledger (ledgerBytes s (queueOf s q))] <+: (writeLedger s q).out := by
  simp only [writeLedger, h, if_true]
  exact moderate_out_prefix (modQueue (s.emit _) q _) q _

@[simp] theorem openQueue_bus (s : State) (q depth : Nat) : (openQueue s q depth).bus = s.bus := by
  simp [openQueue]

/-- Opening a pair puts at least its ledger out (R307). -/
theorem openQueue_out_ne {s : State} (h : canWrite s = true) (q depth : Nat) : (openQueue s q depth).out ≠ s.out := by
  intro e
  have hlen := (writeLedger_out_prefix (s := modQueue s q _) h q).length_le.trans_eq (congrArg List.length e)
  simp at hlen

/-- A DEPTH other than 0 opens the pair that the index names (R307). -/
theorem applyWrite_depth (s : State) {q v : Nat} (hq : q < 4096) (hv : v ≠ 0) : applyWrite s (0x2000 + q) 4 v = openQueue s q v := by
  have hne (i : Nat) (hi : i < 0x2000) : 0x2000 + q ≠ i := by omega
  have hlow : ¬ (0x1210 ≤ 0x2000 + q ∧ 0x2000 + q < 0x1218) := by omega
  have hrange : 0x2000 ≤ 0x2000 + q ∧ 0x2000 + q < 0x3000 := by omega
  simp [applyWrite, writeQueue, hne, hlow, hrange, hv]

/-- QUEUE_OPEN that passes its checks opens the pair and answers. -/
theorem exec_queueOpen_of_accepted {s s1 : State} {req : ObjReq} {q v : Nat} (t : Time) (hrun : stopped s = false)
    (hclaim : claim (s.atTime t) req = some s1) (hbusy : isBusy s1 req = false) (hcheck : writeCheck s1 req = (0, v)) (hq : q < 4096)
    (hindex : req.index.toNat = 0x2000 + q) (hsub : req.sub.toNat = 4) (hmine : (isDepth req && reqVal req != 0) = true) (hv : v ≠ 0) :
    exec (.queueOpen req t) s = .next (answer (openQueue s1 q v) req 0 []) := by
  have hwrite : writeObj s1 req = (openQueue s1 q v, 0, []) := by
    rw [writeObj_of_accepted hcheck, hindex, hsub, applyWrite_depth s1 hq hv]
  show execQueueOpen req t s = _
  rw [execQueueOpen, timed_of_running hrun, hmine, serve_of_accepted hclaim hbusy (by rw [hwrite]), hwrite]

/-! ## A request whose link goes down before its turn -/

/-- The WRITE of DEPTH 2 to queue 0, sent by the management port. -/
def depthWrite : ObjReq :=
  { who := .mgmt 5 6, opcode := 2, index := 0x2000, sub := 4, view := false, tid := 7, payload := bytesBE 4 2 }

/-- The datagram that carries it (R441, R443). -/
def depthFrame : List Byte := bytesBE 16 (2 * 2 ^ 120 + 0x2000 * 2 ^ 104 + 4 * 2 ^ 96 + 4 * 2 ^ 32 + 7) ++ bytesBE 4 2

/-- The host has enabled mastering, the request has landed, and the management port's link has gone down: the request waits for its turn. -/
def linkLost : State :=
  { State.reset with
    pcie := { State.reset.pcie with busMaster := true }
    obj := { State.reset.obj with landed := [depthWrite], recent := [(5, 6, 7, 0, [])] } }

/-- The device reaches `linkLost` from reset. -/
theorem linkLost_reached :
    core.run 4 ({ State.reset with pending := [.pcieMasteringRestored 0, .mgmtLinkUp true 0, .mgmtDatagram 5 6 depthFrame 0, .mgmtLinkUp false 0] } : State)
      = .next linkLost := rfl

/-- `linkLost` with the request taken up. -/
def linkLostClaimed : State := { linkLost with obj := { linkLost.obj with landed := [] } }

theorem linkLost_claims : claim (linkLost.atTime 0) depthWrite = some linkLostClaimed := rfl

/-- The pair of the request is disabled and its DEPTH legal, so every check of R445 passes. -/
theorem depthWrite_accepted : writeCheck linkLostClaimed depthWrite = (0, 2) := by decide

theorem exec_depthWrite : exec (.queueOpen depthWrite 0) linkLost = .next (answer (openQueue linkLostClaimed 0 2) depthWrite 0 []) :=
  exec_queueOpen_of_accepted 0 rfl linkLost_claims rfl depthWrite_accepted (by decide) rfl rfl rfl (by decide)

end Sys2Proof.Machine

namespace Sys2Proof
open Machine

/-- Refutes O47: in `linkLost` QUEUE_OPEN writes the ledger of R307 to the host, while `Answered` asks that nothing leaves the device
where the management port of the requester is down. -/
theorem not_objectsWritten : ¬ Obligations.ObjectsWritten := by
  unfold Obligations.ObjectsWritten
  intro h
  have hrun : Active linkLost := by unfold Active; decide
  have hserved : Served linkLost depthWrite := by unfold Served; decide
  obtain ⟨-, -, -, -, -, -, -, -, -, -, -, -, hqueues, -⟩ := h linkLost 0 depthWrite 2 hrun hserved rfl
  obtain ⟨-, -, hopen, -⟩ := hqueues 0 rfl (by decide) rfl rfl (by decide)
  obtain ⟨s', hexec, ⟨f, -, hout⟩, -⟩ := hopen (.inr ⟨1, by decide⟩) (by decide) rfl
  obtain rfl : answer (openQueue linkLostClaimed 0 2) depthWrite 0 [] = s' := Host.Outcome.next.inj (exec_depthWrite.symm.trans hexec)
  have hsilent : (answer (openQueue linkLostClaimed 0 2) depthWrite 0 []).out = (openQueue linkLostClaimed 0 2).out :=
    answer_out_of_mgmt_down rfl (by rw [openQueue_bus]; rfl) 0 []
  exact openQueue_out_ne (by decide) 0 2 (hsilent.symm.trans hout)

end Sys2Proof
end

section
/-! PROOFS. Routes and watchdogs. -/

namespace Sys2Proof.Machine

/-! ## Where slices, steps and tokens go -/

/-- `t` routes slices, steps and tokens as `s` does: the same occupancy, dies in service, and recovery states and slices of the ports. -/
structure SameRoutes (s t : State) : Prop where
  occ : t.occ = s.occ
  dies : t.dies = s.dies
  phase : ∀ u, (unitOf t u).phase = (unitOf s u).phase
  held : ∀ u, (unitOf t u).held = (unitOf s u).held

theorem SameRoutes.of_units {s t : State} (hocc : t.occ = s.occ) (hdies : t.dies = s.dies) (hunits : t.units = s.units) : SameRoutes s t :=
  ⟨hocc, hdies, fun u => by simp [unitOf, hunits], fun u => by simp [unitOf, hunits]⟩

theorem SameRoutes.refl (s : State) : SameRoutes s s := ⟨rfl, rfl, fun _ => rfl, fun _ => rfl⟩

theorem SameRoutes.trans {s t r : State} (h : SameRoutes s t) (h' : SameRoutes t r) : SameRoutes s r :=
  ⟨h'.occ.trans h.occ, h'.dies.trans h.dies, fun u => (h'.phase u).trans (h.phase u), fun u => (h'.held u).trans (h.held u)⟩

/-- Which units are gone hangs on the ports' recovery states alone. -/
theorem unitGone_congr {s t : State} (h : ∀ v, (unitOf t v).phase = (unitOf s v).phase) (u : UAddr) : unitGone t u = unitGone s u := by
  simp [unitGone, h]

section
variable {s t : State} (h : SameRoutes s t)
include h

theorem SameRoutes.planOf : planOf t = planOf s := by simp [Machine.planOf, h.occ]
theorem SameRoutes.kidsOf : kidsOf t = kidsOf s := by funext pos; simp [Machine.kidsOf, h.planOf]
theorem SameRoutes.rowOf : rowOf t = rowOf s := by funext pos; simp [Machine.rowOf, h.planOf]
theorem SameRoutes.nominalOf : nominalOf t = nominalOf s := by funext pos; simp [Machine.nominalOf, h.rowOf]
theorem SameRoutes.doneTag : doneTag t = doneTag s := by funext pos; simp [Machine.doneTag, h.planOf]
theorem SameRoutes.runningSlice : runningSlice t = runningSlice s := by funext u; simp [Machine.runningSlice, h.held]
theorem SameRoutes.planList : planList t = planList s := by funext q eng; simp [Machine.planList, h.planOf, h.runningSlice]
theorem SameRoutes.stepListOf : stepListOf t = stepListOf s := by funext q eng; simp [Machine.stepListOf, h.planList]
theorem SameRoutes.unitGone : unitGone t = unitGone s := funext (unitGone_congr h.phase)
theorem SameRoutes.parentDown : parentDown t = parentDown s := by funext u; simp [Machine.parentDown, h.phase]
theorem SameRoutes.inService : inService t = inService s := by funext u; simp [Machine.inService, h.phase, h.unitGone, h.parentDown]
theorem SameRoutes.dieOut : dieOut t = dieOut s := by funext d; simp [Machine.dieOut, h.unitGone, h.dies]
theorem SameRoutes.nextAlive : nextAlive t = nextAlive s := by funext us i; simp [Machine.nextAlive, h.unitGone]
theorem SameRoutes.servingCluster : servingCluster t = servingCluster s := by
  funext c; simp [Machine.servingCluster, h.unitGone, h.dieOut, h.nextAlive]
theorem SameRoutes.coresLeft : coresLeft t = coresLeft s := by funext c; simp [Machine.coresLeft, h.unitGone]
theorem SameRoutes.movedOf : movedOf t = movedOf s := by funext c row; simp [Machine.movedOf, h.unitGone]
theorem SameRoutes.servingUnit : servingUnit t = servingUnit s := by
  funext u pos; simp [Machine.servingUnit, h.unitGone, h.dieOut, h.servingCluster, h.coresLeft, h.movedOf, h.rowOf]
theorem SameRoutes.homeOf : homeOf t = homeOf s := by
  funext v; simp [Machine.homeOf, h.unitGone, h.servingCluster, h.coresLeft, h.held, h.nominalOf]
theorem SameRoutes.childTarget : childTarget t = childTarget s := by
  funext q pos; simp [Machine.childTarget, h.runningSlice, h.kidsOf, h.servingUnit]
theorem SameRoutes.peHelper : peHelper t = peHelper s := by funext c; simp only [Machine.peHelper, h.unitGone]
theorem SameRoutes.engineFor : engineFor t = engineFor s := by funext u; simp [Machine.engineFor, h.unitGone, h.peHelper]
end

/-! ## Watchdogs that settle (R354) -/

/-- From `s` to `t` at most watchdogs change: where they stand and whether they count. -/
def DogsMoved (s t : State) : Prop := (∃ us, t = { s with units := us }) ∧ sameButDogs s t

theorem DogsMoved.refl (s : State) : DogsMoved s s := ⟨⟨s.units, rfl⟩, fun _ => rfl⟩

theorem DogsMoved.trans {s t r : State} (h : DogsMoved s t) (h' : DogsMoved t r) : DogsMoved s r := by
  obtain ⟨⟨us, rfl⟩, h⟩ := h
  obtain ⟨⟨us', rfl⟩, h'⟩ := h'
  exact ⟨⟨us', rfl⟩, fun u => by rw [h' u, h u]⟩

theorem DogsMoved.sameRoutes {s t : State} (h : DogsMoved s t) : SameRoutes s t := by
  obtain ⟨⟨us, rfl⟩, h⟩ := h
  exact ⟨rfl, rfl, fun u => by rw [h u], fun u => by rw [h u]⟩

theorem dogsMoved_modUnit (s : State) (u : UAddr) {f : UnitSt → UnitSt}
    (hf : ∀ x, f x = { x with watchdog := (f x).watchdog, hold := (f x).hold }) : DogsMoved s (modUnit s u f) := by
  refine ⟨⟨_, rfl⟩, fun v => ?_⟩
  by_cases hv : v = u
  · subst hv
    rw [unitOf_modUnit_same]
    exact hf _
  · rw [unitOf_modUnit_other s u v f hv]

theorem dogsMoved_settleDog (s : State) (u : UAddr) : DogsMoved s (settleDog s u) := by
  unfold settleDog
  split
  · split
    · exact dogsMoved_modUnit s u fun _ => rfl
    · exact .refl s
  · split
    · exact .refl s
    · exact dogsMoved_modUnit s u fun _ => rfl
  · exact .refl s

theorem dogsMoved_settleDogs (s : State) (u : UAddr) : DogsMoved s (settleDogs s u) :=
  List.foldlRecOn (motive := DogsMoved s) _ settleDog (.refl s) fun _ h v _ => h.trans (dogsMoved_settleDog _ v)

end Sys2Proof.Machine
end

section
/-! PROOFS. Tokens that arrive and steps that start (O7; R21 to R23, R35, R37, R44 to R46). -/

namespace Sys2Proof.Machine

/-! ## A token counts (R46) -/

theorem dspEvent_coreOf_other (s : State) {k j : Nat} (tag : Nat) (h : j ≠ k) : coreOf (dspEvent s k tag) j = coreOf s j := by
  rcases dspEvent_cases s k tag with e | ⟨p, e⟩ <;> rw [e]
  exact coreOf_modCore_other s k j _ h

@[simp] theorem dspEvent_seq (s : State) (k tag : Nat) : (coreOf (dspEvent s k tag) k).seq = (coreOf s k).seq := by
  rcases dspEvent_cases s k tag with e | ⟨p, e⟩ <;> simp [e]

theorem dspEvent_cores (s : State) (k tag : Nat) : ∃ cs, dspEvent s k tag = { s with cores := cs } := by
  rcases dspEvent_cases s k tag with e | ⟨p, e⟩
  · exact ⟨s.cores, e⟩
  · exact ⟨_, e⟩

/-- Entry `tag` of a token table takes one more token. -/
def addToken (q : SeqSt) (tag : Nat) : SeqSt := { q with tokens := tset q.tokens tag ((tget q.tokens tag).getD 0 + 1) }

theorem addToken_same (q : SeqSt) (tag : Nat) : (tget (addToken q tag).tokens tag).getD 0 = (tget q.tokens tag).getD 0 + 1 := by simp [addToken]

theorem addToken_other (q : SeqSt) {tag g : Nat} (h : g ≠ tag) : (tget (addToken q tag).tokens g).getD 0 = (tget q.tokens g).getD 0 := by
  simp [addToken, tget_tset_other _ _ _ _ h]

/-- A token below the bound counts at the core that holds its receiver, may set a pending bit there, and watchdogs settle. -/
theorem countToken_of_core {s : State} {dst : UAddr} {tag : Nat} (hdst : uLevel dst = 1 ∨ (uLevel dst = 0 ∧ uCore dst ≤ 5))
    (hn : coreTokens s (coreNo dst) tag < 255) :
    countToken s dst tag =
      settleDogs (dspEvent (modCore s (coreNo dst) (fun c => { c with seq := addToken c.seq tag })) (coreNo dst) tag) (coreUnit (coreNo dst)) := by
  have hlt : ¬ 255 ≤ (tget (coreOf s (coreNo dst)).seq.tokens tag).getD 0 := Nat.not_le.2 hn
  simp only [countToken, Bool.or_eq_true, Bool.and_eq_true, decide_eq_true_eq, hdst, if_true, hlt, if_false]
  rfl

/-- The same at the cluster of a receiver that lies in no core. -/
theorem countToken_of_cluster {s : State} {dst : UAddr} {tag : Nat} (hdst : uLevel dst = 2 ∨ (uLevel dst = 0 ∧ ¬ uCore dst ≤ 5))
    (hn : clusterTokens s (uCluster dst) tag < 255) :
    countToken s dst tag =
      settleDogs (modCluster s (uCluster dst) (fun c => { c with seq := addToken c.seq tag })) (clusterUnit (uCluster dst)) := by
  have hlt : ¬ 255 ≤ (tget (clusterOf s (uCluster dst)).seq.tokens tag).getD 0 := Nat.not_le.2 hn
  have hcore : ¬ (uLevel dst = 1 ∨ (uLevel dst = 0 ∧ uCore dst ≤ 5)) := by omega
  have hcluster : uLevel dst = 2 ∨ uLevel dst = 0 := by omega
  simp only [countToken, Bool.or_eq_true, Bool.and_eq_true, decide_eq_true_eq, hcore, if_false, hcluster, if_true, hlt]
  rfl

/-- A die and the package count no tokens. -/
theorem countToken_of_die {s : State} {dst : UAddr} (hdst : 3 ≤ uLevel dst) (tag : Nat) : countToken s dst tag = s := by
  have h0 : uLevel dst ≠ 0 := by omega
  have h1 : uLevel dst ≠ 1 := by omega
  have h2 : uLevel dst ≠ 2 := by omega
  simp [countToken, h0, h1, h2]

/-- What counting a token at core `k` leaves alone, and the entry that it counts in. -/
theorem countToken_coreUnit {s : State} {k tag : Nat} (hk : k < 48) (hn : coreTokens s k tag < 255) :
    let t := countToken s (coreUnit k) tag
    sameButCores s t ∧ coreTokens t k tag = coreTokens s k tag + 1 ∧ (∀ g, g ≠ tag → coreTokens t k g = coreTokens s k g) ∧
      ∀ j, j ≠ k → coreOf t j = coreOf s j := by
  intro t
  let s1 := modCore s k (fun c => { c with seq := addToken c.seq tag })
  have ht : t = settleDogs (dspEvent s1 k tag) (coreUnit k) := by
    have := countToken_of_core (.inl (coreUnit_level k hk)) (by rwa [coreUnit_no k hk] : coreTokens s (coreNo (coreUnit k)) tag < 255)
    rwa [coreUnit_no k hk] at this
  obtain ⟨⟨us, hus⟩, hdogs⟩ := dogsMoved_settleDogs (dspEvent s1 k tag) (coreUnit k)
  obtain ⟨cs, hcs⟩ := dspEvent_cores s1 k tag
  have hcore (j : Nat) : coreOf t j = coreOf (dspEvent s1 k tag) j := by rw [ht, hus]; rfl
  have hseq : (coreOf t k).seq = addToken (coreOf s k).seq tag := by simp [hcore, s1]
  refine ⟨⟨⟨cs, us, s.time.ticked, ?_⟩, fun u => ?_⟩, ?_, fun g hg => ?_, fun j hj => ?_⟩
  · rw [ht, hus, hcs]; rfl
  · have := hdogs u
    rwa [← ht, show unitOf (dspEvent s1 k tag) u = unitOf s u by rw [hcs]; rfl] at this
  · rw [coreTokens, hseq]; exact addToken_same _ _
  · rw [coreTokens, hseq]; exact addToken_other _ hg
  · rw [hcore, dspEvent_coreOf_other s1 tag hj]; exact coreOf_modCore_other s k j _ hj

/-- The same at cluster `k`. -/
theorem countToken_clusterUnit {s : State} {k tag : Nat} (hk : k < 8) (hn : clusterTokens s k tag < 255) :
    let t := countToken s (clusterUnit k) tag
    sameButClusters s t ∧ clusterTokens t k tag = clusterTokens s k tag + 1 ∧ (∀ g, g ≠ tag → clusterTokens t k g = clusterTokens s k g) ∧
      ∀ j, j ≠ k → clusterOf t j = clusterOf s j := by
  intro t
  let s1 := modCluster s k (fun c => { c with seq := addToken c.seq tag })
  have ht : t = settleDogs s1 (clusterUnit k) := by
    have := countToken_of_cluster (.inl (clusterUnit_level k hk))
      (by rwa [clusterUnit_no k hk] : clusterTokens s (uCluster (clusterUnit k)) tag < 255)
    rwa [clusterUnit_no k hk] at this
  obtain ⟨⟨us, hus⟩, hdogs⟩ := dogsMoved_settleDogs s1 (clusterUnit k)
  have hcluster (j : Nat) : clusterOf t j = clusterOf s1 j := by rw [ht, hus]; rfl
  have hseq : (clusterOf t k).seq = addToken (clusterOf s k).seq tag := by simp [hcluster, s1]
  refine ⟨⟨⟨s1.clusters, us, s.time.ticked, ?_⟩, fun u => ?_⟩, ?_, fun g hg => ?_, fun j hj => ?_⟩
  · rw [ht, hus]; rfl
  · have := hdogs u
    rwa [← ht] at this
  · rw [clusterTokens, hseq]; exact addToken_same _ _
  · rw [clusterTokens, hseq]; exact addToken_other _ hg
  · rw [hcluster]; exact clusterOf_modCluster_other s k j _ hj

/-! ## A token arrives (R22, R23, R37) -/

theorem arriving_of_oldest {s : State} {dst : UAddr} {tok : Tok} {c : Crossing} (h : Oldest s dst tok c) : arriving s dst tok = some c := by
  obtain ⟨hfind, hdst, htok, hopen⟩ := h
  simp [arriving, hfind, hdst, htok, hopen]

/-- The oldest token of its path leaves the crossing and takes effect. -/
theorem tokenArrive_of_oldest {s : State} {dst : UAddr} {tok : Tok} {c : Crossing} (h : Oldest s dst tok c) (t : Time) :
    tokenArrive (s.atTime t) dst tok = tokenEffect { s.atTime t with crossing := s.crossing.erase c } dst tok := by
  have harr : arriving (s.atTime t) dst tok = some c := arriving_of_oldest h
  simp [tokenArrive, harr]

/-- A token of a region of the I/O die takes effect. -/
theorem tokenArrive_of_die {s : State} {dst : UAddr} {tok : Tok} (h : arriving s dst tok = none) (hsrc : tokSource tok = dieUnit 2) (t : Time) :
    tokenArrive (s.atTime t) dst tok = tokenEffect (s.atTime t) dst tok := by
  have harr : arriving (s.atTime t) dst tok = none := h
  simp [tokenArrive, harr, hsrc]

/-- A token that is not the oldest of its path, and that no region of the I/O die sent, arrives nowhere. -/
theorem tokenArrive_of_none {s : State} {dst : UAddr} {tok : Tok} (h : arriving s dst tok = none) (hsrc : tokSource tok ≠ dieUnit 2) (t : Time) :
    tokenArrive (s.atTime t) dst tok = s.atTime t := by
  have harr : arriving (s.atTime t) dst tok = none := h
  simp [tokenArrive, harr, hsrc]

/-- READY, FENCE and TICK tokens count. -/
theorem tokenEffect_counts {tok : Tok} (h : tokKind tok = 1 ∨ tokKind tok = 4 ∨ tokKind tok = 5) (s : State) (dst : UAddr) :
    tokenEffect s dst tok = countToken s dst (tokTag tok) := by
  rcases h with h | h | h <;> simp [tokenEffect, h]

/-- The TICKs that have fired become `ts`. -/
def withTicked (s : State) (ts : List (UAddr × BitVec 8 × Time)) : State := { s with time := { s.time with ticked := ts } }

/-- The planned TICK of a receiver that runs, not fired yet at this instant, counts at the unit that stands for the receiver. -/
theorem exec_tickFire_due {s : State} {t : Time} {dst : UAddr} {tag : BitVec 8} {p : Plan} {x : TickPlan} (hrun : Active s)
    (hplan : planOf s = some p) (hx : x ∈ p.ticks) (hdst : x.dst = dst) (htag : x.tag = tag) (hdue : tickDue (s.atTime t) x.at_ = true)
    (hcopy : copyRuns s (homeOf s dst) = true) (hlast : lastTick s dst tag ≠ some (max s.time.now t)) :
    ∃ ts, exec (.tickFire dst tag t) s = .next (countToken (withTicked (s.atTime t) ts) (homeOf s dst) tag.toNat) := by
  have hany : p.ticks.any (fun y => y.dst == dst && y.tag == tag && tickDue (s.atTime t) y.at_) = true :=
    List.any_eq_true.2 ⟨x, hx, by simp [hdst, htag, hdue]⟩
  have hlast' : (lastTick (s.atTime t) dst tag != some (s.atTime t).time.now) = true := bne_iff_ne.2 hlast
  have hcopy' : copyRuns (s.atTime t) (homeOf (s.atTime t) dst) = true := hcopy
  have hplan' : planOf (s.atTime t) = some p := hplan
  have hkind : tokKind (mkToken (dieUnit 2) 5 tag.toNat (s.atTime t).time.now) = 5 := tokKind_mkToken ..
  have htok : tokTag (mkToken (dieUnit 2) 5 tag.toNat (s.atTime t).time.now) = tag.toNat := by
    rw [tokTag_mkToken]; exact Nat.mod_eq_of_lt tag.isLt
  refine ⟨(dst, tag, (s.atTime t).time.now) :: s.time.ticked.filter (fun x => !(x.1 == dst && x.2.1 == tag)), ?_⟩
  show execTickFire dst tag t s = _
  rw [execTickFire, timed_active hrun]
  simp only [hplan', Option.elim_some, hany, hcopy', hlast', Bool.and_self, if_true]
  rw [tokenEffect_counts (.inr (.inr hkind)), htok]
  rfl

/-- A TICK that the plan does not give at this instant does not fire. -/
theorem exec_tickFire_not_due {s : State} {t : Time} {dst : UAddr} {tag : BitVec 8} (hrun : Active s)
    (h : ∀ p x, planOf s = some p → x ∈ p.ticks → x.dst = dst → x.tag = tag → tickDue (s.atTime t) x.at_ = false) :
    exec (.tickFire dst tag t) s = .next (s.atTime t) := by
  have hdue : (planOf (s.atTime t)).elim false
      (fun p => p.ticks.any (fun x => x.dst == dst && x.tag == tag && tickDue (s.atTime t) x.at_)) = false := by
    rcases hp : planOf (s.atTime t) with _ | p
    · rfl
    · simp only [Option.elim_some, List.any_eq_false, Bool.and_eq_true, beq_iff_eq]
      rintro x hx ⟨⟨hdst, htag⟩, hat⟩
      exact absurd hat (by simp [h p x hp hx hdst htag])
  show execTickFire dst tag t s = _
  rw [execTickFire, timed_active hrun]
  simp [hdue]

/-- A READY, FENCE or TICK token with tag `tag` comes to `dst`: command `i` finds it, and takes it from the crossing where it crosses; `s0` is
the state then. -/
def TokenComes (s s0 : State) (t : Time) (tok : Tok) (dst : UAddr) (i : Instr) (tag : Nat) : Prop :=
  ((i = .readyToken dst tok t ∧ tokKind tok = 1 ∨ i = .fenceToken dst tok t ∧ tokKind tok = 4) ∧ tag = tokTag tok ∧
      ((∃ c, Oldest s dst tok c ∧ s0 = { s.atTime t with crossing := s.crossing.erase c }) ∨
        (arriving s dst tok = none ∧ tokSource tok = dieUnit 2 ∧ s0 = s.atTime t)) ∨
    ∃ (d0 : UAddr) (p : Plan) (x : TickPlan), homeOf s d0 = dst ∧ i = .tickFire d0 (BitVec.ofNat 8 tag) t ∧ planOf s = some p ∧
      x ∈ p.ticks ∧ x.dst = d0 ∧ x.tag = BitVec.ofNat 8 tag ∧ tickDue (s.atTime t) x.at_ = true ∧ copyRuns s dst = true ∧
      lastTick s d0 (BitVec.ofNat 8 tag) ≠ some (max s.time.now t) ∧ s0 = s.atTime t)

/-- A token that comes counts at its receiver; but for the record of TICKs that is all. -/
theorem TokenComes.counts {s s0 : State} {t : Time} {tok : Tok} {dst : UAddr} {i : Instr} {tag : Nat} (h : TokenComes s s0 t tok dst i tag)
    (hrun : Active s) (htag : tag < 256) : ∃ ts, exec i s = .next (countToken (withTicked s0 ts) dst tag) := by
  rcases h with ⟨hi, rfl, harr⟩ | ⟨d0, p, x, rfl, rfl, hplan, hx, hdst, hxt, hdue, hcopy, hlast, rfl⟩
  · refine ⟨s0.time.ticked, ?_⟩
    have hexec : exec i s = timed s t (fun s => tokenArrive s dst tok) := by rcases hi with ⟨rfl, -⟩ | ⟨rfl, -⟩ <;> rfl
    have hkind : tokKind tok = 1 ∨ tokKind tok = 4 ∨ tokKind tok = 5 := by rcases hi with ⟨-, hk⟩ | ⟨-, hk⟩ <;> simp [hk]
    rw [hexec, timed_active hrun]
    rcases harr with ⟨c, hc, rfl⟩ | ⟨hnone, hsrc, rfl⟩
    · rw [tokenArrive_of_oldest hc, tokenEffect_counts hkind]; rfl
    · rw [tokenArrive_of_die hnone hsrc, tokenEffect_counts hkind]; rfl
  · have hnat : (BitVec.ofNat 8 tag).toNat = tag := by simpa using htag
    obtain ⟨ts, hts⟩ := exec_tickFire_due hrun hplan hx hdst hxt hdue hcopy hlast
    exact ⟨ts, by rw [hts, hnat]⟩

/-- Its coming changes no token table. -/
theorem TokenComes.tables {s s0 : State} {t : Time} {tok : Tok} {dst : UAddr} {i : Instr} {tag : Nat} (h : TokenComes s s0 t tok dst i tag) :
    s0.cores = s.cores ∧ s0.clusters = s.clusters := by
  rcases h with ⟨-, -, ⟨c, -, rfl⟩ | ⟨-, -, rfl⟩⟩ | ⟨_, _, _, -, -, -, -, -, -, -, -, -, rfl⟩ <;> exact ⟨rfl, rfl⟩

theorem coreOf_of_cores {s t : State} (h : t.cores = s.cores) : coreOf t = coreOf s := by funext k; simp [coreOf, h]
theorem clusterOf_of_clusters {s t : State} (h : t.clusters = s.clusters) : clusterOf t = clusterOf s := by funext c; simp [clusterOf, h]

theorem sameButCores_of_ticked {s t : State} {ts : List (UAddr × BitVec 8 × Time)} (h : sameButCores (withTicked s ts) t) : sameButCores s t := by
  obtain ⟨⟨cs, us, ts', rfl⟩, hdogs⟩ := h
  exact ⟨⟨cs, us, ts', rfl⟩, hdogs⟩

theorem sameButClusters_of_ticked {s t : State} {ts : List (UAddr × BitVec 8 × Time)} (h : sameButClusters (withTicked s ts) t) :
    sameButClusters s t := by
  obtain ⟨⟨cs, us, ts', rfl⟩, hdogs⟩ := h
  exact ⟨⟨cs, us, ts', rfl⟩, hdogs⟩

/-! ## A step starts (R44, R45) -/

theorem sameRoutes_setSeq (s : State) (q : UAddr) (x : SeqSt) : SameRoutes s (setSeq s q x) := by
  unfold setSeq
  split <;> exact .of_units rfl rfl rfl

/-- STEP_START of a sequencer that does not run does nothing. -/
theorem exec_stepStart_not_running {s : State} {q : UAddr} (eng : UAddr) (t : Time) (hrun : Active s) (hq : canRun s q = false) :
    exec (.stepStart q eng t) s = .next (s.atTime t) := by
  have hq' : canRun (s.atTime t) q = false := hq
  show execStepStart q eng t s = _
  rw [execStepStart, timed_active hrun]
  simp [hq']

/-- A command word that reads bad stops the sequencer with a fault (R26, R274). -/
theorem exec_stepStart_bad {s : State} {q eng : UAddr} {g : Got} (t : Time) (hrun : Active s) (hvalid : unitValid q = true)
    (hlevel : uLevel q = 0) (hkind : uKind q = 6) (hq : canRun s q = true) (hbad : nextBad s q eng = some g) :
    exec (.stepStart q eng t) s = .next (engineFault (s.atTime t) q (badCause g) g.at_) := by
  have hq' : canRun (s.atTime t) q = true := hq
  have hbad' : nextBad (s.atTime t) q eng = some g := hbad
  show execStepStart q eng t s = _
  rw [execStepStart, timed_active hrun]
  simp [hq', hvalid, hlevel, hkind, hbad']

/-- The sequencer's state after it has started step `n` of the list for `eng`. -/
def startedSeq (s : State) (q eng : UAddr) (n : Nat) (st : AStep) : SeqSt :=
  markStarted { seqOf s q with tokens := awaitTake (seqOf s q).tokens st.await } eng n

/-- The next step of a list, not a matrix command, whose counts and credit are there starts: the counts are taken and the command is sent. -/
theorem exec_stepStart_starts {s : State} {q eng : UAddr} {n : Nat} {st : AStep} (t : Time) (hrun : Active s) (hvalid : unitValid q = true)
    (hlevel : uLevel q = 0) (hkind : uKind q = 6) (hq : canRun s q = true) (hgood : nextBad s q eng = none)
    (hnext : nextStep s q eng = some (n, st)) (hnotMa : ∀ w, st.cmd ≠ .ma w) (hmet : awaitMet (seqOf s q).tokens st.await = true)
    (hcredit : stepCredit s q [eng] st.cmd = true) :
    exec (.stepStart q eng t) s = .next (settleDogs (countUnit
      (stepSend (setSeq (s.atTime t) q (startedSeq s q eng n st)) q [eng] st.cmd) q 0x30 1) (parentOf q)) := by
  have hq' : canRun (s.atTime t) q = true := hq
  have hgood' : nextBad (s.atTime t) q eng = none := hgood
  have hnext' : nextStep (s.atTime t) q eng = some (n, st) := hnext
  have hports : stepPorts eng st.cmd = [eng] := by
    unfold stepPorts
    split
    · next w hw => exact absurd hw (hnotMa w)
    · rfl
  have hmet' : awaitMet (seqOf (s.atTime t) q).tokens st.await = true := hmet
  have hcredit' : stepCredit (s.atTime t) q [eng] st.cmd = true := hcredit
  show execStepStart q eng t s = _
  rw [execStepStart, timed_active hrun]
  simp [hq', hvalid, hlevel, hkind, hgood', hnext', hports, hmet', hcredit', awaitAll]
  rfl

/-- An engine command takes a credit of the engine that runs the list. -/
theorem stepSend_engine {cmd : StepCmd} (h : ∀ p, cmd ≠ .child p) (s : State) (q eng : UAddr) :
    stepSend s q [eng] cmd = spendCredit s (engineFor s eng) := by
  unfold stepSend
  split
  · next p => exact absurd rfl (h p)
  · rfl

theorem stepCredit_engine {cmd : StepCmd} (h : ∀ p, cmd ≠ .child p) {s : State} {q eng : UAddr} (hc : hasCredit s (engineFor s eng) = true) :
    stepCredit s q [eng] cmd = true := by
  have hall : ([eng].all fun u => hasCredit s (engineFor s u)) = true := by simpa using hc
  unfold stepCredit
  split
  · next p => exact absurd rfl (h p)
  · exact hall

theorem stepCredit_child {s : State} {q eng : UAddr} {p : BitVec 32} {v : UAddr} {sl : Slice} (htarget : childTarget s q p = some (v, sl))
    (hready : Ready s v) (hstalled : (unitOf s v).stalled = []) (hturn : turnOf s v sl = true) : stepCredit s q [eng] (.child p) = true := by
  have hc : hasCredit s v = true := hready
  simp [stepCredit, htarget, hc, hstalled, hturn]

end Sys2Proof.Machine

namespace Sys2Proof
open Machine

/-- Settles O7: a token that comes is counted by `countToken` and by nothing else, and STEP_START is evaluated once for a step that may
start. -/
theorem tokensAndSteps : Obligations.TokensAndSteps := by
  unfold Obligations.TokensAndSteps
  refine ⟨fun s s0 t tok dst i tag hrun htag hcomes => ?_, fun s t dst hrun => ⟨fun tok i harr hsrc hi => ?_, fun tag hnot => ?_⟩,
    fun s t q eng hrun hvalid hlevel hkind => ⟨fun hq => ?_, fun hq => ⟨fun g hbad => ?_, fun n st hgood hnext hnotMa hmet => ⟨?_, ?_⟩⟩⟩⟩
  · obtain ⟨ts, hexec⟩ := TokenComes.counts hcomes hrun htag
    obtain ⟨hcores, hclusters⟩ := TokenComes.tables hcomes
    have hcore : coreOf (withTicked s0 ts) = coreOf s := coreOf_of_cores hcores
    have hcluster : clusterOf (withTicked s0 ts) = clusterOf s := clusterOf_of_clusters hclusters
    refine ⟨fun k hk hdst hn => ?_, fun k hk hdst hn => ?_⟩ <;> subst hdst <;> refine ⟨_, hexec, ?_⟩
    · obtain ⟨hsame, hcount, hothers, hrest⟩ := countToken_coreUnit (s := withTicked s0 ts) hk (by rwa [coreTokens, hcore])
      simp only [coreTokens, hcore] at hcount hothers hrest
      exact ⟨sameButCores_of_ticked hsame, hcount, hothers, hrest⟩
    · obtain ⟨hsame, hcount, hothers, hrest⟩ := countToken_clusterUnit (s := withTicked s0 ts) hk (by rwa [clusterTokens, hcluster])
      simp only [clusterTokens, hcluster] at hcount hothers hrest
      exact ⟨sameButClusters_of_ticked hsame, hcount, hothers, hrest⟩
  · have hexec : exec i s = timed s t (fun s => tokenArrive s dst tok) := by
      simp only [List.mem_cons, List.not_mem_nil, or_false] at hi
      rcases hi with rfl | rfl | rfl | rfl | rfl <;> rfl
    rw [Completes, hexec, timed_active hrun, tokenArrive_of_none harr hsrc]
  · exact exec_tickFire_not_due hrun hnot
  · exact exec_stepStart_not_running eng t hrun hq
  · exact exec_stepStart_bad t hrun hvalid hlevel hkind hq hbad
  · intro hchild hready
    rw [Completes, exec_stepStart_starts t hrun hvalid hlevel hkind hq hgood hnext hnotMa hmet (stepCredit_engine hchild hready),
      stepSend_engine hchild, (sameRoutes_setSeq _ _ _).engineFor]
    rfl
  · intro p v sl hcmd htarget hready hstalled hturn
    rw [Completes, exec_stepStart_starts t hrun hvalid hlevel hkind hq hgood hnext hnotMa hmet
      (hcmd ▸ stepCredit_child htarget hready hstalled hturn), hcmd]
    have htarget' : childTarget (setSeq (s.atTime t) q (startedSeq s q eng n st)) q p = some (v, sl) := by
      rw [(sameRoutes_setSeq _ _ _).childTarget]; exact htarget
    simp only [stepSend, htarget', Option.elim_some]
    rfl

end Sys2Proof
end

section
/-! PROOFS. Tokens that units send, steps that end and slices that finish (R18, R24, R28, R45). -/

namespace Sys2Proof.Machine

/-! ## What sending leaves alone -/

/-- A state without its ports, the tokens on their way, the record of outputs and the items: what sending tokens leaves alone. -/
def unposted (s : State) : State := { s with units := [], crossing := [], out := [], items := [] }

/-- What only a recovery or a DONE changes in a port: its recovery state, its failed re-issues, its latest Dawn. -/
def bearing (x : UnitSt) : Phase × Nat × Bool × Time := (x.phase, x.failed, x.retrying, x.dawnAt)

/-- From `s` to `t` units post tokens and slices of unit `v` finish: but for ports, tokens and items nothing changes; ports keep their
bearing, and, where `v` is not the package, what they hold; no watchdog starts. -/
structure Posts (v : UAddr) (s t : State) : Prop where
  state : unposted t = unposted s
  bearing : ∀ u, bearing (unitOf t u) = bearing (unitOf s u)
  held : ∀ u, (u = v → uLevel v ≠ 4) → (unitOf t u).held = (unitOf s u).held
  rests : ∀ u, (unitOf s u).watchdog = none → (unitOf t u).watchdog = none

theorem Posts.refl (v : UAddr) (s : State) : Posts v s s := ⟨rfl, fun _ => rfl, fun _ _ => rfl, fun _ h => h⟩

theorem Posts.trans {v : UAddr} {s t r : State} (h : Posts v s t) (h' : Posts v t r) : Posts v s r :=
  ⟨h'.state.trans h.state, fun u => (h'.bearing u).trans (h.bearing u), fun u hu => (h'.held u hu).trans (h.held u hu),
    fun u hu => h'.rests u (h.rests u hu)⟩

theorem Posts.of_units {v : UAddr} {s t : State} (hstate : unposted t = unposted s) (hunits : t.units = s.units) : Posts v s t :=
  ⟨hstate, fun u => by simp [unitOf, hunits], fun u _ => by simp [unitOf, hunits], fun u => by simp [unitOf, hunits]⟩

theorem posts_modUnit (v : UAddr) (s : State) (u : UAddr) {f : UnitSt → UnitSt}
    (hf : ∀ x, Machine.bearing (f x) = Machine.bearing x ∧ ((u = v → uLevel v ≠ 4) → (f x).held = x.held) ∧
      (x.watchdog = none → (f x).watchdog = none)) :
    Posts v s (modUnit s u f) := by
  have hother {w : UAddr} (hw : w ≠ u) : unitOf (modUnit s u f) w = unitOf s w := unitOf_modUnit_other s u w f hw
  refine ⟨rfl, fun w => ?_, fun w h => ?_, fun w => ?_⟩ <;> by_cases hw : w = u
  · subst hw; rw [unitOf_modUnit_same]; exact (hf _).1
  · rw [hother hw]
  · subst hw; rw [unitOf_modUnit_same]; exact (hf _).2.1 h
  · rw [hother hw]
  · subst hw; rw [unitOf_modUnit_same]; exact (hf _).2.2
  · rw [hother hw]; exact id

theorem posts_sendToken (v : UAddr) (s : State) (src dst : UAddr) (kind tag value : Nat) : Posts v s (sendToken s src dst kind tag value) :=
  (posts_modUnit v s src (f := restartDog s.time.now) fun x => ⟨rfl, fun _ => rfl, fun h => by simp [restartDog, h]⟩).trans (.of_units rfl rfl)

theorem posts_freeSlot (v : UAddr) (s : State) (u dst : UAddr) : Posts v s (freeSlot s u dst) := by
  unfold freeSlot
  split
  · exact .refl v s
  · refine .trans (posts_modUnit v s u fun x => ?_) (posts_sendToken v _ u dst 2 0 1)
    exact ⟨rfl, fun _ => rfl, fun h => by simp [h]⟩

/-- A port forgets the child slices of slice `p`, and its own report of it. -/
def forgetKids (s : State) (p : Slice) (y : UnitSt) : UnitSt :=
  { y with kidsDone := y.kidsDone.filter fun k => !((kidsOf s p.pos).map fun k => ({ p with pos := k.1 } : Slice)).contains k && k != p }

/-- Below the package a slice that finishes sends its DONE token and frees its slot. -/
theorem finishSlice_below {u : UAddr} (hu : uLevel u ≠ 4) (s : State) (p : Slice) :
    finishSlice s u p = freeSlot (sendToken (modUnit s u (forgetKids s p)) u (parentOf u) 3 ((doneTag s p.pos).getD 0).toNat p.pos.toNat)
      u (parentOf u) := by
  simp only [finishSlice, hu, if_false]
  rfl

/-- The package gives up slice `p`, keeping those in `left`. -/
def giveUp (p : Slice) (left : List Slice) (y : UnitSt) : UnitSt :=
  { clearStatus y p with
    held := left, used := y.used - 1, cmds := y.cmds - 1
    watchdog := if left.isEmpty then none else y.watchdog, hold := if left.isEmpty then none else y.hold }

/-- A slice that finishes at the package is given up there, and items change. -/
theorem finishSlice_package {u : UAddr} (hu : uLevel u = 4) (s : State) (p : Slice) :
    ∃ left items, finishSlice s u p = { modUnit (modUnit s u (forgetKids s p)) u (giveUp p left) with items := items } := by
  simp only [finishSlice, hu, if_true]
  split <;> exact ⟨(unitOf (modUnit s u (forgetKids s p)) u).held.erase p, _, rfl⟩

/-- Only the package gives up what it holds when a slice of it is finished. -/
theorem posts_finishSlice {v u : UAddr} (h : uLevel u = 4 → u = v) (s : State) (p : Slice) : Posts v s (finishSlice s u p) := by
  have hkids : Posts v s (modUnit s u (forgetKids s p)) := posts_modUnit v s u fun x => ⟨rfl, fun _ => rfl, id⟩
  by_cases hu : uLevel u = 4
  · obtain ⟨left, items, he⟩ := finishSlice_package hu s p
    rw [he]
    refine hkids.trans (.trans (posts_modUnit v _ u (f := giveUp p left) fun x => ⟨rfl, fun hn => ?_, fun hw => ?_⟩) (.of_units rfl rfl))
    · exact absurd (h hu ▸ hu) (hn (h hu))
    · simp [giveUp, hw]
  · rw [finishSlice_below hu]
    exact hkids.trans ((posts_sendToken v _ u (parentOf u) 3 _ _).trans (posts_freeSlot v _ u (parentOf u)))

theorem posts_tryFinish {v u : UAddr} (h : uLevel u = 4 → u = v) (s : State) (p : Slice) : Posts v s (tryFinish s u p) := by
  simp only [tryFinish]
  split
  · exact posts_finishSlice h s p
  · exact .refl v s

theorem posts_ownDone {v u : UAddr} (h : uLevel u = 4 → u = v) (s : State) : Posts v s (ownDone s u) := by
  unfold ownDone
  split
  · exact .refl v s
  · next p _ =>
    refine .trans ?_ (posts_tryFinish h _ p)
    exact posts_modUnit v s u fun x => ⟨rfl, fun _ => rfl, id⟩

theorem posts_emitOne {v q : UAddr} (h : uLevel (parentOf q) = 4 → parentOf q = v) (eng : UAddr) (s : State) (e : Emit) :
    Posts v s (emitOne q eng s e) := by
  unfold emitOne
  split
  · exact posts_ownDone h s
  · exact posts_sendToken ..

theorem posts_emits {v q : UAddr} (h : uLevel (parentOf q) = 4 → parentOf q = v) (eng : UAddr) (es : List Emit) (s : State) :
    Posts v s (es.foldl (emitOne q eng) s) :=
  List.foldlRecOn (motive := Posts v s) es _ (.refl v s) fun _ ht e _ => ht.trans (posts_emitOne h eng _ e)

/-! ## Which tokens leave -/

theorem sendToken_crossing (s : State) (src dst : UAddr) (kind tag value : Nat) :
    (sendToken s src dst kind tag value).crossing = s.crossing ++ [outgoing s src dst kind tag value] := rfl

/-- A slot that frees sends its CREDIT token. -/
theorem freeSlot_crossing (s : State) (u dst : UAddr) : (freeSlot s u dst).crossing = s.crossing ++ creditOf s dst u := by
  unfold freeSlot creditOf
  split
  · simp
  · rfl

theorem creditOf_congr {s t : State} {u : UAddr} (h : (unitOf t u).cmds = (unitOf s u).cmds) (q : UAddr) : creditOf t q u = creditOf s q u := by
  simp [creditOf, h, outgoing]

/-- A slice that finishes below the package sends its DONE token and the CREDIT of its slot (R18, R28). -/
theorem finishSlice_crossing {s : State} {u : UAddr} (hu : uLevel u ≠ 4) (p : Slice) :
    (finishSlice s u p).crossing = s.crossing ++ [outgoing s u (parentOf u) 3 ((doneTag s p.pos).getD 0).toNat p.pos.toNat] ++
      creditOf s (parentOf u) u := by
  rw [finishSlice_below hu, freeSlot_crossing, sendToken_crossing]
  exact congrArg _ (creditOf_congr (by simp [sendToken, unitOf, modUnit, setUnit, restartDog, forgetKids]) _)

/-! ## Ports as tokens leave them -/

theorem sameRoutes_modUnit (s : State) (u : UAddr) {f : UnitSt → UnitSt} (hf : ∀ x, (f x).phase = x.phase ∧ (f x).held = x.held) :
    SameRoutes s (modUnit s u f) := by
  have hsame (v : UAddr) : (unitOf (modUnit s u f) v).phase = (unitOf s v).phase ∧ (unitOf (modUnit s u f) v).held = (unitOf s v).held := by
    by_cases hv : v = u
    · subst hv; rw [unitOf_modUnit_same]; exact hf _
    · rw [unitOf_modUnit_other s u v f hv]; exact ⟨rfl, rfl⟩
  exact ⟨rfl, rfl, fun v => (hsame v).1, fun v => (hsame v).2⟩

theorem sameRoutes_sendToken (s : State) (src dst : UAddr) (kind tag value : Nat) : SameRoutes s (sendToken s src dst kind tag value) :=
  (sameRoutes_modUnit s src (f := restartDog s.time.now) fun _ => ⟨rfl, rfl⟩).trans (.of_units rfl rfl rfl)

theorem sameRoutes_freeSlot (s : State) (u dst : UAddr) : SameRoutes s (freeSlot s u dst) := by
  unfold freeSlot
  split
  · exact .refl s
  · refine .trans (sameRoutes_modUnit s u ?_) (sameRoutes_sendToken _ u dst 2 0 1)
    exact fun _ => ⟨rfl, rfl⟩

theorem unitOf_freeSlot_other (s : State) {u v : UAddr} (dst : UAddr) (h : v ≠ u) : unitOf (freeSlot s u dst) v = unitOf s v := by
  unfold freeSlot
  split
  · rfl
  · exact (unitOf_modUnit_other _ u v _ h).trans (unitOf_modUnit_other s u v _ h)

@[simp] theorem unitOf_setSeq (s : State) (q : UAddr) (x : SeqSt) (u : UAddr) : unitOf (setSeq s q x) u = unitOf s u := by
  unfold setSeq
  split <;> rfl

/-! ## The tokens of a step (R45) -/

/-- The token `e` of the list that sequencer `q` holds for `eng`, as it enters its crossing. -/
def emission (s : State) (q eng : UAddr) (e : Emit) : Crossing :=
  outgoing s eng (homeOf s (inPlaceOf ((planList s q eng).elim (parentOf q) (fun l => parentOf l.seq)) (parentOf q) e.dst))
    e.kind.toNat e.tag.toNat e.value.toNat

theorem emission_congr {s t : State} (h : SameRoutes s t) (hf : t.fabric = s.fabric) (q eng : UAddr) (e : Emit) :
    emission t q eng e = emission s q eng e := by
  simp [emission, h.homeOf, h.planList, outgoing, writesOf, hf]

/-- Tokens other than DONE leave in the order in which the step lists them. -/
theorem emits_crossing (q eng : UAddr) (es : List Emit) : ∀ s, (∀ e ∈ es, e.kind ≠ 3) →
    (es.foldl (emitOne q eng) s).crossing = s.crossing ++ es.map (emission s q eng) := by
  induction es with
  | nil => simp
  | cons e es ih =>
    intro s h
    obtain ⟨he, hes⟩ := List.forall_mem_cons.1 h
    have hone : emitOne q eng s e = sendToken s eng (emission s q eng e).dst e.kind.toNat e.tag.toNat e.value.toNat := by
      rw [emitOne, if_neg he]; rfl
    have hroutes : SameRoutes s (emitOne q eng s e) := by rw [hone]; exact sameRoutes_sendToken ..
    have hsame (x : Emit) : emission (emitOne q eng s e) q eng x = emission s q eng x :=
      emission_congr hroutes (congrArg State.fabric (posts_emitOne (fun _ => rfl) eng s e).state :) q eng x
    rw [List.foldl_cons, ih _ hes, List.map_congr_left fun x _ => hsame x, hone, sendToken_crossing]
    simp [emission, outgoing]

/-- The DONE of a slice without child slices ends that slice. -/
theorem ownDone_crossing {s : State} {u : UAddr} {p : Slice} (hrun : runningSlice s u = some p) (hkids : kidsOf s p.pos = [])
    (hu : uLevel u ≠ 4) :
    (ownDone s u).crossing = s.crossing ++ [outgoing s u (parentOf u) 3 ((doneTag s p.pos).getD 0).toNat p.pos.toNat] ++
      creditOf s (parentOf u) u := by
  let s1 := modUnit s u (fun y => { y with kidsDone := y.kidsDone ++ [p] })
  have hroutes : SameRoutes s s1 := sameRoutes_modUnit s u fun _ => ⟨rfl, rfl⟩
  have hfinish : tryFinish s1 u p = finishSlice s1 u p := by
    simp [tryFinish, hroutes.kidsOf, hkids, s1]
  have hown : ownDone s u = finishSlice s1 u p := by rw [← hfinish]; simp [ownDone, hrun, s1]
  rw [hown, finishSlice_crossing hu, hroutes.doneTag, creditOf_congr (s := s) (by simp [s1])]
  rfl

/-! ## A step ends (R45) -/

/-- A state without what the end of a step can change. -/
def unstepped (s : State) : State := { unposted s with cores := [], clusters := [] }

/-- From `s` to `t` steps end and slices of unit `v` finish: as `Posts`, and cores and clusters change at most in the states of their
sequencers. -/
structure Steps (v : UAddr) (s t : State) : Prop where
  state : unstepped t = unstepped s
  core : ∀ k, coreOf t k = { coreOf s k with seq := (coreOf t k).seq }
  cluster : ∀ c, clusterOf t c = { clusterOf s c with seq := (clusterOf t c).seq }
  bearing : ∀ u, bearing (unitOf t u) = bearing (unitOf s u)
  held : ∀ u, (u = v → uLevel v ≠ 4) → (unitOf t u).held = (unitOf s u).held
  rests : ∀ u, (unitOf s u).watchdog = none → (unitOf t u).watchdog = none

theorem Steps.refl (v : UAddr) (s : State) : Steps v s s := ⟨rfl, fun _ => rfl, fun _ => rfl, fun _ => rfl, fun _ _ => rfl, fun _ h => h⟩

theorem Steps.trans {v : UAddr} {s t r : State} (h : Steps v s t) (h' : Steps v t r) : Steps v s r :=
  ⟨h'.state.trans h.state, fun k => by rw [h'.core k, h.core k], fun c => by rw [h'.cluster c, h.cluster c],
    fun u => (h'.bearing u).trans (h.bearing u), fun u hu => (h'.held u hu).trans (h.held u hu), fun u hu => h'.rests u (h.rests u hu)⟩

theorem Posts.coreOf {v : UAddr} {s t : State} (h : Posts v s t) : coreOf t = coreOf s := coreOf_of_cores (congrArg State.cores h.state :)
theorem Posts.clusterOf {v : UAddr} {s t : State} (h : Posts v s t) : clusterOf t = clusterOf s :=
  clusterOf_of_clusters (congrArg State.clusters h.state :)

theorem Posts.seqOf {v : UAddr} {s t : State} (h : Posts v s t) (q : UAddr) : seqOf t q = seqOf s q := by
  simp only [Machine.seqOf, h.coreOf, h.clusterOf]

theorem Posts.steps {v : UAddr} {s t : State} (h : Posts v s t) : Steps v s t :=
  ⟨by simp only [unstepped, h.state], fun k => by rw [h.coreOf], fun c => by rw [h.clusterOf], h.bearing, h.held, h.rests⟩

@[simp] theorem seqOf_setSeq (s : State) (q : UAddr) (x : SeqSt) : seqOf (setSeq s q x) q = x := by
  unfold setSeq seqOf
  split <;> simp

theorem steps_setSeq (v : UAddr) (s : State) (q : UAddr) (x : SeqSt) : Steps v s (setSeq s q x) := by
  have hunit (u : UAddr) : unitOf (setSeq s q x) u = unitOf s u := unitOf_setSeq s q x u
  have hstate : unstepped (setSeq s q x) = unstepped s := by unfold setSeq; split <;> rfl
  refine ⟨hstate, fun k => ?_, fun c => ?_, fun u => by rw [hunit], fun u _ => by rw [hunit], fun u => by rw [hunit]; exact id⟩ <;>
    unfold setSeq <;> split
  · by_cases hk : k = coreNo q
    · subst hk; simp
    · rw [coreOf_modCore_other s _ k _ hk]
  · rfl
  · rfl
  · by_cases hc : c = uCluster q
    · subst hc; simp
    · rw [clusterOf_modCluster_other s _ c _ hc]

theorem steps_finishStep {v q : UAddr} (h : uLevel (parentOf q) = 4 → parentOf q = v) (s : State) (eng : UAddr) (n : Nat) :
    Steps v s (finishStep s q eng n) := by
  simp only [finishStep]
  split
  · rcases (stepListOf (setSeq s q _) q eng)[n]? with _ | st
    · exact steps_setSeq ..
    · exact (steps_setSeq ..).trans (posts_emits h eng st.emits _).steps
  · exact .refl v s

theorem steps_completeStep {v q : UAddr} (h : uLevel (parentOf q) = 4 → parentOf q = v) (s : State) (eng u : UAddr) :
    Steps v s (completeStep s q eng [u]) := by
  have hfree : Steps v s (freeSlot s u q) := (posts_freeSlot v s u q).steps
  simp only [completeStep, List.foldl_cons, List.foldl_nil]
  split
  · exact hfree
  · exact hfree.trans (steps_finishStep h ..)

/-- The oldest running step of a list ends: its port's slot frees, the step leaves the list, and its tokens leave. -/
theorem completeStep_of_running {s : State} {q eng : UAddr} {n : Nat} {rest : List Nat} {l : StepList} {st : AStep}
    (hrun : tget (seqOf s q).running eng.toNat = some (n :: rest)) (hlist : planList s q eng = some l) (hstep : l.steps[n]? = some st)
    (u : UAddr) :
    completeStep s q eng [u] = st.emits.foldl (emitOne q eng) (setSeq (freeSlot s u q) q
      { seqOf s q with running := tset (seqOf s q).running eng.toNat rest }) := by
  have hseq : seqOf (freeSlot s u q) q = seqOf s q := (posts_freeSlot u s u q).seqOf q
  have hsteps (x : SeqSt) : stepListOf (setSeq (freeSlot s u q) q x) q eng = l.steps := by
    rw [(sameRoutes_setSeq ..).stepListOf, (sameRoutes_freeSlot s u q).stepListOf]; simp [stepListOf, hlist]
  simp [completeStep, hseq, hrun, finishStep, hsteps, hstep]

/-- Ending a step in a state that differs from `s` only in time and in its cores and clusters beside the sequencer. -/
theorem stepEnds_completeStep {s s0 : State} {q : UAddr} (hs0 : ∃ tm cs ks, s0 = { s with time := tm, cores := cs, clusters := ks })
    (hseq : seqOf s0 q = seqOf s q) (eng u : UAddr) : StepEnds s (completeStep s0 q eng [u]) q eng u := by
  intro n rest l st hrun hlist hstep
  obtain ⟨tm, cs, ks, rfl⟩ := hs0
  set s0 : State := { s with time := tm, cores := cs, clusters := ks }
  have hroutes : SameRoutes s s0 := .of_units rfl rfl rfl
  have hstate := completeStep_of_running (s := s0) (by rw [hseq]; exact hrun) (by rw [hroutes.planList]; exact hlist) hstep u
  set s1 := setSeq (freeSlot s0 u q) q { seqOf s0 q with running := tset (seqOf s0 q).running eng.toNat rest }
  have hroutes1 : SameRoutes s s1 := hroutes.trans ((sameRoutes_freeSlot ..).trans (sameRoutes_setSeq ..))
  have hsteps : Steps (parentOf q) s0 s1 := (posts_freeSlot ..).steps.trans (steps_setSeq ..)
  have hcrossing : s1.crossing = s.crossing ++ creditOf s q u := by
    have hset : s1.crossing = (freeSlot s0 u q).crossing := by
      show (setSeq _ _ _).crossing = _
      unfold setSeq; split <;> rfl
    rw [hset, freeSlot_crossing]; rfl
  have hend : unstepped (completeStep s0 q eng [u]) = unstepped s0 := (steps_completeStep (fun _ => rfl) s0 eng u).state
  refine ⟨?_, (congrArg State.mem hend :), (congrArg State.queues hend :), (congrArg State.faults hend :),
    fun hnot => ?_, fun e p hes hkind hp hkids hu hne => ?_⟩
  · rw [hstate, (posts_emits (fun _ => rfl) eng st.emits s1).seqOf q, seqOf_setSeq]
    simp
  · rw [hstate, emits_crossing q eng st.emits s1 hnot, hcrossing]
    congr 1
    refine List.map_congr_left fun e _ => ?_
    rw [emission_congr hroutes1 (congrArg State.fabric hsteps.state :)]
    simp [emission, hlist]
  · have hone : st.emits.foldl (emitOne q eng) s1 = ownDone s1 (parentOf q) := by simp [hes, emitOne, hkind]
    have hcmds : (unitOf s1 (parentOf q)).cmds = (unitOf s (parentOf q)).cmds := by
      rw [unitOf_setSeq, unitOf_freeSlot_other s0 q (Ne.symm hne)]; rfl
    rw [hstate, hone, ownDone_crossing (by rw [hroutes1.runningSlice]; exact hp) (by rw [hroutes1.kidsOf]; exact hkids) hu, hcrossing,
      hroutes1.doneTag, creditOf_congr hcmds]
    rfl

end Sys2Proof.Machine
end

section
/-! PROOFS. Commands that complete (O17; R24, R45, R111, R146, R236, R248, R251, R287). -/

namespace Sys2Proof.Machine

/-! ## The sequencers of cores and clusters -/

theorem sequencer_of_core : ∀ k, k < 48 → uCore (coreEng k 6 0) ≤ 5 ∧ coreNo (coreEng k 6 0) = k := by decide
theorem sequencer_of_cluster : ∀ c : BitVec 3, ¬ uCore (clusterEng c.toNat 7 6 0) ≤ 5 ∧ uCluster (clusterEng c.toNat 7 6 0) = c.toNat := by decide

theorem seqOf_core (s : State) {k : Nat} (hk : k < 48) : seqOf s (coreEng k 6 0) = (coreOf s k).seq := by
  obtain ⟨hcore, hno⟩ := sequencer_of_core k hk
  simp [seqOf, hcore, hno]

theorem seqOf_cluster (s : State) (c : BitVec 3) : seqOf s (clusterEng c.toNat 7 6 0) = (clusterOf s c.toNat).seq := by
  obtain ⟨hcore, hno⟩ := sequencer_of_cluster c
  simp [seqOf, hcore, hno]

/-! ## Ending a step of an engine whose own record has been updated -/

/-- In core `k` an engine's record is updated, the sequencer's state kept, and a step of its list ends. -/
theorem stepEnds_of_core (s : State) (t : Time) {k : Nat} (hk : k < 48) {f : CoreSt → CoreSt} (hf : (f (coreOf s k)).seq = (coreOf s k).seq)
    {eng u : UAddr} :
    StepEnds s (completeStep (modCore (s.atTime t) k f) (coreEng k 6 0) eng [u]) (coreEng k 6 0) eng u := by
  have hs0 : ∃ tm cs ks, modCore (s.atTime t) k f = { s with time := tm, cores := cs, clusters := ks } := ⟨_, _, _, rfl⟩
  exact stepEnds_completeStep hs0 (by rw [seqOf_core _ hk, seqOf_core _ hk, coreOf_modCore_same]; exact hf) eng u

/-- What the end of a step leaves of that core: all but the sequencer's state. -/
theorem coreOf_completeStep (s : State) (k : Nat) (f : CoreSt → CoreSt) (q eng u : UAddr) :
    ∃ x, coreOf (completeStep (modCore s k f) q eng [u]) k = { f (coreOf s k) with seq := x } := by
  have h := (steps_completeStep (v := parentOf q) (fun _ => rfl) (modCore s k f) eng u).core k
  rw [coreOf_modCore_same] at h
  exact ⟨_, h⟩

/-- In cluster `c` an engine's record is updated, the sequencer's state kept, and a step of its list ends. -/
theorem stepEnds_of_cluster (s : State) (t : Time) (c : BitVec 3) {f : ClusterSt → ClusterSt}
    (hf : (f (clusterOf s c.toNat)).seq = (clusterOf s c.toNat).seq) {eng u : UAddr} :
    StepEnds s (completeStep (modCluster (s.atTime t) c.toNat f) (clusterEng c.toNat 7 6 0) eng [u]) (clusterEng c.toNat 7 6 0) eng u := by
  have hs0 : ∃ tm cs ks, modCluster (s.atTime t) c.toNat f = { s with time := tm, cores := cs, clusters := ks } := ⟨_, _, _, rfl⟩
  exact stepEnds_completeStep hs0 (by rw [seqOf_cluster, seqOf_cluster, clusterOf_modCluster_same]; exact hf) eng u

theorem clusterOf_completeStep (s : State) (c : Nat) (f : ClusterSt → ClusterSt) (q eng u : UAddr) :
    ∃ x, clusterOf (completeStep (modCluster s c f) q eng [u]) c = { f (clusterOf s c) with seq := x } := by
  have h := (steps_completeStep (v := parentOf q) (fun _ => rfl) (modCluster s c f) eng u).cluster c
  rw [clusterOf_modCluster_same] at h
  exact ⟨_, h⟩

/-! ## The commands -/

section
variable {s : State} (t : Time) (hrun : Active s)
include hrun

theorem exec_veCommandComplete {k b : Nat} {rest : List Nat} (hk : k < 48) (hclock : clocked s (veUnit k) = true)
    (hbusy : (coreOf s k).veBusy = b :: rest) :
    exec (.veCommandComplete k t) s =
      .next (completeStep (modCore (s.atTime t) k fun x => { x with veBusy := rest }) (coreEng k 6 0) (veUnit k) [veUnit k]) := by
  have hclock' : clocked (s.atTime t) (veUnit k) = true := hclock
  show execVeCommandComplete k t s = _
  rw [execVeCommandComplete, timed_active hrun]
  simp [Nat.not_le.2 hk, hclock', hbusy]

theorem exec_maCommandComplete {k a b : Nat} {rest : List Nat} (hk : k < 48) (ha : a < 4) (hclock : clocked s (maUnit k a) = true)
    (hbusy : ((coreOf s k).arrays.getD a {}).busy = b :: rest) :
    exec (.maCommandComplete k a t) s = .next (completeStep
      (modCore (s.atTime t) k fun x => { x with arrays := lmod x.arrays a fun m => { m with busy := rest } })
      (coreEng k 6 0) (maUnit k a) [maUnit k a]) := by
  have hclock' : clocked (s.atTime t) (maUnit k a) = true := hclock
  show execMaCommandComplete k a t s = _
  rw [execMaCommandComplete, timed_active hrun]
  simp only [Nat.not_le.2 hk, Nat.not_le.2 ha, hclock', coreOf_atTime, hbusy, decide_false, Bool.not_true, Bool.or_self, Bool.false_eq_true, if_false]

theorem exec_dspRunComplete {k : Nat} (hk : k < 48) (hcmd : (dspOf s k).cmd.isSome = true) (hhalted : (dspOf s k).halted = true)
    (hslot : (dspOf s k).slot0 = false) (hclock : clocked s (deUnit k) = true) (hbound : (dspOf s k).cycle < boundCycles (dspOf s k)) :
    exec (.dspRunComplete k t) s = .next (completeStep
      (modCore (s.atTime t) k fun x => { x with dsp := { x.dsp with cmd := none, halted := false } }) (coreEng k 6 0) (deUnit k) [deUnit k]) := by
  have hclock' : clocked (s.atTime t) (deUnit k) = true := hclock
  have hdsp : dspOf (s.atTime t) k = dspOf s k := rfl
  show execDspRunComplete k t s = _
  rw [execDspRunComplete, timed_active hrun]
  simp only [hdsp, Nat.not_le.2 hk, hcmd, hhalted, hslot, hclock', Nat.not_le.2 hbound, decide_false, Bool.and_self, Bool.not_true, Bool.or_self,
    Bool.false_eq_true, if_false]
  rfl

theorem exec_dspNopCommand {k : Nat} {c : DspCmd} (hk : k < 48) (hserves : canRun s (deUnit k) = true) (hcmd : (dspOf s k).cmd = none)
    (hhalted : (dspOf s k).halted = false) (ha : c.rsvdA = 0) (hb : c.rsvdB = 0) :
    exec (.dspNopCommand k c) s = .next (completeStep s (coreEng k 6 0) (deUnit k) [deUnit k]) := by
  have hstopped : stopped s = false := hrun
  show execDspNopCommand k c s = _
  simp [execDspNopCommand, Nat.not_le.2 hk, hstopped, hserves, hcmd, hhalted, dspCmdOk, ha, hb]

theorem exec_ceCommandComplete {c : BitVec 3} {k : BitVec 1} {b : Nat} {rest : List Nat}
    (hclock : clocked s (engineFor s (ceUnit c.toNat k.toNat)) = true) (hbusy : ((clusterOf s c.toNat).ce.getD k.toNat {}).busy = b :: rest) :
    exec (.ceCommandComplete c k t) s = .next (completeStep
      (modCluster (s.atTime t) c.toNat fun x => { x with ce := lmod x.ce k.toNat fun e => { e with busy := rest } })
      (clusterEng c.toNat 7 6 0) (ceUnit c.toNat k.toNat) [engineFor s (ceUnit c.toNat k.toNat)]) := by
  have hclock' : clocked (s.atTime t) (engineFor (s.atTime t) (ceUnit c.toNat k.toNat)) = true := hclock
  show execCeCommandComplete c k t s = _
  rw [execCeCommandComplete, timed_active hrun]
  simp only [clusterOf_atTime, hbusy, hclock', Bool.not_true, Bool.false_eq_true, if_false]
  rfl

/-- A polar engine that is in place runs its own commands, so no borrowed command ends. -/
theorem exec_peCommandComplete {c : BitVec 3} {b : Nat} {rest : List Nat} (hbusy : (clusterOf s c.toNat).pe.busy = b :: rest)
    (hplace : unitGone s (peUnit c.toNat) = false) (hclock : clocked s (peUnit c.toNat) = true) :
    exec (.peCommandComplete c t) s = .next (completeStep
      (modCluster (s.atTime t) c.toNat fun x => { x with pe := { x.pe with busy := rest } })
      (clusterEng c.toNat 7 6 0) (peUnit c.toNat) [peUnit c.toNat]) := by
  have heng : engineFor (s.atTime t) (peUnit c.toNat) = peUnit c.toNat := by
    show engineFor s (peUnit c.toNat) = _
    simp [engineFor, hplace]
  have hclock' : clocked (s.atTime t) (peUnit c.toNat) = true := hclock
  let s1 := modPe (s.atTime t) c.toNat fun e => { e with busy := rest }
  have hsteps : Steps (parentOf (clusterEng c.toNat 7 6 0)) s1 (completeStep s1 (clusterEng c.toNat 7 6 0) (peUnit c.toNat) [peUnit c.toNat]) :=
    steps_completeStep (fun _ => rfl) ..
  have hgone : unitGone (completeStep s1 (clusterEng c.toNat 7 6 0) (peUnit c.toNat) [peUnit c.toNat]) (peUnit c.toNat) = false :=
    (unitGone_congr (fun v => congrArg Prod.fst (hsteps.bearing v)) _).trans hplace
  show execPeCommandComplete c t s = _
  rw [execPeCommandComplete, timed_active hrun]
  simp only [clusterOf_atTime, hbusy, heng, hclock', Bool.not_true, Bool.false_eq_true, if_false]
  rw [if_neg (by rw [hgone]; decide)]
  rfl

theorem exec_moverCommandComplete {c : BitVec 3} {m b : Nat} {rest : List Nat} (hbusy : (movOf s c.toNat m).eng.busy = b :: rest)
    (hflush : (movOf s c.toNat m).flushing = none) (hclock : clocked s (movUnit s c.toNat m) = true) :
    exec (.moverCommandComplete c m t) s = .next (completeStep
      (modCluster (s.atTime t) c.toNat fun x => { x with movers := lmod x.movers m fun y =>
        { y with eng := { y.eng with busy := rest }, toIssue := 0, outstanding := 0, flushing := none } })
      (clusterEng c.toNat 7 6 0) (moverUnit c.toNat m) [movUnit s c.toNat m]) := by
  have hclock' : clocked (s.atTime t) (movUnit (s.atTime t) c.toNat m) = true := hclock
  have hmov : movOf (s.atTime t) c.toNat m = movOf s c.toNat m := rfl
  show execMoverCommandComplete c m t s = _
  rw [execMoverCommandComplete, timed_active hrun]
  simp only [hmov, hbusy, hflush, hclock', Option.map_none, Option.getD_none, Bool.not_true, Bool.or_self, Bool.false_eq_true, if_false]
  rfl
end

theorem lt_length_of_getD_ne {α : Type} {l : List α} {i : Nat} {d : α} (h : l.getD i d ≠ d) : i < l.length := by
  by_contra hge
  exact h (List.getD_eq_default _ _ (Nat.not_lt.1 hge))

end Sys2Proof.Machine

namespace Sys2Proof
open Machine

/-- Settles O17: each command ends its step by `completeStep` after its engine's own record, which the sequencer does not read, has been
updated. -/
theorem commandsComplete : Obligations.CommandsComplete := by
  unfold Obligations.CommandsComplete
  intro s t hrun
  refine ⟨fun k b rest hk hclock hbusy => ?_, fun k a b rest hk ha hclock hbusy => ?_, fun k hk hcmd hhalted hslot hclock hbound => ?_,
    fun k c hk hserves hcmd hhalted ha hb => ?_, fun c k b rest hclock hbusy => ?_, fun c b rest hbusy hplace hclock => ?_,
    fun c m b rest hbusy hflush hclock => ?_⟩
  · obtain ⟨x, hx⟩ := coreOf_completeStep (s.atTime t) k (fun x => { x with veBusy := rest }) (coreEng k 6 0) (veUnit k) (veUnit k)
    exact ⟨_, exec_veCommandComplete t hrun hk hclock hbusy, stepEnds_of_core s t hk (by rfl), by rw [hx]⟩
  · obtain ⟨x, hx⟩ := coreOf_completeStep (s.atTime t) k (fun x => { x with arrays := lmod x.arrays a fun m => { m with busy := rest } })
      (coreEng k 6 0) (maUnit k a) (maUnit k a)
    have hlen : a < (coreOf (s.atTime t) k).arrays.length := lt_length_of_getD_ne (d := {}) fun e => by
      rw [coreOf_atTime] at e; rw [e] at hbusy; cases hbusy
    exact ⟨_, exec_maCommandComplete t hrun hk ha hclock hbusy, stepEnds_of_core s t hk (by rfl), by rw [hx, lmod_get_same _ _ _ _ hlen]⟩
  · obtain ⟨x, hx⟩ := coreOf_completeStep (s.atTime t) k (fun x => { x with dsp := { x.dsp with cmd := none, halted := false } })
      (coreEng k 6 0) (deUnit k) (deUnit k)
    exact ⟨_, exec_dspRunComplete t hrun hk hcmd hhalted hslot hclock hbound, stepEnds_of_core s t hk (by rfl), by rw [dspOf, hx]; rfl⟩
  · have hends : StepEnds s (completeStep s (coreEng k 6 0) (deUnit k) [deUnit k]) (coreEng k 6 0) (deUnit k) (deUnit k) :=
      stepEnds_completeStep ⟨s.time, s.cores, s.clusters, rfl⟩ rfl _ _
    refine ⟨_, exec_dspNopCommand hrun hk hserves hcmd hhalted ha hb, hends, ?_⟩
    rw [dspOf, (steps_completeStep (v := parentOf (coreEng k 6 0)) (fun _ => rfl) s (deUnit k) (deUnit k)).core k]
    rfl
  · obtain ⟨x, hx⟩ := clusterOf_completeStep (s.atTime t) c.toNat
      (fun x => { x with ce := lmod x.ce k.toNat fun e => { e with busy := rest } }) (clusterEng c.toNat 7 6 0) (ceUnit c.toNat k.toNat)
      (engineFor s (ceUnit c.toNat k.toNat))
    have hlen : k.toNat < (clusterOf (s.atTime t) c.toNat).ce.length := lt_length_of_getD_ne (d := {}) fun e => by
      rw [clusterOf_atTime] at e; rw [e] at hbusy; cases hbusy
    exact ⟨_, exec_ceCommandComplete t hrun hclock hbusy, stepEnds_of_cluster s t c (by rfl), by rw [hx, lmod_get_same _ _ _ _ hlen]⟩
  · obtain ⟨x, hx⟩ := clusterOf_completeStep (s.atTime t) c.toNat (fun x => { x with pe := { x.pe with busy := rest } })
      (clusterEng c.toNat 7 6 0) (peUnit c.toNat) (peUnit c.toNat)
    exact ⟨_, exec_peCommandComplete t hrun hbusy hplace hclock, stepEnds_of_cluster s t c (by rfl), by rw [hx]⟩
  · obtain ⟨x, hx⟩ := clusterOf_completeStep (s.atTime t) c.toNat
      (fun x => { x with movers := lmod x.movers m fun y =>
        { y with eng := { y.eng with busy := rest }, toIssue := 0, outstanding := 0, flushing := none } })
      (clusterEng c.toNat 7 6 0) (moverUnit c.toNat m) (movUnit s c.toNat m)
    have hlen : m < (clusterOf (s.atTime t) c.toNat).movers.length := lt_length_of_getD_ne (d := {}) fun e => by
      rw [clusterOf_atTime] at e; rw [movOf, e] at hbusy; cases hbusy
    refine ⟨_, exec_moverCommandComplete t hrun hbusy hflush hclock, stepEnds_of_cluster s t c (by rfl), ?_⟩
    rw [movOf, hx, lmod_get_same _ _ _ _ hlen]
    exact ⟨rfl, rfl, rfl⟩

end Sys2Proof
end

section
/-! PROOFS. What a memory out of canonical form does to an answer (O54; R302, R439, R443). -/

namespace Sys2Proof.Machine

/-- The WRITE of END to OCC_COMMAND over PCI Express, with TID 0. -/
def endWrite : ObjReq :=
  { who := .pcie, opcode := 2, index := 0x1400, sub := 4, view := false, tid := 0, payload := [2] }

/-- The device after reset, but for a memory that lists two bytes of the object window in falling order. -/
def disordered : State := { State.reset with mem := { State.reset.mem with cells := [(windowBase + 1, 1), (windowBase, 1)] } }

/-- `disordered` is what `MemOk` rules out. -/
theorem disordered_not_memOk : ¬ MemOk disordered := by unfold MemOk; decide

/-- END in NONE aborts with STATE. -/
theorem endWrite_aborted : (writeObj (disordered.atTime 0) endWrite).2.1 = abState := by decide

theorem exec_endWrite : exec (.occEnd endWrite 0) disordered = .next (answer (disordered.atTime 0) endWrite abState []) := by
  show execOccEnd endWrite 0 disordered = _
  have hclaim : claim (disordered.atTime 0) endWrite = some (disordered.atTime 0) := rfl
  rw [execOccEnd, timed_active rfl]
  simp only [serve, hclaim, endWrite_aborted]
  rfl

end Sys2Proof.Machine

namespace Sys2Proof
open Machine

/-- Refutes O54: no clause but that of replayed fabric writes assumes `MemOk`. In `disordered` END is aborted with STATE, and `Answered` asks
for the response frame in the object window, while the window keeps 1 where the frame has the low byte of TID 0. -/
theorem not_occupanciesEnd : ¬ Obligations.OccupanciesEnd := by
  unfold Obligations.OccupanciesEnd
  intro h
  have hrun : Active disordered := by unfold Active; decide
  have hserved : Served disordered endWrite := by unfold Served; decide
  obtain ⟨hrequests, -⟩ := h disordered 0 endWrite .ended hrun
  obtain ⟨hend, -⟩ := hrequests hserved rfl rfl rfl
  obtain ⟨habort, -⟩ := hend rfl
  obtain ⟨s', hexec, ⟨f, ⟨hlen, -, hhead⟩, -, -, hwindow⟩, -⟩ := habort (.inl rfl)
  obtain rfl : answer (disordered.atTime 0) endWrite abState [] = s' := Host.Outcome.next.inj (exec_endWrite.symm.trans hexec)
  have hread : cgets (answer (disordered.atTime 0) endWrite abState []).mem.cells windowBase 16 = f := by rw [← hwindow, hlen]; rfl
  subst hread
  exact absurd hhead (by decide)

end Sys2Proof
end

section
/-! PROOFS. What storing, reloading, recording faults and starting a slice leave alone (R26, R46, R153, R274, R292, R354, R371). -/

namespace Sys2Proof.Machine

/-! ## Storing and reloading -/

/-- A state without memories, cores, clusters and fuses: what storing, wiping and reloading leave alone. -/
def unstored (s : State) : State :=
  { s with mem := {}, cores := [], clusters := [], engMem := [], life := {}, cp := { s.cp with ram := [], ramCheck := [] } }

theorem unstored_foldl {α : Type} {f : State → α → State} (hf : ∀ s x, unstored (f s x) = unstored s) (l : List α) (s : State) :
    unstored (l.foldl f s) = unstored s :=
  List.foldlRecOn (motive := fun t => unstored t = unstored s) l f rfl fun _ h x _ => (hf _ x).trans h

@[simp] theorem unstored_modCore (s : State) (k : Nat) (f : CoreSt → CoreSt) : unstored (modCore s k f) = unstored s := rfl
@[simp] theorem unstored_modCluster (s : State) (c : Nat) (f : ClusterSt → ClusterSt) : unstored (modCluster s c f) = unstored s := rfl
@[simp] theorem unstored_copyRange (s : State) (src dst n : Nat) : unstored (copyRange s src dst n) = unstored s := rfl
@[simp] theorem unstored_wipeRange (s : State) (a n : Nat) : unstored (wipeRange s a n) = unstored s := rfl

@[simp] theorem unstored_clearErrs (s : State) (u : UAddr) (lo n : Nat) : unstored (clearErrs s u lo n) = unstored s := by
  unfold clearErrs
  split <;> rfl

@[simp] theorem unstored_placeLists (s : State) (p : Plan) (nom : UAddr) (d base : Nat) : unstored (placeLists s p nom d base) = unstored s := by
  unfold placeLists
  exact (unstored_foldl (fun _ _ => unstored_copyRange ..) _ _).trans (unstored_foldl (fun _ _ => unstored_copyRange ..) _ _)

@[simp] theorem unstored_takeMirrors (s : State) (holds : Region → Bool) : unstored (takeMirrors s holds) = unstored s := by
  unfold takeMirrors
  exact unstored_foldl (fun _ _ => unstored_copyRange ..) _ _

@[simp] theorem unstored_reloadCore (s : State) (k n : Nat) : unstored (reloadCore s k n) = unstored s := by
  unfold reloadCore
  split
  · rfl
  · simp

@[simp] theorem unstored_reloadClusterLists (s : State) (c n : Nat) : unstored (reloadClusterLists s c n) = unstored s := by
  unfold reloadClusterLists
  split
  · rfl
  · simp

@[simp] theorem unstored_reloadCluster (s : State) (c : Nat) : unstored (reloadCluster s c) = unstored s := by
  simp only [reloadCluster]
  split
  · simp
  · rw [unstored_foldl fun s n => unstored_reloadCore s _ _]; simp

@[simp] theorem unstored_loadPatch (s : State) : unstored (loadPatch s) = unstored s := by
  unfold loadPatch
  split <;> rfl

@[simp] theorem unstored_restorePatch (s : State) (d : Nat) : unstored (restorePatch s d) = unstored s := rfl

@[simp] theorem unstored_reloadUnit (s : State) (u : UAddr) : unstored (reloadUnit s u) = unstored s := by
  unfold reloadUnit
  split
  · simp
  · simp
  · split
    · exact (unstored_restorePatch ..).trans (unstored_foldl (fun _ _ => unstored_reloadCluster ..) _ _)
    · simp
  · rfl

/-! ## What a port carries through the start of a slice -/

/-- A port without its watchdog, its status words and its counts of faults. -/
def steadyPort (x : UnitSt) : UnitSt := { x with watchdog := none, hold := none, status := [], faults := 0, corrected := 0, lastFault := 0 }

/-- A state without what the start of a slice can change. -/
def unstarted (s : State) : State :=
  { unstored s with units := [], crossing := [], out := [], faults := [], lastFault := 0, pins := {}, pmu := {}, fabric := {} }

/-- The watchdog of `v` stands at `w`, and counts or has just stopped counting (R354). -/
def DogAt (s : State) (v : UAddr) (w : Time) : Prop :=
  (unitOf s v).watchdog = some w ∧ ((unitOf s v).hold = none ∨ (unitOf s v).hold = some s.time.now)

/-- From `s` to `t` slices start, faults are recorded and sequencer `q` may stop: ports carry on, and no watchdog but that of `q` is moved. -/
structure Starts (q : UAddr) (s t : State) : Prop where
  state : unstarted t = unstarted s
  port : ∀ v, steadyPort (unitOf t v) = steadyPort (unitOf s v)
  dog : ∀ v w, v ≠ q → DogAt s v w → DogAt t v w

theorem Starts.refl (q : UAddr) (s : State) : Starts q s s := ⟨rfl, fun _ => rfl, fun _ _ _ h => h⟩

theorem Starts.trans {q : UAddr} {s t r : State} (h : Starts q s t) (h' : Starts q t r) : Starts q s r :=
  ⟨h'.state.trans h.state, fun v => (h'.port v).trans (h.port v), fun v w hv hd => h'.dog v w hv (h.dog v w hv hd)⟩

theorem Starts.of_units {q : UAddr} {s t : State} (hstate : unstarted t = unstarted s) (hunits : t.units = s.units) : Starts q s t := by
  have htime : t.time = s.time := (congrArg State.time hstate :)
  refine ⟨hstate, fun v => ?_, fun v w _ => ?_⟩
  · simp [unitOf, hunits]
  · simp [DogAt, unitOf, hunits, htime]

theorem Starts.of_unstored {q : UAddr} {s t : State} (h : unstored t = unstored s) : Starts q s t :=
  .of_units (by simp only [unstarted, h]) (congrArg State.units h :)

theorem starts_modUnit (q : UAddr) (s : State) (u : UAddr) {f : UnitSt → UnitSt} (hport : ∀ x, steadyPort (f x) = steadyPort x)
    (hdog : u ≠ q → ∀ x, (f x).watchdog = x.watchdog ∧ (f x).hold = x.hold) : Starts q s (modUnit s u f) := by
  refine ⟨rfl, fun v => ?_, fun v w hv hd => ?_⟩ <;> by_cases h : v = u
  · subst h; rw [unitOf_modUnit_same]; exact hport _
  · rw [unitOf_modUnit_other s u v f h]
  · subst h
    obtain ⟨hw, hh⟩ := hdog hv (unitOf s v)
    rw [DogAt, unitOf_modUnit_same, hw, hh]; exact hd
  · rw [DogAt, unitOf_modUnit_other s u v f h]; exact hd

theorem starts_recordFaultAt (q : UAddr) (s : State) (u : UAddr) (cause : BitVec 8) (action : BitVec 4) (retry : Nat) (queue : BitVec 12)
    (seq : Seq) (address : Nat) : Starts q s (recordFaultAt s u cause action retry queue seq address) := by
  unfold recordFaultAt
  dsimp only
  refine .trans ?_ (starts_modUnit q _ u (fun _ => rfl) fun _ _ => ⟨rfl, rfl⟩)
  exact .of_units rfl rfl

theorem starts_recordFault (q : UAddr) (s : State) (u : UAddr) (cause : BitVec 8) (action : BitVec 4) (address : Nat) :
    Starts q s (recordFault s u cause action address) := by
  simp only [recordFault]
  split <;> exact starts_recordFaultAt ..

/-- A fault of sequencer `q` restarts no other unit's watchdog. -/
theorem starts_engineFault (q : UAddr) (s : State) (cause : BitVec 8) (address : Nat) : Starts q s (engineFault s q cause address) := by
  have hsend (s : State) (dst : UAddr) (kind tag value : Nat) : Starts q s (sendToken s q dst kind tag value) :=
    (starts_modUnit q s q (f := restartDog s.time.now) (fun _ => rfl) fun h => absurd rfl h).trans (.of_units rfl rfl)
  exact (starts_recordFault ..).trans (hsend ..)

theorem starts_orStatus (q : UAddr) (s : State) (u : UAddr) (sl : Slice) (w : BitVec 32) : Starts q s (orStatus s u sl w) := by
  unfold orStatus
  split
  · exact .refl q s
  · exact starts_modUnit q s u (fun _ => rfl) fun _ _ => ⟨rfl, rfl⟩

theorem starts_settleDog (q : UAddr) (s : State) (u : UAddr) : Starts q s (settleDog s u) := by
  have hmoved := dogsMoved_settleDog s u
  obtain ⟨⟨us, hus⟩, hsame⟩ := hmoved
  refine ⟨by rw [hus]; rfl, fun v => by rw [hsame v]; rfl, fun v w _ ⟨hw, hh⟩ => ?_⟩
  by_cases h : v = u
  · subst h
    rcases hh with hh | hh <;> simp only [settleDog, hw, hh] <;> split
    · exact ⟨by simp [hw], .inr (by simp)⟩
    · exact ⟨hw, .inl hh⟩
    · exact ⟨hw, .inr hh⟩
    · exact ⟨by simp, .inl (by simp)⟩
  · have hkeep : unitOf (settleDog s u) v = unitOf s v := by
      unfold settleDog
      split
      · split
        · exact unitOf_modUnit_other s u v _ h
        · rfl
      · split
        · rfl
        · exact unitOf_modUnit_other s u v _ h
      · rfl
    have htime : (settleDog s u).time = s.time := by rw [hus]
    rw [DogAt, hkeep, htime]; exact ⟨hw, hh⟩

theorem starts_settleDogs (q : UAddr) (s : State) (u : UAddr) : Starts q s (settleDogs s u) :=
  List.foldlRecOn (motive := Starts q s) _ settleDog (.refl q s) fun _ h v _ => h.trans (starts_settleDog q _ v)

theorem starts_sliceInputs (q : UAddr) (s : State) (u : UAddr) (sl : Slice) : Starts q s (sliceInputs s u sl) := by
  simp only [sliceInputs]
  split
  · refine .trans ?_ (starts_orStatus q _ u sl 1)
    exact .of_units rfl rfl
  · exact .of_units rfl rfl

theorem starts_loadWindows (s : State) (k : Nat) (pos : BitVec 32) : Starts (coreEng k 6 0) s (loadWindows s k pos) := by
  unfold loadWindows
  split
  · exact .of_unstored rfl
  · dsimp only
    split
    · refine .trans ?_ (starts_engineFault ..)
      exact .of_unstored rfl
    · exact .of_unstored rfl

/-- A slice starts on `u`: of all sequencers only a core's own can stop. -/
theorem starts_sliceStart {q : UAddr} {s : State} {u : UAddr} (h : uLevel u = 1 → coreEng (coreNo u) 6 0 = q) (sl : Slice) :
    Starts q s (sliceStart s u sl) := by
  have hinputs : Starts q s (sliceInputs (modUnit s u fun x => clearStatus x sl) u sl) := by
    refine .trans ?_ (starts_sliceInputs ..)
    exact starts_modUnit _ s u (fun _ => rfl) fun _ _ => ⟨rfl, rfl⟩
  unfold sliceStart
  dsimp only
  split
  · next hcore =>
    obtain rfl := h hcore
    refine hinputs.trans (.trans (.trans ?_ (starts_loadWindows _ (coreNo u) sl.pos)) (starts_settleDogs _ _ u))
    refine .of_unstored ?_
    split <;> simp
  · refine hinputs.trans (.trans ?_ (starts_settleDogs _ _ u))
    refine .of_unstored ?_
    split <;> simp
  · exact hinputs

end Sys2Proof.Machine
end

section
/-! PROOFS. Slices that a port takes, and the credits that free its slots (O8; R17, R18, R20, R22, R24, R54). -/

namespace Sys2Proof.Machine

/-! ## The units that serve -/

/-- Unit `v` is a core of the device. -/
def IsCore (v : UAddr) : Prop := ∃ k < 48, v = coreUnit k

theorem uCluster_of_valid {u : UAddr} (hvalid : unitValid u = true) (hlevel : uLevel u = 1 ∨ uLevel u = 2) : uCluster u < 8 := by
  rcases hlevel with h | h <;> simp [unitValid, h] at hvalid <;> simp only [uDie] at hvalid <;> simp only [uCluster] <;> omega

theorem uCore_of_valid {u : UAddr} (hvalid : unitValid u = true) (hlevel : uLevel u = 1) : uCore u ≤ 5 := by
  simp [unitValid, hlevel] at hvalid
  omega

/-- The next unit in service of a cyclic list is of the list. -/
theorem nextAlive_mem {s : State} {us : List UAddr} {i : Nat} {u : UAddr} (h : nextAlive s us i = some u) : u ∈ us := by
  obtain ⟨k, hk, rfl⟩ := List.mem_map.1 (List.mem_of_find?_eq_some h)
  have hpos : 0 < us.length := Nat.zero_lt_of_lt (List.mem_range.1 hk)
  rw [List.getD_eq_getElem _ _ (Nat.mod_lt _ hpos)]
  exact List.getElem_mem _

theorem servingCluster_lt (s : State) {c : Nat} (hc : c < 8) : servingCluster s c < 8 := by
  have hdie : (if dieOut s (c / 4) then 1 - c / 4 else c / 4) < 2 := by split <;> omega
  simp only [servingCluster]
  set d := if dieOut s (c / 4) then 1 - c / 4 else c / 4
  split
  · rcases h : nextAlive s ((List.range 4).map fun i => clusterUnit (4 * d + i)) (c % 4) with _ | v
    · rw [Option.getD_none, clusterUnit_no _ (by omega)]; omega
    · obtain ⟨i, hi, rfl⟩ := List.mem_map.1 (nextAlive_mem h)
      have hi4 := List.mem_range.1 hi
      rw [Option.getD_some, clusterUnit_no _ (by omega)]; omega
  · omega

theorem coresLeft_isCore {s : State} {c : Nat} (hc : c < 8) {v : UAddr} (h : v ∈ coresLeft s c) : IsCore v := by
  obtain ⟨n, hn, rfl⟩ := List.mem_map.1 (List.mem_filter.1 h).1
  have hn6 := List.mem_range.1 hn
  exact ⟨6 * c + n, by omega, rfl⟩

/-- A core's slices run on cores. -/
theorem servingUnit_isCore (s : State) {u : UAddr} (hvalid : unitValid u = true) (hlevel : uLevel u = 1) (pos : BitVec 32) :
    IsCore (servingUnit s u pos) := by
  have hcluster : servingCluster s (uCluster u) < 8 := servingCluster_lt s (uCluster_of_valid hvalid (.inl hlevel))
  have hcore : uCore u ≤ 5 := uCore_of_valid hvalid hlevel
  have hself : IsCore (coreUnit (6 * servingCluster s (uCluster u) + uCore u)) := ⟨_, by omega, rfl⟩
  simp only [servingUnit, hlevel]
  split
  · set left := coresLeft s (servingCluster s (uCluster u))
    set i := (movedOf s (servingCluster s (uCluster u)) (rowOf s pos)).idxOf pos % left.length
    by_cases hi : i < left.length
    · rw [List.getD_eq_getElem _ _ hi]; exact coresLeft_isCore hcluster (List.getElem_mem hi)
    · rw [List.getD_eq_default _ _ (by omega)]; exact hself
  · exact hself

/-- The units that serve a core are cores, and only those. -/
theorem isCore_of_serving {s : State} {unit u : UAddr} {pos : BitVec 32} (hvalid : unitValid unit = true)
    (hu : servingUnit s unit pos = u) (hlevel : uLevel u = 1) : IsCore u := by
  subst hu
  by_cases h1 : uLevel unit = 1
  · exact servingUnit_isCore s hvalid h1 pos
  · exfalso
    by_cases h2 : uLevel unit = 2
    · have hcluster := servingCluster_lt s (uCluster_of_valid hvalid (.inr h2))
      simp [servingUnit, h2, clusterUnit_level _ hcluster] at hlevel
    · by_cases h3 : uLevel unit = 3
      · have hdie : uLevel (dieUnit (1 - uDie unit)) = 3 := dieUnit_level _ (by omega)
        simp only [servingUnit, h3] at hlevel
        split at hlevel <;> omega
      · have hself : servingUnit s unit pos = unit := by unfold servingUnit; split <;> simp_all
        exact h1 (hself ▸ hlevel)

/-- A core is no sequencer. -/
theorem IsCore.ne_sequencer {v : UAddr} (h : IsCore v) : v ≠ coreEng (coreNo v) 6 0 := by
  obtain ⟨k, hk, rfl⟩ := h
  exact (by decide : ∀ k < 48, coreUnit k ≠ coreEng (coreNo (coreUnit k)) 6 0) k hk

/-! ## A port takes a slice -/

theorem tset_tset {α : Type} (t : Tbl α) (k : Nat) (v w : α) : tset (tset t k v) k w = tset t k w := by
  induction t with
  | nil => simp [tset]
  | cons p t ih =>
    obtain ⟨j, x⟩ := p
    rcases Nat.lt_trichotomy k j with h | h | h
    · simp [tset, h]
    · simp [tset, h]
    · simp [tset, Nat.not_lt.2 h.le, Nat.ne_of_gt h, ih]

@[simp] theorem setUnit_setUnit (s : State) (u : UAddr) (x y : UnitSt) : setUnit (setUnit s u x) u y = setUnit s u y := by
  simp [setUnit, tset_tset]

/-- Whose turn it is hangs on routes and on the child slices that are done. -/
theorem SameRoutes.turnOf {s t : State} (h : SameRoutes s t) (hkids : ∀ v, (unitOf t v).kidsDone = (unitOf s v).kidsDone) :
    turnOf t = turnOf s := by
  funext u sl
  simp [Machine.turnOf, sentTo, h.rowOf, h.nominalOf, h.servingUnit, h.held, hkids]

theorem SameRoutes.hasCredit {s t : State} (h : SameRoutes s t) (hused : ∀ v, (unitOf t v).used = (unitOf s v).used) :
    hasCredit t = hasCredit s := by
  funext u
  simp [Machine.hasCredit, h.inService, hused]

/-- The port of `u` with the stalled slices `l`. -/
def restall (s : State) (u : UAddr) (l : List Slice) : State := setUnit s u { unitOf s u with stalled := l }

theorem unitOf_restall (s : State) (u : UAddr) (l : List Slice) (v : UAddr) :
    unitOf (restall s u l) v = { unitOf s v with stalled := (unitOf (restall s u l) v).stalled } := by
  by_cases h : v = u
  · subst h; simp [restall]
  · rw [restall, unitOf_setUnit_other s u v _ h]

theorem sameRoutes_restall (s : State) (u : UAddr) (l : List Slice) : SameRoutes s (restall s u l) :=
  ⟨rfl, rfl, fun v => by rw [unitOf_restall], fun v => by rw [unitOf_restall]⟩

@[simp] theorem turnOf_restall (s : State) (u : UAddr) (l : List Slice) : turnOf (restall s u l) = turnOf s :=
  (sameRoutes_restall s u l).turnOf fun v => by rw [unitOf_restall]

@[simp] theorem hasCredit_restall (s : State) (u : UAddr) (l : List Slice) : hasCredit (restall s u l) = hasCredit s :=
  (sameRoutes_restall s u l).hasCredit fun v => by rw [unitOf_restall]

/-- A port without stalled slices sends nothing. -/
theorem sendStalled_of_empty {s : State} {u : UAddr} (h : (unitOf s u).stalled = []) (n : Nat) : sendStalled n s u = s := by
  cases n <;> simp [sendStalled, h]

/-- A port with a slot takes a slice whose turn has come where none is stalled. -/
theorem sendSlice_accepts {s : State} {u : UAddr} {sl : Slice} (hready : Ready s u) (hempty : (unitOf s u).stalled = [])
    (hturn : turnOf s u sl = true) : sendSlice s u sl = acceptSlice (setUnit s u (unitOf s u)) u sl := by
  have hcredit : hasCredit s u = true := hready
  have hstall : modUnit s u (fun x => { x with stalled := x.stalled ++ [sl] }) = restall s u [sl] := by simp [modUnit, restall, hempty]
  have hback : modUnit (restall s u [sl]) u (fun x => { x with stalled := x.stalled.erase sl }) = setUnit s u (unitOf s u) := by
    simp [modUnit, restall, ← hempty]
  have hheld : (unitOf (restall s u [sl]) u).stalled = [sl] := by simp [restall]
  simp [sendSlice, hstall, hempty, sendStalled, hheld, hturn, hcredit, hback]

/-- A slice stalls where the port has no slot, or no stalled slice's turn has come. -/
theorem sendSlice_stalls {s : State} {u : UAddr} {sl : Slice}
    (h : ¬ Ready s u ∨ ∀ x ∈ (unitOf s u).stalled ++ [sl], turnOf s u x = false) :
    sendSlice s u sl = restall s u ((unitOf s u).stalled ++ [sl]) := by
  have hstall : modUnit s u (fun x => { x with stalled := x.stalled ++ [sl] }) = restall s u ((unitOf s u).stalled ++ [sl]) := rfl
  have hheld : (unitOf (restall s u ((unitOf s u).stalled ++ [sl])) u).stalled = (unitOf s u).stalled ++ [sl] := by simp [restall]
  rw [sendSlice, hstall, sendStalled, hheld, turnOf_restall, hasCredit_restall]
  rcases h with hready | hturn
  · have hcredit : hasCredit s u = false := Bool.eq_false_iff.2 hready
    split
    · simp [hcredit]
    · rfl
  · have hnone : ((unitOf s u).stalled ++ [sl]).find? (turnOf s u) = none := List.find?_eq_none.2 fun x hx => by simp [hturn x hx]
    rw [hnone]

/-- The port that holds slice `sl` after `held`, with its watchdog started at `now` where it did not run. -/
def taking (x : UnitSt) (now : Time) (sl : Slice) : UnitSt :=
  { x with used := x.used + 1, cmds := x.cmds + 1, held := x.held ++ [sl], watchdog := some (x.watchdog.getD now) }

theorem acceptSlice_eq (s : State) (u : UAddr) (x : UnitSt) (sl : Slice) :
    acceptSlice (setUnit s u x) u sl =
      if x.held.isEmpty then sliceStart (setUnit s u (taking x s.time.now sl)) u sl else setUnit s u (taking x s.time.now sl) := by
  have hdog : (if x.watchdog.isSome then x.watchdog else some s.time.now) = some (x.watchdog.getD s.time.now) := by
    cases x.watchdog <;> rfl
  simp [acceptSlice, modUnit, taking, hdog]

/-- A unit of the package, or one that a slice of its parent gives the slice to, is sent that slice. -/
theorem exec_unitCommand_sent {s : State} {unit u : UAddr} {sl : Slice} (t : Time) (hrun : Active s) (hvalid : unitValid unit = true)
    (hu : servingUnit s unit sl.pos = u) (hsent : unit = packageUnit ∨ distributes s u unit sl = true) :
    exec (.unitCommand unit sl t) s = .next (sendSlice (s.atTime t) u sl) := by
  have hroutes : SameRoutes s (s.atTime t) := .of_units rfl rfl rfl
  have hdist : distributes (s.atTime t) = distributes s := by funext v unit sl; simp [distributes, hroutes.kidsOf, unitOf]
  show execUnitCommand unit sl t s = _
  rw [execUnitCommand, timed_active hrun]
  simp [hroutes.servingUnit, hdist, hvalid, hu, hsent]

/-- What nothing distributes is not sent. -/
theorem exec_unitCommand_not_sent {s : State} {unit u : UAddr} {sl : Slice} (t : Time) (hrun : Active s)
    (hu : servingUnit s unit sl.pos = u) (hunit : unit ≠ packageUnit) (hnot : distributes s u unit sl = false) :
    exec (.unitCommand unit sl t) s = .next (s.atTime t) := by
  have hroutes : SameRoutes s (s.atTime t) := .of_units rfl rfl rfl
  have hdist : distributes (s.atTime t) = distributes s := by funext v unit sl; simp [distributes, hroutes.kidsOf, unitOf]
  show execUnitCommand unit sl t s = _
  rw [execUnitCommand, timed_active hrun]
  simp [hroutes.servingUnit, hdist, hu, hunit, hnot]

/-- The port after a slice has started on it: it holds what it took, and its watchdog stands where it stood. -/
theorem sliceStart_port {s : State} {u : UAddr} (hcore : uLevel u = 1 → IsCore u) (x : UnitSt) (sl : Slice) {w : Time}
    (hdog : x.watchdog = some w) (hhold : x.hold = none) :
    let t := sliceStart (setUnit s u x) u sl
    unstarted t = unstarted s ∧ steadyPort (unitOf t u) = steadyPort x ∧ (unitOf t u).watchdog = some w ∧
      ∀ v, v ≠ u → steadyPort (unitOf t v) = steadyPort (unitOf s v) := by
  intro t
  have hstarts : Starts (if uLevel u = 1 then coreEng (coreNo u) 6 0 else u + 1) (setUnit s u x) t :=
    starts_sliceStart (fun h => by simp [h]) sl
  have hne : u ≠ if uLevel u = 1 then coreEng (coreNo u) 6 0 else u + 1 := by
    split
    · next h => exact (hcore h).ne_sequencer
    · intro h; simp at h
  refine ⟨hstarts.state, ?_, ?_, fun v hv => ?_⟩
  · rw [hstarts.port, unitOf_setUnit_same]
  · exact (hstarts.dog u w hne ⟨by simp [hdog], .inl (by simp [hhold])⟩).1
  · rw [hstarts.port, unitOf_setUnit_other s u v x hv]

/-! ## A CREDIT token arrives -/

/-- A CREDIT token of a port in service without stalled slices frees as many slots as it says. -/
theorem creditArrive_frees {s : State} {src : UAddr} {n : Nat} (h1 : 1 ≤ n) (h16 : n ≤ 16) (hused : n ≤ (unitOf s src).used)
    (hserves : inService s src = true) (hempty : (unitOf s src).stalled = []) (dst : UAddr) :
    creditArrive s dst src n = setUnit s src { unitOf s src with used := (unitOf s src).used - n } := by
  obtain ⟨⟨hlive, hgone⟩, hdown⟩ : ((unitOf s src).phase = .live ∧ unitGone s src = false) ∧ parentDown s src = false := by
    simpa [inService] using hserves
  have hrange : ¬ (n = 0 || 16 < n) = true := by simp; omega
  have hserves' : ¬ ((unitOf s src).phase ≠ .live || unitGone s src || parentDown s src) = true := by simp [hlive, hgone, hdown]
  have hsend : sendStalled 32 (modUnit s src fun x => { x with used := x.used - n }) src = modUnit s src fun x => { x with used := x.used - n } :=
    sendStalled_of_empty (by simpa using hempty) 32
  rw [creditArrive, if_neg hrange, if_neg hserves', if_neg (Nat.not_lt.2 hused), hsend]
  rfl

/-- A CREDIT token of no credits, or of more than 16, is discarded with a record of its receiver. -/
theorem creditArrive_discards {n : Nat} (h : n = 0 ∨ 16 < n) (s : State) (dst src : UAddr) :
    creditArrive s dst src n = recordFaultAt s dst causeProtocol 0 0 0 0 0 := by
  simp [creditArrive, h]

theorem exec_creditToken_of_oldest {s : State} {dst : UAddr} {tok : Tok} {c : Crossing} (t : Time) (hrun : Active s) (h : Oldest s dst tok c)
    (hkind : tokKind tok = 2) :
    exec (.creditToken dst tok t) s =
      .next (creditArrive { s.atTime t with crossing := s.crossing.erase c } dst (tokSource tok) (tokValue tok)) := by
  show execCreditToken dst tok t s = _
  rw [execCreditToken, timed_active hrun, tokenArrive_of_oldest h]
  simp [tokenEffect, hkind]

end Sys2Proof.Machine
end

section
/-! PROOFS. DONE tokens, and what comes and goes at a port (O8; R18, R28, R29). -/

namespace Sys2Proof.Machine

/-! ## What counting leaves alone -/

theorem countEvent_pmu (s : State) (rec ev inst v : Nat) : ∃ pm, countEvent s rec ev inst v = { s with pmu := pm } := by
  unfold countEvent
  split
  · exact ⟨s.pmu, rfl⟩
  · split
    · exact ⟨s.pmu, rfl⟩
    · exact ⟨_, rfl⟩

theorem countUnit_pmu (s : State) (u : UAddr) (ev v : Nat) : ∃ pm, countUnit s u ev v = { s with pmu := pm } := by
  unfold countUnit
  split
  · exact countEvent_pmu ..
  · exact ⟨s.pmu, rfl⟩

theorem sliceEnd_frame (s : State) (u : UAddr) : ∃ cs ks pm, sliceEnd s u = { s with cores := cs, clusters := ks, pmu := pm } := by
  unfold sliceEnd
  dsimp only
  split
  · obtain ⟨pm, h⟩ := countUnit_pmu (modCore s (coreNo u) _) (coreEng (coreNo u) 6 0) 0x31 _
    exact ⟨_, _, pm, h⟩
  · obtain ⟨pm, h⟩ := countUnit_pmu (modCluster s (uCluster u) _) (clusterEng (uCluster u) 7 6 0) 0x31 _
    exact ⟨_, _, pm, h⟩
  · exact ⟨s.cores, s.clusters, s.pmu, rfl⟩

/-- A token below the bounds of its receiver's tables counts in a table, and watchdogs move. -/
theorem countToken_frame {s : State} {dst : UAddr} {tag : Nat} (hcore : coreTokens s (coreNo dst) tag < 255)
    (hcluster : clusterTokens s (uCluster dst) tag < 255) :
    ∃ cs ks, DogsMoved { s with cores := cs, clusters := ks } (countToken s dst tag) := by
  by_cases hdie : 3 ≤ uLevel dst
  · rw [countToken_of_die hdie]
    exact ⟨s.cores, s.clusters, .refl s⟩
  · by_cases hlevel : uLevel dst = 1 ∨ (uLevel dst = 0 ∧ uCore dst ≤ 5)
    · rw [countToken_of_core hlevel hcore]
      set s1 := modCore s (coreNo dst) fun c => { c with seq := addToken c.seq tag }
      obtain ⟨cs, hcs⟩ := dspEvent_cores s1 (coreNo dst) tag
      have hmoved := dogsMoved_settleDogs (dspEvent s1 (coreNo dst) tag) (coreUnit (coreNo dst))
      rw [show dspEvent s1 (coreNo dst) tag = { s with cores := cs, clusters := s.clusters } from hcs] at hmoved ⊢
      exact ⟨cs, s.clusters, hmoved⟩
    · rw [countToken_of_cluster (by omega) hcluster]
      exact ⟨_, _, dogsMoved_settleDogs (modCluster s _ _) _⟩

theorem kidsOf_of_occ {s t : State} (h : t.occ = s.occ) : kidsOf t = kidsOf s := by funext pos; simp [kidsOf, planOf, h]
theorem doneTag_of_occ {s t : State} (h : t.occ = s.occ) : doneTag t = doneTag s := by funext pos; simp [doneTag, planOf, h]

/-! ## A child ends its slice (R28, R29) -/

/-- The port of a child that ends slice `sl` and keeps `rest`. -/
def endedPort (sl : Slice) (rest : List Slice) (x : UnitSt) : UnitSt :=
  { clearStatus x sl with
    held := rest, failed := 0, retrying := false
    watchdog := if rest.isEmpty then none else x.watchdog, hold := if rest.isEmpty then none else x.hold }

/-- Child `src` ends slice `sl`. -/
def childEnds (s : State) (src : UAddr) (sl : Slice) : State :=
  let ended := if (unitOf s src).held.head? == some sl then sliceEnd s src else s
  modUnit (if bitOf (sliceStatus s src sl) 0 then markSat ended sl else ended) src (endedPort sl ((unitOf s src).held.erase sl))

/-- Child `src` begins the next slice that it holds, if the one it ended was the one that ran. -/
def childBegins (s : State) (src : UAddr) (ran : Bool) : State :=
  (unitOf s src).held.head?.elim s fun next => if ran then sliceStart s src next else s

/-- The slice of `dst` that child slice `sl` belongs to. -/
def parentSlice (s : State) (dst : UAddr) (sl : Slice) : Option Slice :=
  (unitOf s dst).held.find? fun p => p.queue == sl.queue && p.seq == sl.seq && (kidsOf s p.pos).any fun k => k.1 == sl.pos

/-- Parent `dst` notes child slice `sl`, which ended with status `w`: the step that sent it completes, and the parent's slice may finish. -/
def parentHears (s : State) (dst : UAddr) (sl : Slice) (w : BitVec 32) : State :=
  let noted := modUnit s dst fun y => { y with kidsDone := y.kidsDone ++ [sl] }
  match parentSlice noted dst sl with
  | none => noted
  | some p =>
    let told := orStatus noted dst p w
    tryFinish (if uLevel dst = 2 then
      (childSteps told dst sl.pos).foldl (fun s c => finishStep s (sequencerOf dst) c.1 c.2) told else told) dst p

theorem childEnds_frame (s : State) (src : UAddr) (sl : Slice) : ∃ cs ks pm is, childEnds s src sl =
    modUnit { s with cores := cs, clusters := ks, pmu := pm, items := is } src (endedPort sl ((unitOf s src).held.erase sl)) := by
  obtain ⟨cs, ks, pm, hend⟩ : ∃ cs ks pm, (if (unitOf s src).held.head? == some sl then sliceEnd s src else s) =
      { s with cores := cs, clusters := ks, pmu := pm } := by
    split
    · exact sliceEnd_frame s src
    · exact ⟨s.cores, s.clusters, s.pmu, rfl⟩
  simp only [childEnds, hend]
  split <;> exact ⟨cs, ks, pm, _, rfl⟩

theorem doneArrive_eq {s : State} {dst src : UAddr} {pos : BitVec 32} {sl : Slice}
    (h : (unitOf s src).held.find? (fun x => x.pos == pos) = some sl) :
    doneArrive s dst src pos = parentHears (childBegins (childEnds s src sl) src ((unitOf s src).held.head? == some sl)) dst sl
      (sliceStatus s src sl) := by
  have hpos : sl.pos = pos := by simpa using List.find?_some h
  subst hpos
  have hheld : (unitOf (childEnds s src sl) src).held = (unitOf s src).held.erase sl := by simp [childEnds, endedPort]
  simp only [doneArrive, h, parentHears, childBegins, hheld]
  simp only [childEnds]
  rcases (unitOf s src).held.erase sl with _ | ⟨next, rest⟩ <;> rfl

/-! ## The parent hears of it -/

theorem uCluster_lt (u : UAddr) : uCluster u < 20 := by
  have hdie : bitsOf u 12 11 < 2 ^ 2 := Nat.mod_lt _ (by decide)
  have hnum : bitsOf u 10 8 < 2 ^ 3 := Nat.mod_lt _ (by decide)
  simp only [uCluster]
  omega

/-- The sequencer of a cluster lies in no package. -/
theorem sequencerOf_parent {u : UAddr} (h : uLevel u = 2) : uLevel (parentOf (sequencerOf u)) ≠ 4 := by
  have hall : ∀ c < 20, uLevel (parentOf (clusterEng c 7 6 0)) ≠ 4 := by decide
  simpa [sequencerOf, h] using hall _ (uCluster_lt u)

theorem posts_orStatus (v : UAddr) (s : State) (u : UAddr) (sl : Slice) (w : BitVec 32) : Posts v s (orStatus s u sl w) := by
  unfold orStatus
  split
  · exact .refl v s
  · exact posts_modUnit v s u fun _ => ⟨rfl, fun _ => rfl, id⟩

theorem steps_parentHears (s : State) (dst : UAddr) (sl : Slice) (w : BitVec 32) : Steps dst s (parentHears s dst sl w) := by
  have hnoted : Posts dst s (modUnit s dst fun y => { y with kidsDone := y.kidsDone ++ [sl] }) :=
    posts_modUnit dst s dst fun _ => ⟨rfl, fun _ => rfl, id⟩
  simp only [parentHears]
  split
  · exact hnoted.steps
  · next p _ =>
    refine hnoted.steps.trans (.trans (posts_orStatus dst _ dst p w).steps (.trans ?_ (posts_tryFinish (fun _ => rfl) _ p).steps))
    split
    · next hlevel =>
      exact List.foldlRecOn (motive := Steps dst _) _ _ (.refl dst _) fun _ h c _ =>
        h.trans (steps_finishStep (fun h4 => absurd h4 (sequencerOf_parent hlevel)) _ c.1 c.2)
    · exact .refl dst _

theorem parentSlice_congr {s t : State} (hocc : t.occ = s.occ) {dst : UAddr} (hheld : (unitOf t dst).held = (unitOf s dst).held)
    (sl : Slice) : parentSlice t dst sl = parentSlice s dst sl := by
  simp [parentSlice, hheld, kidsOf_of_occ hocc]

/-- The last child's DONE at a die ends the die's slice: its DONE token and the CREDIT of its slot leave. -/
theorem parentHears_crossing {s : State} {dst : UAddr} {sl p : Slice} (hlevel : uLevel dst = 3) (hp : parentSlice s dst sl = some p)
    (hkids : ∀ k ∈ kidsOf s p.pos, ({ p with pos := k.1 } : Slice) ∈ (unitOf s dst).kidsDone ++ [sl]) (htag : doneTag s p.pos = none)
    (w : BitVec 32) :
    (parentHears s dst sl w).crossing =
      s.crossing ++ [outgoing s dst (parentOf dst) 3 0 p.pos.toNat] ++ creditOf s (parentOf dst) dst := by
  set noted := modUnit s dst fun y => { y with kidsDone := y.kidsDone ++ [sl] } with hnoted
  have hroutes : SameRoutes s noted := sameRoutes_modUnit s dst fun _ => ⟨rfl, rfl⟩
  have hslice : parentSlice noted dst sl = some p := by rw [parentSlice_congr hroutes.occ (hroutes.held dst), hp]
  have hlevel2 : uLevel dst ≠ 2 := by omega
  set told := orStatus noted dst p w with htold
  have hother : told.crossing = s.crossing ∧ told.occ = s.occ ∧ (unitOf told dst).kidsDone = (unitOf s dst).kidsDone ++ [sl] ∧
      (unitOf told dst).cmds = (unitOf s dst).cmds := by
    simp only [htold, orStatus, hnoted]
    split <;> simp
  obtain ⟨hcrossing, hocc, hdone, hcmds⟩ := hother
  have hfinish : tryFinish told dst p = finishSlice told dst p := by
    have hall : ((kidsOf told p.pos).all fun k => (unitOf told dst).kidsDone.contains ({ p with pos := k.1 } : Slice)) = true := by
      simpa only [List.all_eq_true, List.contains_iff_mem, kidsOf_of_occ hocc, hdone] using hkids
    have hdone : ((doneTag told p.pos).isNone || (unitOf told dst).kidsDone.contains p) = true := by simp [doneTag_of_occ hocc, htag]
    rw [tryFinish]
    exact if_pos (by rw [hall, hdone]; rfl)
  have hhears : parentHears s dst sl w = finishSlice told dst p := by
    simp only [parentHears, ← hnoted, hslice, ← htold, hlevel2, if_false, hfinish]
  rw [hhears, finishSlice_crossing (by omega), hcrossing, creditOf_congr hcmds, doneTag_of_occ hocc, htag]
  rfl

/-! ## A DONE token arrives -/

theorem starts_childBegins (s : State) (src : UAddr) (ran : Bool) : Starts (coreEng (coreNo src) 6 0) s (childBegins s src ran) := by
  unfold childBegins
  rcases (unitOf s src).held.head? with _ | next
  · exact .refl _ s
  · cases ran
    · exact .refl _ s
    · exact starts_sliceStart (fun _ => rfl) next

/-- The child has ended slice `sl` and begun its next: it has forgotten failed re-issues, and stops its watchdog when it holds nothing more. -/
theorem childBegins_childEnds {s : State} {src dst : UAddr} {sl : Slice} (hne : dst ≠ src) (ran : Bool) :
    let t := childBegins (childEnds s src sl) src ran
    (unitOf t src).held = (unitOf s src).held.erase sl ∧ (unitOf t src).failed = 0 ∧ (unitOf t src).retrying = false ∧ t.queues = s.queues ∧
      t.occ = s.occ ∧ (unitOf t dst).held = (unitOf s dst).held ∧ (unitOf t dst).kidsDone = (unitOf s dst).kidsDone ∧
      (unitOf t dst).cmds = (unitOf s dst).cmds ∧
      ((unitOf s src).held = [sl] → (unitOf t src).watchdog = none ∧ t.mem = s.mem ∧ t.faults = s.faults ∧ t.crossing = s.crossing) := by
  intro t
  have hbegins := starts_childBegins (childEnds s src sl) src ran
  obtain ⟨cs, ks, pm, is, hends⟩ := childEnds_frame s src sl
  set ended := childEnds s src sl with hended
  have hsrc : unitOf ended src = endedPort sl ((unitOf s src).held.erase sl) (unitOf s src) := by rw [hends, unitOf_modUnit_same]; rfl
  have hdst : unitOf ended dst = unitOf s dst := by rw [hends, unitOf_modUnit_other _ src dst _ hne]; rfl
  have hportSrc : steadyPort (unitOf t src) = steadyPort (endedPort sl ((unitOf s src).held.erase sl) (unitOf s src)) := by
    rw [← hsrc]; exact hbegins.port src
  have hportDst : steadyPort (unitOf t dst) = steadyPort (unitOf s dst) := by rw [← hdst]; exact hbegins.port dst
  refine ⟨(congrArg UnitSt.held hportSrc :), (congrArg UnitSt.failed hportSrc :), (congrArg UnitSt.retrying hportSrc :), ?_, ?_,
    (congrArg UnitSt.held hportDst :), (congrArg UnitSt.kidsDone hportDst :), (congrArg UnitSt.cmds hportDst :), fun hone => ?_⟩
  · exact (congrArg State.queues hbegins.state :).trans (congrArg State.queues hends :)
  · exact (congrArg State.occ hbegins.state :).trans (congrArg State.occ hends :)
  · have hrest : (unitOf ended src).held = [] := by simp [hsrc, endedPort, hone]
    have hnone : t = ended := by simp only [t, childBegins, ← hended, hrest]; rfl
    rw [hnone, hsrc, hends]
    exact ⟨by simp [endedPort, hone], rfl, rfl, rfl⟩

theorem exec_doneToken_of_oldest {s : State} {dst : UAddr} {tok : Tok} {c : Crossing} (t : Time) (hrun : Active s) (h : Oldest s dst tok c)
    (hkind : tokKind tok = 3) :
    exec (.doneToken dst tok t) s = .next (doneArrive (countToken { s.atTime t with crossing := s.crossing.erase c } dst (tokTag tok)) dst
      (tokSource tok) (BitVec.ofNat 32 (tokValue tok))) := by
  show execDoneToken dst tok t s = _
  rw [execDoneToken, timed_active hrun, tokenArrive_of_oldest h]
  simp [tokenEffect, hkind]

end Sys2Proof.Machine

namespace Sys2Proof
open Machine

/-- Settles O8: a slice that is sent is accepted or stalls (`sendSlice_accepts`, `sendSlice_stalls`), a CREDIT token is `creditArrive`, and a
DONE token ends the child's slice (`childBegins_childEnds`) before its parent hears of it (`steps_parentHears`, `parentHears_crossing`). -/
theorem slicesComeAndGo : Obligations.SlicesComeAndGo := by
  unfold Obligations.SlicesComeAndGo
  refine ⟨fun s t unit u sl hrun hvalid hu => ?_, fun s t dst src tok c hrun hold hkind hsrc => ?_,
    fun s t dst src tok sl c hrun hold hkind hsrc hne hcore hcluster hheld => ?_⟩
  · have hroutes : SameRoutes s (s.atTime t) := .of_units rfl rfl rfl
    have hunitOf : unitOf (s.atTime t) u = unitOf s u := rfl
    refine ⟨fun hsent => ⟨fun hready hempty hturn => ?_, fun hstall => ?_⟩, fun hunit hnot => exec_unitCommand_not_sent t hrun hu hunit hnot⟩
    · have hready' : Ready (s.atTime t) u := by rw [Ready, hroutes.hasCredit fun _ => rfl]; exact hready
      have hturn' : turnOf (s.atTime t) u sl = true := by rw [hroutes.turnOf fun _ => rfl]; exact hturn
      have hexec := (exec_unitCommand_sent t hrun hvalid hu hsent).trans (congrArg _ (sendSlice_accepts hready' hempty hturn'))
      rw [acceptSlice_eq, hunitOf] at hexec
      refine ⟨fun hheld => ?_, fun hheld hhold => ?_⟩
      · rw [if_neg (by simpa using hheld)] at hexec
        exact hexec
      · rw [if_pos (by simp [hheld])] at hexec
        obtain ⟨hstate, hport, hdog, hothers⟩ := sliceStart_port (s := s.atTime t) (isCore_of_serving hvalid hu)
          (taking (unitOf s u) (s.atTime t).time.now sl) sl rfl hhold
        have hone : (taking (unitOf s u) (s.atTime t).time.now sl).held = [sl] := by simp [taking, hheld]
        refine ⟨_, hexec, (congrArg UnitSt.held hport).trans hone,
          (congrArg UnitSt.used hport :), (congrArg UnitSt.cmds hport :), hdog, fun v hv => ⟨(congrArg UnitSt.held (hothers v hv) :),
          (congrArg UnitSt.used (hothers v hv) :), (congrArg UnitSt.stalled (hothers v hv) :)⟩, (congrArg State.queues hstate :),
          (congrArg State.items hstate :), (congrArg State.occ hstate :)⟩
    · have hstall' : ¬ Ready (s.atTime t) u ∨ ∀ x ∈ (unitOf (s.atTime t) u).stalled ++ [sl], turnOf (s.atTime t) u x = false := by
        rw [Ready, hroutes.hasCredit fun _ => rfl, hroutes.turnOf fun _ => rfl]; exact hstall
      exact (exec_unitCommand_sent t hrun hvalid hu hsent).trans (congrArg _ (sendSlice_stalls hstall'))
  · subst hsrc
    refine ⟨fun h1 h16 hused hserves hempty => ?_, fun hrange => ?_⟩
    · exact (exec_creditToken_of_oldest t hrun hold hkind).trans (congrArg _
        (creditArrive_frees (s := { s.atTime t with crossing := s.crossing.erase c }) h1 h16 hused hserves hempty dst))
    · exact (exec_creditToken_of_oldest t hrun hold hkind).trans (congrArg _ (creditArrive_discards hrange _ dst _))
  · subst hsrc
    set src := tokSource tok
    set s0 : State := { s.atTime t with crossing := s.crossing.erase c }
    obtain ⟨cs, ks, ⟨us, hs1⟩, hdogs⟩ := countToken_frame (s := s0) (dst := dst) (tag := tokTag tok) hcore hcluster
    set s1 := countToken s0 dst (tokTag tok)
    have hkept (v : UAddr) : (unitOf s1 v).held = (unitOf s v).held ∧ (unitOf s1 v).kidsDone = (unitOf s v).kidsDone ∧
        (unitOf s1 v).cmds = (unitOf s v).cmds := by rw [hdogs v]; exact ⟨rfl, rfl, rfl⟩
    obtain ⟨hheldSrc, -, -⟩ := hkept src
    obtain ⟨hheldDst, hkidsDst, hcmdsDst⟩ := hkept dst
    have hends := doneArrive_eq (s := s1) (dst := dst) (by rw [hheldSrc]; exact hheld)
    obtain ⟨hheld2, hfailed, hretrying, hqueues, hocc, hheldDst2, hkidsDst2, hcmdsDst2, hlast⟩ :=
      childBegins_childEnds (s := s1) (sl := sl) hne.symm ((unitOf s1 src).held.head? == some sl)
    set s2 := childBegins (childEnds s1 src sl) src ((unitOf s1 src).held.head? == some sl)
    have hhears := steps_parentHears s2 dst sl (sliceStatus s1 src sl)
    have hexec := (exec_doneToken_of_oldest t hrun hold hkind).trans (congrArg _ hends)
    have hbearing := hhears.bearing src
    refine ⟨_, hexec, ?_, ?_, ?_, ?_, fun hone => ?_, fun p hlevel hone hp hkids htag => ?_⟩
    · rw [hhears.held src fun h => absurd h hne, hheld2, hheldSrc]
    · exact (congrArg (fun b => b.2.1) hbearing).trans hfailed
    · exact (congrArg (fun b => b.2.2.1) hbearing).trans hretrying
    · exact (congrArg State.queues hhears.state :).trans (hqueues.trans (congrArg State.queues hs1 :))
    · obtain ⟨hdog, hmem, hfaults, -⟩ := hlast (by rw [hheldSrc, hone])
      exact ⟨hhears.rests src hdog, (congrArg State.mem hhears.state :).trans (hmem.trans (congrArg State.mem hs1 :)),
        (congrArg State.faults hhears.state :).trans (hfaults.trans (congrArg State.faults hs1 :))⟩
    · obtain ⟨-, -, -, hcrossing⟩ := hlast (by rw [hheldSrc, hone])
      have hocc2 : s2.occ = s.occ := hocc.trans (congrArg State.occ hs1 :)
      have hslice : parentSlice s2 dst sl = some p := by
        rw [parentSlice_congr hocc2 (hheldDst2.trans hheldDst)]
        exact hp
      rw [parentHears_crossing hlevel hslice (by rw [kidsOf_of_occ hocc2, hkidsDst2, hkidsDst]; exact hkids)
        (by rw [doneTag_of_occ hocc2]; exact htag), hcrossing, creditOf_congr (hcmdsDst2.trans hcmdsDst), hs1]
      rfl

end Sys2Proof
end

section
/-! PROOFS. What a Dusk leaves alone (O9; R25, R349, R356, R360, R371). -/

namespace Sys2Proof.Machine

/-! ## What a capture record leaves alone (R345, R371) -/

/-- A state without memories, ports, outputs, fault log, pins, counters and the capture: what writing to memory and recording leave alone. -/
def unrecorded (s : State) : State := { s with mem := {}, units := [], out := [], faults := [], lastFault := 0, pins := {}, pmu := {}, cap := {} }

@[simp] theorem unrecorded_countEvent (s : State) (rec ev inst v : Nat) : unrecorded (countEvent s rec ev inst v) = unrecorded s := by
  obtain ⟨pm, h⟩ := countEvent_pmu s rec ev inst v
  rw [h]; rfl

@[simp] theorem unrecorded_countUnit (s : State) (u : UAddr) (ev v : Nat) : unrecorded (countUnit s u ev v) = unrecorded s := by
  obtain ⟨pm, h⟩ := countUnit_pmu s u ev v
  rw [h]; rfl

@[simp] theorem unrecorded_countDram (s : State) (ev a n : Nat) : unrecorded (countDram s ev a n) = unrecorded s := by
  unfold countDram
  split
  · rfl
  · split
    · exact unrecorded_countUnit ..
    · rfl

@[simp] theorem unrecorded_recordFault (s : State) (u : UAddr) (cause : BitVec 8) (action : BitVec 4) (address : Nat) :
    unrecorded (recordFault s u cause action address) = unrecorded s := by
  unfold recordFault
  dsimp only
  split <;> rfl

/-- One piece of a write changes the memory, and counts or records what it met there. -/
@[simp] theorem unrecorded_writePiece (s : State) (a : Nat) (bs : List Byte) : unrecorded (writePiece s a bs) = unrecorded s := by
  unfold writePiece
  dsimp only
  split
  · rfl
  · split
    · rfl
    · exact unrecorded_countUnit ..
    · exact unrecorded_recordFault ..
    · exact unrecorded_recordFault ..

@[simp] theorem unrecorded_dropWrite (s : State) (master : UAddr) (a : Nat) : unrecorded (dropWrite s master a) = unrecorded s := by
  refine Eq.trans ?_ (unrecorded_countEvent s 0x3800 0x74 0 1)
  unfold dropWrite
  dsimp only
  split
  · split
    · split <;> rfl
    · rfl
  · rfl

/-- A write that has no mirror. -/
@[simp] theorem unrecorded_writeLocal (s : State) (master : UAddr) (a : Nat) (bs : List Byte) :
    unrecorded (writeLocal s master a bs false) = unrecorded s := by
  have hpieces (ps : List (Nat × List Byte)) (s : State) :
      unrecorded (ps.foldl (fun s p => if placeOf s p.1 = .reserved then s
        else if false then mirrorPiece (writePiece s p.1 p.2) p.1 p.2 else writePiece s p.1 p.2) s) = unrecorded s :=
    List.foldlRecOn (motive := fun t => unrecorded t = unrecorded s) ps _ rfl fun t ht p _ => by
      split
      · exact ht
      · simpa using ht
  unfold writeLocal
  dsimp only
  split
  · rw [unrecorded_dropWrite]; exact (hpieces ..).trans (unrecorded_countDram ..)
  · exact (hpieces ..).trans (unrecorded_countDram ..)

@[simp] theorem unrecorded_capRingWrite (s : State) (base size off : Nat) (bs : List Byte) :
    unrecorded (capRingWrite s base size off bs) = unrecorded s := by
  simp [capRingWrite]

theorem unrecorded_capRecord (s : State) (kind source : Nat) (time : Time) (payload : List Byte) :
    unrecorded (capRecord s kind source time payload) = unrecorded s := by
  unfold capRecord
  split
  · rfl
  · extract_lets wanted bs n base s1 s2 e s3 s4 s5 space loss all k s6 s7
    split
    · rfl
    · split
      · split
        · split
          · exact unrecorded_capRingWrite ..
          · rfl
        · split
          · exact unrecorded_capRingWrite ..
          · show unrecorded s3 = _
            unfold s3
            split
            · exact unrecorded_capRingWrite ..
            · rfl
      · split
        · show unrecorded s7 = _
          unfold s7
          split <;> rfl
        · rfl

theorem unrecorded_timingEvent (s : State) (event : Nat) (u : UAddr) (arg : Nat) : unrecorded (timingEvent s event u arg) = unrecorded s :=
  unrecorded_capRecord ..

/-- Where no capture runs a timing event changes nothing. -/
theorem timingEvent_of_not_running {s : State} (h : s.cap.running = none) (event : Nat) (u : UAddr) (arg : Nat) :
    timingEvent s event u arg = s := by
  simp [timingEvent, capRecord, h]

/-! ## What a wipe leaves alone (R25) -/

theorem unstored_wipeEngine (s : State) (u : UAddr) : unstored (wipeEngine s u) = unstored s := by
  simp only [wipeEngine]
  split <;> split <;> rfl

theorem unstored_wipeEngMem (s : State) (u : UAddr) : unstored (wipeEngMem s u) = unstored s := rfl

@[simp] theorem unstored_wipeCore (s : State) (k : Nat) : unstored (wipeCore s k) = unstored s := rfl

theorem unstored_wipeCluster (s : State) (c : Nat) : unstored (wipeCluster s c) = unstored s := by
  have hcores := unstored_foldl (f := fun s n => wipeCore s (6 * c + n)) (fun s n => unstored_wipeCore s _) (List.range 6) s
  unfold wipeCluster
  dsimp only
  rw [unstored_wipeRange, unstored_modCluster, unstored_wipeEngMem, hcores]

theorem unstored_wipeUnit {u : UAddr} (h : uLevel u ≤ 2) (s : State) : unstored (wipeUnit s u) = unstored s := by
  unfold wipeUnit
  split
  · exact unstored_wipeEngine ..
  · exact unstored_wipeCore ..
  · exact unstored_wipeCluster ..
  · omega
  · rfl

theorem unstored_stopSiblings (s : State) (u : UAddr) : unstored (stopSiblings s u) = unstored s := by
  unfold stopSiblings
  split
  · split <;> rfl
  · rfl

/-! ## A Dusk (R356, R360) -/

/-- The port of a unit whose Dusk starts. -/
def duskPort (x : UnitSt) : UnitSt :=
  { x with phase := .dusk, used := 0, cmds := 0, watchdog := none, hold := none, kidsDone := [], status := [] }

theorem duskOf_below {u : UAddr} (h : uLevel u ≤ 2) (s : State) :
    duskOf s u = wipeUnit (modUnit (clearInside (stopSiblings (timingEvent s 1 u s.lastFault) u) u) u duskPort) u := by
  have h3 : uLevel u ≠ 3 := by omega
  simp [duskOf, h3]
  rfl

/-- From `s` to `t` the Dusk of unit `u` has started: its credits are void, its commands gone and its watchdog stopped, and queues and fabric
are as they were; where no capture runs, the fault log is too. -/
structure Dusks (u : UAddr) (s t : State) : Prop where
  phase : (unitOf t u).phase = .dusk
  used : (unitOf t u).used = 0
  cmds : (unitOf t u).cmds = 0
  watchdog : (unitOf t u).watchdog = none
  queues : t.queues = s.queues
  fabric : t.fabric = s.fabric
  log : s.cap.running = none → t.lastFault = s.lastFault ∧ t.faults = s.faults

theorem duskOf_dusks {u : UAddr} (h : uLevel u ≤ 2) (s : State) : Dusks u s (duskOf s u) := by
  rw [duskOf_below h]
  have hevent := unrecorded_timingEvent s 1 u s.lastFault
  have hstop := unstored_stopSiblings (timingEvent s 1 u s.lastFault) u
  set stopped := stopSiblings (timingEvent s 1 u s.lastFault) u
  set ported := modUnit (clearInside stopped u) u duskPort
  have hwipe := unstored_wipeUnit h ported
  have hport : unitOf (wipeUnit ported u) u = duskPort (unitOf (clearInside stopped u) u) := by
    have hunits : (wipeUnit ported u).units = ported.units := (congrArg State.units hwipe :)
    rw [unitOf, hunits]
    exact unitOf_modUnit_same ..
  refine ⟨by rw [hport]; rfl, by rw [hport]; rfl, by rw [hport]; rfl, by rw [hport]; rfl, ?_, ?_, fun hcap => ?_⟩
  · exact (congrArg State.queues hwipe :).trans ((congrArg State.queues hstop :).trans (congrArg State.queues hevent :))
  · exact (congrArg State.fabric hwipe :).trans ((congrArg State.fabric hstop :).trans (congrArg State.fabric hevent :))
  · have hsame := timingEvent_of_not_running hcap 1 u s.lastFault
    exact ⟨(congrArg State.lastFault hwipe :).trans ((congrArg State.lastFault hstop :).trans (congrArg State.lastFault hsame :)),
      (congrArg State.faults hwipe :).trans ((congrArg State.faults hstop :).trans (congrArg State.faults hsame :))⟩

theorem abandonLoad_occ (s : State) : ∃ o, abandonLoad s = { s with occ := o } := by
  unfold abandonLoad
  split
  · exact ⟨_, rfl⟩
  · exact ⟨s.occ, rfl⟩

/-- The recovery of an engine, core or cluster that serves and is not retrying is its Dusk. -/
theorem recover_dusks {s : State} {u : UAddr} (hlevel : uLevel u ≤ 2) (hhalt : s.pins.halted = false) (hserves : inService s u = true)
    (hre : (unitOf s u).retrying = false) : Dusks u s (recover 6 s u) := by
  obtain ⟨⟨hlive, hgone⟩, hdown⟩ : ((unitOf s u).phase = .live ∧ unitGone s u = false) ∧ parentDown s u = false := by
    simpa [inService] using hserves
  obtain ⟨o, ho⟩ := abandonLoad_occ s
  have h3 : uLevel u ≠ 3 := by omega
  have h4 : uLevel u ≠ 4 := by omega
  have hre' : (unitOf { s with occ := o } u).retrying = false := hre
  have hdusk : recover 6 s u = duskOf (modUnit { s with occ := o } u fun x =>
      { x with failed := if x.retrying then x.failed + 1 else x.failed }) u := by
    simp [recover, hhalt, hgone, hdown, hlive, ho, h3, h4, hre']
  rw [hdusk]
  obtain ⟨hphase, hused, hcmds, hdog, hqueues, hfabric, hlog⟩ := duskOf_dusks hlevel (modUnit { s with occ := o } u fun x =>
      { x with failed := if x.retrying then x.failed + 1 else x.failed })
  exact ⟨hphase, hused, hcmds, hdog, hqueues, hfabric, hlog⟩

end Sys2Proof.Machine
end

section
/-! PROOFS. Units that stop and return (O9; R34, R35, R40, R356, R358, R360, R363). -/

namespace Sys2Proof.Machine

/-! ## What the return of a unit leaves alone -/

/-- A state without what the return of a unit can change. -/
def unreturned (s : State) : State :=
  let r := unstarted s
  { r with items := [], time := { r.time with copyStopped := [] } }

/-- From `s` to `t` slices are re-issued and accepted: ports keep their bearing, and the rest of the state stays but for what the return of
a unit can change. -/
structure Carries (s t : State) : Prop where
  state : unreturned t = unreturned s
  bearing : ∀ v, bearing (unitOf t v) = bearing (unitOf s v)

theorem Carries.refl (s : State) : Carries s s := ⟨rfl, fun _ => rfl⟩

theorem Carries.trans {s t r : State} (h : Carries s t) (h' : Carries t r) : Carries s r :=
  ⟨h'.state.trans h.state, fun v => (h'.bearing v).trans (h.bearing v)⟩

theorem Carries.of_units {s t : State} (hstate : unreturned t = unreturned s) (hunits : t.units = s.units) : Carries s t :=
  ⟨hstate, fun v => by simp [unitOf, hunits]⟩

theorem Carries.of_unstored {s t : State} (h : unstored t = unstored s) : Carries s t :=
  .of_units (by simp only [unreturned, unstarted, h]) (congrArg State.units h :)

theorem Starts.carries {q : UAddr} {s t : State} (h : Starts q s t) : Carries s t :=
  ⟨by simp only [unreturned, h.state], fun v => (congrArg Machine.bearing (h.port v) :)⟩

theorem carries_modUnit (s : State) (u : UAddr) {f : UnitSt → UnitSt} (hf : ∀ x, bearing (f x) = bearing x) : Carries s (modUnit s u f) := by
  refine ⟨rfl, fun v => ?_⟩
  by_cases h : v = u
  · subst h; rw [unitOf_modUnit_same]; exact hf _
  · rw [unitOf_modUnit_other s u v f h]

theorem carries_sliceStart (s : State) (u : UAddr) (sl : Slice) : Carries s (sliceStart s u sl) := (starts_sliceStart (fun _ => rfl) sl).carries

theorem carries_acceptSlice (s : State) (u : UAddr) (sl : Slice) : Carries s (acceptSlice s u sl) := by
  have htaken : Carries s (modUnit s u fun x => { x with
      used := x.used + 1, cmds := x.cmds + 1, held := x.held ++ [sl]
      watchdog := if x.watchdog.isSome then x.watchdog else some s.time.now }) := carries_modUnit s u fun _ => rfl
  unfold acceptSlice
  dsimp only
  split
  · exact htaken.trans (carries_sliceStart ..)
  · exact htaken

theorem carries_sendStalled (n : Nat) : ∀ (s : State) (u : UAddr), Carries s (sendStalled n s u) := by
  induction n with
  | zero => exact fun s _ => .refl s
  | succ n ih =>
    intro s u
    unfold sendStalled
    split
    · next sl _ =>
      split
      · refine .trans (.trans ?_ (carries_acceptSlice _ u sl)) (ih _ u)
        exact carries_modUnit s u fun _ => rfl
      · exact .refl s
    · exact .refl s

theorem carries_avsRetarget (s : State) (d : Nat) : Carries s (avsRetarget s d) := by
  unfold avsRetarget
  split
  · exact .refl s
  · next h _ =>
    have hsteps : Carries s ((avsSteps (s.pins.avs.getD d 0) (max 600 (min 800 (Config.avsTarget d (h.2 / 1280))))).foldl
        (fun s x => s.emit (.avs d x)) s) :=
      List.foldlRecOn (motive := Carries s) _ _ (.refl s) fun _ h _ _ => h.trans (.of_units rfl rfl)
    refine hsteps.trans ?_
    exact .of_units rfl rfl

/-! ## A unit rejoins (R356 step 6) -/

/-- The port of a unit that serves again from `now` on, its slices `again` re-issued. -/
def dawnPort (now : Time) (again : List Slice) (x : UnitSt) : UnitSt :=
  { x with
    phase := .live, used := x.held.length, cmds := x.held.length, dawnAt := now, retrying := !again.isEmpty, status := []
    reissues := x.reissues + again.length, watchdog := if x.held.isEmpty then none else some now }

/-- Unit `u` serves again, and the items of the slices that its restart interrupted are marked. -/
def serveAgain (s : State) (u : UAddr) : State :=
  countUnit (markReissued (modUnit s u (dawnPort s.time.now (slicesOf s u))) (slicesOf s u)) u 0x33 (slicesOf s u).length

/-- The first of the slices that the restart of `u` interrupted starts again. -/
def startAgain (s : State) (u : UAddr) (again : List Slice) : State :=
  again.head?.elim s fun sl => sliceStart s (if uLevel u = 0 then parentOf u else u) sl

/-- A compute die's time copy counts again, and its rail takes its target. -/
def resumeDie (s : State) (u : UAddr) : State :=
  if uLevel u = 3 && uDie u ≤ 1 then
    avsRetarget { s with time := { s.time with copyStopped := lmod s.time.copyStopped (uDie u) (fun _ => false) } } (uDie u)
  else s

theorem carries_startAgain (s : State) (u : UAddr) (again : List Slice) : Carries s (startAgain s u again) := by
  unfold startAgain
  rcases again.head? with _ | sl
  · exact .refl s
  · exact carries_sliceStart ..

theorem carries_resumeDie (s : State) (u : UAddr) : Carries s (resumeDie s u) := by
  unfold resumeDie
  split
  · refine .trans ?_ (carries_avsRetarget ..)
    exact .of_units rfl rfl
  · exact .refl s

/-- What serves again: only the port of `u` takes a new bearing. -/
theorem serveAgain_port (s : State) (u : UAddr) :
    unitOf (serveAgain s u) u = dawnPort s.time.now (slicesOf s u) (unitOf s u) ∧ unreturned (serveAgain s u) = unreturned s ∧
      (serveAgain s u).lastFault = s.lastFault ∧ (serveAgain s u).fabric = s.fabric := by
  obtain ⟨pm, h⟩ := countUnit_pmu (markReissued (modUnit s u (dawnPort s.time.now (slicesOf s u))) (slicesOf s u)) u 0x33 (slicesOf s u).length
  rw [serveAgain, h]
  exact ⟨unitOf_modUnit_same .., rfl, rfl, rfl⟩

/-- With no capture running, a unit other than the I/O die rejoins so. -/
theorem rejoin_eq {s : State} {u : UAddr} (hcap : s.cap.running = none) (hu : u ≠ dieUnit 2) :
    rejoin s u = sendStalled 32 (recordFaultAt (resumeDie (startAgain (serveAgain (reloadUnit s u) u) u (slicesOf (reloadUnit s u) u)) u) u
      causeRecovered 0 0 0 0 0) u := by
  have hserve := (serveAgain_port (reloadUnit s u) u).2.1
  have hresumed := ((carries_startAgain (serveAgain (reloadUnit s u) u) u (slicesOf (reloadUnit s u) u)).trans (carries_resumeDie _ u)).state
  have hkept : (resumeDie (startAgain (serveAgain (reloadUnit s u) u) u (slicesOf (reloadUnit s u) u)) u).cap = s.cap :=
    (congrArg State.cap (hresumed.trans hserve) :).trans (congrArg State.cap (unstored_reloadUnit s u) :)
  have hevent := timingEvent_of_not_running (s := resumeDie (startAgain (serveAgain (reloadUnit s u) u) u (slicesOf (reloadUnit s u) u)) u)
    (by rw [hkept, hcap]) 2 u 0
  rw [← hevent]
  simp only [rejoin, hu, if_false, serveAgain, startAgain, resumeDie]
  rcases slicesOf (reloadUnit s u) u <;> rfl

/-- A unit that rejoins serves from now on. -/
theorem rejoin_serves {s : State} {u : UAddr} (hcap : s.cap.running = none) (hu : u ≠ dieUnit 2) :
    (unitOf (rejoin s u) u).phase = .live ∧ (unitOf (rejoin s u) u).dawnAt = s.time.now ∧ unreturned (rejoin s u) = unreturned s := by
  obtain ⟨hport, hserve, -, -⟩ := serveAgain_port (reloadUnit s u) u
  have hreload := (Carries.of_unstored (unstored_reloadUnit s u)).state
  have htime : (reloadUnit s u).time = s.time := (congrArg State.time (unstored_reloadUnit s u) :)
  have hcarries : Carries (serveAgain (reloadUnit s u) u) (rejoin s u) := by
    rw [rejoin_eq hcap hu]
    exact (carries_startAgain ..).trans ((carries_resumeDie ..).trans
      ((starts_recordFaultAt u _ u causeRecovered 0 0 0 0 0).carries.trans (carries_sendStalled ..)))
  have hbearing := hcarries.bearing u
  rw [hport, htime] at hbearing
  exact ⟨(congrArg (fun b => b.1) hbearing :), (congrArg (fun b => b.2.2.2) hbearing :), hcarries.state.trans (hserve.trans hreload)⟩

/-- The return of an engine, core or cluster whose restart interrupted nothing and that no slice waits for is recorded, and that is all
that the fault log and the fabric see. -/
theorem rejoin_idle {s : State} {u : UAddr} (hcap : s.cap.running = none) (hlevel : uLevel u ≤ 2) (hnone : slicesOf s u = [])
    (hempty : (unitOf s u).stalled = []) : (rejoin s u).lastFault = s.lastFault + 1 ∧ (rejoin s u).fabric = s.fabric := by
  have hdie : u ≠ dieUnit 2 := fun h => by rw [h, dieUnit_level 2 (by omega)] at hlevel; omega
  have hreload := unstored_reloadUnit s u
  have hus : (reloadUnit s u).units = s.units := (congrArg State.units hreload :)
  have hunits : unitOf (reloadUnit s u) = unitOf s := by funext v; simp [unitOf, hus]
  have hagain : slicesOf (reloadUnit s u) u = [] := by rw [← hnone]; simp only [slicesOf, hunits]
  obtain ⟨hport, -, hlog, hfabric⟩ := serveAgain_port (reloadUnit s u) u
  have hresume (r : State) : resumeDie r u = r := by
    have h3 : uLevel u ≠ 3 := by omega
    simp [resumeDie, h3]
  have hstalled : (unitOf (recordFaultAt (serveAgain (reloadUnit s u) u) u causeRecovered 0 0 0 0 0) u).stalled = [] := by
    have hkeep := (starts_recordFaultAt u (serveAgain (reloadUnit s u) u) u causeRecovered 0 0 0 0 0).port u
    rw [hport, hunits] at hkeep
    exact (congrArg UnitSt.stalled hkeep :).trans hempty
  have hsend := rejoin_eq hcap hdie
  rw [hagain, hresume, show startAgain (serveAgain (reloadUnit s u) u) u [] = serveAgain (reloadUnit s u) u from rfl,
    sendStalled_of_empty hstalled] at hsend
  rw [hsend]
  exact ⟨congrArg (· + 1) (hlog.trans (congrArg State.lastFault hreload :)), hfabric.trans (congrArg State.fabric hreload :)⟩

end Sys2Proof.Machine
end

section
/-! PROOFS. Faults, watchdogs, Dawns and clocks (O9; R34, R35, R40, R354, R356, R358, R360, R363). -/

namespace Sys2Proof.Machine

theorem halted_of_active {s : State} (h : Active s) : s.pins.halted = false := by
  have hstopped : stopped s = false := h
  simp only [stopped, Bool.or_eq_false_iff] at hstopped
  exact hstopped.1.1.1

/-! ## What starts a Dusk -/

/-- A FAULT token that names no record of a mirrored region starts the recovery of its source. -/
theorem exec_faultToken_of_oldest {s : State} {dst : UAddr} {tok : Tok} {c : Crossing} (t : Time) (hrun : Active s) (h : Oldest s dst tok c)
    (hkind : tokKind tok = 6)
    (hnone : mirroredFault (countToken { s.atTime t with crossing := s.crossing.erase c } dst (tokTag tok)) (tokValue tok) = none) :
    exec (.faultToken dst tok t) s =
      .next (recover 6 (countToken { s.atTime t with crossing := s.crossing.erase c } dst (tokTag tok)) (tokSource tok)) := by
  show execFaultToken dst tok t s = _
  rw [execFaultToken, timed_active hrun, tokenArrive_of_oldest h]
  simp only [tokenEffect, hkind, faultArrive, hnone]

/-- A watchdog that does not count does not expire. -/
theorem exec_watchdogExpiry_held {s : State} {u : UAddr} {h : Time} (t : Time) (hrun : Active s) (hhold : (unitOf s u).hold = some h) :
    exec (.watchdogExpiry u t) s = .next (s.atTime t) := by
  have hhold' : (unitOf (s.atTime t) u).hold = some h := hhold
  show execWatchdogExpiry u t s = _
  rw [execWatchdogExpiry, timed_active hrun, hhold']
  cases (unitOf (s.atTime t) u).watchdog <;> rfl

/-- A watchdog that has counted its timeout is recorded and starts the recovery of its unit. -/
theorem exec_watchdogExpiry_due {s : State} {u : UAddr} {w : Time} (t : Time) (hrun : Active s) (hvalid : unitValid u = true)
    (hdog : (unitOf s u).watchdog = some w) (hhold : (unitOf s u).hold = none) (hdue : w + timeoutOf s u ≤ max s.time.now t) :
    exec (.watchdogExpiry u t) s = .next (recover 6 (recordFault (s.atTime t) u causeWatchdog (actionFor s u) 0) u) := by
  have hdog' : (unitOf (s.atTime t) u).watchdog = some w := hdog
  have hhold' : (unitOf (s.atTime t) u).hold = none := hhold
  have hdue' : w + timeoutOf (s.atTime t) u ≤ (s.atTime t).time.now := hdue
  show execWatchdogExpiry u t s = _
  rw [execWatchdogExpiry, timed_active hrun, hdog', hhold']
  simp only [hvalid, hdue', decide_true, Bool.and_self, if_true]
  rfl

/-- A fault that names no item is recorded with that of the slice that the unit runs, if any. -/
theorem recordFault_eq (s : State) (u : UAddr) (cause : BitVec 8) (action : BitVec 4) (address : Nat) :
    ∃ queue seq, recordFault s u cause action address = recordFaultAt s u cause action (unitOf s u).failed queue seq address := by
  simp only [recordFault]
  split
  · exact ⟨_, _, rfl⟩
  · exact ⟨0, 0, rfl⟩

theorem sameRoutes_recordFaultAt (s : State) (u : UAddr) (cause : BitVec 8) (action : BitVec 4) (retry : Nat) (queue : BitVec 12) (seq : Seq)
    (address : Nat) : SameRoutes s (recordFaultAt s u cause action retry queue seq address) := by
  have hport := (starts_recordFaultAt u s u cause action retry queue seq address).port
  exact ⟨rfl, rfl, fun v => (congrArg UnitSt.phase (hport v) :), fun v => (congrArg UnitSt.held (hport v) :)⟩

/-- The record of a watchdog's expiry, and the Dusk after it. -/
theorem recover_recordFault_dusks {s : State} {u : UAddr} (hlevel : uLevel u ≤ 2) (hrun : Active s) (hserves : inService s u = true)
    (hre : (unitOf s u).retrying = false) (cause : BitVec 8) (action : BitVec 4) :
    let t := recover 6 (recordFault s u cause action 0) u
    Dusks u (recordFault s u cause action 0) t ∧ (s.cap.running = none → t.lastFault = s.lastFault + 1 ∧
      ∃ r, tget t.faults ((s.lastFault + 1) % 256) = some r ∧ r.number = s.lastFault + 1 ∧ r.unit = u ∧ r.cause = cause ∧
        r.action = action) := by
  intro t
  obtain ⟨queue, seq, hrec⟩ := recordFault_eq s u cause action 0
  have hroutes := sameRoutes_recordFaultAt s u cause action (unitOf s u).failed queue seq 0
  have hport := (starts_recordFaultAt u s u cause action (unitOf s u).failed queue seq 0).port u
  rw [← hrec] at hroutes hport
  have hhalt : (recordFault s u cause action 0).pins.halted = false := by rw [hrec]; exact halted_of_active hrun
  have hdusk : Dusks u (recordFault s u cause action 0) t :=
    recover_dusks hlevel hhalt (by rw [hroutes.inService]; exact hserves) ((congrArg UnitSt.retrying hport :).trans hre)
  refine ⟨hdusk, fun hcap => ?_⟩
  obtain ⟨hlast, hfaults⟩ := hdusk.log (by rw [hrec]; exact hcap)
  rw [hlast, hfaults, hrec]
  exact ⟨rfl, _, tget_tset_same .., rfl, rfl, rfl, rfl⟩

/-! ## What ends a Dusk -/

/-- An engine, core or cluster that passes its self-test rejoins. -/
theorem exec_unitDawn_passes {s : State} {u : UAddr} (t : Time) (hrun : Active s) (hlevel : uLevel u ≤ 2) (hvalid : unitValid u = true)
    (hdusk : (unitOf s u).phase = .dusk) : exec (.unitDawn u true t) s = .next (rejoin (s.atTime t) u) := by
  have h3 : uLevel u ≠ 3 := by omega
  have h4 : uLevel u ≠ 4 := by omega
  show execUnitDawn u true t s = _
  rw [execUnitDawn, timed_active hrun]
  simp [hvalid, hdusk, h3, h4]

theorem unstored_restoreSections (s : State) (d : Nat) : unstored (restoreSections s d) = unstored s := by
  unfold restoreSections
  split
  · rfl
  · exact unstored_foldl (fun _ _ => unstored_copyRange ..) _ _

theorem unstored_restoreMirror (s : State) (d : Nat) : unstored (restoreMirror s d) = unstored s := by
  unfold restoreMirror restorePool
  exact (unstored_foldl (fun _ _ => unstored_copyRange ..) _ _).trans (unstored_foldl (fun _ _ => unstored_copyRange ..) _ _)

/-- A compute die that has rejoined keeps its slices away until `at_`. -/
def returnsFrom (s : State) (d : Nat) (at_ : Time) : State :=
  { s with dies := lmod s.dies d fun x => { x with restored := none, returnFrom := some at_ } }

theorem releaseHeldFault_of_none {s : State} {d : Nat} (h : (s.dies.getD d {}).faultHeld = false) : releaseHeldFault s d = s := by
  rw [releaseHeldFault, h]; rfl

theorem packageNext_of_none {s : State} (h : s.cp.packageStep = 0) (d : Nat) : packageNext s d = s := by
  simp [packageNext, h]

/-- With no package recovery and no fault of the other die held back nothing follows the return of a die. -/
theorem returnsFrom_last {r : State} {d : BitVec 1} (hheld : (r.dies.getD (1 - d.toNat) {}).faultHeld = false) (hstep : r.cp.packageStep = 0)
    (at_ : Time) : packageNext (releaseHeldFault (returnsFrom r d.toNat at_) (1 - d.toNat)) d.toNat = returnsFrom r d.toNat at_ := by
  have hother : 1 - d.toNat ≠ d.toNat := by omega
  rw [releaseHeldFault_of_none (by rw [returnsFrom, lmod_get_other _ _ _ _ _ hother]; exact hheld)]
  exact packageNext_of_none (s := returnsFrom r d.toNat at_) hstep _

/-- A compute die whose restore completes rejoins. -/
theorem exec_dieRestoreComplete_rejoins {s : State} (d : BitVec 1) (t : Time) (hrun : Active s) (hcap : s.cap.running = none)
    (hdawn : (unitOf s (dieUnit d.toNat)).phase = .dawn) (hpackage : s.cp.packageStep = 0)
    (hheld : (s.dies.getD (1 - d.toNat) {}).faultHeld = false) :
    ∃ r, exec (.dieRestoreComplete d t) s = .next (returnsFrom r d.toNat (max s.time.now t + 50000)) ∧
      (unitOf r (dieUnit d.toNat)).phase = .live ∧ r.dies = s.dies ∧ r.queues = s.queues := by
  have hrestored : unstored (restoreMirror (restoreSections (s.atTime t) d.toNat) d.toNat) = unstored (s.atTime t) :=
    (unstored_restoreMirror ..).trans (unstored_restoreSections ..)
  have hexec : exec (.dieRestoreComplete d t) s =
      let r := rejoin (restoreMirror (restoreSections (s.atTime t) d.toNat) d.toNat) (dieUnit d.toNat)
      .next (packageNext (releaseHeldFault (returnsFrom r d.toNat (r.time.now + 50000)) (1 - d.toNat)) d.toNat) := by
    have hdawn' : (unitOf (s.atTime t) (dieUnit d.toNat)).phase = .dawn := hdawn
    show execDieRestoreComplete d t s = _
    rw [execDieRestoreComplete, timed_active hrun]
    simp only [hdawn', ne_eq, not_true, if_false]
    rfl
  generalize restoreMirror (restoreSections (s.atTime t) d.toNat) d.toNat = restored at hrestored hexec
  have hcap' : restored.cap.running = none := (congrArg (fun x => x.cap.running) hrestored :).trans hcap
  obtain ⟨hlive, -, hkept⟩ := rejoin_serves hcap' ((by decide : ∀ d : BitVec 1, dieUnit d.toNat ≠ dieUnit 2) d)
  generalize rejoin restored (dieUnit d.toNat) = r at hexec hlive hkept
  have hsame : unreturned r = unreturned (s.atTime t) := hkept.trans (Carries.of_unstored hrestored).state
  have hdies : r.dies = s.dies := (congrArg State.dies hsame :)
  have hnow : r.time.now = max s.time.now t := (congrArg (fun x => x.time.now) hsame :)
  have hstep : r.cp.packageStep = 0 := (congrArg (fun x => x.cp.packageStep) hsame :).trans hpackage
  refine ⟨r, ?_, hlive, hdies, (congrArg State.queues hsame :)⟩
  rw [← hnow, ← returnsFrom_last (by rw [hdies]; exact hheld) hstep]
  exact hexec

/-! ## Clocks -/

/-- Island `i` runs, unstretched. -/
def islandRestarts (s : State) (i : Nat) : State :=
  { s with islands := tset s.islands i { islandOf s i with stopped := false, stretched := false } }

/-- A restart of a stopped island is counted and captured with the time that it stood. -/
theorem exec_clockRestart {s : State} {i : Nat} (t : Time) (hrun : Active s) (hi : i < 61) :
    exec (.clockRestart i t) s = .next (if (islandOf s i).stopped then
      countEvent (timingEvent (islandRestarts (s.atTime t) i) 6 (islandUnit i) (max s.time.now t - (islandOf s i).since)) 0x3800 0x75 0
        (max s.time.now t - (islandOf s i).since)
      else islandRestarts (s.atTime t) i) := by
  show execClockRestart i t s = _
  rw [execClockRestart, timed_active hrun]
  simp only [Nat.not_le.2 hi, if_false]
  rfl

theorem islandOf_of_islands {s t : State} (h : t.islands = s.islands) : islandOf t = islandOf s := by funext j; simp [islandOf, h]

/-- Counting and capturing a restart leaves the islands as they are. -/
theorem islandOf_restart_event (s : State) (u : UAddr) (d : Nat) :
    islandOf (countEvent (timingEvent s 6 u d) 0x3800 0x75 0 d) = islandOf s :=
  islandOf_of_islands (congrArg State.islands ((unrecorded_countEvent ..).trans (unrecorded_timingEvent s 6 u d)) :)

theorem islandOf_islandRestarts_same (s : State) (i : Nat) : (islandOf (islandRestarts s i) i).stopped = false := by
  simp [islandOf, islandRestarts]

theorem islandOf_islandRestarts_other (s : State) {i j : Nat} (h : j ≠ i) : islandOf (islandRestarts s i) j = islandOf s j := by
  simp [islandOf, islandRestarts, tget_tset_other _ _ _ _ h]

/-- A droop beyond the stretch of an island that runs. -/
theorem exec_clockDroop_beyond {s : State} {i : Nat} (t : Time) (hrun : Active s) (hi : i < 61) :
    exec (.clockDroop i false t) s = .next (if (islandOf s i).stopped then s.atTime t else
      recordFaultAt { s.atTime t with islands := tset s.islands i { islandOf s i with stopped := true, since := max s.time.now t } }
        (islandUnit i) causeFloor 0 0 0 0 0) := by
  show execClockDroop i false t s = _
  rw [execClockDroop, timed_active hrun]
  simp only [Nat.not_le.2 hi, if_false, Bool.false_eq_true]
  rfl

theorem exec_clockDroop_covered {s : State} {i : Nat} (t : Time) (hrun : Active s) (hi : i < 61) :
    exec (.clockDroop i true t) s = .next (if s.occ.locked then s.atTime t else
      { s.atTime t with islands := tset s.islands i { islandOf s i with stretched := true } }) := by
  show execClockDroop i true t s = _
  rw [execClockDroop, timed_active hrun]
  simp only [Nat.not_le.2 hi, if_false, if_true]
  rfl

end Sys2Proof.Machine

namespace Sys2Proof
open Machine

/-- Settles O9: a fault's recovery is the Dusk of its unit (`recover_dusks`), whose end is `rejoin`, and the clock islands are evaluated. -/
theorem unitsStopAndReturn : Obligations.UnitsStopAndReturn := by
  unfold Obligations.UnitsStopAndReturn
  refine ⟨fun s t u hrun hlevel hvalid hserves hre => ⟨fun tok c hold hkind hsrc hnone hcore hcluster => ?_,
      fun h hhold => exec_watchdogExpiry_held t hrun hhold, fun w hdog hhold hdue => ?_⟩,
    fun s t hrun hcap => ⟨fun u hlevel hvalid hdusk => ?_, fun d hdawn hpackage hlen hheld => ?_⟩, fun s t i hrun hi => ?_⟩
  · set s0 : State := { s.atTime t with crossing := s.crossing.erase c }
    obtain ⟨cs, ks, hmoved⟩ := countToken_frame (s := s0) (dst := parentOf u) (tag := tokTag tok) hcore hcluster
    have hroutes : SameRoutes s (countToken s0 (parentOf u) (tokTag tok)) := by
      refine .trans ?_ hmoved.sameRoutes
      exact .of_units rfl rfl rfl
    obtain ⟨⟨us, hs1⟩, hdogs⟩ := hmoved
    have hexec := exec_faultToken_of_oldest t hrun hold hkind (by
      rw [show mirroredFault (countToken s0 (parentOf u) (tokTag tok)) (tokValue tok) = mirroredFault s (tokValue tok) by rw [hs1]; rfl]
      exact hnone)
    rw [hsrc] at hexec
    set s1 := countToken s0 (parentOf u) (tokTag tok)
    have hdusks : Dusks u s1 (recover 6 s1 u) :=
      recover_dusks hlevel (by rw [hs1]; exact halted_of_active hrun) (by rw [hroutes.inService]; exact hserves) (by rw [hdogs u]; exact hre)
    exact ⟨_, hexec, hdusks.phase, hdusks.used, hdusks.cmds, hdusks.watchdog, hdusks.queues.trans (congrArg State.queues hs1 :),
      hdusks.fabric.trans (congrArg State.fabric hs1 :)⟩
  · have haction : actionFor s u = 1#4 := by
      obtain ⟨⟨-, hgone⟩, hdown⟩ : ((unitOf s u).phase = .live ∧ unitGone s u = false) ∧ parentDown s u = false := by
        simpa [inService] using hserves
      simp [actionFor, hgone, hdown, hre]
    have hexec := exec_watchdogExpiry_due t hrun hvalid hdog hhold hdue
    rw [haction] at hexec
    obtain ⟨hdusks, hlog⟩ := recover_recordFault_dusks (s := s.atTime t) hlevel hrun hserves hre causeWatchdog 1#4
    have hrecorded := unrecorded_recordFault (s.atTime t) u causeWatchdog 1#4 0
    exact ⟨_, hexec, hdusks.phase, hdusks.used, hdusks.cmds, hdusks.watchdog, hdusks.queues.trans (congrArg State.queues hrecorded :),
      hdusks.fabric.trans (congrArg State.fabric hrecorded :), hlog⟩
  · have hdie : u ≠ dieUnit 2 := fun h => by rw [h, dieUnit_level 2 (by omega)] at hlevel; omega
    obtain ⟨hlive, hdawn, hsame⟩ := rejoin_serves (s := s.atTime t) hcap hdie
    exact ⟨_, exec_unitDawn_passes t hrun hlevel hvalid hdusk, hlive, hdawn, (congrArg State.queues hsame :),
      rejoin_idle (s := s.atTime t) hcap hlevel⟩
  · obtain ⟨r, hexec, hlive, hdies, hqueues⟩ := exec_dieRestoreComplete_rejoins d t hrun hcap hdawn hpackage hheld
    have hdie : d.toNat < s.dies.length := by omega
    refine ⟨_, hexec, hlive, ?_, ?_, hqueues⟩ <;> rw [returnsFrom, hdies, lmod_get_same _ _ _ _ hdie]
  · refine ⟨fun hstop => ?_, fun hstop => ?_, fun hlock => ?_, fun hlock => ?_, fun hstop => ?_, fun hstop => ?_⟩
    · exact (exec_clockDroop_beyond t hrun hi).trans (by rw [hstop]; rfl)
    · exact (exec_clockDroop_beyond t hrun hi).trans (by rw [hstop]; rfl)
    · exact (exec_clockDroop_covered t hrun hi).trans (by rw [hlock]; rfl)
    · exact (exec_clockDroop_covered t hrun hi).trans (by rw [hlock]; rfl)
    · exact (exec_clockRestart t hrun hi).trans (by rw [hstop]; rfl)
    · have hexec := exec_clockRestart t hrun hi
      rw [hstop, if_pos rfl] at hexec
      refine ⟨_, hexec, ?_, fun j hj => ?_⟩ <;> rw [islandOf_restart_event]
      · exact islandOf_islandRestarts_same ..
      · exact islandOf_islandRestarts_other _ hj

end Sys2Proof
end

section
/-! PROOFS. A capture whose ring does not hold its Start record (O45; R345, R346, R348, R350). -/

namespace Sys2Proof.Machine

/-- What takes effect at a Meridian, in the order of R386. -/
def meridianEffect (s : State) : State :=
  let s := applyCapture (convertAll (applySwaps (applyCommits (newSubframe s))))
  let s := writeWindows (retryAvs (returnDies (changeRoutes s)))
  (List.range s.obj.subs.length).foldl publish s

/-- MERIDIAN at a Meridian, the first since reset. -/
theorem exec_meridian_first {s : State} {t : Time} (hrun : Active s) (hat : isMeridian (s.atTime t) (s.atTime t).time.now = true)
    (hfirst : s.time.meridians = 0) : exec (.meridian t) s = .next (meridianEffect (s.atTime t)) := by
  have hnone : (s.atTime t).time.meridians = 0 := hfirst
  show execMeridian t s = _
  rw [execMeridian, timed_of_running hrun, if_neg (by simp only [hat, hnone]; simp), meridianEffect]

/-- A capture into a DRAM ring of 64 bytes without WRAP: less than the 112 bytes of its Start record (R347, R348). -/
def smallRing : CapSet :=
  { bufBase := 0, bufBytes := 0, carriers := 0, ringBytes := 64, kinds := 31, wrap := false, mode := 1 }

/-- After reset that capture waits for the Meridian at 0. -/
def smallRingWaits : State := { State.reset with cap := { State.reset.cap with changes := [(0, smallRing)] } }

/-- The Start record does not fit, so the capture stops at once with a CAPTURE_LOSS (R350). -/
theorem smallRing_not_running : (meridianEffect (smallRingWaits.atTime 0)).cap.running = none := by decide +kernel

end Sys2Proof.Machine

namespace Sys2Proof
open Machine

/-- Refutes O45: in `smallRingWaits` the due capture has a ring that its Start record does not fit, so R350 stops it, while the statement
asks that the capture runs with its settings. -/
theorem not_meridianTakesEffect : ¬ Obligations.MeridianTakesEffect := by
  unfold Obligations.MeridianTakesEffect
  intro h
  have hrun : Active smallRingWaits := by unfold Active; decide
  have hexec := exec_meridian_first (t := 0) hrun (by decide) rfl
  obtain ⟨-, hmeridian⟩ := h smallRingWaits 0 hrun rfl (by decide)
  obtain ⟨s', hcompletes, hrest⟩ := hmeridian ⟨by decide, .inl rfl⟩
  obtain ⟨-, -, -, -, -, -, -, -, -, -, -, -, -, -, hruns, -⟩ := hrest
  obtain rfl : meridianEffect (smallRingWaits.atTime 0) = s' := Host.Outcome.next.inj (hexec.symm.trans hcompletes)
  have hsettings := hruns (0, smallRing) (.head _) le_rfl (fun d hd _ => List.mem_singleton.1 hd)
  rw [smallRing_not_running] at hsettings
  exact absurd hsettings (by decide)

end Sys2Proof
end

section
/-! PROOFS. What a write to local memory leaves alone (R263, R272, R273, R279, R371, R372). -/

namespace Sys2Proof.Machine

/-! ## Writes, counts and records -/

/-- A state without memory, ports, fault log, the alert pin and counters: what a write to local memory leaves alone. -/
def unwritten (s : State) : State :=
  { s with mem := {}, units := [], faults := [], lastFault := 0, pins := { s.pins with alert := false }, pmu := {} }

/-- From `s` to `t` memory is written: what `unwritten` keeps stays, so do the recovery states of the ports, and fault records are only
added. -/
structure Writes (s t : State) : Prop where
  state : unwritten t = unwritten s
  phase : ∀ u, (unitOf t u).phase = (unitOf s u).phase
  records : s.lastFault ≤ t.lastFault

theorem Writes.refl (s : State) : Writes s s := ⟨rfl, fun _ => rfl, le_rfl⟩

theorem Writes.trans {s t r : State} (h : Writes s t) (h' : Writes t r) : Writes s r :=
  ⟨h'.state.trans h.state, fun u => (h'.phase u).trans (h.phase u), h.records.trans h'.records⟩

theorem Writes.foldl {α : Type} {f : State → α → State} (hf : ∀ s x, Writes s (f s x)) (l : List α) (s : State) : Writes s (l.foldl f s) :=
  List.foldlRecOn (motive := Writes s) l f (.refl s) fun _ h x _ => h.trans (hf _ x)

theorem Writes.of_mem (s : State) (m : MemSt) : Writes s { s with mem := m } := ⟨rfl, fun _ => rfl, le_rfl⟩

section
variable {s t : State} (h : Writes s t)
include h

theorem Writes.out : t.out = s.out := (congrArg State.out h.state :)
theorem Writes.queues : t.queues = s.queues := (congrArg State.queues h.state :)
theorem Writes.items : t.items = s.items := (congrArg State.items h.state :)
theorem Writes.cap : t.cap = s.cap := (congrArg State.cap h.state :)
theorem Writes.time : t.time = s.time := (congrArg State.time h.state :)
theorem Writes.life : t.life = s.life := (congrArg State.life h.state :)
theorem Writes.pcie : t.pcie = s.pcie := (congrArg State.pcie h.state :)
theorem Writes.halted : t.pins.halted = s.pins.halted := (congrArg (fun x => x.pins.halted) h.state :)
theorem Writes.placeOf : placeOf t = placeOf s := by funext a; simp [Machine.placeOf, eclipsed, h.life]
end

theorem writes_countEvent (s : State) (rec ev inst v : Nat) : Writes s (countEvent s rec ev inst v) := by
  obtain ⟨pm, e⟩ := countEvent_pmu s rec ev inst v
  rw [e]; exact ⟨rfl, fun _ => rfl, le_rfl⟩

theorem writes_countUnit (s : State) (u : UAddr) (ev v : Nat) : Writes s (countUnit s u ev v) := by
  obtain ⟨pm, e⟩ := countUnit_pmu s u ev v
  rw [e]; exact ⟨rfl, fun _ => rfl, le_rfl⟩

theorem countDram_pmu (s : State) (ev a n : Nat) : ∃ pm, countDram s ev a n = { s with pmu := pm } := by
  unfold countDram
  split
  · exact ⟨s.pmu, rfl⟩
  · split
    · exact countUnit_pmu ..
    · exact ⟨s.pmu, rfl⟩

theorem writes_countDram (s : State) (ev a n : Nat) : Writes s (countDram s ev a n) := by
  obtain ⟨pm, e⟩ := countDram_pmu s ev a n
  rw [e]; exact ⟨rfl, fun _ => rfl, le_rfl⟩

theorem writes_recordFaultAt (s : State) (u : UAddr) (cause : BitVec 8) (action : BitVec 4) (retry : Nat) (queue : BitVec 12) (seq : Seq)
    (address : Nat) : Writes s (recordFaultAt s u cause action retry queue seq address) :=
  ⟨rfl, (sameRoutes_recordFaultAt s u cause action retry queue seq address).phase, Nat.le_succ _⟩

theorem writes_recordFault (s : State) (u : UAddr) (cause : BitVec 8) (action : BitVec 4) (address : Nat) :
    Writes s (recordFault s u cause action address) := by
  obtain ⟨queue, seq, e⟩ := recordFault_eq s u cause action address
  rw [e]; exact writes_recordFaultAt ..

theorem recordFault_lastFault (s : State) (u : UAddr) (cause : BitVec 8) (action : BitVec 4) (address : Nat) :
    (recordFault s u cause action address).lastFault = s.lastFault + 1 := by
  obtain ⟨queue, seq, e⟩ := recordFault_eq s u cause action address
  rw [e]; rfl

theorem writes_countCorrected (s : State) (a : Nat) : Writes s (countCorrected s a) := by
  have hcount : Writes s (modUnit s (placeUnit (placeOf s a)) fun x => { x with corrected := x.corrected + 1 }) :=
    ⟨rfl, (sameRoutes_modUnit s _ (f := fun x => { x with corrected := x.corrected + 1 }) fun _ => ⟨rfl, rfl⟩).phase, le_rfl⟩
  exact hcount.trans (writes_countUnit ..)

/-! ## Pieces of a write -/

theorem writes_writePiece (s : State) (a : Nat) (bs : List Byte) : Writes s (writePiece s a bs) := by
  unfold writePiece
  dsimp only
  split
  · exact .of_mem ..
  · split
    · exact .of_mem ..
    · exact (Writes.of_mem ..).trans (writes_countCorrected ..)
    · exact (Writes.of_mem ..).trans (writes_recordFault ..)
    · exact (Writes.of_mem ..).trans (writes_recordFault ..)

/-- A part merged into a poisoned codeword is recorded (R273). -/
theorem writePiece_poison {s : State} {a : Nat} {bs : List Byte} (hpart : bs.length ≠ 32)
    (hbad : cwState ((tget s.mem.check (a / 32)).getD 0) = .poison) : (writePiece s a bs).lastFault = s.lastFault + 1 := by
  simp only [writePiece, hpart, if_false, hbad]
  exact recordFault_lastFault ..

theorem writes_mirrorPiece (s : State) (a : Nat) (bs : List Byte) : Writes s (mirrorPiece s a bs) := by
  unfold mirrorPiece
  split
  · exact .refl s
  · split
    · refine .trans ?_ (Writes.foldl (fun s (p : Nat × List Byte) => writes_writePiece s p.1 p.2) _ _)
      split
      · exact (writes_countDram ..).trans (writes_countUnit ..)
      · exact .refl s
    · exact .refl s

theorem writes_dropWrite (s : State) (master : UAddr) (a : Nat) : Writes s (dropWrite s master a) := by
  refine (writes_countEvent s 0x3800 0x74 0 1).trans ?_
  unfold dropWrite
  dsimp only
  split
  · split
    · split
      · exact ⟨rfl, fun _ => rfl, le_rfl⟩
      · exact .refl _
    · exact .refl _
  · exact (writes_recordFaultAt ..).trans (.of_mem ..)

/-- One piece of a write, its mirror included if `mirror`. -/
def storePiece (mirror : Bool) (s : State) (p : Nat × List Byte) : State :=
  if placeOf s p.1 = .reserved then s
  else if mirror then mirrorPiece (writePiece s p.1 p.2) p.1 p.2 else writePiece s p.1 p.2

theorem writes_storePiece (mirror : Bool) (s : State) (p : Nat × List Byte) : Writes s (storePiece mirror s p) := by
  unfold storePiece
  split
  · exact .refl s
  · split
    · exact (writes_writePiece ..).trans (writes_mirrorPiece ..)
    · exact writes_writePiece ..

/-- A part of a poisoned codeword that is stored is recorded. -/
theorem storePiece_poison {s : State} {a : Nat} {bs : List Byte} (hplace : placeOf s a ≠ .reserved) (hpart : bs.length ≠ 32)
    (hbad : cwState ((tget s.mem.check (a / 32)).getD 0) = .poison) (mirror : Bool) :
    s.lastFault < (storePiece mirror s (a, bs)).lastFault := by
  have hpiece : s.lastFault < (writePiece s a bs).lastFault := by rw [writePiece_poison hpart hbad]; exact Nat.lt_succ_self _
  rw [storePiece, if_neg hplace]
  split
  · exact hpiece.trans_le (writes_mirrorPiece ..).records
  · exact hpiece

/-- A write stores its pieces; what it meets at reserved addresses is dropped. -/
theorem writes_after_pieces (s : State) (master : UAddr) (a : Nat) (bs : List Byte) (mirror : Bool) :
    Writes ((pieces bs.length a bs).foldl (storePiece mirror) (countDram s 0x51 a bs.length)) (writeLocal s master a bs mirror) := by
  simp only [writeLocal]
  split
  · exact writes_dropWrite ..
  · exact .refl _

theorem writes_writeLocal (s : State) (master : UAddr) (a : Nat) (bs : List Byte) (mirror : Bool) :
    Writes s (writeLocal s master a bs mirror) :=
  ((writes_countDram ..).trans (.foldl (writes_storePiece mirror) _ _)).trans (writes_after_pieces ..)

/-- A write whose first piece is part of a poisoned codeword is recorded (R273). -/
theorem writeLocal_poison {s : State} {a : Nat} {bs : List Byte} (hne : bs ≠ []) (hpart : (bs.take (32 - a % 32)).length ≠ 32)
    (hplace : placeOf s a ≠ .reserved) (hbad : cwState ((tget s.mem.check (a / 32)).getD 0) = .poison) (master : UAddr) (mirror : Bool) :
    s.lastFault < (writeLocal s master a bs mirror).lastFault := by
  obtain ⟨n, hn⟩ := Nat.exists_eq_succ_of_ne_zero (mt List.length_eq_zero_iff.1 hne)
  obtain ⟨pm, hcount⟩ := countDram_pmu s 0x51 a bs.length
  have hfirst : s.lastFault < (storePiece mirror (countDram s 0x51 a bs.length) (a, bs.take (32 - a % 32))).lastFault := by
    rw [hcount]; exact storePiece_poison (s := { s with pmu := pm }) hplace hpart hbad mirror
  refine hfirst.trans_le (le_trans ?_ (writes_after_pieces s master a bs mirror).records)
  rw [hn, pieces, if_neg hne, List.foldl_cons, ← hn]
  exact (Writes.foldl (writes_storePiece mirror) _ _).records

end Sys2Proof.Machine
end

section
/-! PROOFS. A U-plane section that a poisoned codeword takes (O40; R60, R273, R371, R466, R470). -/

namespace Sys2Proof.Machine

/-! ## Receiving a section -/

/-- A valid frame counts at its port and may be recorded. -/
theorem takeFrame_of_no_peer {s : State} {h : FhHead} (hpeer : (fhPort s h.port).peer = none) :
    takeFrame s h = modFh s h.port (fun p => { p with rx := (p.rx + 1) % 2 ^ 64, peer := some (h.src, h.tags.head?) }) := by
  simp [takeFrame, hpeer]

theorem captureFrame_of_not_running {s : State} (hcap : s.cap.running = none) (h : FhHead) (secs : List FhSection) :
    captureFrame s h secs = s := by
  simp [captureFrame, hcap]

/-- A U-plane frame that its port takes gives its only section to the receiver. -/
theorem exec_fhUplaneReceive_one {s : State} {h : FhHead} {x : FhSection} {t : Time} (hrun : Active s) (hcap : s.cap.running = none)
    (hlive : s.occ.replayStatus ≠ 1) (hok : ecpriOk (s.atTime t) h 0 = true) :
    exec (.fhUplaneReceive h [x] t) s = .next (receiveSection h.port (takeFrame (s.atTime t) h) x) := by
  have hcap' : (takeFrame (s.atTime t) h).cap.running = none := by
    rw [← hcap]; unfold takeFrame; dsimp only; split <;> rfl
  have hlive' : ¬ (s.atTime t).occ.replayStatus = 1 := hlive
  show execFhUplaneReceive h [x] t s = _
  rw [execFhUplaneReceive, timed_of_running hrun, if_neg hlive', uplaneFrame, if_pos hok, captureFrame_of_not_running hcap',
    List.foldl_cons, List.foldl_nil]

theorem markComplete_lastFault (s : State) (c : Nat) (slot : Time) (sym : Nat) : (markComplete s c slot sym).lastFault = s.lastFault := by
  unfold markComplete
  split <;> rfl

theorem countEvent_lastFault (s : State) (rec ev inst v : Nat) : (countEvent s rec ev inst v).lastFault = s.lastFault := by
  obtain ⟨pm, e⟩ := countEvent_pmu s rec ev inst v
  rw [e]

/-- The sections after `count` units from `first` of section `x`, of stream `i`, have come: decompressed, with their gain (R63, R471). -/
def withReceived (s : State) (x : CSection) (i first count : Nat) (payload : List Byte) : State :=
  let comp := carFieldAt s x.carrier 19 x.slot
  let g := signedOf 8 (carObjAt s x.carrier 1 (i + 1) x.slot)
  let parts := (List.range (count * unitSamples s x.carrier / 12)).flatMap (fun k =>
    (groupParts comp ((payload.drop (k * groupBytes comp)).take (groupBytes comp))).map (fun v => gained g (ofInt v)))
  { s with fh := { s.fh with
      sections := s.fh.sections.map (fun y => if y = x then { y with got := y.got ++ [(first, count, parts)] } else y) } }

/-- The items of a section's slot, if a block of it saturated. -/
def markSaturated (x : CSection) (r : State × Bool) : State :=
  if r.2 then modSlotItems r.1 x.carrier x.slot x.op (fun j => { j with sat := true, satAll := true }) else r.1

/-- What follows the writes of section `x`. -/
def settleSection (x : CSection) (r : State × Bool) : State :=
  let s := countEvent (markSaturated x r) 0x3803 0x60 0 1
  if symbolDone s x.carrier x.slot x.symbol then markComplete s x.carrier x.slot x.symbol else s

theorem takeSection_eq (s : State) (x : CSection) (i first count : Nat) (payload : List Byte) :
    takeSection s x i first count payload = settleSection x (writeRow (withReceived s x i first count payload) x i first count) := rfl

theorem settleSection_lastFault (x : CSection) (r : State × Bool) : (settleSection x r).lastFault = r.1.lastFault := by
  have hsat : (markSaturated x r).lastFault = r.1.lastFault := by unfold markSaturated; split <;> rfl
  rw [settleSection, ← hsat, ← countEvent_lastFault (markSaturated x r) 0x3803 0x60 0 1]
  split
  · exact markComplete_lastFault ..
  · rfl

/-- A section of a port names what `x` expects. -/
def namesSection (port : Nat) (s : State) (sec : FhSection) (x : CSection) : Bool :=
  x.port == port && x.eaxc == sec.eaxc && x.sectionId == sec.sectionId && decide ((secRange s x).1 ≤ sec.first)
    && decide (sec.first + sec.count ≤ (secRange s x).1 + (secRange s x).2)

/-- In the frequency domain a section that comes in time, whole and for the first time is taken (R60, R470). -/
theorem receiveSection_takes {port : Nat} {s : State} {sec : FhSection} {c i : Nat} {x : CSection}
    (hstream : mappedStream s port sec.eaxc sec.slot = some (c, i)) (hdomain : timeDomain s c = false) (hcount : sec.count ≠ 0)
    (hnames : (symbolSections s c sec.slot sec.symbol).find? (namesSection port s sec) = some x)
    (hbytes : sec.count * groupBytes (carFieldAt s c 19 sec.slot) ≤ sec.payload.length)
    (hopen : (ulWindow s c sec.slot sec.symbol).1 ≤ s.time.now) (hclose : s.time.now ≤ (ulWindow s c sec.slot sec.symbol).2)
    (hnew : (List.range sec.count).any (fun u => covered (rowGot (symbolSections s c sec.slot sec.symbol) x) (sec.first + u)) = false) :
    receiveSection port s sec = takeSection s x i sec.first sec.count sec.payload := by
  have hunit : unitSamples s c = 12 := by simp [unitSamples, hdomain]
  have hwhole : (!timeDomain s c && sec.count == 0) = false := by simp [hcount]
  have hgroups : sec.count * 12 / 12 = sec.count := Nat.mul_div_cancel _ (by decide)
  have hbad : (decide (sec.count * 12 % 12 ≠ 0) || decide (sec.payload.length < sec.count * 12 / 12 * groupBytes (carFieldAt s c 19 sec.slot)))
      = false := by simp [hgroups, hbytes]
  have hout : (decide (s.time.now < (ulWindow s c sec.slot sec.symbol).1) || decide ((ulWindow s c sec.slot sec.symbol).2 < s.time.now))
      = false := by simp [hopen, hclose]
  unfold namesSection at hnames
  simp only [receiveSection, hstream, hwhole, Bool.false_eq_true, if_false, hnames, hunit, hbad, hout, hnew]

/-- A QB block has the bytes of its format (R176). -/
theorem bytesLE_length (k n : Nat) : (bytesLE k n).length = k := by
  induction k generalizing n with
  | zero => rfl
  | succ k ih => simp [bytesLE, ih]

theorem qbForm_length (f : Nat) (parts : List Val) : (qbForm f parts).1.length = qbBytes f := by
  unfold qbForm
  dsimp only
  split
  · exact bytesLE_length ..
  · split <;> exact bytesLE_length ..

/-- A row whose units touch one block is written with that block. -/
theorem writeRow_one {s : State} {x : CSection} {g : GridPlan} (hgrid : gridOf s x.carrier (x.op == 3) = some g) {i first count : Nat}
    (hone : ceilDiv (unitSamples s x.carrier * (first + count)) 16 - unitSamples s x.carrier * first / 16 = 1) :
    ∃ bs, bs.length = 52 ∧ (writeRow s x i first count).1 = busWrite s (dieUnit 2)
      (gridRow s g x.slot i x.symbol + 52 * (unitSamples s x.carrier * first / 16)) bs true := by
  simp only [writeRow, hgrid, hone, List.range_one, List.map_cons, List.map_nil, List.foldl_cons, List.foldl_nil]
  exact ⟨_, qbForm_length .., rfl⟩

/-! ## A poisoned grid -/

/-- The first block of symbol 4 of stream 1 of the slot that starts at 5 ms, in the grid of `Tests.grid2`. -/
def blockAt : Nat := 0xC0003A1B0

/-- Carrier 2 expects the first 5 PRB of that symbol. -/
def expected : CSection := { Tests.cSection with first := 0 }

/-- `Tests.fhState` with that expectation, the codeword in which the block starts poisoned (R272). -/
def poisonedGrid : State :=
  { Tests.fhState [] with
    mem := { (Tests.fhState []).mem with check := [(blockAt / 32, 0xFFFFFFFF#32)] }
    fh := { (Tests.fhState []).fh with sections := [expected] } }

/-- The first PRB of the section that is expected. -/
def firstPrb : FhSection := { Tests.uSection with first := 0 }

/-- `poisonedGrid` once it has taken the frame, inside the window of symbol 4. -/
def poisonedGridTook : State := takeFrame (poisonedGrid.atTime 5360000) Tests.fhHead

theorem poisonedGrid_ecpriOk : ecpriOk (poisonedGrid.atTime 5360000) Tests.fhHead 0 = true := by
  have hup : portUp (poisonedGrid.atTime 5360000) Tests.fhHead.port = true := by decide +kernel
  have hsrc : (Tests.fhHead.src != fhMac Tests.fhHead.port) = true := bne_iff_ne.2 Tests.fhHead_src_ne
  have hdst : (Tests.fhHead.dst == fhMac Tests.fhHead.port) = true := beq_self_eq_true _
  simp only [ecpriOk, frameOk, hup, hsrc, hdst]
  decide

theorem poisonedGrid_takes : receiveSection 3 poisonedGridTook firstPrb =
    takeSection poisonedGridTook expected 1 0 1 firstPrb.payload :=
  receiveSection_takes (c := 2) (by decide +kernel) (by decide +kernel) (by decide) (by decide +kernel) (by decide +kernel) (by decide +kernel)
    (by decide +kernel) (by decide +kernel)

/-- `poisonedGridTook` with the section received, before its block is written. -/
def poisonedGridHolds : State := withReceived poisonedGridTook expected 1 0 1 firstPrb.payload

/-- The block of the section starts in the poisoned codeword, so a fault is recorded (R273). -/
theorem poisonedGrid_records : 0 < (receiveSection 3 poisonedGridTook firstPrb).lastFault := by
  have hgrid : gridOf poisonedGridHolds expected.carrier (expected.op == 3) = some Tests.grid2 := by decide +kernel
  have hone : ceilDiv (unitSamples poisonedGridHolds expected.carrier * (0 + 1)) 16 -
      unitSamples poisonedGridHolds expected.carrier * 0 / 16 = 1 := by decide +kernel
  have hat : gridRow poisonedGridHolds Tests.grid2 expected.slot 1 expected.symbol +
      52 * (unitSamples poisonedGridHolds expected.carrier * 0 / 16) = blockAt := by decide +kernel
  have hplace : placeOf poisonedGridHolds blockAt = .cluster 0 := by decide +kernel
  have hbad : cwState ((tget poisonedGridHolds.mem.check (blockAt / 32)).getD 0) = .poison := by decide +kernel
  obtain ⟨bs, hlen, hwrite⟩ := writeRow_one (i := 1) hgrid hone
  have hne : bs ≠ [] := List.ne_nil_of_length_pos (by omega)
  have hpart : (bs.take (32 - blockAt % 32)).length ≠ 32 := by rw [List.length_take, hlen]; decide
  rw [poisonedGrid_takes, takeSection_eq, settleSection_lastFault, ← poisonedGridHolds, hwrite, hat, busWrite, if_neg hne,
    if_neg (by rw [hplace]; decide)]
  exact (Nat.zero_le _).trans_lt (writeLocal_poison hne hpart (by rw [hplace]; decide) hbad _ _)

end Sys2Proof.Machine

namespace Sys2Proof
open Machine

/-- Refutes O40: in `poisonedGrid` the frame's peer is new, so the statement asks that nothing is recorded; yet a block of the section is
merged into a poisoned codeword, which R273 records. -/
theorem not_fronthaulReceives : ¬ Obligations.FronthaulReceives := by
  unfold Obligations.FronthaulReceives
  intro h
  have hrun : Active poisonedGrid := by unfold Active; decide
  have hexec : exec (.fhUplaneReceive Tests.fhHead [firstPrb] 5360000) poisonedGrid = .next (receiveSection 3 poisonedGridTook firstPrb) :=
    exec_fhUplaneReceive_one hrun rfl (by decide) poisonedGrid_ecpriOk
  obtain ⟨-, -, hlive, -⟩ := h poisonedGrid 5360000 Tests.fhHead firstPrb hrun rfl (by decide +kernel)
  obtain ⟨-, htaken⟩ := hlive (by decide)
  obtain ⟨-, -, hmapped⟩ := htaken ⟨by decide +kernel, by decide +kernel, rfl, by decide, by decide, by decide, Tests.fhHead_src_ne, rfl, rfl,
    rfl, rfl⟩ rfl rfl
  obtain ⟨-, hfits⟩ := hmapped 2 1 (by decide +kernel) (by decide +kernel) (by decide)
  have hmatch : expected ∈ poisonedGrid.fh.sections := .head _
  obtain ⟨-, hwindow⟩ := hfits ⟨expected, hmatch, by decide⟩ (by decide +kernel)
  obtain ⟨-, hfirst⟩ := hwindow (by decide +kernel) (by decide +kernel)
  obtain ⟨s', hcompletes, hlearnt, -⟩ := hfirst expected hmatch (by decide) (fun u _ _ => rfl) (fun z hz _ => List.mem_singleton.1 hz)
  obtain ⟨-, -, hnone, -⟩ := hlearnt
  obtain rfl : receiveSection 3 poisonedGridTook firstPrb = s' := Host.Outcome.next.inj (hexec.symm.trans hcompletes)
  have hpeer : (fhPort poisonedGrid Tests.fhHead.port).peer = none := by decide +kernel
  rw [if_pos (.inl hpeer)] at hnone
  have hzero : poisonedGrid.lastFault = 0 := by decide
  exact absurd (hnone.2.trans hzero) poisonedGrid_records.ne'

end Sys2Proof
end

section
/-! PROOFS. Gain and block floating point (O42; R63, R180, R471). -/

namespace Sys2Proof.Machine

/-! ## Bytes and digits -/

theorem ofBytesLE_bytesLE (k n : Nat) : ofBytesLE (bytesLE k n) = n % 256 ^ k := by
  induction k generalizing n with
  | zero => simp [bytesLE, ofBytesLE, Nat.mod_one]
  | succ k ih =>
    have hbyte : (BitVec.ofNat 8 n).toNat = n % 256 := BitVec.toNat_ofNat ..
    rw [bytesLE, ofBytesLE, ih, hbyte, Nat.pow_succ', Nat.mod_mul]

theorem bytesBE_length (k n : Nat) : (bytesBE k n).length = k := by rw [bytesBE, List.length_reverse, bytesLE_length]

theorem ofBytesBE_bytesBE {k n : Nat} (h : n < 256 ^ k) : ofBytesBE (bytesBE k n) = n := by
  rw [ofBytesBE, bytesBE, List.reverse_reverse, ofBytesLE_bytesLE, Nat.mod_eq_of_lt h]

theorem patternOf_lt (w : Nat) (i : Int) : patternOf w i < 2 ^ w := by
  have hpos : (0 : Int) < (2 ^ w : Nat) := by positivity
  have hlt := Int.emod_lt_of_pos i hpos
  have hnonneg := Int.emod_nonneg i hpos.ne'
  rw [patternOf]; omega

/-- A number of `w` bits reads back from its pattern, whatever stands above it. -/
theorem signedOf_of_mod {w n : Nat} {i : Int} (hw : 1 ≤ w) (hlow : -2 ^ (w - 1) ≤ i) (hhigh : i < 2 ^ (w - 1))
    (h : n % 2 ^ w = patternOf w i) : signedOf w n = i := by
  have hdouble : 2 ^ w = 2 * 2 ^ (w - 1) := by rw [← Nat.pow_succ']; congr 1; omega
  have hcast : ((2 ^ (w - 1) : Nat) : Int) = 2 ^ (w - 1) := by push_cast; rfl
  rw [signedOf, h, patternOf, hdouble]
  generalize 2 ^ (w - 1) = m at *
  rcases Int.lt_or_le i 0 with hneg | hpos
  · have hmod : i % ((2 * m : Nat) : Int) = i + 2 * m := by
      rw [← Int.add_emod_right, Int.emod_eq_of_lt (by push_cast; omega) (by push_cast; omega)]; push_cast; rfl
    rw [hmod, if_neg (by omega)]; push_cast; omega
  · have hmod : i % ((2 * m : Nat) : Int) = i := Int.emod_eq_of_lt hpos (by push_cast; omega)
    rw [hmod, if_pos (by omega)]; omega

/-- Numbers as digits of `w` bits, the first highest. -/
def packed (w : Nat) (ms : List Int) : Nat := ms.foldl (fun n m => n * 2 ^ w + patternOf w m) 0

theorem packed_concat (w : Nat) (ms : List Int) (m : Int) : packed w (ms ++ [m]) = packed w ms * 2 ^ w + patternOf w m := by
  simp [packed]

theorem packed_lt (w : Nat) (ms : List Int) : packed w ms < 2 ^ (w * ms.length) := by
  induction ms using List.reverseRecOn with
  | nil => simp [packed]
  | append_singleton ms m ih =>
    have hm := patternOf_lt w m
    rw [packed_concat, List.length_append, List.length_singleton, Nat.mul_succ, Nat.pow_add]
    calc packed w ms * 2 ^ w + patternOf w m < (packed w ms + 1) * 2 ^ w := by rw [Nat.succ_mul]; omega
      _ ≤ 2 ^ (w * ms.length) * 2 ^ w := Nat.mul_le_mul_right _ ih

/-- Each digit reads back from its place. -/
theorem packed_digit (w : Nat) (ms : List Int) : ∀ j, j < ms.length →
    packed w ms / 2 ^ (w * (ms.length - 1 - j)) % 2 ^ w = patternOf w (ms.getD j 0) := by
  induction ms using List.reverseRecOn with
  | nil => simp
  | append_singleton ms m ih =>
    intro j hj
    have hm := patternOf_lt w m
    rw [packed_concat, List.length_append, List.length_singleton, Nat.add_sub_cancel]
    rcases Nat.lt_or_ge j ms.length with h | h
    · have hplace : w * (ms.length - j) = w + w * (ms.length - 1 - j) := by
        rw [Nat.add_comm w, ← Nat.mul_succ]; congr 1; omega
      have hdrop : (packed w ms * 2 ^ w + patternOf w m) / 2 ^ w = packed w ms := by
        rw [Nat.mul_comm, Nat.mul_add_div (by positivity), Nat.div_eq_of_lt hm, Nat.add_zero]
      rw [hplace, Nat.pow_add, ← Nat.div_div_eq_div_mul, hdrop, ih j h, List.getD_append _ _ _ _ h]
    · have hlast : j = ms.length := by simp at hj; omega
      subst hlast
      simp [hm, Nat.mul_comm _ (2 ^ w), Nat.mod_eq_of_lt]

/-! ## Rounding to nearest -/

/-- Rounding to nearest, ties to even, errs by half a unit at most (R178). -/
theorem roundQ_rne_near (m : Nat) {d : Nat} (hd : 0 < d) : 2 * ((roundQ .rne (m / d) (m % d) d : Int) * d - m).natAbs ≤ d := by
  have hm : (m : Int) = m / d * d + m % d := by have := Int.ediv_mul_add_emod m d; omega
  have hr : m % d < d := Nat.mod_lt _ hd
  rw [hm]
  have hdown : ((m / d : Nat) : Int) * d - ((m : Int) / d * d + (m : Int) % d) = -((m % d : Nat) : Int) := by push_cast; ring
  have hup : ((m / d + 1 : Nat) : Int) * d - ((m : Int) / d * d + (m : Int) % d) = d - ((m % d : Nat) : Int) := by push_cast; ring
  unfold roundQ
  dsimp only
  split
  · rw [hdown]; omega
  · split
    · rw [hup]; omega
    · split
      · rw [hdown]; omega
      · rw [hup]; omega

/-- A number divided by 2^`e` and rounded, and scaled up again, is at most half of 2^`e` away. -/
theorem rneShift_near (e : Nat) (x : Int) : 2 * (rneShift e x * 2 ^ e - x).natAbs ≤ 2 ^ e := by
  have hnear := roundQ_rne_near x.natAbs (d := 2 ^ e) (by positivity)
  have hsplit : splitAt2 x.natAbs (-(e : Int)) 0 = (x.natAbs / 2 ^ e, x.natAbs % 2 ^ e, 2 ^ e) := by
    unfold splitAt2
    split
    · have he : e = 0 := by omega
      subst he; simp [Nat.mod_one]
    · have hexp : ((0 : Int) - -(e : Int)).toNat = e := by omega
      simp
  rw [rneShift, roundInt, hsplit]
  dsimp only
  push_cast at hnear
  generalize (roundQ .rne (x.natAbs / 2 ^ e) (x.natAbs % 2 ^ e) (2 ^ e) : Int) = r at hnear ⊢
  generalize (2 : Int) ^ e = d at hnear ⊢
  generalize 2 ^ e = d' at hnear ⊢
  split
  · next hneg =>
    have hneg : x < 0 := by simpa using hneg
    have hx : (|x| : Int) = -x := abs_of_neg hneg
    rw [hx] at hnear
    have hflip : -r * d - x = -(r * d - -x) := by ring
    rw [hflip, Int.natAbs_neg]; exact hnear
  · next hpos =>
    have hpos : 0 ≤ x := by simpa using hpos
    rw [abs_of_nonneg hpos] at hnear
    exact hnear

/-! ## Gain (R63) -/

/-- The bits of a coefficient are found from the highest down: it lies at or below the factor plus a half, and its successor does not. -/
theorem gainBits_spec (p : Nat) (g : Int) (n c : Nat) (hlow : gainBelow p g c = true) (hhigh : gainBelow p g (c + 2 ^ n) = false) :
    gainBelow p g (gainBits p g n c) = true ∧ gainBelow p g (gainBits p g n c + 1) = false ∧ gainBits p g n c < c + 2 ^ n := by
  induction n generalizing c with
  | zero => exact ⟨hlow, hhigh, Nat.lt_succ_self c⟩
  | succ n ih =>
    have hdouble : c + 2 ^ n + 2 ^ n = c + 2 ^ (n + 1) := by rw [Nat.pow_succ]; omega
    rw [gainBits]
    split
    · next h =>
      obtain ⟨h1, h2, h3⟩ := ih (c + 2 ^ n) h (by rw [hdouble]; exact hhigh)
      exact ⟨h1, h2, hdouble ▸ h3⟩
    · next h =>
      obtain ⟨h1, h2, h3⟩ := ih c hlow (by simpa using h)
      exact ⟨h1, h2, h3.trans_le (hdouble ▸ Nat.le_add_right ..)⟩

theorem gainBelow_zero (p : Nat) (g : Int) : gainBelow p g 0 = true := by simp [gainBelow]

/-- Every gain of R63 lies below 2^16 units of its coefficient. -/
theorem gainBelow_top {p : Nat} (hp : p ≤ 10) {g : Int} (hg : g ≤ 127) : gainBelow p g 65536 = false := by
  have hfactor : 10 ^ g.toNat ≤ 10 ^ 127 := Nat.pow_le_pow_right (by decide) (by omega)
  have hpoint : 2 ^ (80 * (p + 1)) ≤ 2048 ^ 80 := by
    rw [Nat.mul_comm, Nat.pow_mul]; exact Nat.pow_le_pow_left (Nat.pow_le_pow_right (n := 2) (by decide) (Nat.succ_le_succ hp)) 80
  have hbound : 10 ^ 127 * 2048 ^ 80 < 131071 ^ 80 := by norm_num
  have hone : 1 ≤ 10 ^ (-g).toNat := Nat.one_le_pow _ _ (by decide)
  have htop : 2 * 65536 - 1 = 131071 := rfl
  rw [gainBelow, decide_eq_false_iff_not, Nat.not_le, htop]
  calc 10 ^ g.toNat * 2 ^ (80 * (p + 1)) ≤ 10 ^ 127 * 2048 ^ 80 := Nat.mul_le_mul hfactor hpoint
    _ < 131071 ^ 80 := hbound
    _ ≤ 131071 ^ 80 * 10 ^ (-g).toNat := Nat.le_mul_of_pos_right _ hone

theorem gainPoint_le : gainPoint ≤ 10 := by unfold gainPoint; omega

/-- The coefficient is that nearest the factor of the gain, in 16 bits. -/
theorem gainCoeff_nearest {p : Nat} (hp : p ≤ 10) {g : Int} (hg : g ≤ 127) :
    gainCoeff p g < 2 ^ 16 ∧ (2 * gainCoeff p g - 1) ^ 80 * 10 ^ (-g).toNat ≤ 10 ^ g.toNat * 2 ^ (80 * (p + 1)) ∧
      10 ^ g.toNat * 2 ^ (80 * (p + 1)) < (2 * gainCoeff p g + 1) ^ 80 * 10 ^ (-g).toNat := by
  have htop : 0 + 2 ^ 16 = 65536 := by norm_num
  have hspec := gainBits_spec p g 16 0 (gainBelow_zero p g) (by rw [htop]; exact gainBelow_top hp hg)
  rw [← gainCoeff, Nat.zero_add] at hspec
  generalize gainCoeff p g = k at hspec ⊢
  obtain ⟨hlow, hhigh, hlt⟩ := hspec
  have hsucc : 2 * (k + 1) - 1 = 2 * k + 1 := by omega
  rw [gainBelow, hsucc, decide_eq_false_iff_not, Nat.not_le] at hhigh
  rw [gainBelow, decide_eq_true_eq] at hlow
  exact ⟨hlt, hlow, hhigh⟩

end Sys2Proof.Machine
end

section
/-! PROOFS. Compressed groups (O42; R180, R471). -/

namespace Sys2Proof.Machine

/-! ## Groups without compression -/

theorem compressGroup_plain {c : Nat} (h : compMethod c = 0) (xs : List Int) :
    compressGroup c xs = (bytesBE 48 (packed (compWidth c) (xs.map (clampInt (-32768) 32767))),
      xs.any (fun x => decide (x < -32768) || decide (32767 < x))) := by
  simp [compressGroup, h, packed]

theorem compressGroup_plain_sat {c : Nat} (h : compMethod c = 0) (xs : List Int) :
    (compressGroup c xs).2 = true ↔ ∃ x ∈ xs, x < -32768 ∨ 32767 < x := by
  simp [compressGroup_plain h]

theorem clampInt_eq {lo hi : Int} (h : lo ≤ hi) (i : Int) : clampInt lo hi i = max lo (min hi i) := by
  unfold clampInt
  split
  · omega
  · split <;> omega

/-! ## Block floating point -/

/-- Every part fits a mantissa of magnitude `lim` at exponent `e`. -/
def fitsAt (lim : Int) (xs : List Int) (e : Nat) : Bool := xs.all (fun x => decide ((rneShift e x).natAbs ≤ lim.natAbs))

/-- The exponent of a group: the smallest at which every part fits, and 15 where none is (R471). -/
def groupExp (lim : Int) (xs : List Int) : Nat := ((List.range 16).find? (fitsAt lim xs)).getD 15

theorem compressGroup_bfp {c : Nat} (h : compMethod c ≠ 0) (xs : List Int) :
    let lim : Int := (2 : Int) ^ (compWidth c - 1) - 1
    let e := groupExp lim xs
    compressGroup c xs = (BitVec.ofNat 8 e :: bytesBE (3 * compWidth c) (packed (compWidth c)
      (xs.map (fun x => clampInt (-lim) lim (rneShift e x)))), !fitsAt lim xs e) := by
  simp only [compressGroup, h, if_false]
  rfl

theorem fitsAt_iff {lim : Int} {xs : List Int} {e : Nat} : fitsAt lim xs e = true ↔ ∀ x ∈ xs, (rneShift e x).natAbs ≤ lim.natAbs := by
  simp [fitsAt]

theorem groupExp_le (lim : Int) (xs : List Int) : groupExp lim xs ≤ 15 := by
  unfold groupExp
  rcases h : (List.range 16).find? (fitsAt lim xs) with _ | e
  · exact le_rfl
  · have := List.mem_range.1 (List.mem_of_find?_eq_some h)
    exact Nat.le_of_lt_succ this

/-- No smaller exponent fits. -/
theorem not_fitsAt_of_lt {lim : Int} {xs : List Int} {k : Nat} (h : k < groupExp lim xs) : fitsAt lim xs k = false := by
  have hk : k ∈ List.range 16 := List.mem_range.2 (h.trans_le ((groupExp_le lim xs).trans (by decide)))
  unfold groupExp at h
  rcases hfind : (List.range 16).find? (fitsAt lim xs) with _ | e
  · exact Bool.eq_false_iff.2 (List.find?_eq_none.1 hfind k hk)
  · rw [hfind] at h
    obtain ⟨-, -, hbefore⟩ := List.find?_range_eq_some.1 hfind
    simpa using hbefore k h

/-- Where no exponent fits it is 15. -/
theorem groupExp_of_not_fitsAt {lim : Int} {xs : List Int} (h : fitsAt lim xs (groupExp lim xs) = false) : groupExp lim xs = 15 := by
  unfold groupExp at h ⊢
  rcases hfind : (List.range 16).find? (fitsAt lim xs) with _ | e
  · rfl
  · rw [hfind, Option.getD_some, List.find?_some hfind] at h
    cases h

/-! ## Groups that are read -/

/-- What was packed reads back, scaled, where each number fits `w` bits. -/
theorem unpacked {w : Nat} (hw : 1 ≤ w) (e : Int) {ms : List Int} (hlen : ms.length = 24)
    (hfit : ∀ m ∈ ms, -2 ^ (w - 1) ≤ m ∧ m < 2 ^ (w - 1)) :
    (List.range 24).map (fun j => signedOf w (packed w ms / 2 ^ (w * (23 - j))) * e) = ms.map (· * e) := by
  refine List.ext_getElem (by simp [hlen]) fun j hj hj' => ?_
  have hj : j < ms.length := by simpa using hj'
  have hdigit := packed_digit w ms j hj
  rw [hlen, List.getD_eq_getElem _ _ hj] at hdigit
  obtain ⟨hlow, hhigh⟩ := hfit _ (List.getElem_mem hj)
  simp [signedOf_of_mod hw hlow hhigh hdigit]

/-- 24 numbers of `w` bits fill 3 `w` bytes. -/
theorem packed_lt_bytes {w : Nat} {ms : List Int} (hlen : ms.length = 24) : packed w ms < 256 ^ (3 * w) := by
  have h := packed_lt w ms
  have hbits : (256 : Nat) ^ (3 * w) = 2 ^ (w * ms.length) := by
    rw [hlen, show (256 : Nat) = 2 ^ 8 from rfl, ← Nat.pow_mul]; congr 1; omega
  rwa [hbits]

theorem clamped_fits {w : Nat} {lim : Int} (hlim : lim = 2 ^ (w - 1) - 1) (v : Int) :
    -2 ^ (w - 1) ≤ clampInt (-lim) lim v ∧ clampInt (-lim) lim v < 2 ^ (w - 1) := by
  have hpos : (1 : Int) ≤ 2 ^ (w - 1) := one_le_pow₀ (by decide)
  rw [clampInt_eq (by omega)]
  omega

theorem groupParts_plain {c : Nat} (h : compMethod c = 0) (bs : List Byte) : groupParts c bs = (List.range 24).map (fun j =>
    signedOf (compWidth c) (ofBytesBE (bs.take (3 * compWidth c)) / 2 ^ (compWidth c * (23 - j))) * 1) := by
  simp [groupParts, h]

theorem groupParts_bfp {c : Nat} (h : compMethod c ≠ 0) (b : Byte) (bs : List Byte) : groupParts c (b :: bs) = (List.range 24).map (fun j =>
    signedOf (compWidth c) (ofBytesBE (bs.take (3 * compWidth c)) / 2 ^ (compWidth c * (23 - j))) * (2 : Int) ^ (b.toNat % 16)) := by
  simp [groupParts, h]

/-- The bytes of packed numbers read back as the number that they spell. -/
theorem packed_read {w : Nat} {ms : List Int} (hlen : ms.length = 24) :
    ofBytesBE ((bytesBE (3 * w) (packed w ms)).take (3 * w)) = packed w ms := by
  rw [List.take_of_length_le (by rw [bytesBE_length]), ofBytesBE_bytesBE (packed_lt_bytes hlen)]

/-- A group without compression reads back as its parts limited to 16 bits. -/
theorem groupParts_compressGroup_plain {xs : List Int} (hlen : xs.length = 24) :
    groupParts 0 (compressGroup 0 xs).1 = xs.map (fun x => max (-32768) (min 32767 x)) := by
  set ms := xs.map (clampInt (-32768) 32767) with hms
  have hlen' : ms.length = 24 := by simpa [hms] using hlen
  have hfit : ∀ m ∈ ms, -2 ^ (16 - 1) ≤ m ∧ m < 2 ^ (16 - 1) := by
    intro m hm
    obtain ⟨x, -, rfl⟩ := List.mem_map.1 hm
    rw [clampInt_eq (by decide)]
    omega
  rw [compressGroup_plain (c := 0) rfl, ← hms, groupParts_plain rfl]
  show (List.range 24).map (fun j => signedOf 16 (ofBytesBE ((bytesBE (3 * 16) (packed 16 ms)).take (3 * 16)) / 2 ^ (16 * (23 - j))) * 1) = _
  rw [packed_read hlen', unpacked (by decide) _ hlen' hfit, hms, List.map_map]
  refine List.map_congr_left fun x _ => ?_
  simp [clampInt_eq]

/-- A group in block floating point reads back as its parts rounded to the group's exponent, within the mantissa. -/
theorem groupParts_compressGroup_bfp {c : Nat} (hmethod : compMethod c ≠ 0) (hw : 1 ≤ compWidth c) {xs : List Int} (hlen : xs.length = 24) :
    let lim : Int := (2 : Int) ^ (compWidth c - 1) - 1
    groupParts c (compressGroup c xs).1 = xs.map (fun x => max (-lim) (min lim (rneShift (groupExp lim xs) x)) * (2 : Int) ^ groupExp lim xs) := by
  intro lim
  set e := groupExp lim xs with he
  have hlim : 0 ≤ lim := by have := one_le_pow₀ (show (1 : Int) ≤ 2 by decide) (n := compWidth c - 1); omega
  set ms := xs.map (fun x => clampInt (-lim) lim (rneShift e x)) with hms
  have hlen' : ms.length = 24 := by simpa [hms] using hlen
  have hfit : ∀ m ∈ ms, -2 ^ (compWidth c - 1) ≤ m ∧ m < 2 ^ (compWidth c - 1) := by
    intro m hm
    obtain ⟨x, -, rfl⟩ := List.mem_map.1 hm
    exact clamped_fits rfl _
  have hexp : (BitVec.ofNat 8 e).toNat % 16 = e := by
    have := groupExp_le lim xs
    rw [BitVec.toNat_ofNat]; omega
  rw [compressGroup_bfp hmethod, groupParts_bfp hmethod, ← he, ← hms, packed_read hlen', hexp, unpacked hw _ hlen' hfit, hms, List.map_map]
  refine List.map_congr_left fun x _ => ?_
  simp [clampInt_eq (show -lim ≤ lim by omega)]

/-! ## Infinities -/

/-- A number beyond 2^31 fits no mantissa of 16 bits at any exponent. -/
theorem not_fitsAt_of_large {w e : Nat} (hw : w ≤ 16) (he : e ≤ 15) {xs : List Int} {x : Int} (hx : x ∈ xs) (hlarge : 2 ^ 32 ≤ x.natAbs) :
    fitsAt ((2 : Int) ^ (w - 1) - 1) xs e = false := by
  by_contra h
  have hfit := fitsAt_iff.1 (by simpa using h) x hx
  have hnear := rneShift_near e x
  have hscale : (2 : Int) ^ e ≤ 2 ^ 15 := pow_le_pow_right₀ (by decide) he
  have hscale' : 2 ^ e ≤ 2 ^ 15 := Nat.pow_le_pow_right (by decide) he
  have hlim : (2 : Int) ^ (w - 1) ≤ 2 ^ 15 := pow_le_pow_right₀ (by decide) (by omega)
  have hpos : (1 : Int) ≤ 2 ^ (w - 1) := one_le_pow₀ (by decide)
  have hmant : (rneShift e x).natAbs ≤ 2 ^ 15 := by omega
  have hprod : (rneShift e x * 2 ^ e).natAbs ≤ 2 ^ 15 * 2 ^ 15 := by
    rw [Int.natAbs_mul, Int.natAbs_pow]
    exact Nat.mul_le_mul hmant hscale'
  omega

theorem compWidth_le (c : Nat) : compWidth c ≤ 16 := by unfold compWidth; split <;> omega

/-- An infinity lies beyond every format: the group that holds it saturates. -/
theorem compressGroup_sat_of_inf (c : Nat) (g : Int) {neg : Bool} {xs : List Int} (h : gained g (.inf neg) ∈ xs) :
    (compressGroup c xs).2 = true := by
  have hlarge : 2 ^ 32 ≤ (gained g (.inf neg)).natAbs := by cases neg <;> simp [gained]
  by_cases hmethod : compMethod c = 0
  · refine (compressGroup_plain_sat hmethod xs).2 ⟨_, h, ?_⟩
    omega
  · rw [compressGroup_bfp hmethod, not_fitsAt_of_large (compWidth_le c) (groupExp_le _ _) h hlarge]
    rfl

/-! ## Method and width -/

theorem compMethod_bfp (w : Nat) : compMethod (16 + w % 16) = 1 := by unfold compMethod; omega

theorem compWidth_bfp {w : Nat} (hlow : 6 ≤ w) (hhigh : w ≤ 16) : compWidth (16 + w % 16) = w := by
  unfold compWidth
  split <;> omega

/-- A group in block floating point: its exponent, its size, when it saturates, and how it reads back. -/
theorem compressGroup_of_width {w : Nat} (hlow : 6 ≤ w) (hhigh : w ≤ 16) {xs : List Int} (hlen : xs.length = 24) :
    let lim : Int := (2 : Int) ^ (w - 1) - 1
    let r := compressGroup (16 + w % 16) xs
    (r.1.headD 0).toNat = groupExp lim xs ∧ r.1.length = 1 + 3 * w ∧ groupBytes (16 + w % 16) = 1 + 3 * w ∧
      r.2 = !fitsAt lim xs (groupExp lim xs) ∧
      groupParts (16 + w % 16) r.1 = xs.map (fun x => max (-lim) (min lim (rneShift (groupExp lim xs) x)) * (2 : Int) ^ groupExp lim xs) := by
  intro lim r
  have hmethod : compMethod (16 + w % 16) ≠ 0 := by rw [compMethod_bfp]; decide
  have hwidth := compWidth_bfp hlow hhigh
  obtain ⟨hhead, hlength, hsat⟩ : r.1.headD 0 = BitVec.ofNat 8 (groupExp lim xs) ∧ r.1.length = 1 + 3 * w ∧
      r.2 = !fitsAt lim xs (groupExp lim xs) := by
    simp only [r, compressGroup_bfp hmethod, hwidth, List.headD_cons, List.length_cons, bytesBE_length]
    exact ⟨rfl, by omega, rfl⟩
  have hparts := groupParts_compressGroup_bfp hmethod (by omega) hlen
  rw [hwidth] at hparts
  refine ⟨?_, hlength, by rw [groupBytes, if_neg hmethod, hwidth], hsat, hparts⟩
  rw [hhead, BitVec.toNat_ofNat]
  exact Nat.mod_eq_of_lt ((groupExp_le lim xs).trans_lt (by decide))

end Sys2Proof.Machine
end

section
/-! PROOFS. Flits (O42; R474, and the field of R271). -/

namespace Sys2Proof.Machine

/-! ## The field of 256 elements -/

/-- Multiplication by x modulo x^8 + x^4 + x^3 + x^2 + 1. -/
def xtime (r : Nat) : Nat := if 2 * r ≥ 256 then (2 * r) ^^^ 0x11D else 2 * r

theorem xtime_lt : ∀ r, r < 256 → xtime r < 256 := by decide +kernel

theorem xtime_eq_xor : ∀ r, r < 256 → xtime r = (2 * r) ^^^ (if r.testBit 7 then 0x11D else 0) := by decide +kernel

theorem xor_lt_byte {r s : Nat} (hr : r < 256) (hs : s < 256) : r ^^^ s < 256 := Nat.xor_lt_two_pow (n := 8) hr hs

theorem xtime_xor {r s : Nat} (hr : r < 256) (hs : s < 256) : xtime (r ^^^ s) = xtime r ^^^ xtime s := by
  have hdouble : 2 * (r ^^^ s) = (2 * r) ^^^ (2 * s) := by
    simpa [Nat.shiftLeft_eq, Nat.mul_comm] using Nat.shiftLeft_xor_distrib (a := r) (b := s) (i := 1)
  have hred : (if (r.testBit 7 ^^ s.testBit 7) then 0x11D else 0) =
      (if r.testBit 7 then 0x11D else 0) ^^^ (if s.testBit 7 then 0x11D else 0) := by
    cases r.testBit 7 <;> cases s.testBit 7 <;> rfl
  rw [xtime_eq_xor _ (xor_lt_byte hr hs), xtime_eq_xor r hr, xtime_eq_xor s hs, hdouble, Nat.testBit_xor, hred]
  ac_rfl

theorem eq_of_xtime_eq {r s : Nat} (hr : r < 256) (hs : s < 256) (h : xtime r = xtime s) : r = s := by
  have hzero : ∀ x, x < 256 → xtime x = 0 → x = 0 := by decide +kernel
  exact Nat.xor_eq_zero_iff.1 (hzero _ (xor_lt_byte hr hs) (by rw [xtime_xor hr hs, h, Nat.xor_self]))

theorem gfMulAux_succ (n a b : Nat) : gfMulAux (n + 1) a b = xtime (gfMulAux n a (b / 2)) ^^^ (if b % 2 = 1 then a else 0) := by
  rw [gfMulAux]
  split
  · rfl
  · exact (Nat.xor_zero _).symm

theorem gfMulAux_lt {a : Nat} (ha : a < 256) (n b : Nat) : gfMulAux n a b < 256 := by
  induction n generalizing b with
  | zero => exact Nat.zero_lt_succ 255
  | succ n ih =>
    rw [gfMulAux_succ]
    refine xor_lt_byte (xtime_lt _ (ih _)) ?_
    split
    · exact ha
    · exact Nat.zero_lt_succ 255

/-- Multiplication is linear in its second factor. -/
theorem gfMulAux_xor {a : Nat} (ha : a < 256) (n b c : Nat) : gfMulAux n a (b ^^^ c) = gfMulAux n a b ^^^ gfMulAux n a c := by
  induction n generalizing b c with
  | zero => simp [gfMulAux]
  | succ n ih =>
    have hparity : (if (b ^^^ c) % 2 = 1 then a else 0) = (if b % 2 = 1 then a else 0) ^^^ (if c % 2 = 1 then a else 0) := by
      have h : (b ^^^ c) % 2 = 1 ↔ ¬ (b % 2 = 1 ↔ c % 2 = 1) := Nat.xor_mod_two_eq_one
      by_cases hb : b % 2 = 1 <;> by_cases hc : c % 2 = 1 <;> rw [if_congr h rfl rfl] <;> simp only [hb, hc] <;> simp
    rw [gfMulAux_succ, gfMulAux_succ n a b, gfMulAux_succ n a c, Nat.xor_div_two, ih, xtime_xor (gfMulAux_lt ha ..) (gfMulAux_lt ha ..), hparity]
    ac_rfl

/-- Bits beyond a factor's width add nothing. -/
theorem gfMulAux_of_lt (a n b : Nat) (h : b < 2 ^ n) : gfMulAux (n + 1) a b = gfMulAux n a b := by
  induction n generalizing b with
  | zero =>
    have hb : b = 0 := by simpa using h
    subst hb; rfl
  | succ n ih => rw [gfMulAux_succ, ih (b / 2) (by rw [Nat.pow_succ] at h; omega), ← gfMulAux_succ]

theorem gfMul_xtime {a b : Nat} (ha : a < 256) (hb : b < 256) : gfMul a (xtime b) = xtime (gfMul a b) := by
  have hmodulus : ∀ x, x < 256 → gfMulAux 9 x 0x11D = 0 := by decide +kernel
  have hshift : gfMulAux 9 a (2 * b) = xtime (gfMul a b) := by rw [gfMulAux_succ]; simp [gfMul]
  have hreduce : gfMulAux 9 a (if b.testBit 7 then 0x11D else 0) = 0 := by
    split
    · exact hmodulus a ha
    · exact (by decide +kernel : ∀ x, x < 256 → gfMulAux 9 x 0 = 0) a ha
  rw [gfMul, ← gfMulAux_of_lt a 8 _ (xtime_lt b hb), xtime_eq_xor b hb, gfMulAux_xor ha, hshift, hreduce, Nat.xor_zero]

theorem gfMul_two : ∀ b, b < 256 → gfMul 2 b = xtime b := by decide +kernel
theorem gfMul_three : ∀ b, b < 256 → gfMul 3 b = xtime b ^^^ b := by decide +kernel

theorem gfPow_lt (n : Nat) : gfPow n < 256 := by
  cases n with
  | zero => decide
  | succ n => exact gfMulAux_lt (by decide) 8 _

theorem xtime_iterate_lt {a : Nat} (ha : a < 256) (n : Nat) : xtime^[n] a < 256 := by
  induction n with
  | zero => exact ha
  | succ n ih => rw [Function.iterate_succ_apply']; exact xtime_lt _ ih

/-- A power of x multiplies as often. -/
theorem gfMul_gfPow {a : Nat} (ha : a < 256) (n : Nat) : gfMul a (gfPow n) = xtime^[n] a := by
  induction n with
  | zero => exact (by decide +kernel : ∀ x, x < 256 → gfMul x 1 = x) a ha
  | succ n ih => rw [gfPow, gfMul_two _ (gfPow_lt n), gfMul_xtime ha (gfPow_lt n), ih, Function.iterate_succ_apply']

/-- A byte other than 0 does not return after fewer than 128 multiplications by x: its period divides 255 = 3 · 5 · 17. -/
theorem xtime_iterate_ne {a d : Nat} (ha : a < 256) (hzero : a ≠ 0) (hd : 0 < d) (hlt : d < 128) : xtime^[d] a ≠ a := by
  intro hreturn
  have hfull : Function.IsPeriodicPt xtime 255 a := by
    have hone : gfPow 255 = gfPow 0 := by decide +kernel
    show xtime^[255] a = a
    rw [← gfMul_gfPow ha, hone, gfMul_gfPow ha]; rfl
  have hgcd := Function.IsPeriodicPt.gcd (show Function.IsPeriodicPt xtime d a from hreturn) hfull
  have hproper : ∀ n, n < 128 → 0 < n → n.gcd 255 ∣ 85 ∨ n.gcd 255 ∣ 51 ∨ n.gcd 255 ∣ 15 := by decide +kernel
  have hnone : ∀ x, x < 256 → x ≠ 0 → ∀ n ∈ [85, 51, 15], gfMul x (gfPow n) ≠ x := by decide +kernel
  have hmoves (n : Nat) (hn : n ∈ [85, 51, 15]) (hdvd : d.gcd 255 ∣ n) : False :=
    hnone a ha hzero n hn ((gfMul_gfPow ha n).trans (hgcd.trans_dvd hdvd))
  rcases hproper d hlt hd with h | h | h
  · exact hmoves 85 (by decide) h
  · exact hmoves 51 (by decide) h
  · exact hmoves 15 (by decide) h

/-- Different powers of x below 128 multiply differently. -/
theorem xtime_iterate_inj {a p q : Nat} (ha : a < 256) (hzero : a ≠ 0) (hp : p < 128) (hq : q < 128) (h : xtime^[p] a = xtime^[q] a) :
    p = q := by
  induction p generalizing q with
  | zero =>
    by_contra hne
    exact xtime_iterate_ne ha hzero (Nat.pos_of_ne_zero (Ne.symm hne)) hq h.symm
  | succ p ih =>
    cases q with
    | zero => exact absurd h (xtime_iterate_ne ha hzero (Nat.succ_pos p) hp)
    | succ q =>
      rw [Function.iterate_succ_apply', Function.iterate_succ_apply'] at h
      exact congrArg _ (ih (by omega) (by omega) (eq_of_xtime_eq (xtime_iterate_lt ha p) (xtime_iterate_lt ha q) h))

end Sys2Proof.Machine
end

section
/-! PROOFS. The code of a flit corrects one byte in each half (O42; R474). -/

namespace Sys2Proof.Machine

/-! ## Lists -/

theorem lmod_lmod_same {α : Type} (l : List α) (i : Nat) (f g : α → α) : lmod (lmod l i f) i g = lmod l i (g ∘ f) := by
  induction l generalizing i with
  | nil => rfl
  | cons x l ih => cases i with
    | zero => rfl
    | succ i => simp [lmod, ih]

theorem lmod_id {α : Type} (l : List α) (i : Nat) : lmod l i id = l := by
  induction l generalizing i with
  | nil => rfl
  | cons x l ih => cases i with
    | zero => rfl
    | succ i => simp [lmod, ih]

theorem lmod_xor_zero (l : List Byte) (i : Nat) : lmod l i (· ^^^ (0 : Byte)) = l := by
  have hid : (fun b : Byte => b ^^^ 0) = id := by funext b; exact BitVec.xor_zero
  rw [hid, lmod_id]

/-- A byte changed twice by the same difference is as before. -/
theorem lmod_xor_cancel (l : List Byte) (i : Nat) (e : Byte) : lmod (lmod l i (· ^^^ e)) i (· ^^^ e) = l := by
  have hid : ((· ^^^ e) ∘ (· ^^^ e) : Byte → Byte) = id := by
    funext b
    show b ^^^ e ^^^ e = b
    rw [BitVec.xor_assoc, BitVec.xor_self, BitVec.xor_zero]
  rw [lmod_lmod_same, hid, lmod_id]

/-! ## Syndromes -/

/-- One symbol more in both syndromes. -/
def syndromeStep (p : Nat × Nat) (b : Byte) : Nat × Nat := (p.1 ^^^ b.toNat, gfMul 2 p.2 ^^^ b.toNat)

theorem rsSyndromes_eq (cw : List Byte) : rsSyndromes cw = cw.foldl syndromeStep (0, 0) := rfl

theorem syndromeStep_xor {a b x y : Nat} (hb : b < 256) (hy : y < 256) (c : Byte) :
    syndromeStep (a ^^^ x, b ^^^ y) c = ((syndromeStep (a, b) c).1 ^^^ x, (syndromeStep (a, b) c).2 ^^^ xtime y) := by
  simp only [syndromeStep, gfMul_two _ (xor_lt_byte hb hy), gfMul_two b hb, xtime_xor hb hy]
  congr 1 <;> ac_rfl

theorem syndromeStep_lt (a b : Nat) (c : Byte) : (syndromeStep (a, b) c).2 < 256 :=
  xor_lt_byte (gfMulAux_lt (by decide) 8 b) c.isLt

/-- A difference before the symbols `l` shows in the syndromes after them. -/
theorem syndromes_shift (l : List Byte) : ∀ {a b x y : Nat}, b < 256 → y < 256 → l.foldl syndromeStep (a ^^^ x, b ^^^ y) =
    ((l.foldl syndromeStep (a, b)).1 ^^^ x, (l.foldl syndromeStep (a, b)).2 ^^^ xtime^[l.length] y) := by
  induction l with
  | nil => intros; rfl
  | cons c l ih =>
    intro a b x y hb hy
    rw [List.foldl_cons, syndromeStep_xor hb hy, List.foldl_cons, ih (syndromeStep_lt a b c) (xtime_lt y hy), List.length_cons,
      Function.iterate_succ_apply]

/-- A symbol in error by `e` shows in both syndromes, in the second at its power. -/
theorem syndromes_error (l : List Byte) (e : Byte) : ∀ {i a b : Nat}, i < l.length → b < 256 → (lmod l i (· ^^^ e)).foldl syndromeStep (a, b) =
    ((l.foldl syndromeStep (a, b)).1 ^^^ e.toNat, (l.foldl syndromeStep (a, b)).2 ^^^ xtime^[l.length - 1 - i] e.toNat) := by
  induction l with
  | nil => intro i a b hi; exact absurd hi (Nat.not_lt_zero i)
  | cons c l ih =>
    intro i a b hi hb
    cases i with
    | zero =>
      have hstep : syndromeStep (a, b) (c ^^^ e) = ((syndromeStep (a, b) c).1 ^^^ e.toNat, (syndromeStep (a, b) c).2 ^^^ e.toNat) := by
        simp only [syndromeStep, BitVec.toNat_xor, Nat.xor_assoc]
      rw [lmod, List.foldl_cons, hstep, List.foldl_cons, syndromes_shift l (syndromeStep_lt a b c) e.isLt]
      rfl
    | succ i =>
      have hplace : (c :: l).length - 1 - (i + 1) = l.length - 1 - i := by rw [List.length_cons]; omega
      rw [lmod, List.foldl_cons, List.foldl_cons, ih (Nat.lt_of_succ_lt_succ hi) (syndromeStep_lt a b c), hplace]

/-! ## Check bytes -/

/-- One symbol more in the remainder of R474's division. -/
def remainderStep (p : Nat × Nat) (b : Byte) : Nat × Nat := (p.2 ^^^ gfMul 3 (p.1 ^^^ b.toNat), gfMul 2 (p.1 ^^^ b.toNat))

theorem rsCheck_eq (data : List Byte) : rsCheck data =
    [BitVec.ofNat 8 (data.foldl remainderStep (0, 0)).1, BitVec.ofNat 8 (data.foldl remainderStep (0, 0)).2] := rfl

/-- Syndromes and remainder of the same data are bytes, and the remainder as check bytes makes both syndromes 0. -/
structure Checked (p r : Nat × Nat) : Prop where
  bytes : p.1 < 256 ∧ p.2 < 256 ∧ r.1 < 256 ∧ r.2 < 256
  first : p.1 ^^^ r.1 ^^^ r.2 = 0
  second : xtime (xtime p.2 ^^^ r.1) ^^^ r.2 = 0

theorem Checked.step {p r : Nat × Nat} (h : Checked p r) (b : Byte) : Checked (syndromeStep p b) (remainderStep r b) := by
  obtain ⟨p1, p2⟩ := p
  obtain ⟨r1, r2⟩ := r
  obtain ⟨⟨hp1, hp2, hr1, hr2⟩, hfirst, hsecond⟩ := h
  have hb : b.toNat < 256 := b.isLt
  have hf : r1 ^^^ b.toNat < 256 := xor_lt_byte hr1 hb
  have hp : syndromeStep (p1, p2) b = (p1 ^^^ b.toNat, xtime p2 ^^^ b.toNat) := by rw [syndromeStep, gfMul_two p2 hp2]
  have hr : remainderStep (r1, r2) b = (r2 ^^^ (xtime (r1 ^^^ b.toNat) ^^^ (r1 ^^^ b.toNat)), xtime (r1 ^^^ b.toNat)) := by
    rw [remainderStep, gfMul_three _ hf, gfMul_two _ hf]
  have hr2' : r2 = xtime (xtime p2) ^^^ xtime r1 := by rw [← xtime_xor (xtime_lt p2 hp2) hr1]; exact (Nat.xor_eq_zero_iff.1 hsecond).symm
  have hp1' : p1 = r1 ^^^ r2 := Nat.xor_eq_zero_iff.1 (by rw [← Nat.xor_assoc]; exact hfirst)
  rw [hp, hr]
  refine ⟨⟨xor_lt_byte hp1 hb, xor_lt_byte (xtime_lt p2 hp2) hb, xor_lt_byte hr2 (xor_lt_byte (xtime_lt _ hf) hf), xtime_lt _ hf⟩, ?_, ?_⟩
  · simp [hp1', Nat.xor_assoc, Nat.xor_comm, Nat.xor_left_comm]
  · have hinner : xtime (xtime p2 ^^^ b.toNat) ^^^ (r2 ^^^ (xtime (r1 ^^^ b.toNat) ^^^ (r1 ^^^ b.toNat))) = r1 ^^^ b.toNat := by
      rw [hr2', xtime_xor (xtime_lt p2 hp2) hb, xtime_xor hr1 hb]
      simp [Nat.xor_assoc, Nat.xor_comm, Nat.xor_left_comm]
    rw [hinner, Nat.xor_self]

theorem checked_data (data : List Byte) : Checked (rsSyndromes data) (data.foldl remainderStep (0, 0)) := by
  induction data using List.reverseRecOn with
  | nil => exact ⟨by decide, rfl, rfl⟩
  | append_singleton data b ih =>
    rw [rsSyndromes_eq, List.foldl_append, List.foldl_append]
    exact ih.step b

/-- Data with their check bytes have no syndrome. -/
theorem rsSyndromes_checked (data : List Byte) : rsSyndromes (data ++ rsCheck data) = (0, 0) := by
  obtain ⟨⟨-, hp, hr1, hr2⟩, hfirst, hsecond⟩ := checked_data data
  set r := data.foldl remainderStep (0, 0) with hr
  have hbyte1 : (BitVec.ofNat 8 r.1).toNat = r.1 := by rw [BitVec.toNat_ofNat]; exact Nat.mod_eq_of_lt hr1
  have hbyte2 : (BitVec.ofNat 8 r.2).toNat = r.2 := by rw [BitVec.toNat_ofNat]; exact Nat.mod_eq_of_lt hr2
  have hinner : xtime (rsSyndromes data).2 ^^^ r.1 < 256 := xor_lt_byte (xtime_lt _ hp) hr1
  rw [rsCheck_eq, ← hr, rsSyndromes_eq, List.foldl_append, ← rsSyndromes_eq]
  simp only [List.foldl_cons, List.foldl_nil, syndromeStep, hbyte1, hbyte2, hfirst, gfMul_two _ hp, gfMul_two _ hinner, hsecond]

/-! ## Correction -/

theorem rsCorrect_of_none {cw : List Byte} (h : (rsSyndromes cw).1 = 0) : rsCorrect cw = cw := by
  simp [rsCorrect, h]

/-- A codeword of 128 symbols with at most one in error is put right. -/
theorem rsCorrect_one {cw : List Byte} (hlen : cw.length = 128) (hclean : rsSyndromes cw = (0, 0)) {i : Nat} (hi : i < 128) (e : Byte) :
    rsCorrect (lmod cw i (· ^^^ e)) = cw := by
  have hsynd : rsSyndromes (lmod cw i (· ^^^ e)) = (e.toNat, xtime^[127 - i] e.toNat) := by
    rw [rsSyndromes_eq, syndromes_error cw e (hlen ▸ hi) (by decide), ← rsSyndromes_eq, hclean, hlen]
    simp
  by_cases he : e = 0
  · subst he
    rw [lmod_xor_zero, rsCorrect_of_none (by rw [hclean])]
  · have hne : e.toNat ≠ 0 := fun h => he (BitVec.eq_of_toNat_eq h)
    have hplace : (List.range 128).find? (fun p => decide (gfMul e.toNat (gfPow p) = xtime^[127 - i] e.toNat)) = some (127 - i) := by
      refine List.find?_range_eq_some.2 ⟨by simp [gfMul_gfPow e.isLt], List.mem_range.2 (by omega), fun p hp => ?_⟩
      simp only [gfMul_gfPow e.isLt, Bool.not_eq_true', decide_eq_false_iff_not]
      exact fun h => absurd (xtime_iterate_inj e.isLt hne (by omega) (by omega) h) (by omega)
    have hback : 127 - (127 - i) = i := by omega
    have hbyte : BitVec.ofNat 8 e.toNat = e := BitVec.ofNat_toNat ..
    simp only [rsCorrect, hsynd, hne, if_false, hplace, hback]
    rw [hbyte, lmod_xor_cancel]

end Sys2Proof.Machine
end

section
/-! PROOFS. A flit reads back, with a byte of each half in error too (O42; R474). -/

namespace Sys2Proof.Machine

/-! ## Bytes of a flit -/

theorem bytesLE_ofBytesLE (bs : List Byte) : bytesLE bs.length (ofBytesLE bs) = bs := by
  induction bs with
  | nil => rfl
  | cons b bs ih =>
    have hb := b.isLt
    have hbyte : BitVec.ofNat 8 (b.toNat + 256 * ofBytesLE bs) = b := by
      refine BitVec.eq_of_toNat_eq ?_
      rw [BitVec.toNat_ofNat, Nat.add_mul_mod_self_left, Nat.mod_eq_of_lt hb]
    have hrest : (b.toNat + 256 * ofBytesLE bs) / 256 = ofBytesLE bs := by omega
    rw [List.length_cons, ofBytesLE, bytesLE, hbyte, hrest, ih]

/-- `k` bytes of a number are those of its low 8 `k` bits. -/
theorem bytesLE_mod (k n : Nat) : bytesLE k (n % 2 ^ (8 * k)) = bytesLE k n := by
  induction k generalizing n with
  | zero => rfl
  | succ k ih =>
    have hmod : n % 2 ^ (8 * (k + 1)) = n % 256 + 256 * (n / 256 % 2 ^ (8 * k)) := by
      rw [Nat.mul_succ, Nat.add_comm, Nat.pow_add]; exact Nat.mod_mul
    have hbyte : BitVec.ofNat 8 (n % 256 + 256 * (n / 256 % 2 ^ (8 * k))) = BitVec.ofNat 8 n := by
      refine BitVec.eq_of_toNat_eq ?_
      rw [BitVec.toNat_ofNat, BitVec.toNat_ofNat, Nat.add_mul_mod_self_left, Nat.mod_mod]
    have hrest : (n % 256 + 256 * (n / 256 % 2 ^ (8 * k))) / 256 = n / 256 % 2 ^ (8 * k) := by omega
    rw [hmod, bytesLE, hbyte, hrest, ih, bytesLE]

/-- A difference of one byte in a number is one in that byte alone. -/
theorem bytesLE_xor_byte (e : Byte) (n : Nat) : ∀ k i, bytesLE k (n ^^^ (e.toNat * 256 ^ i)) = lmod (bytesLE k n) i (· ^^^ e) := by
  intro k
  induction k generalizing n with
  | zero => intro i; rfl
  | succ k ih =>
    intro i
    have hdiv (x : Nat) : (n ^^^ x) / 256 = n / 256 ^^^ x / 256 := by
      simpa [Nat.shiftRight_eq_div_pow] using Nat.shiftRight_xor_distrib (a := n) (b := x) (i := 8)
    have hbyte (x : Nat) : BitVec.ofNat 8 (n ^^^ x) = BitVec.ofNat 8 n ^^^ BitVec.ofNat 8 x := by
      refine BitVec.eq_of_toNat_eq ?_
      simp only [BitVec.toNat_xor, BitVec.toNat_ofNat, Nat.xor_mod_two_pow]
    rw [bytesLE, hdiv, hbyte, bytesLE]
    cases i with
    | zero =>
      have he : e.toNat * 256 ^ 0 / 256 = 0 := by have := e.isLt; omega
      have hself : BitVec.ofNat 8 (e.toNat * 256 ^ 0) = e := by rw [Nat.pow_zero, Nat.mul_one]; exact BitVec.ofNat_toNat ..
      rw [he, Nat.xor_zero, hself, lmod]
    | succ i =>
      have hshift : e.toNat * 256 ^ (i + 1) = 256 * (e.toNat * 256 ^ i) := by rw [Nat.pow_succ]; ring
      have hzero : BitVec.ofNat 8 (256 * (e.toNat * 256 ^ i)) = 0 := by
        refine BitVec.eq_of_toNat_eq ?_
        rw [BitVec.toNat_ofNat]; exact Nat.mul_mod_right ..
      rw [hshift, hzero, Nat.mul_div_cancel_left _ (by decide), ih, lmod, show BitVec.ofNat 8 n ^^^ 0 = BitVec.ofNat 8 n from BitVec.xor_zero]

theorem bytesLE_ofNat (k n : Nat) : bytesLE k (BitVec.ofNat (8 * k) n).toNat = bytesLE k n := by rw [BitVec.toNat_ofNat, bytesLE_mod]

/-- The same of a word of `k` bytes. -/
theorem wordBytes_xor_byte {k : Nat} (x : BitVec (8 * k)) (e : Byte) (i : Nat) :
    bytesLE k (x ^^^ BitVec.ofNat (8 * k) (e.toNat * 256 ^ i)).toNat = lmod (bytesLE k x.toNat) i (· ^^^ e) := by
  have hxor : (x ^^^ BitVec.ofNat (8 * k) (e.toNat * 256 ^ i)).toNat = (x.toNat ^^^ (e.toNat * 256 ^ i)) % 2 ^ (8 * k) := by
    rw [BitVec.toNat_xor, BitVec.toNat_ofNat, Nat.xor_mod_two_pow, Nat.mod_eq_of_lt (a := x.toNat) x.isLt]
  rw [hxor, bytesLE_mod, bytesLE_xor_byte]

/-! ## The two halves of a flit -/

theorem evens_cons (a : Byte) (l : List Byte) : evens (a :: l) = a :: evens (l.drop 1) := by
  cases l <;> rfl

theorem length_even_of_cons_cons {a b : Byte} {l : List Byte} (h : (a :: b :: l).length % 2 = 0) : l.length % 2 = 0 := by
  rw [List.length_cons, List.length_cons] at h; omega

theorem interleave_evens (l : List Byte) (h : l.length % 2 = 0) : interleave (evens l) (evens (l.drop 1)) = l := by
  induction l using evens.induct with
  | case1 a b l ih =>
    rw [List.drop_one, List.tail_cons, evens_cons b, evens, interleave, ih (length_even_of_cons_cons h)]
  | case2 a => simp at h
  | case3 => rfl

theorem evens_append (l m : List Byte) (h : l.length % 2 = 0) :
    evens (l ++ m) = evens l ++ evens m ∧ evens ((l ++ m).drop 1) = evens (l.drop 1) ++ evens (m.drop 1) := by
  induction l using evens.induct with
  | case1 a b l ih =>
    obtain ⟨h1, h2⟩ := ih (length_even_of_cons_cons h)
    refine ⟨by simp [evens, h1], ?_⟩
    simp only [List.cons_append, List.drop_succ_cons, List.drop_zero, evens_cons b, h2]
  | case2 a => simp at h
  | case3 => exact ⟨rfl, rfl⟩

theorem evens_length (l : List Byte) (h : l.length % 2 = 0) : (evens l).length = l.length / 2 ∧ (evens (l.drop 1)).length = l.length / 2 := by
  induction l using evens.induct with
  | case1 a b l ih =>
    obtain ⟨h1, h2⟩ := ih (length_even_of_cons_cons h)
    have hlen : (a :: b :: l).length / 2 = l.length / 2 + 1 := by rw [List.length_cons, List.length_cons]; omega
    rw [hlen, List.drop_succ_cons, List.drop_zero, evens_cons b, evens, List.length_cons, List.length_cons, h1, h2]
    exact ⟨rfl, rfl⟩
  | case2 a => simp at h
  | case3 => exact ⟨rfl, rfl⟩

/-- A byte at an even place lies in the first half. -/
theorem evens_lmod_even (f : Byte → Byte) (l : List Byte) : ∀ i, evens (lmod l (2 * i) f) = lmod (evens l) i f ∧
    evens ((lmod l (2 * i) f).drop 1) = evens (l.drop 1) := by
  induction l using evens.induct with
  | case1 a b l ih =>
    intro i
    cases i with
    | zero => exact ⟨by simp [lmod, evens], rfl⟩
    | succ i =>
      obtain ⟨h1, h2⟩ := ih i
      refine ⟨by simp [lmod, evens, Nat.mul_succ, h1], ?_⟩
      simp only [Nat.mul_succ, lmod, List.drop_succ_cons, List.drop_zero, evens_cons b, h2]
  | case2 a => intro i; cases i <;> exact ⟨rfl, rfl⟩
  | case3 => intro i; exact ⟨rfl, rfl⟩

/-- A byte at an odd place lies in the second. -/
theorem evens_lmod_odd (f : Byte → Byte) (l : List Byte) : ∀ i, evens (lmod l (2 * i + 1) f) = evens l ∧
    evens ((lmod l (2 * i + 1) f).drop 1) = lmod (evens (l.drop 1)) i f := by
  induction l using evens.induct with
  | case1 a b l ih =>
    intro i
    cases i with
    | zero => exact ⟨rfl, by simp [lmod, evens_cons]⟩
    | succ i =>
      obtain ⟨h1, h2⟩ := ih i
      refine ⟨by simp [lmod, evens, Nat.mul_succ, h1], ?_⟩
      simp only [Nat.mul_succ, lmod, List.drop_succ_cons, List.drop_zero, evens_cons b, h2]
  | case2 a => intro i; cases i <;> exact ⟨rfl, rfl⟩
  | case3 => intro i; exact ⟨rfl, rfl⟩

/-! ## Making and opening a flit -/

theorem crc32_lt (bs : List Byte) : crc32 bs < 2 ^ 32 := by
  have hbit (r : Nat) (b : Bool) : crc32Bit r b < 2 ^ 32 := by
    refine Nat.xor_lt_two_pow (Nat.mod_lt _ (by decide)) ?_
    split <;> decide
  have hbyte (r : Nat) (b : Byte) : [7, 6, 5, 4, 3, 2, 1, 0].foldl (fun r i => crc32Bit r (b.toNat.testBit i)) r < 2 ^ 32 := hbit _ _
  exact List.foldlRecOn (motive := fun r => r < 2 ^ 32) bs _ (by decide) fun r _ b _ => hbyte r b

/-- The bytes that a flit protects: header, payload and padding. -/
def flitBody (header : Nat) (payload : List Byte) : List Byte := bytesLE 8 header ++ payload ++ List.replicate (240 - payload.length) 0

/-- The same with their CRC. -/
def flitData (header : Nat) (payload : List Byte) : List Byte := flitBody header payload ++ bytesLE 4 (crc32 (flitBody header payload))

/-- All 256 bytes. -/
def flitBytes (header : Nat) (payload : List Byte) : List Byte :=
  flitData header payload ++ interleave (rsCheck (evens (flitData header payload))) (rsCheck (evens ((flitData header payload).drop 1)))

section
variable {header : Nat} {payload : List Byte} (h : payload.length ≤ 240)
include h

theorem flitBody_length : (flitBody header payload).length = 248 := by
  simp only [flitBody, List.length_append, bytesLE_length, List.length_replicate]; omega

theorem flitData_length : (flitData header payload).length = 252 := by
  rw [flitData, List.length_append, flitBody_length h, bytesLE_length]

theorem flitBytes_length : (flitBytes header payload).length = 256 := by
  rw [flitBytes, List.length_append, flitData_length h, rsCheck_eq, rsCheck_eq]; rfl

theorem mkFlit_eq : mkFlit header payload = BitVec.ofNat 2048 (ofBytesLE (flitBytes header payload)) := by
  have hpad : (payload ++ List.replicate (240 - payload.length) (0 : Byte)).take 240 = payload ++ List.replicate (240 - payload.length) 0 :=
    List.take_of_length_le (by rw [List.length_append, List.length_replicate]; omega)
  simp only [mkFlit, hpad, flitBytes, flitData, flitBody, List.append_assoc]

theorem mkFlit_bytes : bytesLE 256 (mkFlit header payload).toNat = flitBytes header payload := by
  have hlen := flitBytes_length (header := header) h
  calc bytesLE 256 (mkFlit header payload).toNat = bytesLE 256 (BitVec.ofNat (8 * 256) (ofBytesLE (flitBytes header payload))).toNat := by
        rw [mkFlit_eq h]
    _ = bytesLE (flitBytes header payload).length (ofBytesLE (flitBytes header payload)) := by rw [bytesLE_ofNat, hlen]
    _ = flitBytes header payload := bytesLE_ofBytesLE _

/-- Both halves are clean codewords of 128 symbols. -/
theorem flit_halves_clean : rsSyndromes (evens (flitBytes header payload)) = (0, 0) ∧
    rsSyndromes (evens ((flitBytes header payload).drop 1)) = (0, 0) ∧ (evens (flitBytes header payload)).length = 128 ∧
    (evens ((flitBytes header payload).drop 1)).length = 128 := by
  have hdata : (flitData header payload).length % 2 = 0 := by rw [flitData_length h]
  have hbytes : (flitBytes header payload).length % 2 = 0 := by rw [flitBytes_length h]
  obtain ⟨heven, hodd⟩ := evens_append (flitData header payload)
    (interleave (rsCheck (evens (flitData header payload))) (rsCheck (evens ((flitData header payload).drop 1)))) hdata
  obtain ⟨hlen1, hlen2⟩ := evens_length _ hbytes
  rw [flitBytes_length h] at hlen1 hlen2
  refine ⟨?_, ?_, hlen1, hlen2⟩
  · rw [flitBytes, heven]; exact rsSyndromes_checked _
  · rw [flitBytes, hodd]; exact rsSyndromes_checked _

/-- What correction makes of a flit with at most one byte in error in each half: its bytes, whose CRC holds. -/
theorem openFlit_of_bytes {flit : BitVec 2048} {i j : Nat} {e f : Byte} (hi : i < 128) (hj : j < 128)
    (hflit : bytesLE 256 flit.toNat = lmod (lmod (flitBytes header payload) (2 * i) (· ^^^ e)) (2 * j + 1) (· ^^^ f)) :
    openFlit flit = (flitBytes header payload, true) := by
  obtain ⟨hclean1, hclean2, hlen1, hlen2⟩ := flit_halves_clean (header := header) h
  obtain ⟨heven1, hodd1⟩ := evens_lmod_even (· ^^^ e) (flitBytes header payload) i
  obtain ⟨heven2, hodd2⟩ := evens_lmod_odd (· ^^^ f) (lmod (flitBytes header payload) (2 * i) (· ^^^ e)) j
  have hfixed : interleave (rsCorrect (evens (bytesLE 256 flit.toNat))) (rsCorrect (evens ((bytesLE 256 flit.toNat).drop 1))) =
      flitBytes header payload := by
    rw [hflit, heven2, hodd2, heven1, hodd1, rsCorrect_one hlen1 hclean1 hi, rsCorrect_one hlen2 hclean2 hj,
      interleave_evens _ (by rw [flitBytes_length h])]
  have hbody : (flitBytes header payload).take 248 = flitBody header payload := by
    rw [flitBytes, flitData, List.append_assoc, List.take_left' (flitBody_length h)]
  have hcrc : ((flitBytes header payload).drop 248).take 4 = bytesLE 4 (crc32 (flitBody header payload)) := by
    rw [flitBytes, flitData, List.append_assoc, List.drop_left' (flitBody_length h), List.take_left' (bytesLE_length ..)]
  have hholds : ofBytesLE (bytesLE 4 (crc32 (flitBody header payload))) = crc32 (flitBody header payload) := by
    rw [ofBytesLE_bytesLE]; exact Nat.mod_eq_of_lt (crc32_lt _)
  simp only [openFlit, hfixed, hbody, hcrc, hholds, decide_true]

end

end Sys2Proof.Machine

namespace Sys2Proof
open Machine

/-- Settles O42: the gain's coefficient is found bit by bit (`gainCoeff_nearest`), a group reads back digit by digit
(`groupParts_compressGroup_bfp`), and a flit's halves are codewords that correct one symbol (`openFlit_of_bytes`). -/
theorem transportCodesReadBack : Obligations.TransportCodesReadBack := by
  unfold Obligations.TransportCodesReadBack
  refine ⟨fun g _ hg => ?_, fun w xs hlow hhigh hlen => ?_, fun header payload i j e f hpay hi hj => ?_⟩
  · obtain ⟨hlt, hbelow, habove⟩ := gainCoeff_nearest gainPoint_le hg
    exact ⟨hlt, gainPoint_le, hbelow, habove, fun _ _ _ => rfl, rfl, fun neg c xs _ hinf _ => compressGroup_sat_of_inf c g hinf⟩
  · obtain ⟨hexp, hsize, hbytes, hsat, hparts⟩ := compressGroup_of_width hlow hhigh hlen
    intro comp lim r e m Fits
    have hfits (k : Nat) : Fits k ↔ fitsAt lim xs k = true := fitsAt_iff.symm
    have he : e = groupExp lim xs := hexp
    refine ⟨he ▸ groupExp_le lim xs, hsize, hbytes, fun k hk => ?_, ?_, fun hnot => ?_, he ▸ hparts, fun x _ _ => rneShift_near e x, ?_,
      groupParts_compressGroup_plain hlen, compressGroup_plain_sat rfl xs⟩
    · rw [hfits, not_fitsAt_of_lt (he ▸ hk)]; decide
    · rw [hfits, he]
      show (compressGroup (16 + w % 16) xs).2 = true ↔ _
      rw [hsat]; simp [lim]
    · rw [hfits, he] at hnot
      exact he.trans (groupExp_of_not_fitsAt (Bool.eq_false_iff.2 hnot))
    · rw [compressGroup_plain rfl]; exact bytesBE_length ..
  · have hmade := mkFlit_bytes (header := header.toNat) hpay
    have hclean : openFlit (mkFlit header.toNat payload) = (flitBytes header.toNat payload, true) :=
      openFlit_of_bytes hpay (i := 0) (j := 0) (e := 0) (f := 0) (by decide) (by decide) (by rw [hmade, lmod_xor_zero, lmod_xor_zero])
    intro flit bad body
    have hbad : openFlit bad = (flitBytes header.toNat payload, true) := openFlit_of_bytes hpay hi hj (e := e) (f := f) (by
      rw [← hmade]; exact (wordBytes_xor_byte (k := 256) _ f _).trans (congrArg (lmod · _ _) (wordBytes_xor_byte (k := 256) flit e _)))
    refine ⟨by rw [hclean], ?_, hbad.trans hclean.symm⟩
    rw [hclean]
    exact (congrArg (List.take 248) (List.append_assoc ..)).trans (List.take_left' (flitBody_length hpay))

end Sys2Proof
end

section
/-! PROOFS. The fields of a completion entry and of a ledger (O39; R57, R328 to R330). -/

namespace Sys2Proof.Machine

/-! ## RESULT, the deadline and the flags fit their fields -/

theorem bitsOf_lt {n : Nat} (w : BitVec n) (hi lo : Nat) : bitsOf w hi lo < 2 ^ (hi + 1 - lo) := Nat.mod_lt _ (Nat.two_pow_pos _)

theorem eDeadline_lt (e : BitVec 1024) : eDeadline e < 2 ^ 32 := bitsOf_lt e 159 128

theorem resultOf_lt (s : State) (i : Item) : resultOf s i < 2 ^ 352 := by
  unfold resultOf
  split
  · dsimp only; omega
  · omega
  · omega
  · omega
  · split
    · omega
    · split
      · omega
      · have hloss := (trainResult s i).2.2.isLt; omega
  · omega
  · omega

/-- The fields of an entry (R328, R329): what it was made from. -/
theorem entryOf_fields {s : State} {i : Item} {result : Nat} (st : Status) (flags : Nat) (hseq : i.seq < 2 ^ 32) (hop : i.opcode < 256)
    (hqueue : i.queue < 4096) (hresult : result < 2 ^ 352) :
    let field (hi lo : Nat) : Nat := (entryOf s i st flags result).toNat / 2 ^ lo % 2 ^ (hi - lo + 1)
    field 511 480 = i.seq ∧ field 479 472 = (Config.statusCode st.index).toNat ∧ field 471 464 = i.opcode ∧ field 463 452 = i.queue ∧
      field 415 384 = eDeadline i.fetched.entry ∧ field 383 352 = s.time.now % 2 ^ 32 ∧ field 447 441 = flags % 128 := by
  have hcode := (Config.statusCode st.index).isLt
  have hdeadline := eDeadline_lt i.fetched.entry
  simp only [entryOf, BitVec.toNat_ofNat]
  refine ⟨?_, ?_, ?_, ?_, ?_, ?_, ?_⟩ <;> omega

/-! ## The conditions and the status -/

theorem flagsOf_of_seven (a b c d e f g : Bool) : flagsOf [a, b, c, d, e, f, g] =
    ([a, b, c, d, e, f, g].zipIdx.map (fun x => if x.1 then 2 ^ (6 - x.2) else 0)).sum ∧ flagsOf [a, b, c, d, e, f, g] < 128 := by
  revert a b c d e f g; decide

theorem statusOf_of_seven (a b c d e f g : Bool) : (statusOf [a, b, c, d, e, f, g] = .ok ↔ ∀ x ∈ [a, b, c, d, e, f, g], x = false) ∧
    (a = true → statusOf [a, b, c, d, e, f, g] = .late) := by
  revert a b c d e f g; decide

theorem isSlotOp_iff (op : Nat) : isSlotOp op = true ↔ op ∈ [1, 2, 3, 4] := by
  simp only [isSlotOp, Bool.and_eq_true, decide_eq_true_eq, List.mem_cons, List.not_mem_nil, or_false]
  omega

theorem hasDeadline_iff (op : Nat) : hasDeadline op = true ↔ op ∈ [1, 2, 3, 4, 9] := by
  simp only [hasDeadline, isSlotOp, Bool.or_eq_true, Bool.and_eq_true, decide_eq_true_eq, beq_iff_eq, List.mem_cons, List.not_mem_nil, or_false]
  omega

/-- The flags of an accepted item, in the order of R57: what the first six tell. -/
theorem conditions_spec (s : State) (i : Item) :
    let cs := conditions s i
    cs.length = 7 ∧
      (cs.getD 0 false = true ↔ (i.opcode ∈ [1, 2, 3, 4, 9] ∧ i.deadline < s.time.now) ∨ i.unsent ≠ 0 ∨ i.slipped = true) ∧
      cs.getD 1 false = i.reissued ∧ cs.getD 5 false = i.sat ∧ (i.inputMissing = true → cs.getD 2 false = true) ∧
      (i.opcode = 1 → (cs.getD 3 false = true ↔ ∃ u ∈ usersOf s i, u.path ≠ 0 ∧ u.crcOk = false) ∧
        (cs.getD 4 false = true ↔ ∃ u ∈ usersOf s i, u.path = 3)) ∧
      (statusOf cs = .ok ↔ ∀ b ∈ cs, b = false) ∧ (cs.getD 0 false = true → statusOf cs = .late) ∧
      flagsOf cs = (cs.zipIdx.map (fun b => if b.1 then 2 ^ (6 - b.2) else 0)).sum ∧ flagsOf cs < 128 := by
  obtain ⟨hok, hlate⟩ := statusOf_of_seven ..
  obtain ⟨hflags, hlt⟩ := flagsOf_of_seven ..
  refine ⟨rfl, ?_, rfl, rfl, fun h => ?_, fun h => ⟨?_, ?_⟩, hok, hlate, hflags, hlt⟩
  · rw [← hasDeadline_iff]; simp [conditions, or_assoc]
  · simp [conditions, h]
  · simp [conditions, h]
  · simp [conditions, h]

/-! ## The ledger -/

/-- COMPLETE_NEXT stands in bits 479 to 448 of a ledger of 64 bytes (R330). -/
theorem ledgerBytes_completeNext (s : State) (q : QueueSt) : (ledgerBytes s q).length = 64 ∧
    ofBytesLE (ledgerBytes s q) / 2 ^ 448 % 2 ^ 32 = q.completeNext % 2 ^ 32 := by
  refine ⟨bytesLE_length .., ?_⟩
  rw [ledgerBytes, ofBytesLE_bytesLE]
  omega

end Sys2Proof.Machine
end

section
/-! PROOFS. What settling an item and forming its completion change (O39; R256, R328 to R334, R369). -/

namespace Sys2Proof.Machine

/-! ## Settling: pools, weights, counters and, for an uplink item, soft buffers -/

/-- A state without pools, weights, counters and slices: what the completion of an item may change beside the soft buffers. -/
def unsettled (s : State) : State := { s with pool := {}, weights := {}, pmu := {}, fabric := {} }

/-- From `s` to `t` an item settles: its pools and weights change, and soft buffers may be written. -/
def Settles (s t : State) : Prop := Writes (unsettled s) (unsettled t)

theorem Writes.settles {s t : State} (h : Writes s t) : Settles s t := ⟨(congrArg unsettled h.state :), h.phase, h.records⟩

theorem Settles.of_unsettled {s t : State} (h : unsettled t = unsettled s) : Settles s t := by
  rw [Settles, h]; exact .refl _

theorem Settles.trans {s t r : State} (h : Settles s t) (h' : Settles t r) : Settles s r := Writes.trans h h'

theorem Settles.cap {s t : State} (h : Settles s t) : t.cap = s.cap := Writes.cap (s := unsettled s) (t := unsettled t) h

theorem Settles.canWrite {s t : State} (h : Settles s t) : canWrite t = canWrite s := by
  have hwrites : Writes (unsettled s) (unsettled t) := h
  have hpcie : t.pcie = s.pcie := hwrites.pcie
  have hphase : (unitOf t (dieUnit 2)).phase = (unitOf s (dieUnit 2)).phase := hwrites.phase _
  have hhalted : t.pins.halted = s.pins.halted := hwrites.halted
  simp [Machine.canWrite, canMaster, hpcie, hphase, hhalted]

theorem unsettled_countEvent (s : State) (rec ev inst v : Nat) : unsettled (countEvent s rec ev inst v) = unsettled s := by
  obtain ⟨pm, e⟩ := countEvent_pmu s rec ev inst v
  rw [e]; rfl

theorem unsettled_pruneRetained (s : State) : unsettled (pruneRetained s) = unsettled s := rfl

theorem unsettled_retain (s : State) (i : Item) (us : List UserRec) : unsettled (retain s i us) = unsettled s := by
  unfold retain
  split <;> rfl

theorem unsettled_trainDone (s : State) (i : Item) (empty : Bool) : unsettled (trainDone s i empty) = unsettled s := by
  unfold trainDone
  split <;> rfl

theorem unsettled_storeEstimates (s : State) (i : Item) : unsettled (storeEstimates s i) = unsettled s := by
  refine List.foldlRecOn (motive := fun t => unsettled t = unsettled s) (srsUsers i) _ rfl fun t h a _ => ?_
  dsimp only
  split
  · exact h
  · exact h

theorem unsettled_convertAll (s : State) : unsettled (convertAll s) = unsettled s := by
  refine List.foldlRecOn (motive := fun t => unsettled t = unsettled s) (List.range s.weights.swaps.length) _ rfl fun t h _ _ => Eq.trans ?_ h
  unfold convertNext
  split
  · rfl
  · split <;> rfl

theorem writes_bufWriteAt (s : State) (master : UAddr) (b : SoftBuf) (d off : Nat) (bs : List Byte) :
    Writes s (bufWriteAt s master b d off bs) := by
  refine Writes.foldl (fun s p => ?_) _ s
  dsimp only
  split
  · exact writes_writeLocal ..
  · exact .refl s

theorem writes_bufWrite (s : State) (master : UAddr) (b : SoftBuf) (off : Nat) (bs : List Byte) : Writes s (bufWrite s master b off bs) := by
  unfold bufWrite
  dsimp only
  split
  · exact (writes_bufWriteAt ..).trans (writes_bufWriteAt ..)
  · exact writes_bufWriteAt ..

theorem writes_writeSoft (s : State) (i : Item) (u : UserRec) : Writes s (writeSoft s i u) := by
  unfold writeSoft
  split
  · exact .refl s
  · split
    · exact .refl s
    · exact .foldl (fun s _ => writes_bufWrite s ..) _ s

theorem settles_settleItem (s : State) (i : Item) (empty : Bool) : Settles s (settleItem s i empty) := by
  unfold settleItem
  split
  · have hsoft := (Writes.foldl (fun s u => writes_writeSoft s i u) (usersOf s i) s).settles
    have hbuffers (t : State) : Settles t (settleBuffers t i) := .of_unsettled rfl
    refine ((hsoft.trans (hbuffers _)).trans ?_).trans (.of_unsettled (unsettled_retain ..))
    split
    · exact .of_unsettled rfl
    · exact (writes_countUnit ..).settles
  · exact .of_unsettled (unsettled_storeEstimates s i)
  · split
    · exact .of_unsettled rfl
    · exact .of_unsettled (unsettled_trainDone ..)
  · exact .of_unsettled rfl

/-- Only an uplink item writes soft buffers. -/
theorem unsettled_settleItem {i : Item} (h : i.opcode ≠ 1) (s : State) (empty : Bool) : unsettled (settleItem s i empty) = unsettled s := by
  unfold settleItem
  split
  · contradiction
  · exact unsettled_storeEstimates s i
  · split
    · rfl
    · exact unsettled_trainDone ..
  · rfl

/-! ## Writing what a queue has formed -/

/-- A state without queues, outputs and pending vectors. -/
def unflushed (s : State) : State := { s with queues := [], out := [], pcie := { s.pcie with msixPending := [] } }

/-- A queue without what writing its completions moves. -/
def standing (q : QueueSt) : QueueSt := { q with completeNext := 0, ledgerNext := 0, pendCount := 0, timer := none, formed := [] }

/-- From `s` to `t` completions of queue `q` are written. -/
structure Flushes (q : Nat) (s t : State) : Prop where
  state : unflushed t = unflushed s
  other : ∀ j, j ≠ q → queueOf t j = queueOf s j
  standing : standing (queueOf t q) = standing (queueOf s q)

theorem Flushes.refl (q : Nat) (s : State) : Flushes q s s := ⟨rfl, fun _ _ => rfl, rfl⟩

theorem Flushes.trans {q : Nat} {s t r : State} (h : Flushes q s t) (h' : Flushes q t r) : Flushes q s r :=
  ⟨h'.state.trans h.state, fun j hj => (h'.other j hj).trans (h.other j hj), h'.standing.trans h.standing⟩

theorem Flushes.of_queues {q : Nat} {s t : State} (hstate : unflushed t = unflushed s) (hqueues : ∀ j, queueOf t j = queueOf s j) :
    Flushes q s t := ⟨hstate, fun j _ => hqueues j, by rw [hqueues]⟩

theorem flushes_out (q : Nat) (s : State) (o : List Output) : Flushes q s { s with out := o } := .of_queues rfl fun _ => rfl

theorem flushes_modQueue (s : State) (q : Nat) {f : QueueSt → QueueSt} (hf : Machine.standing (f (queueOf s q)) = Machine.standing (queueOf s q)) :
    Flushes q s (modQueue s q f) :=
  ⟨rfl, fun j hj => queueOf_modQueue_other s q j f hj, by rw [queueOf_modQueue_same, hf]⟩

section
variable {q : Nat} {s t : State} (h : Flushes q s t)
include h

theorem Flushes.items : t.items = s.items := (congrArg State.items h.state :)
theorem Flushes.mem : t.mem = s.mem := (congrArg State.mem h.state :)
theorem Flushes.faults : t.faults = s.faults := (congrArg State.faults h.state :)
theorem Flushes.lastFault : t.lastFault = s.lastFault := (congrArg State.lastFault h.state :)
theorem Flushes.formNext : (queueOf t q).formNext = (queueOf s q).formNext := (congrArg QueueSt.formNext h.standing :)
theorem Flushes.vector : (queueOf t q).vector = (queueOf s q).vector := (congrArg QueueSt.vector h.standing :)
theorem Flushes.ledger : (queueOf t q).ledger = (queueOf s q).ledger := (congrArg QueueSt.ledger h.standing :)

theorem Flushes.canWrite : canWrite t = canWrite s := by
  have hunits : t.units = s.units := (congrArg State.units h.state :)
  have hpins : t.pins = s.pins := (congrArg State.pins h.state :)
  have hlink : t.pcie.linkUp = s.pcie.linkUp := (congrArg (fun x => x.pcie.linkUp) h.state :)
  have hmaster : t.pcie.busMaster = s.pcie.busMaster := (congrArg (fun x => x.pcie.busMaster) h.state :)
  have hpower : t.pcie.d3hot = s.pcie.d3hot := (congrArg (fun x => x.pcie.d3hot) h.state :)
  simp [Machine.canWrite, canMaster, unitOf, hunits, hpins, hlink, hmaster, hpower]
end

/-- A vector raised puts out its message or nothing. -/
theorem raiseVector_spec (s : State) (v : Nat) : unflushed (raiseVector s v) = unflushed s ∧ (∀ j, queueOf (raiseVector s v) j = queueOf s j) ∧
    ∃ more, (raiseVector s v).out = s.out ++ more ∧ ∀ y ∈ more, y = .msix v := by
  unfold raiseVector
  split
  · exact ⟨rfl, fun _ => rfl, [], by simp⟩
  · split
    · exact ⟨rfl, fun _ => rfl, [], by simp⟩
    · exact ⟨rfl, fun _ => rfl, [.msix v], rfl, by simp⟩

/-- What the moderation of completions newly covered puts out and leaves (R334). -/
theorem moderate_spec (s : State) (q n : Nat) : Flushes q s (moderate s q n) ∧
    (queueOf (moderate s q n) q).completeNext = (queueOf s q).completeNext ∧ (queueOf (moderate s q n) q).formed = (queueOf s q).formed ∧
    ∃ more, (moderate s q n).out = s.out ++ more ∧ ∀ y ∈ more, y = .msix (queueOf s q).vector := by
  simp only [moderate]
  split
  · obtain ⟨hstate, hqueues, hout⟩ := raiseVector_spec (modQueue s q fun x => { x with pendCount := 0, timer := none }) (queueOf s q).vector
    have hsame := (hqueues q).trans (queueOf_modQueue_same s q _)
    exact ⟨(flushes_modQueue s q rfl).trans (.of_queues hstate hqueues), by rw [hsame], by rw [hsame], hout⟩
  · exact ⟨flushes_modQueue s q rfl, by simp, by simp, [], by simp⟩

/-- What writing a ledger puts out: the ledger, and the queue's vector if it fires (R330, R334). -/
theorem writeLedger_spec {s : State} (hwrite : canWrite s = true) (q : Nat) : Flushes q s (writeLedger s q) ∧
    (queueOf (writeLedger s q) q).completeNext = (queueOf s q).completeNext ∧ (queueOf (writeLedger s q) q).formed = (queueOf s q).formed ∧
    ∃ more, (writeLedger s q).out = s.out ++ [.hostWrite (queueOf s q).ledger (ledgerBytes s (queueOf s q))] ++ more ∧
      ∀ y ∈ more, y = .msix (queueOf s q).vector := by
  simp only [writeLedger, hwrite, if_true]
  obtain ⟨hflushes, hcomplete, hformed, more, hout, hmore⟩ := moderate_spec (modQueue
    (s.emit (.hostWrite (queueOf s q).ledger (ledgerBytes s (queueOf s q)))) q fun x => { x with ledgerNext := (queueOf s q).completeNext })
    q (seqSub (queueOf s q).completeNext (queueOf s q).ledgerNext)
  rw [queueOf_modQueue_same] at hcomplete hformed hmore
  exact ⟨((flushes_out q s _).trans (flushes_modQueue (s.emit _) q rfl)).trans hflushes, hcomplete, hformed, more, hout, hmore⟩

theorem emits_foldl (l : List (Nat × List Byte)) (s : State) : l.foldl (fun s o => s.emit (.hostWrite o.1 o.2)) s =
    { s with out := s.out ++ l.map (fun o => .hostWrite o.1 o.2) } := by
  induction l generalizing s with
  | nil => simp
  | cons o l ih => rw [List.foldl_cons, ih]; simp [State.emit]

/-- One formed completion is written: its outputs, then its entry (R332). -/
theorem writeFormed_eq (s : State) (q : Nat) (f : Formed) : writeFormed s q f = modQueue { s with
      out := s.out ++ f.outputs.map (fun o => .hostWrite o.1 o.2) ++
        [.hostWrite ((queueOf s q).cqBase + 64 * (f.seq % (queueOf s q).depth)) (bytesLE 64 f.entry.toNat)] } q
    (fun x => { x with completeNext := seqNext f.seq }) := by
  simp only [writeFormed, emits_foldl]; rfl

theorem flushes_writeFormed (s : State) (q : Nat) (f : Formed) : Flushes q s (writeFormed s q f) := by
  rw [writeFormed_eq]; exact (flushes_out q s _).trans (flushes_modQueue _ q rfl)

theorem flushQueue_held {s : State} (h : canWrite s = false) (q : Nat) : flushQueue s q = s := by simp [flushQueue, h]

theorem flushes_flushQueue (s : State) (q : Nat) : Flushes q s (flushQueue s q) := by
  simp only [flushQueue]
  split
  next h =>
    have hwritten : Flushes q s ((queueOf s q).formed.foldl (fun s f => writeFormed s q f) s) :=
      List.foldlRecOn (motive := Flushes q s) _ _ (.refl q s) fun _ h f _ => h.trans (flushes_writeFormed _ q f)
    have hcleared := hwritten.trans (flushes_modQueue _ q (f := fun x => { x with formed := [] }) rfl)
    have hwrite : canWrite s = true := (Bool.and_eq_true_iff.1 h).1
    exact hcleared.trans (writeLedger_spec (hcleared.canWrite.trans hwrite) q).1
  next => exact .refl q s

/-- A queue with one completion in line writes it, then the ledger that covers it (R332, R333). -/
theorem flushQueue_one {s : State} {q : Nat} {f : Formed} (hwrite : canWrite s = true) (hformed : (queueOf s q).formed = [f]) :
    (queueOf (flushQueue s q) q).completeNext = seqNext f.seq ∧ (queueOf (flushQueue s q) q).formed = [] ∧
    ∃ ledger more, (flushQueue s q).out = s.out ++ f.outputs.map (fun o => .hostWrite o.1 o.2) ++
        [.hostWrite ((queueOf s q).cqBase + 64 * (f.seq % (queueOf s q).depth)) (bytesLE 64 f.entry.toNat), .hostWrite (queueOf s q).ledger ledger]
        ++ more ∧
      ledger.length = 64 ∧ ofBytesLE ledger / 2 ^ 448 % 2 ^ 32 = seqNext f.seq ∧ ∀ y ∈ more, y = .msix (queueOf s q).vector := by
  have hcleared := (flushes_writeFormed s q f).trans (flushes_modQueue _ q (f := fun x => { x with formed := [] }) rfl)
  obtain ⟨-, hcomplete, hempty, more, hout, hmore⟩ := writeLedger_spec (hcleared.canWrite.trans hwrite) q
  obtain ⟨hlength, hnext⟩ := ledgerBytes_completeNext (modQueue (writeFormed s q f) q fun x => { x with formed := [] })
    (queueOf (modQueue (writeFormed s q f) q fun x => { x with formed := [] }) q)
  have hflush : flushQueue s q = writeLedger (modQueue (writeFormed s q f) q fun x => { x with formed := [] }) q := by
    simp [flushQueue, hwrite, hformed]
  have hseq : (queueOf (modQueue (writeFormed s q f) q fun x => { x with formed := [] }) q).completeNext = seqNext f.seq := by
    simp [writeFormed_eq]
  have hsmall : seqNext f.seq % 2 ^ 32 = seqNext f.seq := Nat.mod_mod ..
  rw [hflush]
  refine ⟨hcomplete.trans hseq, by rw [hempty]; simp, _, more, ?_, hlength, by rw [hnext, hseq, hsmall], ?_⟩
  · rw [hout, hcleared.ledger, modQueue_out, writeFormed_eq]; simp
  · rwa [hcleared.vector] at hmore

end Sys2Proof.Machine
end

section
/-! PROOFS. Completions form in order and reach the host in order (O39; R57, R72, R260, R328 to R333, R369). -/

namespace Sys2Proof.Machine

/-- From `s` to `t` the completion `x` of item `i` with outputs `outs` is formed: the item leaves, and the completion stands in line or is
written, then the ledger that covers it (R332, R333). -/
structure Forms (s t : State) (i : Item) (x : BitVec 512) (outs : List (Nat × List Byte)) : Prop where
  items : t.items = s.items.filter (fun j => !sameItem i j)
  formNext : (queueOf t i.queue).formNext = seqNext i.seq
  other : ∀ j, j ≠ i.queue → queueOf t j = queueOf s j
  held : canWrite s = false →
    (queueOf t i.queue).formed = (queueOf s i.queue).formed ++ [{ seq := i.seq, entry := x, outputs := outs }] ∧ t.out = s.out
  written : canWrite s = true → (queueOf s i.queue).formed = [] →
    (queueOf t i.queue).completeNext = seqNext i.seq ∧ (queueOf t i.queue).formed = [] ∧
    ∃ ledger more, t.out = s.out ++ outs.map (fun y => .hostWrite y.1 y.2) ++
        [.hostWrite ((queueOf s i.queue).cqBase + 64 * (i.seq % (queueOf s i.queue).depth)) (bytesLE 64 x.toNat),
          .hostWrite (queueOf s i.queue).ledger ledger] ++ more ∧
      ledger.length = 64 ∧ ofBytesLE ledger / 2 ^ 448 % 2 ^ 32 = seqNext i.seq ∧ ∀ y ∈ more, y = .msix (queueOf s i.queue).vector

section
variable {s t r : State} {i : Item} {x : BitVec 512} {outs : List (Nat × List Byte)}

/-- Settling the item first changes nothing of it. -/
theorem Forms.of_settles (h : Settles s t) (hforms : Forms t r i x outs) : Forms s r i x outs := by
  have hwrites : Writes (unsettled s) (unsettled t) := h
  have hitems : t.items = s.items := hwrites.items
  have hout : t.out = s.out := hwrites.out
  have hqueues : queueOf t = queueOf s := by funext j; simp only [queueOf]; rw [show t.queues = s.queues from hwrites.queues]
  obtain ⟨items, formNext, other, held, written⟩ := hforms
  rw [hitems] at items
  rw [hqueues] at other held written
  rw [hout, h.canWrite] at held written
  exact ⟨items, formNext, other, held, written⟩

/-- Nor does what changes pools and weights after it. -/
theorem Forms.then_unsettled (hforms : Forms s t i x outs) (h : unsettled r = unsettled t) : Forms s r i x outs := by
  have hitems : r.items = t.items := (congrArg State.items h :)
  have hout : r.out = t.out := (congrArg State.out h :)
  have hqueues : queueOf r = queueOf t := by funext j; simp only [queueOf]; rw [show r.queues = t.queues from (congrArg State.queues h :)]
  obtain ⟨items, formNext, other, held, written⟩ := hforms
  rw [← hitems] at items
  rw [← hqueues] at formNext other held written
  rw [← hout] at held written
  exact ⟨items, formNext, other, held, written⟩

/-- The completion that waits in line at the end of its queue. -/
def inLine (s : State) (i : Item) (x : BitVec 512) (outs : List (Nat × List Byte)) : State :=
  modQueue s i.queue fun q => { q with formNext := seqNext i.seq, formed := q.formed ++ [{ seq := i.seq, entry := x, outputs := outs }] }

/-- Without a capture, forming a completion takes the item off, counts it, puts the completion in line and writes what can be written. -/
theorem formCompletion_eq (hcap : s.cap.running = none) (i : Item) (x : BitVec 512) (outs : List (Nat × List Byte)) (flags : Nat) :
    ∃ t, unsettled t = unsettled { s with items := s.items.filter (fun j => !sameItem i j) } ∧
      formCompletion s i x outs flags = flushQueue (inLine t i x outs) i.queue := by
  refine ⟨_, ?_, rfl⟩
  have hcount (b : Bool) (t : State) (ev : Nat) : unsettled (if b then countEvent t 0x3800 ev 0 1 else t) = unsettled t := by
    cases b
    · rfl
    · exact unsettled_countEvent ..
  dsimp only
  rw [hcount, hcount, show ∀ t q, unsettled (countCompleted t q) = unsettled t from fun _ _ => rfl]
  simp only [capRecord, hcap]
  rfl

theorem forms_flushQueue (hunsettled : unsettled t = unsettled { s with items := s.items.filter (fun j => !sameItem i j) }) :
    Forms s (flushQueue (inLine t i x outs) i.queue) i x outs := by
  have hsettles : Settles { s with items := s.items.filter (fun j => !sameItem i j) } t := .of_unsettled hunsettled
  have hwrite : canWrite t = canWrite s := hsettles.canWrite
  have hout : t.out = s.out := (congrArg State.out hunsettled :)
  have hitems : t.items = s.items.filter (fun j => !sameItem i j) := (congrArg State.items hunsettled :)
  have hqueues (j : Nat) : queueOf t j = queueOf s j := by
    simp only [queueOf]; rw [show t.queues = s.queues from (congrArg State.queues hunsettled :)]
  have hflushes := flushes_flushQueue (inLine t i x outs) i.queue
  have hline : queueOf (inLine t i x outs) i.queue = { queueOf s i.queue with
      formNext := seqNext i.seq, formed := (queueOf s i.queue).formed ++ [{ seq := i.seq, entry := x, outputs := outs }] } := by
    rw [inLine, queueOf_modQueue_same, hqueues]
  refine ⟨hflushes.items.trans hitems, ?_, fun j hj => ?_, fun hheld => ?_, fun hcan hnone => ?_⟩
  · rw [hflushes.formNext, hline]
  · rw [hflushes.other j hj, inLine, queueOf_modQueue_other _ _ _ _ hj, hqueues]
  · rw [flushQueue_held (show canWrite (inLine t i x outs) = false from hwrite.trans hheld), hline]
    exact ⟨rfl, hout⟩
  · have hone := flushQueue_one (s := inLine t i x outs) (f := { seq := i.seq, entry := x, outputs := outs }) (hwrite.trans hcan)
      (by rw [hline, hnone]; rfl)
    rw [hline, show (inLine t i x outs).out = s.out from hout] at hone
    exact hone

end

/-- Forming leaves memory and the fault log alone. -/
theorem formCompletion_spec {s : State} (hcap : s.cap.running = none) (i : Item) (x : BitVec 512) (outs : List (Nat × List Byte)) (flags : Nat) :
    Forms s (formCompletion s i x outs flags) i x outs ∧ NoRecord s (formCompletion s i x outs flags) ∧
      (formCompletion s i x outs flags).mem = s.mem := by
  obtain ⟨t, hunsettled, heq⟩ := formCompletion_eq hcap i x outs flags
  have hflushes := flushes_flushQueue (inLine t i x outs) i.queue
  rw [heq]
  exact ⟨forms_flushQueue hunsettled, ⟨hflushes.faults.trans (congrArg State.faults hunsettled :), hflushes.lastFault.trans
    (congrArg State.lastFault hunsettled :)⟩, hflushes.mem.trans (congrArg State.mem hunsettled :)⟩

/-- An accepted item settles, its completion forms, and conversions that waited for it run; only an uplink item writes memory (its soft
buffers) on the way. -/
theorem acceptedCompletion_spec {s : State} (hcap : s.cap.running = none) (i : Item) (empty : Bool) (x : BitVec 512)
    (outs : List (Nat × List Byte)) (flags : Nat) :
    let s' := convertAll (formCompletion (settleItem s i empty) i x outs flags)
    Forms s s' i x outs ∧ (i.opcode ≠ 1 → NoRecord s s' ∧ s'.mem = s.mem) := by
  intro s'
  have hsettles := settles_settleItem s i empty
  have hcap' : (settleItem s i empty).cap.running = none := by rw [hsettles.cap, hcap]
  obtain ⟨hforms, ⟨hfaults, hlast⟩, hmem⟩ := formCompletion_spec hcap' i x outs flags
  have hconverted := unsettled_convertAll (formCompletion (settleItem s i empty) i x outs flags)
  refine ⟨(Forms.of_settles hsettles hforms).then_unsettled hconverted, fun hop => ?_⟩
  have hsettled := unsettled_settleItem hop s empty
  exact ⟨⟨((congrArg State.faults hconverted :).trans hfaults).trans (congrArg State.faults hsettled :),
    ((congrArg State.lastFault hconverted :).trans hlast).trans (congrArg State.lastFault hsettled :)⟩,
    ((congrArg State.mem hconverted :).trans hmem).trans (congrArg State.mem hsettled :)⟩

/-! ## COMPLETION_FORM -/

section
variable {s : State} {qn : BitVec 12} {i : Item} (t : Time) (more : List Byte) (hrun : Active s)
  (hfind : (s.atTime t).items.find? (isItem qn.toNat (queueOf (s.atTime t) qn.toNat).formNext) = some i)
include hrun hfind

/-- COMPLETION_FORM waits for an item that is not ready. -/
theorem exec_completionForm_of_not_ready (hready : isReady (s.atTime t) i = false) : Completes (.completionForm qn more t) s (s.atTime t) := by
  show execCompletionForm qn more t s = _
  rw [execCompletionForm, timed_of_running hrun]
  simp only [hfind, hready]; rfl

theorem exec_completionForm_of_refused {st : Status} (hphase : i.phase = .refused st) :
    Completes (.completionForm qn more t) s (formCompletion (s.atTime t) i (entryOf (s.atTime t) i st 0 0) [] 0) := by
  have hready : isReady (s.atTime t) i = true := by simp [isReady, hphase]
  show execCompletionForm qn more t s = _
  rw [execCompletionForm, timed_of_running hrun]
  simp only [hfind, hready, hphase]; rfl

theorem exec_completionForm_of_accepted (hphase : i.phase = .accepted) (hready : isReady (s.atTime t) i = true) :
    let cs := conditions (s.atTime t) i
    Completes (.completionForm qn more t) s (convertAll (formCompletion (settleItem (s.atTime t) i (cs.getLastD false)) i
      (entryOf (s.atTime t) i (statusOf cs) (flagsOf cs) (resultOf (s.atTime t) i)) (outputsOf (s.atTime t) i more) (flagsOf cs))) := by
  show execCompletionForm qn more t s = _
  rw [execCompletionForm, timed_of_running hrun]
  simp only [hfind, hready, hphase]; rfl

end

end Sys2Proof.Machine

namespace Sys2Proof
open Machine

/-- Settles O39: an item is settled (`settles_settleItem`), then its completion is put in line and written (`formCompletion_spec`), with the
fields of `entryOf_fields` and the conditions of `conditions_spec`. -/
theorem completionsForm : Obligations.CompletionsForm := by
  unfold Obligations.CompletionsForm
  intro s t qn i o hrun hcap s1 now q field hfind hseq hop hqueue Entry Formed1
  have hqn : i.queue < 4096 := hqueue ▸ qn.isLt
  have hformed {s' x outs} (h : Forms s1 s' i x outs) (hkept : i.phase ≠ .accepted ∨ i.opcode ≠ 1 → NoRecord s s' ∧ s'.mem = s.mem) :
      Formed1 s' x outs := by
    obtain ⟨items, formNext, other, held, written⟩ := h
    rw [hqueue] at formNext other held written
    exact ⟨items, formNext, other, hkept, held, written⟩
  refine ⟨fun st hphase => ?_, fun hphase hready => ?_, fun hphase => ?_, fun hphase hslot hfull hundone => ?_, fun hphase hslot hempty hearly => ?_⟩
  · obtain ⟨hforms, hnone, hmem⟩ := formCompletion_spec (s := s1) hcap i (entryOf s1 i st 0 0) [] 0
    obtain ⟨f1, f2, f3, f4, f5, f6, f7⟩ := entryOf_fields (s := s1) st 0 hseq hop hqn (result := 0) (Nat.two_pow_pos 352)
    exact ⟨_, _, exec_completionForm_of_refused t o hrun hfind hphase, hformed hforms fun _ => ⟨hnone, hmem⟩, ⟨f1, f2, f3, f4, f5, f6⟩, f7⟩
  · obtain ⟨hlen, hlate, hre, hsat, hmissing, huplink, hok, hstatus, hflags, hlt⟩ := conditions_spec s1 i
    obtain ⟨hforms, hkept⟩ := acceptedCompletion_spec (s := s1) hcap i ((conditions s1 i).getLastD false)
      (entryOf s1 i (statusOf (conditions s1 i)) (flagsOf (conditions s1 i)) (resultOf s1 i)) (outputsOf s1 i o) (flagsOf (conditions s1 i))
    obtain ⟨f1, f2, f3, f4, f5, f6, f7⟩ := entryOf_fields (s := s1) (statusOf (conditions s1 i)) (flagsOf (conditions s1 i)) hseq hop hqn
      (resultOf_lt s1 i)
    exact ⟨_, _, _, _, exec_completionForm_of_accepted t o hrun hfind hphase hready,
      hformed hforms fun hother => hkept (hother.resolve_left (· hphase)), ⟨f1, f2, f3, f4, f5, f6⟩,
      f7.trans ((Nat.mod_eq_of_lt hlt).trans hflags), hlen, hlate, hre, hsat, hmissing, huplink, hok, hstatus⟩
  · exact exec_completionForm_of_not_ready t o hrun hfind (by simp [isReady, hphase])
  · have hop' := (isSlotOp_iff i.opcode).2 hslot
    exact exec_completionForm_of_not_ready t o hrun hfind (by simp [isReady, hphase, hop', hfull, hundone])
  · have hop' := (isSlotOp_iff i.opcode).2 (List.subset_append_left [1, 2] [3, 4] hslot)
    exact exec_completionForm_of_not_ready t o hrun hfind (by simpa [isReady, hphase, hop', hempty] using max_lt_iff.1 hearly)

end Sys2Proof
end

section
/-! PROOFS. Fronthaul ports: what their conditions, their links and the frames they take change (O41; R379, R380, R464 to R467, R486, R487). -/

namespace Sys2Proof.Machine

/-! ## One port changes -/

theorem fhPort_modFh_same {s : State} {p : Nat} (h : p < s.fh.ports.length) (f : FhPort → FhPort) : fhPort (modFh s p f) p = f (fhPort s p) :=
  lmod_get_same s.fh.ports p f {} h

theorem fhPort_modFh_other (s : State) {p j : Nat} (h : j ≠ p) (f : FhPort → FhPort) : fhPort (modFh s p f) j = fhPort s j :=
  lmod_get_other s.fh.ports p j f {} h

/-- A state without ports, time, ports of units and fault log: what a change at a fronthaul port leaves alone. -/
def unlinked (s : State) : State :=
  { s with fh := { s.fh with ports := [] }, time := {}, units := [], faults := [], lastFault := 0, pins := { s.pins with alert := false } }

/-- From `s` to `t` fronthaul port `p` changes by `g`. -/
structure PortChange (p : Nat) (g : FhPort → FhPort) (s t : State) : Prop where
  state : unlinked t = unlinked s
  length : t.fh.ports.length = s.fh.ports.length
  same : fhPort t p = g (fhPort s p)
  other : ∀ j, j ≠ p → fhPort t j = fhPort s j

section
variable {p : Nat} {f g : FhPort → FhPort} {s t r : State}

theorem PortChange.trans (h : PortChange p g s t) (h' : PortChange p f t r) : PortChange p (fun x => f (g x)) s r :=
  ⟨h'.state.trans h.state, h'.length.trans h.length, by rw [h'.same, h.same], fun j hj => (h'.other j hj).trans (h.other j hj)⟩

/-- What leaves the ports alone changes nothing of it. -/
theorem PortChange.then_fh (h : PortChange p g s t) (hstate : unlinked r = unlinked t) (hports : r.fh.ports = t.fh.ports) : PortChange p g s r := by
  have hport (j : Nat) : fhPort r j = fhPort t j := by simp only [fhPort, hports]
  exact ⟨hstate.trans h.state, by rw [hports, h.length], by rw [hport, h.same], fun j hj => by rw [hport, h.other j hj]⟩

theorem portChange_modFh (h : p < s.fh.ports.length) (f : FhPort → FhPort) : PortChange p f s (modFh s p f) :=
  ⟨rfl, lmod_length .., fhPort_modFh_same h f, fun _ hj => fhPort_modFh_other s hj f⟩

variable (h : PortChange p g s t)
include h

theorem PortChange.items : t.items = s.items := (congrArg State.items h.state :)
theorem PortChange.mem : t.mem = s.mem := (congrArg State.mem h.state :)
theorem PortChange.out : t.out = s.out := (congrArg State.out h.state :)
theorem PortChange.fhPorts : fhPorts t = fhPorts s := (congrArg Machine.fhPorts h.state :)
theorem PortChange.lt (hp : p < s.fh.ports.length) : p < t.fh.ports.length := hp.trans_eq h.length.symm
end

/-! ## The fault log -/

/-- From `s` to `t` one ENVIRONMENT record of the I/O die is written. -/
def Logs (s t : State) : Prop := t.lastFault = s.lastFault + 1 ∧
  ∃ r : FaultRec, r.unit = dieUnit 2 ∧ r.cause = causeEnvironment ∧ t.faults = tset s.faults ((s.lastFault + 1) % 256) r

theorem noRecord_trans {s t r : State} (h : NoRecord s t) (h' : NoRecord t r) : NoRecord s r := ⟨h'.1.trans h.1, h'.2.trans h.2⟩

theorem Logs.then_none {s t r : State} (h : Logs s t) (h' : NoRecord t r) : Logs s r := by
  rwa [Logs, h'.1, h'.2]

theorem logs_of_noRecord {s t r : State} (h : NoRecord s t) (h' : Logs t r) : Logs s r := by
  rwa [Logs, h.1, h.2] at h'

/-- The records of one or two changes are there to be read. -/
theorem Logs.one {s t : State} (h : Logs s t) : t.lastFault = s.lastFault + 1 ∧
    ∀ j, j < 1 → ∃ r, tget t.faults ((s.lastFault + 1 + j) % 256) = some r ∧ r.unit = dieUnit 2 ∧ r.cause = causeEnvironment := by
  obtain ⟨hlast, r, hunit, hcause, hfaults⟩ := h
  refine ⟨hlast, fun j hj => ⟨r, ?_, hunit, hcause⟩⟩
  obtain rfl : j = 0 := by omega
  rw [hfaults]; exact tget_tset_same ..

theorem Logs.two {s t r : State} (h : Logs s t) (h' : Logs t r) : r.lastFault = s.lastFault + 2 ∧
    ∀ j, j < 2 → ∃ x, tget r.faults ((s.lastFault + 1 + j) % 256) = some x ∧ x.unit = dieUnit 2 ∧ x.cause = causeEnvironment := by
  obtain ⟨hlast, x, hunit, hcause, hfaults⟩ := h
  obtain ⟨hlast', x', hunit', hcause', hfaults'⟩ := h'
  refine ⟨by rw [hlast', hlast], fun j hj => ?_⟩
  rw [hlast] at hfaults'
  rcases (by omega : j = 0 ∨ j = 1) with rfl | rfl
  · refine ⟨x, ?_, hunit, hcause⟩
    rw [hfaults', tget_tset_other _ _ _ _ (by omega), hfaults]; exact tget_tset_same ..
  · refine ⟨x', ?_, hunit', hcause'⟩
    rw [hfaults']; exact tget_tset_same ..

theorem envFault_logs (s : State) : Logs s (envFault s) := ⟨rfl, _, rfl, rfl, rfl⟩

theorem unlinked_envFault (s : State) : unlinked (envFault s) = unlinked s := rfl

/-! ## Conditions -/

/-- A port with a bit of FH_FAULTS set or cleared. -/
def withCondition (bit : Nat) (on : Bool) (x : FhPort) : FhPort :=
  { x with faults := if on then x.faults ||| BitVec.ofNat 16 (2 ^ bit) else x.faults &&& ~~~(BitVec.ofNat 16 (2 ^ bit)) }

theorem bitOf_withCondition {bit : Nat} (h : bit < 16) (on : Bool) (x : FhPort) (k : Nat) :
    bitOf (withCondition bit on x).faults k = if k = bit then on else bitOf x.faults k := by
  have hmask : (BitVec.ofNat 16 (2 ^ bit)).getLsbD k = decide (k = bit) := by
    rw [BitVec.getLsbD_ofNat, Nat.testBit_two_pow]
    by_cases hk : k = bit
    · simp [hk, h]
    · simp [hk, Ne.symm hk]
  show (withCondition bit on x).faults.getLsbD k = if k = bit then on else x.faults.getLsbD k
  cases on
  · simp only [withCondition, Bool.false_eq_true, if_false, BitVec.getLsbD_and, BitVec.getLsbD_not, hmask]
    by_cases hk : k = bit
    · simp [hk]
    · by_cases hlt : k < 16
      · simp [hk, hlt]
      · simp [hk, BitVec.getLsbD_of_ge x.faults k (by omega)]
  · simp only [withCondition, if_true, BitVec.getLsbD_or, hmask]
    by_cases hk : k = bit <;> simp [hk]

/-- A change of condition `bit` to `on` at port `p` is recorded (R486). -/
def recordsCondition (s : State) (p bit : Nat) (on : Bool) : Bool :=
  on && !bitOf (fhPort s p).faults bit && (bit ≤ 1 || 5 ≤ bit)

theorem fhCondition_eq (s : State) (p bit : Nat) (on : Bool) : fhCondition s p bit on =
    if recordsCondition s p bit on then envFault (modFh s p (withCondition bit on)) else modFh s p (withCondition bit on) := rfl

theorem portChange_fhCondition {s : State} {p : Nat} (hp : p < s.fh.ports.length) (bit : Nat) (on : Bool) :
    PortChange p (withCondition bit on) s (fhCondition s p bit on) := by
  have hchange := portChange_modFh hp (withCondition bit on)
  rw [fhCondition_eq]
  split
  · exact hchange.then_fh (unlinked_envFault _) rfl
  · exact hchange

theorem fhCondition_logs {s : State} {p bit : Nat} {on : Bool} (h : recordsCondition s p bit on = true) : Logs s (fhCondition s p bit on) := by
  rw [fhCondition_eq, h]
  exact logs_of_noRecord (t := modFh s p (withCondition bit on)) ⟨rfl, rfl⟩ (envFault_logs _)

theorem fhCondition_silent {s : State} {p bit : Nat} {on : Bool} (h : recordsCondition s p bit on = false) :
    NoRecord s (fhCondition s p bit on) := by
  rw [fhCondition_eq, h]
  exact ⟨rfl, rfl⟩

/-! ## Links -/

theorem enterHoldover_time (s : State) : ∃ x, enterHoldover s = { s with time := x } := by
  unfold enterHoldover
  split
  · exact ⟨_, rfl⟩
  · exact ⟨_, rfl⟩

theorem setUnavailable_time (s : State) (src : Nat) : ∃ x, setUnavailable s src = { s with time := x } := by
  simp only [setUnavailable]
  split
  · exact enterHoldover_time (modTime s _)
  · exact ⟨_, rfl⟩

/-- A port that goes down is down; SyncE lost changes the time unit only (R380). -/
theorem portDown_spec {s : State} {p : Nat} (hp : p < s.fh.ports.length) :
    PortChange p (fun x => { x with up := false }) s (portDown s p) ∧ NoRecord s (portDown s p) := by
  simp only [portDown]
  split
  · obtain ⟨x, hx⟩ := setUnavailable_time (modFh s p fun x => { x with up := false }) 4
    rw [hx]
    exact ⟨(portChange_modFh hp _).then_fh rfl rfl, rfl, rfl⟩
  · exact ⟨portChange_modFh hp _, rfl, rfl⟩

/-- A frame that a port takes (R465, R466). -/
def heard (h : FhHead) (x : FhPort) : FhPort := { x with rx := (x.rx + 1) % 2 ^ 64, peer := some (h.src, h.tags.head?) }

theorem takeFrame_spec {s : State} {h : FhHead} (hp : h.port < s.fh.ports.length) : PortChange h.port (heard h) s (takeFrame s h) := by
  simp only [takeFrame]
  split
  · exact PortChange.then_fh (portChange_modFh hp (heard h)) (unlinked_envFault _) rfl
  · exact portChange_modFh hp (heard h)

/-! ## A change at each port of a list -/

theorem portChange_foldl {f : State → Nat → State} {g : FhPort → FhPort} (hf : ∀ s p, p < s.fh.ports.length → PortChange p g s (f s p)) :
    ∀ (l : List Nat) (s : State), l.Nodup → (∀ p ∈ l, p < s.fh.ports.length) → unlinked (l.foldl f s) = unlinked s ∧
      ∀ q, fhPort (l.foldl f s) q = if q ∈ l then g (fhPort s q) else fhPort s q := by
  intro l
  induction l with
  | nil => exact fun s _ _ => ⟨rfl, fun q => by simp⟩
  | cons p l ih =>
    intro s hnodup hlt
    obtain ⟨hp, hl⟩ := List.nodup_cons.1 hnodup
    have hchange := hf s p (hlt p (List.mem_cons_self ..))
    obtain ⟨hstate, hports⟩ := ih (f s p) hl fun q hq => (hlt q (List.mem_cons_of_mem _ hq)).trans_eq hchange.length.symm
    refine ⟨hstate.trans hchange.state, fun q => ?_⟩
    rw [List.foldl_cons, hports]
    by_cases hq : q = p
    · subst hq; simp [hp, hchange.same]
    · simp [hq, hchange.other q hq]

end Sys2Proof.Machine
end

section
/-! PROOFS. Fronthaul links that go down and come up, receive power and laser inputs (O41; R380, R464, R486, R487). -/

namespace Sys2Proof.Machine

theorem fhPorts_le (s : State) : fhPorts s ≤ 16 := by
  simp only [fhPorts]
  split
  · decide
  · split <;> decide

/-! ## FH_LINK_DOWN -/

/-- The optical engine of port `p` has other ports, and all of them receive light (R486). -/
def engineLit (s : State) (p : Nat) : Bool := !(enginePorts s p).isEmpty && (enginePorts s p).all (fun q => !bitOf (fhPort s q).faults 0)

theorem engineLit_iff (s : State) (p : Nat) : engineLit s p = true ↔
    (∃ j, j < fhPorts s ∧ j ≠ p ∧ j * (16 / fhPorts s) / 8 = p * (16 / fhPorts s) / 8) ∧
      ∀ j, j < fhPorts s → j ≠ p → j * (16 / fhPorts s) / 8 = p * (16 / fhPorts s) / 8 → bitOf (fhPort s j).faults 0 = false := by
  have hmem (j : Nat) : j ∈ enginePorts s p ↔ j < fhPorts s ∧ j ≠ p ∧ j * (16 / fhPorts s) / 8 = p * (16 / fhPorts s) / 8 := by
    simp [enginePorts, firstLane]
  have hnone : (!(enginePorts s p).isEmpty) = true ↔ ∃ j, j ∈ enginePorts s p := by
    rw [← List.isEmpty_eq_false_iff_exists_mem, Bool.not_eq_true']
  simp only [engineLit, Bool.and_eq_true, hnone, hmem, List.all_eq_true, Bool.not_eq_true', and_imp]

theorem engineLit_of_portChange {p : Nat} {g : FhPort → FhPort} {s t : State} (h : PortChange p g s t) : engineLit t p = engineLit s p := by
  rw [Bool.eq_iff_iff, engineLit_iff, engineLit_iff, h.fhPorts]
  refine and_congr_right fun _ => forall_congr' fun j => forall_congr' fun _ => forall_congr' fun hj => ?_
  rw [h.other j hj]

/-- The state after a link went down without a signal. -/
def signalLost (s : State) (p : Nat) : State :=
  fhCondition (fhCondition (portDown s p) p 0 true) p 1 (engineLit (portDown s p) p)

section
variable {s : State} {port : Nat} (t : Time) (hrun : Active s)
include hrun

theorem exec_fhLinkDown_absent (hp : fhPorts s ≤ port) (noSignal : Bool) : Completes (.fhLinkDown port noSignal t) s (s.atTime t) := by
  show execFhLinkDown port noSignal t s = _
  rw [execFhLinkDown, timed_of_running hrun, if_pos (show fhPorts (s.atTime t) ≤ port from hp)]

theorem exec_fhLinkDown (hp : port < fhPorts s) : Completes (.fhLinkDown port false t) s (portDown (s.atTime t) port) := by
  show execFhLinkDown port false t s = _
  rw [execFhLinkDown, timed_of_running hrun, if_neg (show ¬ fhPorts (s.atTime t) ≤ port from hp.not_ge)]
  rfl

theorem exec_fhLinkDown_signalLost (hp : port < fhPorts s) : Completes (.fhLinkDown port true t) s (signalLost (s.atTime t) port) := by
  show execFhLinkDown port true t s = _
  rw [execFhLinkDown, timed_of_running hrun, if_neg (show ¬ fhPorts (s.atTime t) ≤ port from hp.not_ge)]
  rfl
end

/-- Without a signal the port is down with LOS, and SWAP_SUSPECTED tells whether the rest of the engine is lit; what becomes new is recorded. -/
theorem signalLost_spec {s : State} {p : Nat} (hp : p < s.fh.ports.length) :
    PortChange p (fun x => withCondition 1 (engineLit s p) (withCondition 0 true { x with up := false })) s (signalLost s p) ∧
    (bitOf (fhPort s p).faults 0 = false → bitOf (fhPort s p).faults 1 = false → engineLit s p = true →
      ∃ t, Logs s t ∧ Logs t (signalLost s p)) ∧
    (bitOf (fhPort s p).faults 0 = false → engineLit s p = false → Logs s (signalLost s p)) ∧
    (bitOf (fhPort s p).faults 0 = true → engineLit s p = false → NoRecord s (signalLost s p)) := by
  obtain ⟨hdown, hsilent⟩ := portDown_spec hp
  have hlit := engineLit_of_portChange hdown
  have hlos := portChange_fhCondition (hdown.lt hp) 0 true
  have hswap := portChange_fhCondition (hlos.lt (hdown.lt hp)) 1 (engineLit (portDown s p) p)
  have hbit : bitOf (fhPort (fhCondition (portDown s p) p 0 true) p).faults 1 = bitOf (fhPort s p).faults 1 := by
    rw [hlos.same, bitOf_withCondition (by decide), hdown.same]; rfl
  have hfirst : recordsCondition (portDown s p) p 0 true = !bitOf (fhPort s p).faults 0 := by simp [recordsCondition, hdown.same]
  have hsecond : recordsCondition (fhCondition (portDown s p) p 0 true) p 1 (engineLit (portDown s p) p) =
      (engineLit s p && !bitOf (fhPort s p).faults 1) := by simp [recordsCondition, hbit, hlit]
  refine ⟨?_, fun h0 h1 hdark => ?_, fun h0 hdark => ?_, fun h0 hdark => ?_⟩
  · rw [← hlit]; exact (hdown.trans hlos).trans hswap
  · exact ⟨_, logs_of_noRecord hsilent (fhCondition_logs (by rw [hfirst, h0]; rfl)), fhCondition_logs (by rw [hsecond, hdark, h1]; rfl)⟩
  · exact Logs.then_none (logs_of_noRecord hsilent (fhCondition_logs (by rw [hfirst, h0]; rfl))) (fhCondition_silent (by rw [hsecond, hdark]; rfl))
  · exact noRecord_trans (noRecord_trans hsilent (fhCondition_silent (by rw [hfirst, h0]; rfl))) (fhCondition_silent (by rw [hsecond, hdark]; rfl))

/-- LOS is set, SWAP_SUSPECTED tells of the engine, the other bits stay. -/
theorem bitOf_signalLost {s : State} {p : Nat} (hp : p < s.fh.ports.length) (k : Nat) : bitOf (fhPort (signalLost s p) p).faults k =
    if k = 1 then engineLit s p else if k = 0 then true else bitOf (fhPort s p).faults k := by
  rw [(signalLost_spec hp).1.same, bitOf_withCondition (by decide), bitOf_withCondition (by decide)]

/-! ## FH_LINK_UP -/

/-- The state after a link came up. -/
def linkUp (s : State) (p : Nat) (misordered : Bool) : State :=
  modFh (fhCondition (fhCondition (fhCondition s p 0 false) p 1 false) p 2 misordered) p (fun x => { x with up := true })

section
variable {s : State} {port : Nat} (t : Time) (hrun : Active s) (misordered : Bool)
include hrun

theorem exec_fhLinkUp_held (h : fhPorts s ≤ port ∨ bitOf (fhPort s port).faults 6 = true ∨ bitOf (fhPort s port).faults 7 = true ∨
    bitOf (fhPort s port).faults 8 = true) : Completes (.fhLinkUp port misordered t) s (s.atTime t) := by
  have hheld : (decide (fhPorts (s.atTime t) ≤ port) || bitOf (fhPort (s.atTime t) port).faults 6 || bitOf (fhPort (s.atTime t) port).faults 7
      || bitOf (fhPort (s.atTime t) port).faults 8) = true := by
    simp only [Bool.or_eq_true, decide_eq_true_eq, or_assoc]; exact h
  show execFhLinkUp port misordered t s = _
  rw [execFhLinkUp, timed_of_running hrun]
  simp only [hheld, if_true]

theorem exec_fhLinkUp (hp : port < fhPorts s) (h6 : bitOf (fhPort s port).faults 6 = false) (h7 : bitOf (fhPort s port).faults 7 = false)
    (h8 : bitOf (fhPort s port).faults 8 = false) : Completes (.fhLinkUp port misordered t) s (linkUp (s.atTime t) port misordered) := by
  have hfree : (decide (fhPorts (s.atTime t) ≤ port) || bitOf (fhPort (s.atTime t) port).faults 6 || bitOf (fhPort (s.atTime t) port).faults 7
      || bitOf (fhPort (s.atTime t) port).faults 8) = false := by
    simp only [Bool.or_eq_false_iff, decide_eq_false_iff_not, and_assoc]; exact ⟨hp.not_ge, h6, h7, h8⟩
  show execFhLinkUp port misordered t s = _
  rw [execFhLinkUp, timed_of_running hrun]
  simp only [hfree]
  rfl
end

theorem linkUp_spec {s : State} {p : Nat} (hp : p < s.fh.ports.length) (misordered : Bool) :
    PortChange p (fun x => { withCondition 2 misordered (withCondition 1 false (withCondition 0 false x)) with up := true }) s
      (linkUp s p misordered) ∧ NoRecord s (linkUp s p misordered) := by
  have h0 := portChange_fhCondition hp 0 false
  have h1 := h0.trans (portChange_fhCondition (h0.lt hp) 1 false)
  have h2 := h1.trans (portChange_fhCondition (h1.lt hp) 2 misordered)
  have hsilent : NoRecord s (fhCondition (fhCondition (fhCondition s p 0 false) p 1 false) p 2 misordered) :=
    noRecord_trans (noRecord_trans (fhCondition_silent rfl) (fhCondition_silent rfl)) (fhCondition_silent (by simp [recordsCondition]))
  exact ⟨h2.trans (portChange_modFh (h2.lt hp) fun x => { x with up := true }), hsilent⟩

theorem withCondition_up (misordered : Bool) (x : FhPort) :
    (withCondition 2 misordered (withCondition 1 false (withCondition 0 false x))).faults =
      if misordered then x.faults &&& 0xFFFC ||| 4 else x.faults &&& 0xFFF8 := by
  cases misordered
  · simp only [withCondition, Bool.false_eq_true, if_false]; rw [BitVec.and_assoc, BitVec.and_assoc]; rfl
  · simp only [withCondition, Bool.false_eq_true, if_false, if_true]; rw [BitVec.and_assoc]; rfl

/-! ## RX_OVER_POWER -/

section
variable {s : State} {port : Nat} (t : Time) (hrun : Active s) (mdbm : Int)
include hrun

theorem exec_rxOverPower_absent (hp : fhPorts s ≤ port) : Completes (.rxOverPower port mdbm t) s (s.atTime t) := by
  show execRxOverPower port mdbm t s = _
  rw [execRxOverPower, timed_of_running hrun, if_pos (show fhPorts (s.atTime t) ≤ port from hp)]

theorem exec_rxOverPower (hp : port < fhPorts s) : Completes (.rxOverPower port mdbm t) s
    (if 5000 < mdbm then portDown (fhCondition (s.atTime t) port 8 true) port else fhCondition (s.atTime t) port 8 false) := by
  show execRxOverPower port mdbm t s = _
  rw [execRxOverPower, timed_of_running hrun, if_neg (show ¬ fhPorts (s.atTime t) ≤ port from hp.not_ge)]
end

/-- Too much light takes the port down; it is recorded when it begins (R486, R487). -/
theorem overPower_spec {s : State} {p : Nat} (hp : p < s.fh.ports.length) :
    let s' := portDown (fhCondition s p 8 true) p
    PortChange p (fun x => { withCondition 8 true x with up := false }) s s' ∧
      (bitOf (fhPort s p).faults 8 = true → NoRecord s s') ∧ (bitOf (fhPort s p).faults 8 = false → Logs s s') := by
  have hover := portChange_fhCondition hp 8 true
  obtain ⟨hdown, hsilent⟩ := portDown_spec (hover.lt hp)
  exact ⟨hover.trans hdown, fun h => noRecord_trans (fhCondition_silent (by simp [recordsCondition, h])) hsilent,
    fun h => (fhCondition_logs (by simp [recordsCondition, h])).then_none hsilent⟩

/-! ## LASER_INPUT_CHANGE -/

theorem laserNext_spec (was : Nat) (x : Int) : (x < 12000 → laserNext was x = 1) ∧ (21000 < x → laserNext was x = 2) ∧
    (13000 ≤ x → x ≤ 20000 → laserNext was x = 0) ∧ (12000 ≤ x → x < 13000 → laserNext was x = if was = 1 then 1 else 0) ∧
    (20000 < x → x ≤ 21000 → laserNext was x = if was = 2 then 2 else 0) := by
  unfold laserNext
  refine ⟨fun h => ?_, fun h => ?_, fun h h' => ?_, fun h h' => ?_, fun h h' => ?_⟩ <;> split_ifs <;> omega

theorem lmod_const {α : Type} (l : List α) (i : Nat) (v : α) : lmod l i (fun _ => v) = l.set i v := by
  induction l generalizing i with
  | nil => rfl
  | cons x l ih => cases i <;> simp [lmod, ih]

/-- What a laser input in state `v` does to a port that it feeds (R464). -/
def laserFeeds (v : Nat) (s : State) (p : Nat) : State :=
  if v = 1 then portDown (fhCondition (fhCondition s p 6 (v == 1)) p 7 (v == 2)) p else fhCondition (fhCondition s p 6 (v == 1)) p 7 (v == 2)

/-- The same of the port's record. -/
def laserFed (v : Nat) (x : FhPort) : FhPort :=
  if v = 1 then { withCondition 7 (v == 2) (withCondition 6 (v == 1) x) with up := false } else withCondition 7 (v == 2) (withCondition 6 (v == 1) x)

theorem portChange_laserFeeds {s : State} {p : Nat} (hp : p < s.fh.ports.length) (v : Nat) : PortChange p (laserFed v) s (laserFeeds v s p) := by
  have h6 := portChange_fhCondition hp 6 (v == 1)
  have h7 := h6.trans (portChange_fhCondition (h6.lt hp) 7 (v == 2))
  unfold laserFeeds laserFed
  split
  · exact h7.trans (portDown_spec (h7.lt hp)).1
  · exact h7

theorem laserFeeds_silent (s : State) (p : Nat) : NoRecord s (laserFeeds 0 s p) :=
  show NoRecord s (fhCondition (fhCondition s p 6 false) p 7 false) from noRecord_trans (fhCondition_silent rfl) (fhCondition_silent rfl)

theorem laserFed_spec (v : Nat) (x : FhPort) : (laserFed v x).up = (x.up && !(v == 1)) ∧
    (laserFed v x).faults = x.faults &&& 0xFF3F ||| (if v = 1 then 0x40 else if v = 2 then 0x80 else 0) := by
  unfold laserFed
  split
  next h =>
    subst h
    refine ⟨by simp, ?_⟩
    show (x.faults ||| 0x40) &&& ~~~0x80 = x.faults &&& 0xFF3F ||| 0x40
    ext i hi
    simp
    interval_cases i <;> simp
  next h =>
    have hdark : (v == 1) = false := by simp [h]
    refine ⟨by simp [hdark, withCondition], ?_⟩
    rw [hdark]
    by_cases hv : v = 2
    · subst hv
      show x.faults &&& ~~~0x40 ||| 0x80 = x.faults &&& 0xFF3F ||| 0x80
      ext i hi
      simp
      interval_cases i <;> simp
    · have hgood : (v == 2) = false := by simp [hv]
      rw [if_neg hv, hgood]
      show x.faults &&& ~~~0x40 &&& ~~~0x80 = x.faults &&& 0xFF3F ||| 0
      rw [BitVec.and_assoc]; exact (BitVec.or_zero (x := x.faults &&& 0xFF3F)).symm

/-- The state after laser input `i` came to state `v`. -/
def laserChanged (s : State) (i v : Nat) : State :=
  (laserPorts s i).foldl (laserFeeds v) { s with fh := { s.fh with lasers := s.fh.lasers.set i v } }

theorem exec_laserInputChange {s : State} (t : Time) (hrun : Active s) (i : BitVec 2) (mdbm : Int) :
    Completes (.laserInputChange i mdbm t) s (laserChanged (s.atTime t) i.toNat (laserNext (s.fh.lasers.getD i.toNat 0) mdbm)) := by
  show execLaserInputChange i mdbm t s = _
  rw [execLaserInputChange, timed_of_running hrun]
  simp only [lmod_const]
  rfl

theorem mem_laserPorts (s : State) (i q : Nat) : q ∈ laserPorts s i ↔ q < fhPorts s ∧ q * (16 / fhPorts s) / 4 = i := by
  simp [laserPorts, firstLane]

/-- The ports that the input feeds lose their light or their transmit signal; a return to good light is not recorded (R464, R486). -/
theorem laserChanged_spec {s : State} (hports : fhPorts s ≤ s.fh.ports.length) (i v : Nat) :
    let s' := laserChanged s i v
    s'.fh.lasers = s.fh.lasers.set i v ∧ s'.items = s.items ∧ s'.mem = s.mem ∧ (v = 0 → NoRecord s s') ∧
      ∀ q, fhPort s' q = if q < fhPorts s ∧ q * (16 / fhPorts s) / 4 = i then laserFed v (fhPort s q) else fhPort s q := by
  obtain ⟨hstate, hport⟩ := portChange_foldl (fun r p hp => portChange_laserFeeds hp v) (laserPorts s i)
    { s with fh := { s.fh with lasers := s.fh.lasers.set i v } } (List.nodup_range.filter _)
    fun q hq => ((mem_laserPorts s i q).1 hq).1.trans_le hports
  refine ⟨(congrArg (fun r => r.fh.lasers) hstate :), (congrArg State.items hstate :), (congrArg State.mem hstate :), fun hv => ?_, fun q => ?_⟩
  · subst hv
    exact List.foldlRecOn (motive := NoRecord s) (laserPorts s i) (laserFeeds 0) ⟨rfl, rfl⟩ fun r h p _ => noRecord_trans h (laserFeeds_silent r p)
  · simp only [← mem_laserPorts]
    exact hport q

end Sys2Proof.Machine
end

section
/-! PROOFS. What fronthaul ports send: downlink sections, answers to delay measurements, PTP and ESMC messages (O41; R79, R379, R380, R466,
R467, R470, R471). -/

namespace Sys2Proof.Machine

theorem portSends_lt {s : State} {p : Nat} (h : portSends s p = true) : p < fhPorts s := by
  simp only [portSends, portUp, Bool.and_eq_true, decide_eq_true_eq] at h
  exact h.1.1

/-! ## Downlink sections -/

/-- A list of whole pieces is cut into them. -/
theorem chunks_eq_map {α : Type} {n : Nat} (hn : 0 < n) (fuel : Nat) : ∀ {l : List α}, l.length = n * fuel →
    chunks n fuel l = (List.range fuel).map (fun k => (l.drop (n * k)).take n) := by
  induction fuel with
  | zero => exact fun _ => rfl
  | succ fuel ih =>
    intro l hlen
    have hne : l ≠ [] := List.ne_nil_of_length_pos (by rw [hlen]; exact Nat.mul_pos hn (Nat.succ_pos _))
    have hrest : (l.drop n).length = n * fuel := by rw [List.length_drop, hlen, Nat.mul_succ, Nat.add_sub_cancel]
    obtain ⟨x, xs, rfl⟩ := List.exists_cons_of_ne_nil hne
    have hcut : chunks n (fuel + 1) (x :: xs) = (x :: xs).take n :: chunks n fuel ((x :: xs).drop n) := rfl
    rw [hcut, ih hrest, List.range_succ_eq_map, List.map_cons, List.map_map]
    refine congrArg₂ _ (by rw [Nat.mul_zero, List.drop_zero]) (List.map_congr_left fun k _ => ?_)
    simp only [Function.comp, List.drop_drop, Nat.mul_succ, Nat.add_comm]

/-- The state after a section of `groups` went out, with its item marked if one of them saturated. -/
def sectionSent (s : State) (c : Nat) (slot : Time) (sym stream first : Nat) (groups : List (List Byte × Bool)) (sat : Bool) : State :=
  let n := if timeDomain s c then 12 * groups.length else groups.length
  let sent := { s with fh := { s.fh with dlSent := s.fh.dlSent ++ [(c, slot, sym, stream, first, n)] } }
  let marked := if sat then modSlotItems sent c slot 2 (fun i => { i with sat := true, satAll := true }) else sent
  (modFh marked (streamPort s c 1 stream slot) (fun p => nextSeqid p (streamEaxc s c 1 stream slot))).emit
    (.uplane (streamPort s c 1 stream slot) (BitVec.ofNat 16 (streamEaxc s c 1 stream slot)) slot sym first (groups.flatMap (fun p => p.1)))

/-- The compressed groups of a section with its gain. -/
def sectionGroups (s : State) (c : Nat) (slot : Time) (stream : Nat) (vs : List Val) : List (List Byte × Bool) :=
  (chunks 24 (vs.length / 24) (vs.map (gained (signedOf 8 (carObjAt s c 2 (stream + 1) slot))))).map (compressGroup (carFieldAt s c 20 slot))

theorem sectionGroups_eq (s : State) (c : Nat) (slot : Time) (stream : Nat) {vs : List Val} (hlen : vs.length % 24 = 0) :
    sectionGroups s c slot stream vs = (List.range (vs.length / 24)).map (fun k => compressGroup (carFieldAt s c 20 slot)
      (((vs.map (gained (signedOf 8 (carObjAt s c 2 (stream + 1) slot)))).drop (24 * k)).take 24)) := by
  rw [sectionGroups, chunks_eq_map (by decide) _ (by rw [List.length_map]; omega), List.map_map]; rfl

section
variable {s : State} {carrier : BitVec 5} {slot : Time} {sym stream first count : Nat} {t : Time} (hrun : Active s)
include hrun

/-- Nothing is sent for an empty item, for a stream that is not there, on a port that cannot send, or outside the window. -/
theorem exec_fhDlSectionSend_idle (h : ∀ i, (s.atTime t).items.find? (isSlotItem carrier.toNat slot 2) = some i → isEmptySlot i = true ∨
      streamsOf (s.atTime t) carrier.toNat 1 ≤ stream ∨ portSends (s.atTime t) (streamPort (s.atTime t) carrier.toNat 1 stream slot) = false ∨
      (s.atTime t).time.now < (dlWindow (s.atTime t) carrier.toNat slot sym).1 ∨
      (dlWindow (s.atTime t) carrier.toNat slot sym).2 < (s.atTime t).time.now) :
    Completes (.fhDlSectionSend carrier slot sym stream first count t) s (s.atTime t) := by
  show execFhDlSectionSend carrier slot sym stream first count t s = _
  rw [execFhDlSectionSend, timed_of_running hrun]
  dsimp only
  split
  · rfl
  next i hfind =>
    have hidle := h i hfind
    rw [if_pos]
    simp only [Bool.or_eq_true, Bool.not_eq_true', decide_eq_true_eq, or_assoc]
    tauto

theorem exec_fhDlSectionSend_sends {i : Item} (hfind : (s.atTime t).items.find? (isSlotItem carrier.toNat slot 2) = some i)
    (hfull : isEmptySlot i = false) (hstream : stream < streamsOf (s.atTime t) carrier.toNat 1)
    (hport : portSends (s.atTime t) (streamPort (s.atTime t) carrier.toNat 1 stream slot) = true)
    (hopen : (dlWindow (s.atTime t) carrier.toNat slot sym).1 ≤ (s.atTime t).time.now)
    (hclose : (s.atTime t).time.now ≤ (dlWindow (s.atTime t) carrier.toNat slot sym).2)
    {vs : List Val} (hparts : sectionParts (s.atTime t) i stream sym first count = vs) (hlen : vs.length % 24 = 0)
    {groups : List (List Byte × Bool)} (hgroups : sectionGroups (s.atTime t) carrier.toNat slot stream vs = groups) :
    Completes (.fhDlSectionSend carrier slot sym stream first count t) s
      (sectionSent (s.atTime t) carrier.toNat slot sym stream first groups (groups.any (fun p => p.2) || vs.contains .nan)) := by
  subst hparts hgroups
  show execFhDlSectionSend carrier slot sym stream first count t s = _
  rw [execFhDlSectionSend, timed_of_running hrun]
  simp only [hfind]
  generalize (s.atTime t).time.now = now at hopen hclose
  rw [if_neg (by simp [hfull, hstream, hport, hopen, hclose, hlen])]
  rfl
end

/-- What sending a section changes (R79, R467). -/
theorem sectionSent_spec {s : State} {c : Nat} {slot : Time} {stream : Nat} (hport : streamPort s c 1 stream slot < s.fh.ports.length)
    (sym first : Nat) (groups : List (List Byte × Bool)) (sat : Bool) :
    let s' := sectionSent s c slot sym stream first groups sat
    let q := streamPort s c 1 stream slot
    s'.out = s.out ++ [.uplane q (BitVec.ofNat 16 (streamEaxc s c 1 stream slot)) slot sym first (groups.flatMap (fun p => p.1))] ∧
      s'.fh.dlSent = s.fh.dlSent ++ [(c, slot, sym, stream, first, if timeDomain s c then 12 * groups.length else groups.length)] ∧
      fhPort s' q = nextSeqid (fhPort s q) (streamEaxc s c 1 stream slot) ∧ (∀ j, j ≠ q → fhPort s' j = fhPort s j) ∧ s'.mem = s.mem ∧
      NoRecord s s' ∧
      s'.items = if sat then s.items.map (fun i => if isSlotItem c slot 2 i then { i with sat := true, satAll := true } else i) else s.items := by
  cases sat <;>
    exact ⟨rfl, rfl, lmod_get_same s.fh.ports _ _ {} hport, fun j hj => lmod_get_other s.fh.ports _ j _ {} hj, rfl, ⟨rfl, rfl⟩, rfl⟩

/-- A section marks its item where a group of it was clamped or a part was NaN (R471). -/
theorem sectionMarks_iff (groups : List (List Byte × Bool)) (vs : List Val) :
    (groups.any (fun x => x.2) || vs.contains .nan) = true ↔ (∃ x ∈ groups, x.2 = true) ∨ .nan ∈ vs := by simp

/-! ## The close of a transmit window -/

/-- The state after the window of a symbol closed. -/
def windowClosed (s : State) (c : Nat) (slot : Time) (sym : Nat) : State :=
  modSlotItems { s with fh := { s.fh with dlClosed := s.fh.dlClosed ++ [(c, slot, sym)] } } c slot 2
    (fun i => { i with unsent := i.unsent + unsentOf s c slot sym i })

section
variable {s : State} {carrier : BitVec 5} {slot : Time} {sym : Nat} {t : Time} (hrun : Active s)
include hrun

theorem exec_fhDlWindowClose_idle (h : (s.atTime t).time.now < (dlWindow (s.atTime t) carrier.toNat slot sym).2 ∨
      (carrier.toNat, slot, sym) ∈ (s.atTime t).fh.dlClosed) : Completes (.fhDlWindowClose carrier slot sym t) s (s.atTime t) := by
  show execFhDlWindowClose carrier slot sym t s = _
  rw [execFhDlWindowClose, timed_of_running hrun]
  dsimp only
  rw [if_pos]
  simpa using h

theorem exec_fhDlWindowClose (hclose : (dlWindow (s.atTime t) carrier.toNat slot sym).2 ≤ (s.atTime t).time.now)
    (hnew : (carrier.toNat, slot, sym) ∉ (s.atTime t).fh.dlClosed) :
    Completes (.fhDlWindowClose carrier slot sym t) s (windowClosed (s.atTime t) carrier.toNat slot sym) := by
  show execFhDlWindowClose carrier slot sym t s = _
  rw [execFhDlWindowClose, timed_of_running hrun]
  dsimp only
  generalize (s.atTime t).time.now = now at hclose
  rw [atTime_fh] at hnew
  rw [if_neg (by simp [hclose, hnew])]
  rfl
end

theorem windowClosed_item {s : State} {c : Nat} {slot : Time} {sym k : Nat} {i i' : Item} (hi : s.items[k]? = some i)
    (hi' : (windowClosed s c slot sym).items[k]? = some i') :
    i' = if isSlotItem c slot 2 i then { i with unsent := i.unsent + unsentOf s c slot sym i } else i := by
  simp only [windowClosed, modSlotItems, List.getElem?_map, hi, Option.map_some, Option.some.injEq] at hi'
  exact hi'.symm

/-- A unit of a run that has not been sent makes a section count as not sent. -/
theorem unsentOf_pos {s : State} {c : Nat} {slot : Time} {sym stream u : Nat} {i : Item} {r : Run} (hfull : isEmptySlot i = false)
    (hdomain : timeDomain s c = false) (hr : r ∈ itemRuns s i) (hfirst : r.sym ≤ sym) (hlast : sym < r.sym + r.nsym)
    (hstream : stream < streamsOf s c 1) (hlow : r.first ≤ u) (hhigh : u < r.first + r.count)
    (hunsent : sentUnit s c slot sym stream u = false) : 0 < unsentOf s c slot sym i := by
  refine List.length_pos_of_mem (a := stream) (List.mem_flatMap.2 ⟨r, ?_, ?_⟩)
  · simp [hfull, hr, hfirst, hlast]
  · simp only [hdomain, List.mem_filter, List.mem_range, List.any_eq_true]
    refine ⟨hstream, u - r.first, ?_, ?_⟩
    · show u - r.first < r.count
      omega
    · show (!sentUnit s c slot sym stream (r.first + (u - r.first))) = true
      rw [Nat.add_sub_cancel' hlow, hunsent]; rfl

/-! ## Delay measurements -/

theorem ecpriOk_delay_iff (s : State) (h : FhHead) : ecpriOk s h 5 = true ↔ h.port < fhPorts s ∧ (fhPort s h.port).up = true ∧ h.fcsOk = true ∧
    h.tags.length ≤ 1 ∧ 64 ≤ h.frame.length ∧ h.frame.length ≤ 9216 ∧ h.src ≠ Config.mac h.port ∧ h.dst = Config.mac h.port ∧
    h.etherType = 0xAEFE ∧ h.revision = 1 ∧ h.cBit = false ∧ h.msgType = 5 := by
  have htype : h.msgType.toNat = 5 ↔ h.msgType = 5 := ⟨fun e => BitVec.eq_of_toNat_eq e, fun e => by rw [e]; rfl⟩
  simp [ecpriOk, portUp, frameOk, fhMac, and_assoc, htype]

theorem portSends_takeFrame {s : State} {h : FhHead} (hp : h.port < s.fh.ports.length) :
    portSends (takeFrame s h) h.port = portSends s h.port := by
  have hchange := takeFrame_spec (s := s) (h := h) hp
  simp only [portSends, portUp, hchange.fhPorts, hchange.same, heard]

theorem takeFrame_time (s : State) (h : FhHead) : (takeFrame s h).time = s.time := by
  simp only [takeFrame]
  split <;> rfl

/-- The answer to a delay measurement leaves the port. -/
def delayAnswered (s : State) (port : Nat) (id : BitVec 8) : State :=
  (modFh s port (fun p => { p with tx := (p.tx + 1) % 2 ^ 64 })).emit (.ecpriReply port id s.time.now)

section
variable {s : State} {h : FhHead} {id act : BitVec 8} {t : Time} (hrun : Active s)
include hrun

theorem exec_ecpriDelayMeasurement_other (hbad : ecpriOk (s.atTime t) h 5 = false) :
    Completes (.ecpriDelayMeasurement h id act t) s (s.atTime t) := by
  show execEcpriDelayMeasurement h id act t s = _
  rw [execEcpriDelayMeasurement, timed_of_running hrun, hbad]; rfl

theorem exec_ecpriDelayMeasurement (hok : ecpriOk (s.atTime t) h 5 = true) : Completes (.ecpriDelayMeasurement h id act t) s
    (if act = 1 ∨ act = 2 ∨ !portSends (takeFrame (s.atTime t) h) h.port then takeFrame (s.atTime t) h
      else delayAnswered (takeFrame (s.atTime t) h) h.port id) := by
  show execEcpriDelayMeasurement h id act t s = _
  rw [execEcpriDelayMeasurement, timed_of_running hrun, hok]; rfl

/-- A measurement that a port takes is counted and answered, unless it asks for no answer or the port cannot send (R466, R467). -/
theorem ecpriDelayMeasurement_spec (hp : h.port < s.fh.ports.length) (hok : ecpriOk (s.atTime t) h 5 = true) :
    ∃ s', Completes (.ecpriDelayMeasurement h id act t) s s' ∧ (fhPort s' h.port).rx = ((fhPort s h.port).rx + 1) % 2 ^ 64 ∧
      (fhPort s' h.port).peer = some (h.src, h.tags.head?) ∧ s'.mem = s.mem ∧ s'.items = s.items ∧
      (act = 0 → portSends s h.port = true → s'.out = s.out ++ [.ecpriReply h.port id (max s.time.now t)] ∧
        (fhPort s' h.port).tx = ((fhPort s h.port).tx + 1) % 2 ^ 64) ∧
      (portSends s h.port = false → s'.out = s.out ∧ (fhPort s' h.port).tx = (fhPort s h.port).tx) := by
  have hchange := takeFrame_spec (s := s.atTime t) (h := h) hp
  have hsame : fhPort (takeFrame (s.atTime t) h) h.port = heard h (fhPort s h.port) := hchange.same
  have hsends : portSends (takeFrame (s.atTime t) h) h.port = portSends s h.port := portSends_takeFrame (s := s.atTime t) hp
  refine ⟨_, exec_ecpriDelayMeasurement hrun hok, ?_⟩
  rw [hsends]
  split
  next hno =>
    refine ⟨by rw [hsame]; rfl, by rw [hsame]; rfl, hchange.mem, hchange.items, fun hact hs => ?_, fun _ => ⟨hchange.out, by rw [hsame]; rfl⟩⟩
    rw [hs, hact] at hno
    exact absurd hno (by decide)
  next hyes =>
    have hanswered : fhPort (delayAnswered (takeFrame (s.atTime t) h) h.port id) h.port =
        { heard h (fhPort s h.port) with tx := ((fhPort s h.port).tx + 1) % 2 ^ 64 } :=
      (fhPort_modFh_same (hchange.lt hp) _).trans (by rw [hsame]; rfl)
    refine ⟨by rw [hanswered]; rfl, by rw [hanswered]; rfl, hchange.mem, hchange.items, fun _ _ => ⟨?_, by rw [hanswered]⟩, fun hs => ?_⟩
    · show (takeFrame (s.atTime t) h).out ++ [_] = _
      rw [hchange.out, takeFrame_time]; rfl
    · rw [hs] at hyes
      exact absurd (.inr (.inr rfl)) hyes

/-! ## PTP and ESMC -/

theorem exec_ptpMessageTransmit {port : Nat} (hsends : ptpSends (s.atTime t) port = true) : Completes (.ptpMessageTransmit port t) s
    ((modFh (s.atTime t) port (fun p => { p with tx := (p.tx + 1) % 2 ^ 64 })).emit (.ptp port)) := by
  show execPtpMessageTransmit port t s = _
  rw [execPtpMessageTransmit, timed_of_running hrun, if_pos hsends]

theorem exec_esmcTransmit : let s1 := ((s.atTime t).free 16).2
    Completes (.esmcTransmit t) s (((List.range (fhPorts s1)).filter (portSends s1)).foldl
      (fun r p => (modFh r p (fun x => { x with tx := (x.tx + 1) % 2 ^ 64 })).emit (.esmc p (BitVec.ofNat 4 ((s.atTime t).free 16).1))) s1) := by
  show execEsmcTransmit t s = _
  rw [execEsmcTransmit, timed_of_running hrun]
end

/-- A fronthaul port that can send sends PTP as the slave port or as another port of a T-BC (R379). -/
theorem ptpSends_fronthaul {s : State} {p : Nat} (hp : p < 16) (hsends : portSends s p = true) (hrole : rwVal s 0x1203 1 0 = p ∧ rwVal s 0x1203 2 1 = 1 ∨
    rwVal s 0x1203 4 0 = 1 ∧ rwVal s 0x1203 1 0 ≠ p) : ptpSends s p = true := by
  rw [ptpSends, if_neg hp.ne, hsends, isSlave, if_neg hp.ne]
  simpa only [Bool.true_and, Bool.or_eq_true, Bool.and_eq_true, beq_iff_eq, bne_iff_ne] using hrole

/-- Messages that ports send one after another. -/
theorem sendAll_eq (f : FhPort → FhPort) (o : Nat → Output) (l : List Nat) (s : State) :
    l.foldl (fun s p => (modFh s p f).emit (o p)) s = { l.foldl (fun s p => modFh s p f) s with out := s.out ++ l.map o } := by
  induction l using List.reverseRecOn with
  | nil => simp
  | append_singleton l p ih => simp only [List.foldl_append, List.foldl_cons, List.foldl_nil, ih]; simp [modFh, State.emit]

/-- ESMC_TRANSMIT sends on every port that can send, and counts there (R380). -/
theorem esmcTransmit_spec {s : State} {t : Time} (hrun : Active s) (hports : fhPorts s ≤ s.fh.ports.length) :
    ∃ s' ql, Completes (.esmcTransmit t) s s' ∧ s'.out = s.out ++ ((List.range (fhPorts s)).filter (portSends s)).map (fun q => .esmc q ql) ∧
      s'.freeCount = s.freeCount + 1 ∧ s'.items = s.items ∧
      (∀ q, fhPort s' q = if q < fhPorts s ∧ portSends s q = true then { fhPort s q with tx := ((fhPort s q).tx + 1) % 2 ^ 64 } else fhPort s q) ∧
      s'.mem = s.mem ∧ NoRecord s s' := by
  have hexec := exec_esmcTransmit (t := t) hrun
  have hlist (q : Nat) : q ∈ (List.range (fhPorts s)).filter (portSends s) ↔ q < fhPorts s ∧ portSends s q = true := by simp
  obtain ⟨hstate, hport⟩ := portChange_foldl (fun r p hp => portChange_modFh hp fun x => { x with tx := (x.tx + 1) % 2 ^ 64 })
    ((List.range (fhPorts s)).filter (portSends s)) ((s.atTime t).free 16).2 (List.nodup_range.filter _)
    fun q hq => ((hlist q).1 hq).1.trans_le hports
  have hsilent := List.foldlRecOn (motive := NoRecord s) ((List.range (fhPorts s)).filter (portSends s))
    (fun r p => modFh r p fun x => { x with tx := (x.tx + 1) % 2 ^ 64 }) (show NoRecord s ((s.atTime t).free 16).2 from ⟨rfl, rfl⟩)
    fun r h p _ => noRecord_trans h ⟨rfl, rfl⟩
  simp only [sendAll_eq] at hexec
  refine ⟨_, _, hexec, rfl, (congrArg State.freeCount hstate :), (congrArg State.items hstate :), fun q => ?_, (congrArg State.mem hstate :), hsilent⟩
  simp only [← hlist]
  exact hport q

end Sys2Proof.Machine
end

section
/-! PROOFS. Downlink sections, delay, PTP and ESMC messages, and the fronthaul ports (O41). -/

namespace Sys2Proof.Machine

/-- An item that R79 speaks of, in the words of the statement. -/
theorem isSlotItem_downlink (c : Nat) (slot : Time) : (fun j : Item => j.phase == .accepted && j.opcode == 2 && eCarrier j.fetched.entry == c &&
    j.slotTime == slot) = isSlotItem c slot 2 := by
  funext j
  rw [Bool.eq_iff_iff]
  simp only [isSlotItem, Bool.and_eq_true]
  tauto

theorem isSlotItem_iff (c : Nat) (slot : Time) (op : Nat) (i : Item) : isSlotItem c slot op i = true ↔
    i.opcode = op ∧ eCarrier i.fetched.entry = c ∧ i.slotTime = slot ∧ i.phase = .accepted := by
  simp [isSlotItem, and_assoc]

end Sys2Proof.Machine

namespace Sys2Proof
open Machine

/-- Settles O41: a section goes out in its window (`exec_fhDlSectionSend_sends`), and each change at a port is that of `PortChange`. -/
theorem fronthaulSendsAndLinks : Obligations.FronthaulSendsAndLinks := by
  unfold Obligations.FronthaulSendsAndLinks
  intro s t port hrun s1 now p sends Cond News hports hlasers
  have hlt {q : Nat} (hq : q < fhPorts s) : q < s1.fh.ports.length := (hq.trans_le (fhPorts_le s)).trans_eq hports.symm
  refine ⟨fun carrier slot sym stream first count => ?_, fun h id act => ?_, fun hsends hport hptp => ?_, ?_, fun habsent => ?_, fun hp => ?_,
    fun i x => ?_⟩
  · intro c w q ax Sends may
    have hitem {i : Item} (h : Sends i) : s1.items.find? (isSlotItem c slot 2) = some i := by rw [← isSlotItem_downlink]; exact h.1
    refine ⟨fun hnot => exec_fhDlSectionSend_idle hrun fun i hfind => ?_, ?_, exec_fhDlWindowClose_idle hrun, fun hclose hnew => ?_⟩
    · by_contra hno
      simp only [not_or, not_le, not_lt, Bool.not_eq_false, Bool.not_eq_true] at hno
      obtain ⟨hfull, hstream, hport, hopen, hclose⟩ := hno
      obtain hmay | hnone := hnot
      · exact hmay ⟨hstream, hport, hopen, hclose⟩
      · exact hnone i ⟨by rw [isSlotItem_downlink]; exact hfind, hfull⟩
    · intro i hmay hi vs hlen xs gs
      obtain ⟨hstream, hport, hopen, hclose⟩ := hmay
      have hgs : sectionGroups s1 c slot stream vs = gs := sectionGroups_eq s1 c slot stream hlen
      have hexec := exec_fhDlSectionSend_sends (carrier := carrier) hrun (hitem hi) hi.2 hstream hport hopen hclose rfl hlen hgs
      obtain ⟨hout, hsent, (hsame : fhPort _ q = nextSeqid (fhPort s q) ax), hother, hmem, hrecord, hitems⟩ :=
        sectionSent_spec (s := s1) (hlt (portSends_lt hport)) sym first gs (gs.any (fun x => x.2) || vs.contains .nan)
      refine ⟨sectionSent s1 c slot sym stream first gs (gs.any (fun x => x.2) || vs.contains .nan), hexec, hout, ?_, ?_, fun a ha => ?_,
        hother, hmem, hrecord, fun hnone hnan => ?_, fun hsome => ?_⟩
      · rw [hsent]; simp only [timeDomain, beq_iff_eq]; rfl
      · rw [hsame]; exact tget_tset_same ..
      · rw [hsame]; exact tget_tset_other _ _ _ _ ha
      · have hclean : ¬ ((∃ x ∈ gs, x.2 = true) ∨ .nan ∈ vs) := fun h => h.elim (fun ⟨x, hx, hsat⟩ => by simp [hnone x hx] at hsat) hnan
        rw [hitems, if_neg (mt (sectionMarks_iff gs vs).1 hclean)]; rfl
      · rw [hitems, if_pos ((sectionMarks_iff gs vs).2 hsome)]; simp only [isSlotItem_iff]; rfl
    · refine ⟨_, exec_fhDlWindowClose hrun hclose hnew, rfl, rfl, rfl, ⟨rfl, rfl⟩, List.length_map .., fun k _ i i' hi hi' => ?_⟩
      obtain rfl := windowClosed_item (s := s1) hi hi'
      refine ⟨?_, fun hno => if_neg (mt (isSlotItem_iff c slot 2 i).1 hno), ?_⟩
      · split
        · exact .inr ⟨_, rfl⟩
        · exact .inl rfl
      · rintro hop hc hslot hacc hfull hdomain ⟨r, hr, st, u, hfirst, hlast, hst, hlow, hhigh, hunsent⟩
        rw [if_pos ((isSlotItem_iff c slot 2 i).2 ⟨hop, hc, hslot, hacc⟩)]
        exact Nat.lt_add_of_pos_right (unsentOf_pos (s := s1) hfull (beq_false_of_ne hdomain) hr hfirst hlast hst hlow hhigh hunsent)
  · intro q ok
    exact ⟨fun hbad => exec_ecpriDelayMeasurement_other hrun (Bool.eq_false_iff.2 (mt (ecpriOk_delay_iff s1 h).1 hbad)),
      fun hok => ecpriDelayMeasurement_spec hrun (hlt hok.1) ((ecpriOk_delay_iff s1 h).2 hok)⟩
  · exact exec_ptpMessageTransmit hrun (ptpSends_fronthaul (s := s1) hport hsends hptp)
  · obtain ⟨s', ql, hexec, hout, hfree, hitems, hport, hkept⟩ := esmcTransmit_spec (t := t) hrun ((fhPorts_le s).trans_eq hports.symm)
    exact ⟨s', ql, hexec, hout, hfree, hitems, fun q _ => hport q, hkept⟩
  · exact ⟨exec_fhLinkDown_absent t hrun habsent true, exec_fhLinkUp_held t hrun false (.inl habsent), exec_rxOverPower_absent t hrun 6000 habsent⟩
  · have hp' := hlt hp
    obtain ⟨hdown, hsilent⟩ := portDown_spec hp'
    obtain ⟨hlost, htwo, hone, hnone⟩ := signalLost_spec hp'
    have hcond {g : FhPort → FhPort} {r : State} (h : PortChange port g s1 r) (hrx : (g p).rx = p.rx) (htx : (g p).tx = p.tx)
        (hpeer : (g p).peer = p.peer) : Cond r port (g p).faults (g p).up := by
      have hsame : fhPort r port = g p := h.same
      simp only [Cond, hsame]
      exact ⟨trivial, trivial, hrx, htx, hpeer⟩
    refine ⟨⟨portDown s1 port, exec_fhLinkDown t hrun hp, hcond hdown rfl rfl rfl, hsilent, hdown.other, hdown.items⟩, ?_,
      fun hheld b => exec_fhLinkUp_held t hrun b (.inr hheld), fun h6 h7 h8 b => ?_, fun x => ⟨fun hx => ?_, fun hx => ?_⟩⟩
    · intro dark
      have hdark : engineLit s1 port = true ↔ dark := engineLit_iff s1 port
      have hbit := bitOf_signalLost hp'
      refine ⟨signalLost s1 port, exec_fhLinkDown_signalLost t hrun hp, by rw [hlost.same]; rfl, by rw [hbit]; rfl, by rw [hbit]; exact hdark,
        fun k hk => ?_, hlost.other, fun h0 h1 hd => ?_, fun h0 hd => (hone h0 (Bool.eq_false_iff.2 (mt hdark.1 hd))).one,
        fun h0 hd => hnone h0 (Bool.eq_false_iff.2 (mt hdark.1 hd))⟩
      · rw [hbit, if_neg (by omega), if_neg (by omega)]; rfl
      · obtain ⟨r, hfirst, hsecond⟩ := htwo h0 h1 (hdark.2 hd)
        exact hfirst.two hsecond
    · obtain ⟨hup, hsilent'⟩ := linkUp_spec hp' b
      have hup' := hcond hup rfl rfl rfl
      rw [show (_ : FhPort).faults = _ from withCondition_up b p] at hup'
      exact ⟨linkUp s1 port b, exec_fhLinkUp t hrun b hp h6 h7 h8, hup', hsilent', hup.other⟩
    · obtain ⟨hover, hknown, hnew⟩ := overPower_spec hp'
      have hexec := exec_rxOverPower t hrun x hp
      rw [if_pos hx] at hexec
      refine ⟨portDown (fhCondition s1 port 8 true) port, hexec, hcond hover rfl rfl rfl, ?_⟩
      split
      next h8 => exact hknown h8
      next h8 => exact (hnew (Bool.eq_false_iff.2 h8)).one
    · have hclear := portChange_fhCondition hp' 8 false
      have hexec := exec_rxOverPower t hrun x hp
      rw [if_neg hx.not_gt] at hexec
      exact ⟨fhCondition s1 port 8 false, hexec, hcond hclear rfl rfl rfl, fhCondition_silent rfl⟩
  · intro was
    obtain ⟨hdark, hbright, hgood, hlow, hhigh⟩ := laserNext_spec was x
    obtain ⟨hlaser, hitems, hmem, hsilent, hport⟩ := laserChanged_spec (s := s1) ((fhPorts_le s).trans_eq hports.symm) i.toNat (laserNext was x)
    refine ⟨laserChanged s1 i.toNat (laserNext was x), _, exec_laserInputChange t hrun i x, hlaser, hdark, hbright, hgood, hlow, hhigh,
      fun q hq => ?_, hsilent, hitems, hmem⟩
    rw [hport]
    by_cases hfed : q * (16 / fhPorts s) / 4 = i.toNat
    · obtain ⟨hup, hfaults⟩ := laserFed_spec (laserNext was x) (fhPort s q)
      rw [if_pos ⟨hq, hfed⟩, decide_eq_true hfed, Bool.true_and, if_pos hfed]
      exact ⟨hup, hfaults⟩
    · rw [if_neg fun h => hfed h.2, decide_eq_false hfed, if_neg hfed, Bool.false_and, Bool.not_false, Bool.and_true]
      exact ⟨rfl, rfl⟩

end Sys2Proof
end

section
/-! PROOFS. Command words and their fields (O5; R113, R142, R154, R162, R234, R238, R250, R283). A field read from a concatenation is read
from the one part that holds it, and two neighbouring fields of a word joined again are the wider field that they make. -/

namespace Sys2Proof

theorem matCmdWord_roundTrip : (∀ c, matCmdOfWord (matCmdToWord c) = c) ∧ ∀ w, matCmdToWord (matCmdOfWord w) = w := by
  refine ⟨fun c => ?_, fun w => ?_⟩
  · simp (disch := decide) only [matCmdOfWord, matCmdToWord, BitVec.extractLsb'_append_eq_of_add_le, BitVec.extractLsb'_append_eq_of_le,
      BitVec.extractLsb'_eq_self, Nat.reduceSub]
  · simp (disch := rfl) only [matCmdOfWord, matCmdToWord, BitVec.extractLsb'_append_extractLsb'_eq_extractLsb', BitVec.extractLsb'_eq_self]

theorem veCmdWord_roundTrip : (∀ c, veCmdOfWord (veCmdToWord c) = c) ∧ ∀ w, veCmdToWord (veCmdOfWord w) = w := by
  refine ⟨fun c => ?_, fun w => ?_⟩
  · simp (disch := decide) only [veCmdOfWord, veCmdToWord, BitVec.extractLsb'_append_eq_of_add_le, BitVec.extractLsb'_append_eq_of_le,
      BitVec.extractLsb'_eq_self, Nat.reduceSub]
  · simp (disch := rfl) only [veCmdOfWord, veCmdToWord, BitVec.extractLsb'_append_extractLsb'_eq_extractLsb', BitVec.extractLsb'_eq_self]

theorem dspCmdWord_roundTrip : (∀ c, dspCmdOfWord (dspCmdToWord c) = c) ∧ ∀ w, dspCmdToWord (dspCmdOfWord w) = w := by
  refine ⟨fun c => ?_, fun w => ?_⟩
  · simp (disch := decide) only [dspCmdOfWord, dspCmdToWord, BitVec.extractLsb'_append_eq_of_add_le, BitVec.extractLsb'_append_eq_of_le,
      BitVec.extractLsb'_eq_self, Nat.reduceSub]
  · simp (disch := rfl) only [dspCmdOfWord, dspCmdToWord, BitVec.extractLsb'_append_extractLsb'_eq_extractLsb', BitVec.extractLsb'_eq_self]

theorem ceCmdWord_roundTrip : (∀ c, ceCmdOfWord (ceCmdToWord c) = c) ∧ ∀ w, ceCmdToWord (ceCmdOfWord w) = w := by
  refine ⟨fun c => ?_, fun w => ?_⟩
  · simp (disch := decide) only [ceCmdOfWord, ceCmdToWord, BitVec.extractLsb'_append_eq_of_add_le, BitVec.extractLsb'_append_eq_of_le,
      BitVec.extractLsb'_eq_self, Nat.reduceSub]
  · simp (disch := rfl) only [ceCmdOfWord, ceCmdToWord, BitVec.extractLsb'_append_extractLsb'_eq_extractLsb', BitVec.extractLsb'_eq_self]

theorem peCmdWord_roundTrip : (∀ c, peCmdOfWord (peCmdToWord c) = c) ∧ ∀ w, peCmdToWord (peCmdOfWord w) = w := by
  refine ⟨fun c => ?_, fun w => ?_⟩
  · simp (disch := decide) only [peCmdOfWord, peCmdToWord, BitVec.extractLsb'_append_eq_of_add_le, BitVec.extractLsb'_append_eq_of_le,
      BitVec.extractLsb'_eq_self, Nat.reduceSub]
  · simp (disch := rfl) only [peCmdOfWord, peCmdToWord, BitVec.extractLsb'_append_extractLsb'_eq_extractLsb', BitVec.extractLsb'_eq_self]

theorem movCmdWord_roundTrip : (∀ c, movCmdOfWord (movCmdToWord c) = c) ∧ ∀ w, movCmdToWord (movCmdOfWord w) = w := by
  refine ⟨fun c => ?_, fun w => ?_⟩
  · simp (disch := decide) only [movCmdOfWord, movCmdToWord, BitVec.extractLsb'_append_eq_of_add_le, BitVec.extractLsb'_append_eq_of_le,
      BitVec.extractLsb'_eq_self, Nat.reduceSub]
  · simp (disch := rfl) only [movCmdOfWord, movCmdToWord, BitVec.extractLsb'_append_extractLsb'_eq_extractLsb', BitVec.extractLsb'_eq_self]

theorem relayGeoWord_roundTrip : (∀ c, relayGeoOfWord (relayGeoToWord c) = c) ∧ ∀ w, relayGeoToWord (relayGeoOfWord w) = w := by
  refine ⟨fun c => ?_, fun w => ?_⟩
  · simp (disch := decide) only [relayGeoOfWord, relayGeoToWord, BitVec.extractLsb'_append_eq_of_add_le, BitVec.extractLsb'_append_eq_of_le,
      BitVec.extractLsb'_eq_self, Nat.reduceSub]
  · simp (disch := rfl) only [relayGeoOfWord, relayGeoToWord, BitVec.extractLsb'_append_extractLsb'_eq_extractLsb', BitVec.extractLsb'_eq_self]

theorem windowWord_roundTrip : (∀ c, windowOfWord (windowToWord c) = c) ∧ ∀ w, windowToWord (windowOfWord w) = w := by
  refine ⟨fun c => ?_, fun w => ?_⟩
  · simp (disch := decide) only [windowOfWord, windowToWord, BitVec.extractLsb'_append_eq_of_add_le, BitVec.extractLsb'_append_eq_of_le,
      BitVec.extractLsb'_eq_self, Nat.reduceSub]
  · simp (disch := rfl) only [windowOfWord, windowToWord, BitVec.extractLsb'_append_extractLsb'_eq_extractLsb', BitVec.extractLsb'_eq_self]

/-- Settles O5: of each word, the fields of R113, R142, R234, R238, R250, R283, R162 and R154 in turn. -/
theorem commandWordsRoundTrip : Obligations.CommandWordsRoundTrip :=
  ⟨matCmdWord_roundTrip, veCmdWord_roundTrip, dspCmdWord_roundTrip, ceCmdWord_roundTrip, peCmdWord_roundTrip, movCmdWord_roundTrip,
    relayGeoWord_roundTrip, windowWord_roundTrip⟩

end Sys2Proof
end

section
/-! PROOFS. Integers among the values, and the elements that a vector command computes (O19; R98 to R101, R125 to R134). -/

namespace Sys2Proof.Machine

/-! ## Integers among the values (R98, R171) -/

/-- The value is the integer `i`; a zero may have either sign. -/
def Val.IsInt (v : Val) (i : Int) : Prop := ∃ (s : Bool) (m : Nat), v = .fin s m 0 ∧ (if s then -(m : Int) else m) = i

theorem isInt_ofInt (i : Int) : (ofInt i).IsInt i := by
  refine ⟨_, _, rfl, ?_⟩
  simp only [decide_eq_true_eq]
  split <;> omega

theorem Val.IsInt.mul {v w : Val} {i j : Int} (hv : v.IsInt i) (hw : w.IsInt j) : (v.mul w).IsInt (i * j) := by
  obtain ⟨s, m, rfl, rfl⟩ := hv
  obtain ⟨t, n, rfl, rfl⟩ := hw
  refine ⟨_, _, rfl, ?_⟩
  cases s <;> cases t <;> simp

theorem Val.IsInt.add {v w : Val} {i j : Int} (hv : v.IsInt i) (hw : w.IsInt j) : (v.add w).IsInt (i + j) := by
  obtain ⟨s, m, rfl, rfl⟩ := hv
  obtain ⟨t, n, rfl, rfl⟩ := hw
  simp only [Val.add, min_self, sub_self, Int.toNat_zero, pow_zero, mul_one]
  split
  · next h => exact ⟨_, _, rfl, by simp [h]⟩
  · generalize (if s = true then -(m : Int) else m) + (if t = true then -(n : Int) else n) = sum
    split
    · next h => exact ⟨_, _, rfl, by simp [h]⟩
    · exact isInt_ofInt sum

/-- An integer is rounded to itself in every mode (R177). -/
theorem roundInt_of_int (mode : Rnd) (s : Bool) (m : Nat) : roundInt mode s m 0 = if s then -(m : Int) else m := by
  have hround : roundQ mode m 0 1 = m := by cases mode <;> simp [roundQ]
  simp [roundInt, splitAt2, hround]

/-! ## Accumulation (R98, R101) -/

/-- INT32 saturates at each addition. -/
theorem macStep_int32 (acc x y : Int) : (macStep .int32 false (ofInt acc, zeroVal) (ofInt x, zeroVal) (ofInt y, zeroVal)).1 =
    (ofInt (limited 32 (acc + x * y)), zeroVal) := by
  obtain ⟨s, m, hsum, hval⟩ := (isInt_ofInt acc).add ((isInt_ofInt x).mul (isInt_ofInt y))
  simp only [macStep, hsum, accRound, roundInt_of_int, hval, Bool.false_eq_true, if_false]
  rw [clampInt_eq (by decide)]
  rfl

theorem macLine_int32 (ps : List (Int × Int)) : ∀ acc : Int,
    (macLine .int32 false (ofInt acc, zeroVal) (ps.map (fun p => ((ofInt p.1, zeroVal), (ofInt p.2, zeroVal))))).1 =
      (ofInt (ps.foldl (fun a p => limited 32 (a + p.1 * p.2)) acc), zeroVal) := by
  induction ps with
  | nil => intro acc; rfl
  | cons p ps ih =>
    intro acc
    simp only [List.map_cons, macLine, macStep_int32, List.foldl_cons]
    exact ih _

/-- FP32 rounds once at each addition. -/
theorem macLine_fp32 (ps : List (Val × Val)) : ∀ acc : Val,
    (macLine .fp32 false (acc, zeroVal) (ps.map (fun p => ((p.1, zeroVal), (p.2, zeroVal))))).1 =
      (ps.foldl (fun a p => rnd 8 (a.add (p.1.mul p.2))) acc, zeroVal) := by
  induction ps with
  | nil => intro acc; rfl
  | cons p ps ih => intro acc; exact ih _

/-! ## The elements of operands (R125 to R130) -/

/-- An element as it enters OPFMT. -/
def enteredE (f : Nat) (e : Elem) : Elem := (entered f e.1, entered f e.2)

theorem rowElems_length (f : Nat) (cplx : Bool) (bs : List Byte) (n : Nat) : (rowElems f cplx bs n).length = n := by
  unfold rowElems
  split
  · simp
  · split <;> simp

theorem slotElems_length (sl : Slot) (cplx : Bool) (r n : Nat) : (slotElems sl cplx r n).length = n := by simp [slotElems]

theorem operandRows_length (s : State) (k src f addr pitch : Nat) (cplx : Bool) (slot : Option Slot) (rows n : Nat) :
    (operandRows s k src f addr pitch cplx slot rows n).length = rows := by simp [operandRows]

/-- Each row of an operand has its elements; a slot that it names stands in the queue. -/
theorem operandRows_row_length (s : State) (k : Nat) {src : Nat} (f addr pitch : Nat) (cplx : Bool) {slot : Option Slot} {rows n r : Nat}
    (hslot : src = 1 → slot.isSome = true) (hr : r < rows) :
    ((operandRows s k src f addr pitch cplx slot rows n).getD r []).length = n := by
  rw [List.getD_eq_getElem _ _ (by rwa [operandRows_length])]
  simp only [operandRows, List.getElem_map]
  split
  · next hsrc =>
    obtain ⟨sl, rfl⟩ := Option.isSome_iff_exists.1 (hslot hsrc)
    exact slotElems_length ..
  · exact rowElems_length ..

theorem enterRows_fst (f : Nat) (rows : List (List Elem)) : (enterRows f rows).1 = rows.map (fun r => r.map (enteredE f)) := by
  simp only [enterRows, collect, List.map_map]
  rfl

/-- An element of rows that are taken element by element. -/
theorem getD_getD_map {f : Elem → Elem} {rows : List (List Elem)} {r i : Nat} (hr : r < rows.length) (hi : i < (rows.getD r []).length) :
    ((rows.map (fun row => row.map f)).getD r []).getD i zeroElem = f ((rows.getD r []).getD i zeroElem) := by
  have hrow : (rows.map (fun row => row.map f)).getD r [] = (rows.getD r []).map f := by
    rw [List.getD_eq_getElem _ _ (by simpa using hr), List.getD_eq_getElem _ _ hr, List.getElem_map]
  rw [hrow, List.getD_eq_getElem _ _ (by simpa using hi), List.getElem_map, List.getD_eq_getElem _ _ hi]

/-- What an operation makes of each element by its row and place. -/
def eachElem (g : Nat → Nat → Elem → Sat Elem) (rows : List (List Elem)) : Sat (List (List Elem)) :=
  collect (rows.zipIdx.map (fun p => collect (p.1.zipIdx.map (fun q => g p.2 q.2 q.1))))

theorem eachElem_getD {g : Nat → Nat → Elem → Sat Elem} {rows : List (List Elem)} {r i : Nat} (hr : r < rows.length)
    (hi : i < (rows.getD r []).length) :
    ((eachElem g rows).1.getD r []).getD i zeroElem = (g r i ((rows.getD r []).getD i zeroElem)).1 := by
  rw [List.getD_eq_getElem _ _ hr] at hi ⊢
  have hrow : (eachElem g rows).1.getD r [] = (rows[r].zipIdx.map (fun q => g r q.2 q.1)).map (fun p => p.1) := by
    rw [List.getD_eq_getElem _ _ (by simpa [eachElem, collect] using hr)]
    simp [eachElem, collect]
  rw [hrow, List.getD_eq_getElem _ _ hi, List.getD_eq_getElem _ _ (by simpa using hi)]
  simp

/-! ## Elementwise commands (R129 to R134) -/

theorem funcVal_second {fn : Nat} (h : fn ≠ 5) (f : Nat) (x y y' : Val) : funcVal f fn x y = funcVal f fn x y' := by simp [funcVal, h]

/-- A command that does not use B makes of an element what it makes of it whatever B is. -/
theorem elementwise_of_not_usesB {c : VeCmd} (h : veUsesB c = false) (a b b' : Elem) : elementwise c a b = elementwise c a b' := by
  have hsub : c.opcode.toNat = 0x20 → c.subop.toNat ≠ 5 := by
    intro hop hsub
    have : c.subop = 5 := BitVec.eq_of_toNat_eq hsub
    simp [veUsesB, hop, this] at h
  unfold elementwise
  split
  case h_11 _ hop => simp only [funcVal_second (hsub hop) _ a.1 b.1 b'.1]
  all_goals simp_all [veUsesB]

/-- The rows of operand A as they are read (R125, R128). -/
def rowsA (s : State) (k : Nat) (c : VeCmd) : List (List Elem) :=
  operandRows s k c.srcA.toNat c.fmtA.toNat c.aAddr.toNat c.pitchA.toNat (c.cplx == 1) (coreOf s k).tq.head? c.rows.toNat c.cols.toNat

/-- The rows of an operand B that is no scalar of the command, as they are read (R125, R128, R129). -/
def rowsB (s : State) (k : Nat) (c : VeCmd) : List (List Elem) :=
  operandRows s k c.srcB.toNat c.fmtB.toNat c.bAddr.toNat c.pitchB.toNat (veBCplx c)
    (if c.srcA = 1 then (coreOf s k).tq[1]? else (coreOf s k).tq.head?) (veBShape c).1 (veBShape c).2

/-- Operand B as it enters OPFMT (R125, R129, R130). -/
def enteredB (s : State) (k : Nat) (c : VeCmd) : Sat (List (List Elem)) :=
  if !veUsesB c then ([], 0)
  else if c.srcB = 0 then
    let x := satB (enter c.opfmt.toNat (floatVal 8 c.imm.toNat))
    ([[(x.1, zeroVal)]], x.2)
  else enterRows c.opfmt.toNat (rowsB s k c)

/-- The opcodes whose elements `elementwise` gives. -/
def IsElementwise (c : VeCmd) : Prop :=
  c.opcode ≠ 0 ∧ c.opcode ≠ 0x02 ∧ c.opcode ≠ 0x30 ∧ c.opcode ≠ 0x31 ∧ c.opcode ≠ 0x40 ∧ c.opcode ≠ 0x50

theorem veCompute_elementwise {c : VeCmd} (h : IsElementwise c) (s : State) (k : Nat) (old : List (List Elem)) :
    (veCompute s k c old).1 =
      (eachElem (fun r i x => elementwise c x (bAt c (enteredB s k c).1 r i)) (enterRows c.opfmt.toNat (rowsA s k c)).1).1 := by
  obtain ⟨-, h02, h30, h31, h40, h50⟩ := h
  have hne {n : Nat} (hn : n < 256) (hop : c.opcode ≠ BitVec.ofNat 8 n) : c.opcode.toNat ≠ n := by
    rintro rfl
    exact hop (by simp)
  unfold veCompute
  dsimp only
  split
  next hop => exact absurd hop (hne (by decide) h02)
  next hop => exact absurd hop (hne (by decide) h30)
  next hop => exact absurd hop (hne (by decide) h31)
  next hop => exact absurd hop (hne (by decide) h40)
  next hop => exact absurd hop (hne (by decide) h50)
  next => rfl

section
variable {s : State} {k : Nat} {c : VeCmd}

/-- A command that passes R143 takes A from somewhere, and a scalar B as a scalar. -/
theorem veOk_operands (hok : veOk c = true) (hop : c.opcode ≠ 0) : c.srcA ≠ 0 ∧ (veUsesB c = true → c.srcB = 0 → c.bcast = 3) := by
  simp only [veOk, Bool.and_eq_true, Bool.or_eq_true, beq_iff_eq, hop, false_or, bne_iff_ne, Bool.not_eq_true', Bool.and_eq_false_iff,
    bne_eq_false_iff_eq, beq_eq_false_iff_ne] at hok
  obtain ⟨-, ⟨⟨⟨-, -⟩, hA⟩, hB⟩, -⟩ := hok
  refine ⟨hA, fun huses hsrc => ?_⟩
  simpa [huses, hsrc] using hB

theorem rowsA_length : (rowsA s k c).length = c.rows.toNat := operandRows_length ..

theorem rowsA_row_length {r : Nat} (hslots : veSlots c ≤ (coreOf s k).tq.length) (hr : r < c.rows.toNat) :
    ((rowsA s k c).getD r []).length = c.cols.toNat := by
  refine operandRows_row_length _ _ _ _ _ _ (fun h => ?_) hr
  have hA : c.srcA = 1 := BitVec.eq_of_toNat_eq h
  simp only [veSlots, hA, if_true] at hslots
  rw [List.isSome_head?]
  exact List.ne_nil_of_length_pos (by omega)

theorem rowsB_row_length {r : Nat} (hslots : veSlots c ≤ (coreOf s k).tq.length) (hr : r < (veBShape c).1) :
    ((rowsB s k c).getD r []).length = (veBShape c).2 := by
  refine operandRows_row_length _ _ _ _ _ _ (fun h => ?_) hr
  have hB : c.srcB = 1 := BitVec.eq_of_toNat_eq h
  simp only [veSlots, hB, if_true] at hslots
  split
  · next hA =>
    rw [if_pos hA] at hslots
    exact (List.getElem?_eq_getElem (show 1 < (coreOf s k).tq.length by omega)) ▸ rfl
  · rw [List.isSome_head?]
    exact List.ne_nil_of_length_pos (by omega)

/-- The row and the place in it that BCAST takes B's element from (R129). -/
def castAt (c : VeCmd) (r i : Nat) : Nat × Nat :=
  (if c.bcast = 0 then r else 0, if c.bcast = 0 ∨ c.bcast = 1 then i else if c.bcast = 2 then r else 0)

theorem bcast_cases (c : VeCmd) : c.bcast = 0 ∨ c.bcast = 1 ∨ c.bcast = 2 ∨ c.bcast = 3 := by
  generalize c.bcast = b
  revert b
  decide

theorem bAt_castAt (c : VeCmd) (rows : List (List Elem)) (r i : Nat) :
    bAt c rows r i = (rows.getD (castAt c r i).1 []).getD (castAt c r i).2 zeroElem := by
  rcases bcast_cases c with h | h | h | h <;> simp [bAt, castAt, h] <;> rfl

theorem castAt_lt {r i : Nat} (hr : r < c.rows.toNat) (hi : i < c.cols.toNat) :
    (castAt c r i).1 < (veBShape c).1 ∧ (castAt c r i).2 < (veBShape c).2 := by
  rcases bcast_cases c with h | h | h | h <;> simp [veBShape, castAt, h, hr, hi]

/-- The element of B that element (r, i) of A meets. -/
theorem bAt_enteredB {r i : Nat} (hok : veOk c = true) (hop : c.opcode ≠ 0) (huses : veUsesB c = true)
    (hslots : veSlots c ≤ (coreOf s k).tq.length) (hr : r < c.rows.toNat) (hi : i < c.cols.toNat) :
    bAt c (enteredB s k c).1 r i = veB s k c r i := by
  by_cases hsrc : c.srcB = 0
  · have hcast := (veOk_operands hok hop).2 huses hsrc
    simp [bAt, enteredB, veB, huses, hsrc, hcast, entered, satB]
  · obtain ⟨hrow, hplace⟩ := castAt_lt hr hi
    have hB : (enteredB s k c).1 = (rowsB s k c).map (fun row => row.map (enteredE c.opfmt.toNat)) := by
      simp only [enteredB, huses, hsrc, Bool.not_true, Bool.false_eq_true, if_false, enterRows_fst]
    rw [bAt_castAt, hB, getD_getD_map (rows := rowsB s k c) (hrow.trans_eq (operandRows_length ..).symm) (hplace.trans_eq (rowsB_row_length hslots hrow).symm)]
    simp only [veB, hsrc, if_false]
    rfl

/-- Element (r, i) of the result of an elementwise command. -/
theorem veResult_elementwise {r i : Nat} (old : List (List Elem)) (hok : veOk c = true) (h : IsElementwise c)
    (hslots : veSlots c ≤ (coreOf s k).tq.length) (hr : r < c.rows.toNat) (hi : i < c.cols.toNat) :
    veResult s k c old r i = (elementwise c (veA s k c r i) (veB s k c r i)).1 := by
  have hr' := hr.trans_eq (rowsA_length (s := s) (k := k)).symm
  have hi' := hi.trans_eq (rowsA_row_length hslots hr).symm
  have hA := getD_getD_map (f := enteredE c.opfmt.toNat) hr' hi'
  rw [veResult, veCompute_elementwise h, enterRows_fst, eachElem_getD (by simpa using hr') (by
    rw [List.getD_eq_getElem _ _ hr'] at hi'
    rw [List.getD_eq_getElem _ _ (by simpa using hr')]
    simpa using hi'), hA]
  by_cases huses : veUsesB c = true
  · rw [bAt_enteredB hok h.1 huses hslots hr hi]
    rfl
  · rw [elementwise_of_not_usesB (Bool.eq_false_iff.2 huses) _ _ (veB s k c r i)]
    rfl

end

/-! ## The opcodes (R133, R134) -/

section
variable {c : VeCmd} (a b : Elem)

/-- The imaginary part under COMPLEX, +0 without it. -/
def imPart (c : VeCmd) (v : Val) : Val := if c.cplx = 1 then v else zeroVal

theorem both_fst (op : Val → Val → Sat Val) (x y : Elem) : (both (c.cplx == 1) op x y).1 = ((op x.1 y.1).1, imPart c (op x.2 y.2).1) := by
  simp only [both, imPart, beq_iff_eq]
  split <;> rfl

theorem elementwise_copy (h : c.opcode = 0x01) : (elementwise c a b).1 = a := by simp [elementwise, h]
theorem elementwise_add (h : c.opcode = 0x10) :
    (elementwise c a b).1 = (rnd c.opfmt.toNat (a.1.add b.1), imPart c (rnd c.opfmt.toNat (a.2.add b.2))) := by
  simp only [elementwise, h]; exact both_fst ..
theorem elementwise_sub (h : c.opcode = 0x11) :
    (elementwise c a b).1 = (rnd c.opfmt.toNat (a.1.add b.1.neg), imPart c (rnd c.opfmt.toNat (a.2.add b.2.neg))) := by
  simp only [elementwise, h]; exact both_fst ..
theorem elementwise_mul_real (h : c.opcode = 0x12) (hreal : c.cplx = 0 ∨ c.breal = 1) :
    (elementwise c a b).1 = (rnd c.opfmt.toNat (a.1.mul b.1), imPart c (rnd c.opfmt.toNat (a.2.mul b.1))) := by
  have hcond : (c.cplx == 1 && c.breal == 0) = false := by rcases hreal with h | h <;> simp [h]
  simp only [elementwise, h, hcond, Bool.false_eq_true, if_false]; exact both_fst ..
theorem elementwise_mul_complex (h : c.opcode = 0x12) (hcplx : c.cplx = 1) (hreal : c.breal = 0) :
    (elementwise c a b).1 =
      (rnd c.opfmt.toNat ((rnd c.opfmt.toNat (zeroVal.add (a.1.mul b.1))).add (a.2.mul b.2).neg),
        rnd c.opfmt.toNat ((rnd c.opfmt.toNat (zeroVal.add (a.1.mul b.2))).add (a.2.mul b.1))) := by
  simp only [elementwise, h, hcplx, hreal]; rfl
theorem elementwise_min (h : c.opcode = 0x14) : (elementwise c a b).1 = (a.1.minv b.1, zeroVal) := by simp only [elementwise, h]; rfl
theorem elementwise_max (h : c.opcode = 0x15) : (elementwise c a b).1 = (a.1.maxv b.1, zeroVal) := by simp only [elementwise, h]; rfl
theorem elementwise_abs (h : c.opcode = 0x16) : (elementwise c a b).1 = (rnd c.opfmt.toNat a.1.absv, zeroVal) := by
  simp only [elementwise, h]; rfl
theorem elementwise_conj (h : c.opcode = 0x18) : (elementwise c a b).1 = (a.1, a.2.neg) := by simp only [elementwise, h]; rfl
theorem elementwise_abs2 (h : c.opcode = 0x19) : (elementwise c a b).1 =
    (rnd c.opfmt.toNat ((rnd c.opfmt.toNat (a.1.mul a.1)).add (rnd c.opfmt.toNat (a.2.mul a.2))), zeroVal) := by
  simp only [elementwise, h]; rfl
theorem elementwise_neg (h : c.opcode = 0x17) :
    (elementwise c a b).1 = (rnd c.opfmt.toNat a.1.neg, imPart c (rnd c.opfmt.toNat a.2.neg)) := by
  simp only [elementwise, h]; exact both_fst ..
theorem elementwise_func (h : c.opcode = 0x20) :
    (elementwise c a b).1 = ((funcVal c.opfmt.toNat c.subop.toNat a.1 b.1).1, zeroVal) := by
  simp only [elementwise, h]; rfl

/-- LLRADD limits the sum of two LLRs (R133, R171). -/
theorem elementwise_llradd {x y : Int} (h : c.opcode = 0x1A) (ha : a.1 = ofInt x) (hb : b.1 = ofInt y) : (elementwise c a b).1 =
    (ofInt (max (-(if c.fmtD = 2 then 127 else 32767)) (min (if c.fmtD = 2 then 127 else 32767) (x + y))), zeroVal) := by
  obtain ⟨s, m, hsum, hval⟩ := (isInt_ofInt x).add (isInt_ofInt y)
  simp only [elementwise, h, ha, hb, hsum, roundInt_of_int, hval]
  rw [clampInt_eq (by split <;> decide)]
  rfl

end

/-! ## The special cases of FUNC (R134) -/

/-- A root or a logarithm of a negative number is NaN. -/
theorem funcVal_negative {fn : Nat} (hfn : fn = 3 ∨ fn = 4 ∨ fn = 8 ∨ fn = 9) (f : Nat) {m : Nat} (hm : m ≠ 0) (e : Int) (y : Val) :
    (funcVal f fn (.fin true m e) y).1 = .nan := by
  rcases hfn with rfl | rfl | rfl | rfl <;> simp [funcVal, hm]

theorem funcVal_nan {fn : Nat} (hfn : fn ≠ 5) (f : Nat) (y : Val) : (funcVal f fn .nan y).1 = .nan := by simp [funcVal, hfn]

/-- The sine of π n is a zero of the argument's sign. -/
theorem funcVal_sinpi_int (f : Nat) (s : Bool) {n : Nat} (hn : 0 < n) (y : Val) : (funcVal f 14 (.fin s n 0) y).1 = .fin s 0 0 := by
  simp [funcVal, fnSinpi, isIntMag, splitAt2, Nat.pos_iff_ne_zero.1 hn]

/-- Half of the fixed-point one: what ½ is in an enclosure. -/
theorem fxOne_half : ∃ h, 0 < h ∧ fxOne = 2 * h ∧ ∀ m, fxOf m (-1) = m * h := by
  refine ⟨2 ^ 959, Nat.two_pow_pos _, by rw [fxOne, fxP, ← pow_succ'], fun m => ?_⟩
  simp [fxOf, splitAt2, fxP]

/-- The cosine of π (n + ½) is +0. -/
theorem fnCospi_half (f arg n : Nat) : fnCospi f arg (2 * n + 1) (-1) = (zeroVal, false) := by
  obtain ⟨h, hpos, hone, hfx⟩ := fxOne_half
  have hrest : fxOf (2 * n + 1) (-1) % (2 * fxOne) % fxOne = h := by
    rw [Nat.mod_mod_of_dvd _ (Dvd.intro_left 2 rfl), hfx, hone, show (2 * n + 1) * h = h + 2 * h * n by ring, Nat.add_mul_mod_self_left,
      Nat.mod_eq_of_lt (by omega)]
  have hgee : geePow (2 * n + 1 : Nat) (-1) (-200) = true := by
    simp only [geePow, decide_eq_true_eq]
    omega
  have hne : ¬ 2 * n + 1 = 0 := by omega
  simp only [fnCospi, hne, if_false, hgee, hrest, ← hone, le_refl, if_true, Nat.pos_iff_ne_zero.1 hpos, Bool.not_true, Bool.false_eq_true]

theorem funcVal_cospi_half (f : Nat) (s : Bool) (n : Nat) (y : Val) : (funcVal f 15 (.fin s (2 * n + 1) (-1)) y).1 = zeroVal := by
  simp [funcVal, fnCospi_half]

end Sys2Proof.Machine

namespace Sys2Proof
open Machine

/-- Settles O19: the accumulators add one product at a time (`macLine_int32`, `macLine_fp32`), an elementwise command makes of each element
what its opcode makes of it (`veResult_elementwise`), and FUNC takes its special cases by themselves. -/
theorem elementArithmetic : Obligations.ElementArithmetic := by
  unfold Obligations.ElementArithmetic
  refine ⟨⟨fun acc ps _ _ => congrArg Prod.fst (macLine_int32 ps acc), fun acc ps _ => congrArg Prod.fst (macLine_fp32 ps acc)⟩, ?_, ?_⟩
  · intro s k c old r i hok hslots hr hi f a b im is
    have hresult {op : BitVec 8} (hop : c.opcode = op) (hne : op ≠ 0 ∧ op ≠ 0x02 ∧ op ≠ 0x30 ∧ op ≠ 0x31 ∧ op ≠ 0x40 ∧ op ≠ 0x50) :
        veResult s k c old r i = (elementwise c a b).1 := veResult_elementwise old hok (by rw [IsElementwise, hop]; exact hne) hslots hr hi
    refine ⟨fun h => ?_, fun h => ?_, fun h => ?_, fun h hreal => ?_, fun h hcplx hreal => ?_, fun h => ?_, fun h => ?_, fun h => ?_, fun h => ?_,
      fun h => ?_, fun h => ?_, fun x y h hx hy => ?_, fun h => ?_⟩ <;> refine (hresult h (by decide)).trans ?_
    · exact elementwise_copy a b h
    · exact elementwise_add a b h
    · exact elementwise_sub a b h
    · exact elementwise_mul_real a b h hreal
    · exact elementwise_mul_complex a b h hcplx hreal
    · rw [elementwise_min a b h]
    · rw [elementwise_max a b h]
    · rw [elementwise_abs a b h]
    · exact elementwise_neg a b h
    · rw [elementwise_conj a b h]
    · rw [elementwise_abs2 a b h]
    · exact elementwise_llradd a b h hx hy
    · exact elementwise_func a b h
  · intro f s e m y _ g z
    exact ⟨⟨rfl, rfl, rfl⟩, ⟨rfl, rfl, fun hm => funcVal_negative (.inl rfl) f hm e y, rfl⟩,
      ⟨rfl, rfl, fun hm => funcVal_negative (.inr (.inl rfl)) f hm e y, rfl⟩, ⟨rfl, rfl, rfl, rfl⟩,
      ⟨rfl, fun hm => funcVal_negative (.inr (.inr (.inl rfl))) f hm e y, rfl, fun hm => funcVal_negative (.inr (.inr (.inr rfl))) f hm e y⟩,
      ⟨rfl, rfl, rfl⟩, ⟨rfl, rfl, rfl, rfl⟩, ⟨rfl, rfl, rfl, rfl⟩,
      fun n hn => ⟨funcVal_sinpi_int f s hn y, funcVal_cospi_half f s n y⟩, fun _ _ _ hfn => funcVal_nan hfn f y⟩

end Sys2Proof
end

section
/-! PROOFS. What the counts, statuses and stream FIFOs of a matrix command leave alone (O21 to O24; R101, R182, R272, R291, R509). -/

namespace Sys2Proof.Machine

/-! ## Counting, statuses and streaming -/

/-- A state without ports, counters and engine memories. -/
def unmetered (s : State) : State := { s with units := [], pmu := {}, engMem := [] }

/-- A port without its count of corrected codewords and its status words. -/
def unmeteredPort (x : UnitSt) : UnitSt := { x with corrected := 0, status := [] }

/-- From `s` to `t` only counts, the status words of `vs` and the stream FIFOs and shadow accumulators of `us` change; an idle FIFO is idle
again. -/
structure Quiet (vs us : List UAddr) (s t : State) : Prop where
  state : unmetered t = unmetered s
  port : ∀ u, unmeteredPort (unitOf t u) = unmeteredPort (unitOf s u)
  status : ∀ u, u ∉ vs → (unitOf t u).status = (unitOf s u).status
  engMem : ∀ u, u ∉ us → engMemOf t u = engMemOf s u
  errs : ∀ u, (engMemOf t u).errs = (engMemOf s u).errs
  idle : ∀ u, FifoIdle s u → FifoIdle t u

section
variable {vs us : List UAddr} {s t r : State}

theorem Quiet.refl (vs us : List UAddr) (s : State) : Quiet vs us s s :=
  ⟨rfl, fun _ => rfl, fun _ _ => rfl, fun _ _ => rfl, fun _ => rfl, fun _ h => h⟩

theorem Quiet.trans (h : Quiet vs us s t) (h' : Quiet vs us t r) : Quiet vs us s r where
  state := h'.state.trans h.state
  port u := (h'.port u).trans (h.port u)
  status u hu := (h'.status u hu).trans (h.status u hu)
  engMem u hu := (h'.engMem u hu).trans (h.engMem u hu)
  errs u := (h'.errs u).trans (h.errs u)
  idle u hu := h'.idle u (h.idle u hu)

theorem Quiet.foldl {α : Type} {f : State → α → State} (hf : ∀ s x, Quiet vs us s (f s x)) (l : List α) (s : State) :
    Quiet vs us s (l.foldl f s) :=
  List.foldlRecOn (motive := Quiet vs us s) l f (.refl vs us s) fun _ h x _ => h.trans (hf _ x)

/-- What reads neither ports nor counters nor engine memories. -/
theorem Quiet.cores (h : Quiet vs us s t) : t.cores = s.cores := (congrArg State.cores h.state :)
theorem Quiet.coreOf (h : Quiet vs us s t) : coreOf t = coreOf s := coreOf_of_cores h.cores

theorem Quiet.modCore (h : Quiet vs us s t) (j : Nat) (f : CoreSt → CoreSt) : Quiet vs us (modCore s j f) (modCore t j f) where
  state := by
    have hcores : (Machine.modCore t j f).cores = (Machine.modCore s j f).cores := by
      simp only [Machine.modCore, setCore, h.coreOf, h.cores]
    calc unmetered (Machine.modCore t j f) = { unmetered t with cores := (Machine.modCore t j f).cores } := rfl
      _ = { unmetered s with cores := (Machine.modCore s j f).cores } := by rw [h.state, hcores]
  port := h.port
  status := h.status
  engMem := h.engMem
  errs := h.errs
  idle := h.idle

theorem quiet_pmu (s : State) (pm : PmuSt) : Quiet vs us s { s with pmu := pm } :=
  ⟨rfl, fun _ => rfl, fun _ _ => rfl, fun _ _ => rfl, fun _ => rfl, fun _ h => h⟩

theorem quiet_countUnit (s : State) (u : UAddr) (ev v : Nat) : Quiet vs us s (countUnit s u ev v) := by
  obtain ⟨pm, h⟩ := countUnit_pmu s u ev v
  rw [h]; exact quiet_pmu s pm

theorem quiet_countDram (s : State) (ev a n : Nat) : Quiet vs us s (countDram s ev a n) := by
  obtain ⟨pm, h⟩ := countDram_pmu s ev a n
  rw [h]; exact quiet_pmu s pm

theorem quiet_modUnit (s : State) (u : UAddr) {f : UnitSt → UnitSt} (hport : ∀ x, unmeteredPort (f x) = unmeteredPort x)
    (hstatus : u ∉ vs → ∀ x, (f x).status = x.status) : Quiet vs us s (modUnit s u f) := by
  refine ⟨rfl, fun v => ?_, fun v hv => ?_, fun _ _ => rfl, fun _ => rfl, fun _ h => h⟩
  · by_cases h : v = u
    · rw [h, unitOf_modUnit_same]; exact hport _
    · rw [unitOf_modUnit_other s u v f h]
  · by_cases h : v = u
    · subst h
      rw [unitOf_modUnit_same]; exact hstatus hv _
    · rw [unitOf_modUnit_other s u v f h]

theorem quiet_countCorrected (s : State) (a : Nat) : Quiet vs us s (countCorrected s a) :=
  (quiet_modUnit s _ (f := fun x => { x with corrected := x.corrected + 1 }) (fun _ => rfl) fun _ _ => rfl).trans (quiet_countUnit ..)

theorem quiet_countRead (s : State) (a n : Nat) : Quiet vs us s (countRead s a n) := by
  refine (quiet_countDram s 0x50 a n).trans (.foldl (fun s w => ?_) _ _)
  split
  · split
    · exact .refl ..
    · exact quiet_countCorrected ..
  · exact .refl ..

theorem quiet_countReads (s : State) (core n : Nat) (addrs : List Nat) : Quiet vs us s (countReads s core n addrs) :=
  .foldl (fun s _ => quiet_countRead s _ n) addrs s

theorem quiet_setSat (s : State) {k : Nat} (hk : coreUnit k ∈ vs) (u : UAddr) (ev n : Nat) : Quiet vs us s (setSat s k u ev n) := by
  unfold setSat
  split
  · exact .refl ..
  · refine .trans ?_ (quiet_countUnit ..)
    cases runningSlice s (coreUnit k) with
    | none => exact .refl ..
    | some sl =>
      simp only [Option.elim, orStatus]
      split
      · exact .refl ..
      · exact quiet_modUnit s _ (fun _ => rfl) fun h => absurd hk h

theorem engMemOf_modEngMem_same (s : State) (u : UAddr) (f : EngMem → EngMem) : engMemOf (modEngMem s u f) u = f (engMemOf s u) := by
  simp [engMemOf, modEngMem]

theorem engMemOf_modEngMem_other (s : State) {u v : UAddr} (f : EngMem → EngMem) (h : v ≠ u) : engMemOf (modEngMem s u f) v = engMemOf s v := by
  have hne : v.toNat ≠ u.toNat := fun e => h (BitVec.eq_of_toNat_eq e)
  simp [engMemOf, modEngMem, tget_tset_other _ _ _ _ hne]

theorem quiet_modEngMem (s : State) {u : UAddr} (hu : u ∈ us) {f : EngMem → EngMem} (herrs : ∀ x, (f x).errs = x.errs)
    (hidle : FifoIdle s u → FifoIdle (modEngMem s u f) u) : Quiet vs us s (modEngMem s u f) := by
  refine ⟨rfl, fun _ => rfl, fun _ _ => rfl, fun v hv => ?_, fun v => ?_, fun v hv => ?_⟩
  · exact engMemOf_modEngMem_other s f fun h => hv (h ▸ hu)
  · by_cases h : v = u
    · rw [h, engMemOf_modEngMem_same]; exact herrs _
    · rw [engMemOf_modEngMem_other s f h]
  · by_cases h : v = u
    · exact h ▸ hidle (h ▸ hv)
    · rwa [FifoIdle, engMemOf_modEngMem_other s f h]

theorem quiet_stream (s : State) {u : UAddr} (hu : u ∈ us) (rows : List (List Byte)) : Quiet vs us s (stream s u rows).2 :=
  quiet_modEngMem s hu (f := fun m => { m with fifo := (StreamFifo.run (bankRows u) (engMemOf s u).fifo rows).2 }) (fun _ => rfl)
    fun h => (stream_idle rows h).2

theorem quiet_shadow (s : State) {u : UAddr} (hu : u ∈ us) (x : Tbl (BitVec 32)) : Quiet vs us s (modEngMem s u fun m => { m with shadow := x }) :=
  quiet_modEngMem s hu (fun _ => rfl) fun h => by rwa [FifoIdle, engMemOf_modEngMem_same]

end

/-! ## Engine memories without errors (R121) -/

section
variable {s : State} {u : UAddr} (h : (engMemOf s u).errs = [])
include h

theorem errsIn_of_none (lo n : Nat) : errsIn s u lo n = [] := by simp [errsIn, h]
theorem errGot_of_none (p : Nat × Nat) : errGot s u p = none := by simp [errGot, errBad, errsIn_of_none h]
theorem countErrs_of_none (lo n : Nat) : countErrs s u lo n = s := by simp [countErrs, errsIn_of_none h]
theorem clearErrs_of_none (lo n : Nat) : clearErrs s u lo n = s := by simp [clearErrs, errsIn_of_none h]

end

end Sys2Proof.Machine
end

section
/-! PROOFS. The arrays of a core, their tiles, and the slots that they reserve and fill (O22 to O24; R92, R118, R119). -/

namespace Sys2Proof.Machine

/-! ## Arrays and tiles -/

/-- Array `i` of core `k`. -/
abbrev arrayOf (s : State) (k i : Nat) : MaSt := (coreOf s k).arrays.getD i {}

theorem lmod_getD {α : Type} (l : List α) (i j : Nat) (f : α → α) (d : α) (hi : i < l.length) :
    (lmod l i f).getD j d = if j = i then f (l.getD j d) else l.getD j d := by
  split
  · next h => rw [h, lmod_get_same l i f d hi]
  · next h => exact lmod_get_other l i j f d h

theorem mem_maArrays {c : MatCmd} {i : Nat} (h : i ∈ maArrays c) : i < 4 := by
  rw [maArrays, List.mem_filter, List.mem_range] at h
  exact h.1

theorem nodup_maArrays (c : MatCmd) : (maArrays c).Nodup := List.Nodup.filter _ List.nodup_range

theorem maArrays_ne_nil {c : MatCmd} (h : c.arrays ≠ 0) : maArrays c ≠ [] := by
  intro hnil
  have hnone : ∀ i < 4, bitOf c.arrays i = false := by
    intro i hi
    simpa [hi] using List.filter_eq_nil_iff.1 hnil i (List.mem_range.2 hi)
  apply h
  revert hnone
  generalize c.arrays = a
  revert a
  decide

theorem maShape_tiles {s : State} {k i : Nat} (h : MaShape s k) (hi : i < 4) : i < (coreOf s k).arrays.length ∧ (arrayOf s k i).tiles.length = 8 := by
  have hlt : i < (coreOf s k).arrays.length := hi.trans_eq h.1.symm
  refine ⟨hlt, h.2 _ ?_⟩
  rw [arrayOf, List.getD_eq_getElem _ _ hlt]
  exact List.getElem_mem hlt

/-- `as` with `T` for tile `n` of array `i`. -/
def putTile (as : List MaSt) (i n : Nat) (T : Tile) : List MaSt := lmod as i (fun a => { a with tiles := lmod a.tiles n (fun _ => T) })

theorem setTile_eq (s : State) (k i n : Nat) (T : Tile) : setTile s k i n T = modCore s k (fun x => { x with arrays := putTile x.arrays i n T }) := rfl

@[simp] theorem coreOf_setTile (s : State) (k i n : Nat) (T : Tile) :
    coreOf (setTile s k i n T) k = { coreOf s k with arrays := putTile (coreOf s k).arrays i n T } := by rw [setTile_eq, coreOf_modCore_same]

/-- A tile that is set is that tile of that array, and nothing else of the arrays. -/
theorem arrayOf_setTile {s : State} {k i : Nat} (hi : i < (coreOf s k).arrays.length) (n : Nat) (T : Tile) (j : Nat) :
    arrayOf (setTile s k i n T) k j =
      if j = i then { arrayOf s k j with tiles := lmod (arrayOf s k j).tiles n (fun _ => T) } else arrayOf s k j := by
  rw [arrayOf, coreOf_setTile]
  exact lmod_getD _ _ _ _ _ hi

theorem tileOf_setTile {s : State} {k i n : Nat} (hshape : MaShape s k) (hi : i < 4) (hn : n < 8) (T : Tile) (j m : Nat) :
    tileOf (setTile s k i n T) k j m = if j = i ∧ m = n then T else tileOf s k j m := by
  obtain ⟨hlt, htiles⟩ := maShape_tiles hshape hi
  change (arrayOf (setTile s k i n T) k j).tiles.getD m {} = _
  rw [arrayOf_setTile hlt]
  by_cases hj : j = i
  · subst hj
    simp only [if_true, true_and, lmod_getD _ _ _ _ _ (hn.trans_eq htiles.symm)]
    rfl
  · simp only [hj, if_false, false_and]
    rfl

theorem maShape_setTile {s : State} {k i : Nat} (hshape : MaShape s k) (hi : i < 4) (n : Nat) (T : Tile) : MaShape (setTile s k i n T) k := by
  obtain ⟨hlt, -⟩ := maShape_tiles hshape hi
  have hlen : (coreOf (setTile s k i n T) k).arrays.length = 4 := by rw [coreOf_setTile]; exact (lmod_length ..).trans hshape.1
  refine ⟨hlen, fun m hm => ?_⟩
  obtain ⟨j, hj, rfl⟩ := List.getElem_of_mem hm
  rw [← List.getD_eq_getElem _ ({} : MaSt) hj]
  have htiles := (maShape_tiles hshape (hj.trans_eq hlen)).2
  refine (congrArg (fun a => a.tiles.length) (arrayOf_setTile hlt n T j)).trans ?_
  split
  · exact (lmod_length ..).trans htiles
  · exact htiles

/-! ## Slots of the tile queue -/

/-- A slot that is only reserved. -/
def emptySlot (n i : Nat) : Slot := { array := i, tile := n, fmt := .none, cplx := false, valid := 0, written := 0, vals := [] }

/-- A slot filled from tile `T`, `valid` rows of it (R118). -/
def filledSlot (n i valid : Nat) (T : Tile) : Slot :=
  { array := i, tile := n, fmt := if T.fmt = .none then .fp32 else T.fmt, cplx := T.cplx, valid := valid, written := valid, vals := T.vals }

theorem pushSlot_eq (s : State) (k i n valid : Nat) : pushSlot s k i n valid =
    modCore s k (fun x => { x with tq := fillFirst i n (filledSlot n i valid (tileOf s k i n)) x.tq }) := rfl

/-- The slot reserved for a tile is the first one that is filled from it. -/
theorem fillFirst_append {i n : Nat} {v : Slot} {p : List Slot} (h : ∀ x ∈ p, ¬ (x.array = i ∧ x.tile = n ∧ x.written = 0)) (q : List Slot) :
    fillFirst i n v (p ++ emptySlot n i :: q) = p ++ v :: q := by
  induction p with
  | nil => simp [fillFirst, emptySlot]
  | cons x p ih =>
    have hx := h x List.mem_cons_self
    simp only [List.cons_append, fillFirst, hx, if_false]
    rw [ih fun y hy => h y (List.mem_cons_of_mem _ hy)]

theorem foldl_reserveSlot_tq (k n : Nat) (l : List Nat) : ∀ s : State, coreOf (l.foldl (fun s i => reserveSlot s k i n) s) k =
    { coreOf s k with tq := (coreOf s k).tq ++ l.map (emptySlot n) } := by
  induction l with
  | nil => intro s; simp
  | cons i l ih =>
    intro s
    rw [List.foldl_cons, ih]
    simp [reserveSlot, emptySlot]

/-- The arrays that have no slot yet reserve one each, ascending, as long as slots are free (R119). -/
theorem maReserve_eq (k n : Nat) : ∀ (l got : List Nat) (s : State), l.Nodup →
    let take := (l.filter (fun i => !got.contains i)).take (16 - (coreOf s k).tq.length)
    maReserve k n s got l = (take.foldl (fun s i => reserveSlot s k i n) s, got ++ take) := by
  intro l
  induction l with
  | nil => intro got s _; simp [maReserve]
  | cons i l ih =>
    intro got s hnodup
    obtain ⟨hi, hl⟩ := List.nodup_cons.1 hnodup
    dsimp only
    by_cases hgot : got.contains i = true
    · rw [maReserve, if_pos hgot, ih got s hl, List.filter_cons_of_neg (by simpa using hgot)]
    · rw [maReserve, if_neg hgot, List.filter_cons_of_pos (by simpa using hgot)]
      split
      · next hroom =>
        have hrest : l.filter (fun j => !(got ++ [i]).contains j) = l.filter (fun j => !got.contains j) :=
          List.filter_congr fun j hj => by
            have hne : j ≠ i := fun h => hi (h ▸ hj)
            simp [hne]
        have hlen : (coreOf (reserveSlot s k i n) k).tq.length = (coreOf s k).tq.length + 1 := by simp [reserveSlot]
        rw [ih _ _ hl, hrest, hlen, show 16 - (coreOf s k).tq.length = 16 - ((coreOf s k).tq.length + 1) + 1 by omega, List.take_succ_cons]
        simp
      · next hfull =>
        rw [show 16 - (coreOf s k).tq.length = 0 by omega]
        simp

/-- Where there is room for all of them, each array has its slot. -/
theorem maReserve_all {k n : Nat} {l : List Nat} {s : State} (hl : l.Nodup) (hroom : (coreOf s k).tq.length + l.length ≤ 16) :
    maReserve k n s [] l = (l.foldl (fun s i => reserveSlot s k i n) s, l) := by
  rw [maReserve_eq k n l [] s hl]
  simp only [List.contains_nil, Bool.not_false, List.filter_true, List.nil_append]
  rw [List.take_of_length_le (by omega)]

end Sys2Proof.Machine
end

section
/-! PROOFS. What a matrix command leaves alone while it runs, and how it ends (O21 to O24; R92, R111, R113 to R117). -/

namespace Sys2Proof.Machine

/-! ## A command that runs -/

/-- A state without cores, ports, counters and engine memories. -/
def unrun (s : State) : State := { s with cores := [], units := [], pmu := {}, engMem := [] }

/-- A core without its arrays, its tile queue and its windows. -/
def unrunCore (x : CoreSt) : CoreSt := { x with arrays := [], tq := [], windows := [] }

/-- From `s` to `t` core `k` runs a command on the arrays `live`, which has not ended: their blocks and tiles, the tile queue and the windows
may change, and what `Quiet` lets change. -/
structure MaRuns (k : Nat) (live : List Nat) (s t : State) : Prop where
  state : unrun t = unrun s
  other : ∀ j, j ≠ k → coreOf t j = coreOf s j
  core : unrunCore (coreOf t k) = unrunCore (coreOf s k)
  port : ∀ u, unmeteredPort (unitOf t u) = unmeteredPort (unitOf s u)
  status : ∀ u, u ≠ coreUnit k → (unitOf t u).status = (unitOf s u).status
  engMem : ∀ u, u ∉ live.map (maUnit k) → engMemOf t u = engMemOf s u
  errs : ∀ u, (engMemOf t u).errs = (engMemOf s u).errs
  idle : ∀ u, FifoIdle s u → FifoIdle t u
  busy : ∀ i, (arrayOf t k i).busy = (arrayOf s k i).busy ∧ (arrayOf t k i).cycles = (arrayOf s k i).cycles
  rest : ∀ i, i ∉ live → arrayOf t k i = arrayOf s k i
  shape : MaShape s k → MaShape t k

section
variable {k : Nat} {live : List Nat} {s t r : State}

theorem MaRuns.refl (k : Nat) (live : List Nat) (s : State) : MaRuns k live s s :=
  ⟨rfl, fun _ _ => rfl, rfl, fun _ => rfl, fun _ _ => rfl, fun _ _ => rfl, fun _ => rfl, fun _ h => h, fun _ => ⟨rfl, rfl⟩, fun _ _ => rfl,
    fun h => h⟩

theorem MaRuns.trans (h : MaRuns k live s t) (h' : MaRuns k live t r) : MaRuns k live s r where
  state := h'.state.trans h.state
  other j hj := (h'.other j hj).trans (h.other j hj)
  core := h'.core.trans h.core
  port u := (h'.port u).trans (h.port u)
  status u hu := (h'.status u hu).trans (h.status u hu)
  engMem u hu := (h'.engMem u hu).trans (h.engMem u hu)
  errs u := (h'.errs u).trans (h.errs u)
  idle u hu := h'.idle u (h.idle u hu)
  busy i := ⟨(h'.busy i).1.trans (h.busy i).1, (h'.busy i).2.trans (h.busy i).2⟩
  rest i hi := (h'.rest i hi).trans (h.rest i hi)
  shape hs := h'.shape (h.shape hs)

theorem Quiet.runs {vs us : List UAddr} (h : Quiet vs us s t) (hvs : vs ⊆ [coreUnit k]) (hus : us ⊆ live.map (maUnit k)) : MaRuns k live s t where
  state := calc
    unrun t = { unmetered t with cores := [] } := rfl
    _ = unrun s := by rw [h.state]; rfl
  other j _ := by rw [h.coreOf]
  core := by rw [h.coreOf]
  port := h.port
  status u hu := h.status u fun hmem => hu (List.mem_singleton.1 (hvs hmem))
  engMem u hu := h.engMem u fun hmem => hu (hus hmem)
  errs := h.errs
  idle := h.idle
  busy i := by rw [arrayOf, h.coreOf]; exact ⟨rfl, rfl⟩
  rest i _ := by rw [arrayOf, h.coreOf]
  shape hs := by rwa [MaShape, h.coreOf]

/-- An update of the core that leaves the records of its arrays alone. -/
theorem maRuns_modCore (s : State) {f : CoreSt → CoreSt} (hcore : unrunCore (f (coreOf s k)) = unrunCore (coreOf s k))
    (hbusy : ∀ i, ((f (coreOf s k)).arrays.getD i {}).busy = (arrayOf s k i).busy ∧ ((f (coreOf s k)).arrays.getD i {}).cycles = (arrayOf s k i).cycles)
    (hrest : ∀ i, i ∉ live → (f (coreOf s k)).arrays.getD i {} = arrayOf s k i)
    (hshape : MaShape s k → MaShape (modCore s k f) k) : MaRuns k live s (modCore s k f) where
  state := rfl
  other j hj := coreOf_modCore_other s k j f hj
  core := by rwa [coreOf_modCore_same]
  port _ := rfl
  status _ _ := rfl
  engMem _ _ := rfl
  errs _ := rfl
  idle _ h := h
  busy i := by rw [arrayOf, coreOf_modCore_same]; exact hbusy i
  rest i hi := by rw [arrayOf, coreOf_modCore_same]; exact hrest i hi
  shape := hshape

/-- An update of the tile queue or the windows alone. -/
theorem maRuns_modCore_of_arrays (s : State) {f : CoreSt → CoreSt} (hcore : unrunCore (f (coreOf s k)) = unrunCore (coreOf s k))
    (harrays : (f (coreOf s k)).arrays = (coreOf s k).arrays) : MaRuns k live s (modCore s k f) :=
  maRuns_modCore s hcore (fun i => by rw [harrays]; exact ⟨rfl, rfl⟩) (fun i _ => by rw [harrays])
    fun h => by rwa [MaShape, coreOf_modCore_same, harrays]

theorem maRuns_setTile {i : Nat} (hshape : MaShape s k) (hi : i < 4) (hlive : i ∈ live) (n : Nat) (T : Tile) : MaRuns k live s (setTile s k i n T) := by
  have harray := arrayOf_setTile (maShape_tiles hshape hi).1 n T
  rw [setTile_eq] at harray ⊢
  simp only [arrayOf, coreOf_modCore_same] at harray
  refine maRuns_modCore s rfl (fun j => ?_) (fun j hj => ?_) fun _ => maShape_setTile hshape hi n T
  · rw [harray]
    split <;> exact ⟨rfl, rfl⟩
  · rw [harray, if_neg (show j ≠ i from fun h => hj (h ▸ hlive))]

theorem maRuns_setWalk (s : State) (k step : Nat) (w : Option WinSt) : MaRuns k live s (setWalk s k step w) := by
  unfold setWalk
  split
  · exact maRuns_modCore_of_arrays s rfl rfl
  · exact .refl ..

theorem setWalk_none (s : State) (k step : Nat) : setWalk s k step none = s := rfl

theorem maRuns_reserve (n : Nat) (l : List Nat) (s : State) : MaRuns k live s (l.foldl (fun s i => reserveSlot s k i n) s) :=
  List.foldlRecOn (motive := MaRuns k live s) l _ (.refl k live s) fun t h _ _ => h.trans (maRuns_modCore_of_arrays t rfl rfl)

theorem maRuns_pushSlot (s : State) (i n valid : Nat) : MaRuns k live s (pushSlot s k i n valid) := by
  rw [pushSlot_eq]; exact maRuns_modCore_of_arrays s rfl rfl

/-- Core memory reads the same while a command runs. -/
theorem MaRuns.maRead (h : MaRuns k live s t) (j a n : Nat) : Machine.maRead t j a n = Machine.maRead s j a n :=
  calc Machine.maRead t j a n = Machine.maRead (unrun t) j a n := rfl
    _ = Machine.maRead (unrun s) j a n := by rw [h.state]
    _ = Machine.maRead s j a n := rfl

theorem MaRuns.veWait (h : MaRuns k live s t) : (coreOf t k).veWait = (coreOf s k).veWait := (congrArg CoreSt.veWait h.core :)

end

/-! ## A command that ends -/

/-- Each of the arrays `live` takes `f`, and an event of its own is counted. -/
def updateArrays (k : Nat) (f : MaSt → MaSt) (ev n : Nat) (live : List Nat) (s : State) : State :=
  live.foldl (fun s i => countUnit (modCore s k (fun x => { x with arrays := lmod x.arrays i f })) (maUnit k i) ev n) s

/-- What that makes of the core. -/
def updatedCore (f : MaSt → MaSt) (live : List Nat) (x : CoreSt) : CoreSt := { x with arrays := live.foldl (fun as i => lmod as i f) x.arrays }

theorem updateArrays_frame (k : Nat) (f : MaSt → MaSt) (ev n : Nat) (live : List Nat) : ∀ s : State,
    (∃ cs pm, updateArrays k f ev n live s = { s with cores := cs, pmu := pm }) ∧ (∀ j, j ≠ k → coreOf (updateArrays k f ev n live s) j = coreOf s j) ∧
      coreOf (updateArrays k f ev n live s) k = updatedCore f live (coreOf s k) := by
  induction live with
  | nil => intro s; exact ⟨⟨s.cores, s.pmu, rfl⟩, fun _ _ => rfl, rfl⟩
  | cons i live ih =>
    intro s
    obtain ⟨x, hx⟩ : ∃ x, x = modCore s k (fun x => { x with arrays := lmod x.arrays i f }) := ⟨_, rfl⟩
    have hxk : coreOf x k = updatedCore f [i] (coreOf s k) := by rw [hx, coreOf_modCore_same]; rfl
    have hxj {j : Nat} (hj : j ≠ k) : coreOf x j = coreOf s j := by rw [hx, coreOf_modCore_other s k j _ hj]
    obtain ⟨pm, hcount⟩ := countUnit_pmu x (maUnit k i) ev n
    obtain ⟨⟨cs, pm', hstate⟩, hother, hcore⟩ := ih { x with pmu := pm }
    have hfirst : updateArrays k f ev n (i :: live) s = updateArrays k f ev n live { x with pmu := pm } := by rw [← hcount, hx]; rfl
    rw [hfirst]
    exact ⟨⟨cs, pm', hstate.trans (by rw [hx]; rfl)⟩, fun j hj => (hother j hj).trans (hxj hj), hcore.trans (congrArg (updatedCore f live) hxk)⟩

theorem foldl_lmod_getD {α : Type} {f : α → α} {live : List Nat} (hlive : live.Nodup) (d : α) (j : Nat) :
    ∀ {as : List α}, (∀ i ∈ live, i < as.length) →
      (live.foldl (fun as i => lmod as i f) as).getD j d = if j ∈ live then f (as.getD j d) else as.getD j d := by
  induction live with
  | nil => intro as _; simp
  | cons i live ih =>
    intro as h
    obtain ⟨hi, hnodup⟩ := List.nodup_cons.1 hlive
    rw [List.foldl_cons, ih hnodup fun m hm => by rw [lmod_length]; exact h m (List.mem_cons_of_mem _ hm),
      lmod_getD as i j f d (h i List.mem_cons_self)]
    by_cases hj : j = i
    · subst hj; simp [hi]
    · simp [hj]

theorem foldl_lmod_length {α : Type} (f : α → α) (live : List Nat) (as : List α) : (live.foldl (fun as i => lmod as i f) as).length = as.length :=
  List.foldlRecOn (motive := fun l : List α => l.length = as.length) live _ rfl fun _ h _ _ => (lmod_length ..).trans h

theorem arrayOf_updateArrays {s : State} {k : Nat} (h : MaShape s k) (f : MaSt → MaSt) (ev n : Nat) (c : MatCmd) (i : Nat) :
    arrayOf (updateArrays k f ev n (maArrays c) s) k i = if i ∈ maArrays c then f (arrayOf s k i) else arrayOf s k i := by
  obtain ⟨-, -, hcore⟩ := updateArrays_frame k f ev n (maArrays c) s
  rw [arrayOf, hcore]
  exact foldl_lmod_getD (nodup_maArrays c) {} i fun j hj => (mem_maArrays hj).trans_eq h.1.symm

theorem maRuns_updateArrays {s : State} {k : Nat} (h : MaShape s k) {f : MaSt → MaSt}
    (hf : ∀ a, (f a).busy = a.busy ∧ (f a).cycles = a.cycles ∧ (f a).tiles = a.tiles) (ev n : Nat) (c : MatCmd) :
    MaRuns k (maArrays c) s (updateArrays k f ev n (maArrays c) s) := by
  obtain ⟨⟨cs, pm, hstate⟩, hother, hcore⟩ := updateArrays_frame k f ev n (maArrays c) s
  have harray := arrayOf_updateArrays h f ev n c
  generalize updateArrays k f ev n (maArrays c) s = t at *
  have hunits : unitOf t = unitOf s := by rw [hstate]; rfl
  have hengMem : engMemOf t = engMemOf s := by rw [hstate]; rfl
  have hlen : (coreOf t k).arrays.length = 4 := by rw [hcore]; exact (foldl_lmod_length ..).trans h.1
  refine ⟨by rw [hstate]; rfl, hother, by rw [hcore]; rfl, fun u => by rw [hunits], fun u _ => by rw [hunits], fun u _ => by rw [hengMem],
    fun u => by rw [hengMem], fun u hu => by rwa [FifoIdle, hengMem], fun i => ?_, fun i hi => by rw [harray, if_neg hi], fun _ => ⟨hlen, fun m hm => ?_⟩⟩
  · obtain ⟨hbusy, hcycles, -⟩ := hf (arrayOf s k i)
    rw [harray]
    split
    · exact ⟨hbusy, hcycles⟩
    · exact ⟨rfl, rfl⟩
  · obtain ⟨i, hi, rfl⟩ := List.getElem_of_mem hm
    rw [← List.getD_eq_getElem _ ({} : MaSt) hi, show (coreOf t k).arrays.getD i {} = _ from harray i]
    have htiles := (maShape_tiles h (hi.trans_eq hlen)).2
    split
    · rw [(hf _).2.2, htiles]
    · exact htiles

/-- The record of an array that a command ends on: its step is left to be reported, at its cost (R111). -/
def reported (step : Nat) (c : MatCmd) (a : MaSt) : MaSt := { a with busy := a.busy ++ [step], cycles := a.cycles + maCost c }

theorem maDone_eq (s : State) (k step : Nat) (c : MatCmd) (live : List Nat) :
    maDone s k step c live = updateArrays k (reported step c) 0x01 (maIssue c) live s := rfl

/-- The command has ended and waits nowhere. -/
def maEnd (s : State) (k step : Nat) (c : MatCmd) : State :=
  modCore (maDone s k step c (maArrays c)) k (fun x => { x with maWait := [] })

section
variable {s t : State} {k step : Nat} {c : MatCmd}

theorem coreOf_maEnd (s : State) (k step : Nat) (c : MatCmd) :
    coreOf (maEnd s k step c) k = { updatedCore (reported step c) (maArrays c) (coreOf s k) with maWait := [] } := by
  obtain ⟨-, -, hcore⟩ := updateArrays_frame k (reported step c) 0x01 (maIssue c) (maArrays c) s
  rw [maEnd, coreOf_modCore_same, maDone_eq, hcore]

theorem maEnd_state (s : State) (k step : Nat) (c : MatCmd) : ∃ cs pm, maEnd s k step c = { s with cores := cs, pmu := pm } := by
  obtain ⟨⟨cs, pm, hstate⟩, -, -⟩ := updateArrays_frame k (reported step c) 0x01 (maIssue c) (maArrays c) s
  exact ⟨tset cs k _, pm, by rw [maEnd, maDone_eq, hstate]; rfl⟩

theorem unitOf_maEnd (s : State) (k step : Nat) (c : MatCmd) (u : UAddr) : unitOf (maEnd s k step c) u = unitOf s u := by
  obtain ⟨cs, pm, h⟩ := maEnd_state s k step c
  rw [h]; rfl

theorem engMemOf_maEnd (s : State) (k step : Nat) (c : MatCmd) (u : UAddr) : engMemOf (maEnd s k step c) u = engMemOf s u := by
  obtain ⟨cs, pm, h⟩ := maEnd_state s k step c
  rw [h]; rfl

theorem maEnd_tq (s : State) (k step : Nat) (c : MatCmd) : (coreOf (maEnd s k step c) k).tq = (coreOf s k).tq := by rw [coreOf_maEnd]; rfl
theorem maEnd_windows (s : State) (k step : Nat) (c : MatCmd) : (coreOf (maEnd s k step c) k).windows = (coreOf s k).windows := by
  rw [coreOf_maEnd]; rfl

theorem arrayOf_maEnd (h : MaShape s k) (step : Nat) (c : MatCmd) (i : Nat) :
    arrayOf (maEnd s k step c) k i = if i ∈ maArrays c then reported step c (arrayOf s k i) else arrayOf s k i := by
  rw [← arrayOf_updateArrays h (reported step c) 0x01 (maIssue c), ← maDone_eq]
  simp only [arrayOf, maEnd, coreOf_modCore_same]

theorem maEnd_tiles (h : MaShape s k) (step : Nat) (c : MatCmd) (i : Nat) : (arrayOf (maEnd s k step c) k i).tiles = (arrayOf s k i).tiles := by
  rw [arrayOf_maEnd h]
  split <;> rfl

theorem maEnd_held (h : MaShape s k) (step : Nat) (c : MatCmd) (i : Nat) : (arrayOf (maEnd s k step c) k i).held = (arrayOf s k i).held := by
  rw [arrayOf_maEnd h]
  split <;> rfl

theorem tileOf_maEnd (h : MaShape s k) (step : Nat) (c : MatCmd) (i n : Nat) : tileOf (maEnd s k step c) k i n = tileOf s k i n :=
  congrArg (fun l => l.getD n {}) (maEnd_tiles h step c i)

theorem unitSt_eq_of_unmetered {x y : UnitSt} (h : unmeteredPort y = unmeteredPort x) : y = { x with corrected := y.corrected, status := y.status } := by
  cases x; cases y
  simpa [unmeteredPort] using h

/-- A command that has run and ended changes what `MaFrame` lets it change. -/
theorem maFrame_maEnd (hshape : MaShape s k) (hwait : (coreOf s k).maWait = []) (h : MaRuns k (maArrays c) s t)
    (hwindows : maBound s k step c = none → (coreOf t k).windows = (coreOf s k).windows) : MaFrame s (maEnd t k step c) k step c := by
  obtain ⟨cs, pm, hend⟩ := maEnd_state t k step c
  refine ⟨⟨cs, t.units, pm, t.engMem, ?_⟩, fun j hj => ?_, ⟨(updatedCore (reported step c) (maArrays c) (coreOf t k)).arrays,
    (coreOf t k).tq, (coreOf t k).windows, ?_⟩, fun hnone => ?_, fun u => ?_, fun u hu => ?_,
    fun i hi => ?_⟩
  · calc maEnd t k step c = { unrun t with cores := cs, units := t.units, pmu := pm, engMem := t.engMem } := hend
      _ = { unrun s with cores := cs, units := t.units, pmu := pm, engMem := t.engMem } := by rw [h.state]
  · obtain ⟨-, hother, -⟩ := updateArrays_frame k (reported step c) 0x01 (maIssue c) (maArrays c) t
    rw [maEnd, coreOf_modCore_other _ _ _ _ hj, maDone_eq, hother j hj, h.other j hj]
  · rw [coreOf_maEnd]
    calc _ = { unrunCore (coreOf t k) with
          arrays := (updatedCore (reported step c) (maArrays c) (coreOf t k)).arrays
          tq := (coreOf t k).tq, windows := (coreOf t k).windows, maWait := [] } := rfl
      _ = _ := by rw [h.core, ← hwait]; rfl
  · rw [maEnd_windows, hwindows hnone]
  · rw [unitOf_maEnd]
    have hport := unitSt_eq_of_unmetered (h.port u)
    split
    · exact hport
    · next hu => rwa [h.status u hu] at hport
  · rw [engMemOf_maEnd, h.engMem u hu]
  · have harray := arrayOf_maEnd (h.shape hshape) step c i
    dsimp only
    split
    · next hlive =>
      rw [if_pos hlive] at harray
      obtain ⟨hbusy, hcycles⟩ := h.busy i
      exact ⟨(congrArg MaSt.busy harray).trans (congrArg (· ++ [step]) hbusy), (congrArg MaSt.cycles harray).trans (congrArg (· + maCost c) hcycles)⟩
    · next hlive => exact harray.trans ((if_neg hlive).trans (h.rest i hlive))

/-! ## A command's turn -/

/-- A command as it comes to its arrays. -/
def newWait (c : MatCmd) (step : Nat) : MaWait := { cmd := c, step := step, tile := 0, live := maArrays c, reserved := [], begun := false }

/-- A command that passes R113 comes to the arrays that it names, with nothing before it. -/
theorem maCommand_issues (hk : k < 48) (hrun : Active s) (hcan : canRun s (coreUnit k) = true)
    (harrays : ∀ i ∈ maArrays c, inService s (maUnit k i) = true ∧ outStalled s (maUnit k i) = false) (hnamed : c.arrays ≠ 0)
    (hfields : maFieldsOk c = true) (hwait : (coreOf s k).maWait = []) (step : Nat) :
    maCommand k step c s = .next (maServe s k [newWait c step]) := by
  have hcond : (decide (48 ≤ k) || stopped s || !canRun s (coreUnit k) || (maArrays c).any (fun i => outStalled s (maUnit k i))) = false := by
    have hstall : (maArrays c).any (fun i => outStalled s (maUnit k i)) = false := List.any_eq_false.2 fun i hi => by simp [(harrays i hi).2]
    rw [show stopped s = false from hrun, hcan, hstall, decide_eq_false (by omega)]
    rfl
  have hlive : (maArrays c).filter (fun i => inService s (maUnit k i)) = maArrays c := List.filter_eq_self.2 fun i hi => (harrays i hi).1
  simp only [maCommand, hcond, Bool.false_eq_true, if_false, maIssueCmd, hnamed, hlive, hfields, Bool.not_true, hwait, List.nil_append, newWait]

/-- No error stands in the memories of its arrays. -/
theorem MaTurn.errs (h : MaTurn s k step c) {i : Nat} (hi : i ∈ maArrays c) : (engMemOf s (maUnit k i)).errs = [] := by
  obtain ⟨-, -, -, harrays, -⟩ := h
  obtain ⟨-, -, herrs, -⟩ := harrays i hi
  exact herrs

/-- Their stream FIFOs are empty. -/
theorem MaTurn.idle (h : MaTurn s k step c) {i : Nat} (hi : i ∈ maArrays c) : FifoIdle s (maUnit k i) := by
  obtain ⟨-, -, -, harrays, -⟩ := h
  obtain ⟨-, -, -, hidle⟩ := harrays i hi
  exact hidle

/-- Their tiles pass R114. -/
theorem MaTurn.tilesOk (h : MaTurn s k step c) {i : Nat} (hi : i ∈ maArrays c) : maTilesOk c (arrayOf s k i) = true := by
  obtain ⟨-, -, -, -, -, -, -, -, -, hblocks, -⟩ := h
  exact (hblocks i hi).2

theorem maCommand_of_turn (h : MaTurn s k step c) : maCommand k step c s = .next (maServe s k [newWait c step]) := by
  obtain ⟨hk, hrun, hcan, harrays, hnamed, hfields, hwait, -⟩ := h
  exact maCommand_issues hk hrun hcan (fun i hi => ⟨(harrays i hi).1, (harrays i hi).2.1⟩) hnamed hfields hwait step

theorem veResume_idle {s : State} (h : (coreOf s k).veWait = []) (n : Nat) : veResume n s k = s := by
  cases n with
  | zero => rfl
  | succ n => simp [veResume, h]

/-- A command that ends as it is served, while the vector engine waits for nothing. -/
theorem maServe_ends {w : MaWait} (hstart : maStart s k w = (maDone t k step c (maArrays c), none)) (hve : (coreOf t k).veWait = []) :
    maServe s k [w] = maEnd t k step c := by
  have hveEnd : (coreOf (maEnd t k step c) k).veWait = [] := by rw [coreOf_maEnd]; exact hve
  simp only [maServe, maResume, List.any_nil, Bool.false_eq_true, if_false, hstart]
  exact veResume_idle hveEnd 64

/-- A command in its turn that runs to its end completes as `MaFrame` says. -/
theorem completes_of_turn {i : Instr} (hturn : MaTurn s k step c) (hexec : exec i s = maCommand k step c s) (hruns : MaRuns k (maArrays c) s t)
    (hstart : maStart s k (newWait c step) = (maDone t k step c (maArrays c), none)) : Completes i s (maEnd t k step c) := by
  obtain ⟨-, -, -, -, -, -, -, hve, -⟩ := id hturn
  rw [Completes, hexec, maCommand_of_turn hturn, maServe_ends hstart (hruns.veWait.trans hve)]

/-- The start of a command that passes R114 and R115: one with a zero count ends at once, a LOAD loads, a pass or an EMIT runs from its first
tile. -/
def maBegins (s : State) (k step : Nat) (c : MatCmd) : State × Option MaWait :=
  if maZero c = true then (maDone (setWalk s k step (maBound s k step c)) k step c (maArrays c), none)
  else if c.opcode = 1 then (maDone (maLoadRun s k c (maArrays c)).1 k step c (maLoadRun s k c (maArrays c)).2, none)
  else
    let r := maRunFrom k step c (maBound s k step c) 9 (setWalk s k step (maBound s k step c)) 0 (maArrays c) []
    (r.1, r.2.map (fun p => { newWait c step with tile := p.1, live := p.2.1, reserved := p.2.2, begun := true }))

theorem maStart_of_blocks
    (hblocks : ∀ i ∈ maArrays c, maHeldOk c ((coreOf s k).arrays.getD i {}) = true ∧ maTilesOk c ((coreOf s k).arrays.getD i {}) = true)
    (hreads : maReadsOk (maBound s k step c) c = true) : maStart s k (newWait c step) = maBegins s k step c := by
  have hheld : (maArrays c).all (fun i => maHeldOk c ((coreOf s k).arrays.getD i {})) = true := List.all_eq_true.2 fun i hi => (hblocks i hi).1
  have htiles : (maArrays c).all (fun i => maTilesOk c ((coreOf s k).arrays.getD i {})) = true := List.all_eq_true.2 fun i hi => (hblocks i hi).2
  simp only [maStart, maBegins, newWait, hheld, htiles, hreads, Bool.not_true, Bool.and_false, Bool.false_eq_true, if_false, Bool.and_self]
  rfl

theorem maStart_of_turn (hturn : MaTurn s k step c) : maStart s k (newWait c step) = maBegins s k step c := by
  obtain ⟨-, -, -, -, -, -, -, -, -, hblocks, hreads, -⟩ := hturn
  exact maStart_of_blocks hblocks hreads

end

end Sys2Proof.Machine
end

section
/-! PROOFS. LOAD (O21; R93, R97, R103, R111, R114). -/

namespace Sys2Proof.Machine

/-! ## Good reads, and elements of rows -/

theorem badRead_of_good {gs : List Got} (h : ∀ g ∈ gs, GoodRead g) : badRead gs = none := by
  rw [badRead, List.find?_eq_none]
  intro g hg
  obtain ⟨hpoison, hbad⟩ := h g hg
  simp [hpoison, hbad]

/-- An element of a format that LOAD takes has at most 16 bits. -/
theorem elemAt_lt {f : Nat} (hf : 1 ≤ f ∧ f ≤ 7) (row : List Byte) (i : Nat) : elemAt f row i < 2 ^ 16 := by
  have hbits : fmtBits f = 4 ∨ fmtBits f = 8 ∨ fmtBits f = 16 := by
    obtain ⟨hlow, hhigh⟩ := hf
    interval_cases f <;> decide
  unfold elemAt
  rcases hbits with h | h | h <;> simp only [h, ofBytesLE]
  · exact (Nat.mod_lt _ (by decide)).trans (by decide)
  · exact (BitVec.isLt _).trans (by decide)
  · have hlow := (row.getD (2 * i) 0).isLt
    have hhigh := (row.getD (2 * i + 1) 0).isLt
    omega

theorem rowElems_getD_real {f : Nat} (hf : isQB f = false) (bs : List Byte) {n j : Nat} (hj : j < n) :
    (rowElems f false bs n).getD j zeroElem = (elemVal f (elemAt f bs j), zeroVal) := by
  rw [List.getD_eq_getElem _ _ (by rwa [rowElems_length])]
  simp [rowElems, hf]

theorem rowElems_getD_cplx {f : Nat} (hf : isQB f = false) (bs : List Byte) {n j : Nat} (hj : j < n) :
    (rowElems f true bs n).getD j zeroElem = (elemVal f (elemAt f bs (2 * j)), elemVal f (elemAt f bs (2 * j + 1))) := by
  rw [List.getD_eq_getElem _ _ (by rwa [rowElems_length])]
  simp [rowElems, hf]

/-! ## The block -/

/-- Row `r` of the block that a LOAD fetches (R103). -/
def loadRow (s : State) (k : Nat) (c : MatCmd) (r : Nat) : Got :=
  maRead s k (64 * (c.sAddr.toNat + r * c.sPitch.toNat)) (rowBytes c.fmtS.toNat (c.cplx == 1) c.cols.toNat)

/-- Element `j` of a fetched row, as the held-operand buffer keeps it. -/
def loadBits (c : MatCmd) (bs : List Byte) (j : Nat) : BitVec 16 × BitVec 16 :=
  if c.cplx = 1 then (BitVec.ofNat 16 (elemAt c.fmtS.toNat bs (2 * j)), BitVec.ofNat 16 (elemAt c.fmtS.toNat bs (2 * j + 1)))
  else (BitVec.ofNat 16 (elemAt c.fmtS.toNat bs j), 0)

/-- The block that a LOAD fetches. -/
def loadedBlock (s : State) (k : Nat) (c : MatCmd) : HeldBlock :=
  { fmt := c.fmtS, cplx := c.cplx == 1, depth := c.depth.toNat, cols := c.cols.toNat
    vals := (List.range c.depth.toNat).map (fun r => (List.range c.cols.toNat).map (loadBits c (loadRow s k c r).bytes)) }

/-- Entry (r, j) of the block is element j of row r. -/
theorem heldAt_loadedBlock {s : State} {k : Nat} {c : MatCmd} (hfmt : 1 ≤ c.fmtS.toNat ∧ c.fmtS.toNat ≤ 7) {r j : Nat} (hr : r < c.depth.toNat)
    (hj : j < c.cols.toNat) :
    let e := (rowElems c.fmtS.toNat (c.cplx == 1) (loadRow s k c r).bytes c.cols.toNat).getD j zeroElem
    (heldAt (loadedBlock s k c) r j).1 = e.1 ∧ (c.cplx = 1 → (heldAt (loadedBlock s k c) r j).2 = e.2) := by
  have hqb : isQB c.fmtS.toNat = false := by
    obtain ⟨-, h⟩ := hfmt
    simp only [isQB, Bool.or_eq_false_iff, beq_eq_false_iff_ne]
    omega
  have hval (i : Nat) : (BitVec.ofNat 16 (elemAt c.fmtS.toNat (loadRow s k c r).bytes i)).toNat = elemAt c.fmtS.toNat (loadRow s k c r).bytes i := by
    rw [BitVec.toNat_ofNat, Nat.mod_eq_of_lt (elemAt_lt hfmt _ i)]
  have hentry : heldAt (loadedBlock s k c) r j = (elemVal c.fmtS.toNat (loadBits c (loadRow s k c r).bytes j).1.toNat,
      elemVal c.fmtS.toNat (loadBits c (loadRow s k c r).bytes j).2.toNat) := by
    simp [heldAt, loadedBlock, hr, hj]
  rw [hentry]
  by_cases hcplx : c.cplx = 1
  · simp only [loadBits, hcplx, beq_self_eq_true, if_true, hval, rowElems_getD_cplx hqb _ hj]
    exact ⟨trivial, fun _ => trivial⟩
  · simp only [loadBits, hcplx, beq_eq_false_iff_ne.2 hcplx, if_false, hval, rowElems_getD_real hqb _ hj]
    exact ⟨trivial, False.elim⟩

/-! ## The command -/

/-- The arrays take the block, and its 64 cycles of buffer writes are counted (R111). -/
theorem foldl_holds {k : Nat} (h : HeldBlock) (live : List Nat) : ∀ s : State, (∀ i ∈ live, (engMemOf s (maUnit k i)).errs = []) →
    live.foldl (fun s i => countUnit (clearErrs (modCore s k (fun x => { x with arrays := lmod x.arrays i (fun a => { a with held := h }) })) (maUnit k i)
      heldWords.1 heldWords.2) (maUnit k i) 0x02 64) s = updateArrays k (fun a => { a with held := h }) 0x02 64 live s := by
  induction live with
  | nil => intro s _; rfl
  | cons i live ih =>
    intro s herrs
    have hclear := clearErrs_of_none (s := modCore s k (fun x => { x with arrays := lmod x.arrays i (fun a => { a with held := h }) }))
      (u := maUnit k i) (herrs i List.mem_cons_self) heldWords.1 heldWords.2
    have hcount := quiet_countUnit (vs := []) (us := []) (modCore s k (fun x => { x with arrays := lmod x.arrays i (fun a => { a with held := h }) }))
      (maUnit k i) 0x02 64
    rw [List.foldl_cons, hclear, ih _ fun j hj => (hcount.errs _).trans (herrs j (List.mem_cons_of_mem _ hj))]
    rfl

theorem maZero_load {c : MatCmd} (hop : c.opcode = 1) (hnamed : c.arrays ≠ 0) (hdepth : c.depth ≠ 0) (hcols : c.cols ≠ 0) : maZero c = false := by
  simp only [maZero, hop, Bool.or_eq_false_iff, beq_eq_false_iff_ne]
  exact ⟨hnamed, Bool.or_eq_false_iff.2 ⟨beq_eq_false_iff_ne.2 hdepth, beq_eq_false_iff_ne.2 hcols⟩⟩

/-- What a LOAD that R115 lets through names (R96, R102). -/
theorem maFieldsOk_load {c : MatCmd} (hop : c.opcode = 1) (h : maFieldsOk c = true) :
    (1 ≤ c.fmtS.toNat ∧ c.fmtS.toNat ≤ 7) ∧ c.depth.toNat ≤ maDepth c.fmtS.toNat (c.cplx == 1) ∧ c.cols.toNat ≤ maWidth (c.cplx == 1) := by
  have hload := (Bool.and_eq_true_iff.1 h).2
  rw [hop] at hload
  change (_ && _ && _ && _ && _) = true at hload
  simp only [Bool.and_eq_true, decide_eq_true_eq] at hload
  obtain ⟨⟨⟨⟨hlow, hhigh⟩, -⟩, hdepth⟩, hcols⟩ := hload
  exact ⟨⟨hlow, hhigh⟩, hdepth, hcols⟩

/-- The addresses of the rows of a block. -/
def loadAddrs (c : MatCmd) : List Nat := (List.range c.depth.toNat).map (fun r => 64 * (c.sAddr.toNat + r * c.sPitch.toNat))

theorem maLoadRun_of_good {s : State} {k : Nat} {c : MatCmd} {live : List Nat} (hgood : ∀ r, r < c.depth.toNat → GoodRead (loadRow s k c r))
    (herrs : ∀ i ∈ live, (engMemOf s (maUnit k i)).errs = []) : maLoadRun s k c live =
      (updateArrays k (fun a => { a with held := loadedBlock s k c }) 0x02 64 live
        (countReads s k (rowBytes c.fmtS.toNat (c.cplx == 1) c.cols.toNat) (loadAddrs c)), live) := by
  have hbad : badRead ((loadAddrs c).map (fun a => maRead s k a (rowBytes c.fmtS.toNat (c.cplx == 1) c.cols.toNat))) = none :=
    badRead_of_good fun g hg => by
      simp only [loadAddrs, List.map_map, List.mem_map, List.mem_range] at hg
      obtain ⟨r, hr, rfl⟩ := hg
      exact hgood r hr
  have hcount := quiet_countReads (vs := []) (us := []) s k (rowBytes c.fmtS.toNat (c.cplx == 1) c.cols.toNat) (loadAddrs c)
  have hblock : ({ fmt := c.fmtS, cplx := c.cplx == 1, depth := c.depth.toNat, cols := c.cols.toNat, vals := ((loadAddrs c).map (fun a =>
      maRead s k a (rowBytes c.fmtS.toNat (c.cplx == 1) c.cols.toNat))).map (fun g => (List.range c.cols.toNat).map (fun j =>
        if (c.cplx == 1) = true then (BitVec.ofNat 16 (elemAt c.fmtS.toNat g.bytes (2 * j)), BitVec.ofNat 16 (elemAt c.fmtS.toNat g.bytes (2 * j + 1)))
        else (BitVec.ofNat 16 (elemAt c.fmtS.toNat g.bytes j), (0 : BitVec 16)))) } : HeldBlock) = loadedBlock s k c := by
    simp [loadedBlock, loadAddrs, loadRow, loadBits]
  rw [← foldl_holds _ _ _ fun i hi => (hcount.errs _).trans (herrs i hi), ← hblock]
  unfold maLoadRun
  dsimp only
  rw [show badRead (((List.range c.depth.toNat).map (fun r => 64 * (c.sAddr.toNat + r * c.sPitch.toNat))).map (fun a =>
    maRead s k a (rowBytes c.fmtS.toNat (c.cplx == 1) c.cols.toNat))) = none from hbad]
  rfl

end Sys2Proof.Machine

namespace Sys2Proof
open Machine

/-- Settles O21: the rows are fetched once (`maLoadRun_of_good`), each array takes the block they make, and its entries are their elements
(`heldAt_loadedBlock`). -/
theorem matrixLoads : Obligations.MatrixLoads := by
  unfold Obligations.MatrixLoads
  intro s k step c0 c n row hturn hshape hdepth hcols hgood
  obtain ⟨-, -, -, -, hnamed, hfields, hwait, -⟩ := id hturn
  have hzero : maZero c = false := maZero_load rfl hnamed hdepth hcols
  obtain ⟨hfmt, hdepthLe, hcolsLe⟩ := maFieldsOk_load rfl hfields
  have hload := maLoadRun_of_good (live := maArrays c) hgood fun i hi => MaTurn.errs hturn hi
  have hquiet := quiet_countReads (vs := []) (us := []) s k n (loadAddrs c)
  have hshape' : MaShape (countReads s k n (loadAddrs c)) k := by rwa [MaShape, hquiet.coreOf]
  have hruns := (hquiet.runs (k := k) (live := maArrays c) (List.nil_subset _) (List.nil_subset _)).trans
    (maRuns_updateArrays hshape' (f := fun a => { a with held := loadedBlock s k c }) (fun _ => ⟨rfl, rfl, rfl⟩) 0x02 64 c)
  have hheld := arrayOf_updateArrays hshape' (fun a => { a with held := loadedBlock s k c }) 0x02 64 c
  obtain ⟨⟨cs, pm, hstate⟩, -, hcore⟩ := updateArrays_frame k (fun a => { a with held := loadedBlock s k c }) 0x02 64 (maArrays c)
    (countReads s k n (loadAddrs c))
  have hstart : maStart s k (newWait c step) = (maDone (maLoadRun s k c (maArrays c)).1 k step c (maArrays c), none) := by
    rw [maStart_of_turn hturn, maBegins, if_neg (by simp [hzero]), if_pos rfl, hload]
  rw [hload] at hstart
  generalize updateArrays k (fun a => { a with held := loadedBlock s k c }) 0x02 64 (maArrays c) (countReads s k n (loadAddrs c)) = t at *
  have hwindows : (coreOf t k).windows = (coreOf s k).windows := by rw [hcore, hquiet.coreOf]; rfl
  refine ⟨maEnd t k step c, completes_of_turn hturn rfl hruns hstart, maFrame_maEnd hshape hwait hruns fun _ => hwindows, ?_, ?_, ?_, fun i hi => ?_⟩
  · rw [unitOf_maEnd, hstate]
    exact hquiet.status _ (List.not_mem_nil)
  · rw [maEnd_tq, hcore, hquiet.coreOf]; rfl
  · rw [maEnd_windows, hwindows]
  · have htiles := maEnd_tiles (hruns.shape hshape) step c i
    have hblock : (arrayOf (maEnd t k step c) k i).held = loadedBlock s k c := by
      rw [maEnd_held (hruns.shape hshape), hheld, if_pos hi]
    have hsame : (arrayOf t k i).tiles = (arrayOf s k i).tiles := by
      rw [hheld, if_pos hi, arrayOf, hquiet.coreOf]
    dsimp only
    rw [show ((coreOf (maEnd t k step c) k).arrays.getD i {}).held = loadedBlock s k c from hblock]
    exact ⟨rfl, rfl, rfl, rfl, hcolsLe, hdepthLe, htiles.trans hsame, fun r j hr hj => heldAt_loadedBlock hfmt hr hj⟩

end Sys2Proof
end

section
/-! PROOFS. EMIT, the wait for slots, and commands with a zero count (O24; R111, R117 to R119). -/

namespace Sys2Proof.Machine

/-! ## The core of a state, set and set again -/

@[simp] theorem setCore_setCore (s : State) (k : Nat) (x y : CoreSt) : setCore (setCore s k x) k y = setCore s k y := by
  simp [setCore, tset_tset]

@[simp] theorem modCore_setCore (s : State) (k : Nat) (x : CoreSt) (f : CoreSt → CoreSt) : modCore (setCore s k x) k f = setCore s k (f x) := by
  simp [modCore]

theorem modCore_modCore (s : State) (k : Nat) (f g : CoreSt → CoreSt) : modCore (modCore s k f) k g = modCore s k (fun x => g (f x)) := by
  simp [modCore]

/-- A core with another tile queue. -/
def withTq (x : CoreSt) (q : List Slot) : CoreSt := { x with tq := q }

@[simp] theorem withTq_tq (x : CoreSt) (q : List Slot) : (withTq x q).tq = q := rfl
@[simp] theorem withTq_withTq (x : CoreSt) (p q : List Slot) : withTq (withTq x p) q = withTq x q := rfl

theorem countUnit_modCore (s : State) (k : Nat) (f : CoreSt → CoreSt) (u : UAddr) (ev v : Nat) :
    countUnit (modCore s k f) u ev v = modCore (countUnit s u ev v) k f := by
  have hevent (rec inst : Nat) : countEvent (modCore s k f) rec ev inst v = modCore (countEvent s rec ev inst v) k f := by
    have hpmu : (modCore s k f).pmu = s.pmu := rfl
    have hrw : rwVal (modCore s k f) 0x38F0 1 0 = rwVal s 0x38F0 1 0 := rfl
    simp only [countEvent, hpmu, hrw]
    split
    · rfl
    · split <;> rfl
  have hcond : ((unitOf (modCore s k f) u).phase == .live && !unitGone (modCore s k f) u && !parentDown (modCore s k f) u) =
      ((unitOf s u).phase == .live && !unitGone s u && !parentDown s u) := rfl
  simp only [countUnit, hcond, hevent]
  split <;> rfl

/-- A core with another wait list. -/
def withWait (x : CoreSt) (ws : List MaWait) : CoreSt := { x with maWait := ws }

/-- What updates arrays does not see the wait list. -/
theorem updateArrays_withWait (k : Nat) (f : MaSt → MaSt) (ws : List MaWait) (ev n : Nat) (live : List Nat) : ∀ s,
    updateArrays k f ev n live (modCore s k (withWait · ws)) = modCore (updateArrays k f ev n live s) k (withWait · ws) := by
  induction live with
  | nil => intro s; rfl
  | cons i live ih =>
    intro s
    have hswap : modCore (modCore s k (withWait · ws)) k (fun x => { x with arrays := lmod x.arrays i f }) =
        modCore (modCore s k fun x => { x with arrays := lmod x.arrays i f }) k (withWait · ws) := by
      rw [modCore_modCore, modCore_modCore]
      rfl
    have hcons (s : State) : updateArrays k f ev n (i :: live) s =
        updateArrays k f ev n live (countUnit (modCore s k (fun x => { x with arrays := lmod x.arrays i f })) (maUnit k i) ev n) := rfl
    rw [hcons, hcons, hswap, countUnit_modCore, ih]

/-- A command that ends waits nowhere, wherever it waited. -/
theorem maEnd_setCore_withWait (s : State) (k step : Nat) (c : MatCmd) (x : CoreSt) (ws : List MaWait) :
    maEnd (setCore s k (withWait x ws)) k step c = maEnd (setCore s k x) k step c := by
  have hset : setCore s k (withWait x ws) = modCore (setCore s k x) k (withWait · ws) := by rw [modCore_setCore]
  rw [hset, maEnd, maDone_eq, updateArrays_withWait, modCore_modCore]
  rfl

/-! ## Reserving and filling slots -/

theorem modCore_foldl_reserveSlot (k n : Nat) (f : CoreSt → CoreSt) (l : List Nat) : ∀ s : State,
    modCore (l.foldl (fun s i => reserveSlot s k i n) s) k f =
      setCore s k (f (withTq (coreOf s k) ((coreOf s k).tq ++ l.map (emptySlot n)))) := by
  induction l with
  | nil => intro s; simp [modCore, withTq]
  | cons i l ih =>
    intro s
    rw [List.foldl_cons, ih]
    simp [reserveSlot, modCore, emptySlot, withTq]

theorem foldl_reserveSlot_setCore (s : State) (k n : Nat) (l : List Nat) : ∀ x : CoreSt,
    l.foldl (fun s i => reserveSlot s k i n) (setCore s k x) = setCore s k (withTq x (x.tq ++ l.map (emptySlot n))) := by
  induction l with
  | nil => intro x; simp [withTq]
  | cons i l ih =>
    intro x
    have hone : reserveSlot (setCore s k x) k i n = setCore s k (withTq x (x.tq ++ [emptySlot n i])) := modCore_setCore ..
    rw [List.foldl_cons, hone, ih]
    simp

/-- The slots that a round has reserved are filled in its order. -/
theorem foldl_fillFirst {n : Nat} {slot : Nat → Slot} {l : List Nat} (hl : l.Nodup) : ∀ {p : List Slot},
    (∀ x ∈ p, ∀ i ∈ l, ¬ (x.array = i ∧ x.tile = n ∧ x.written = 0)) → (∀ i ∈ l, (slot i).array = i) →
      l.foldl (fun q i => fillFirst i n (slot i) q) (p ++ l.map (emptySlot n)) = p ++ l.map slot := by
  induction l with
  | nil => intro p _ _; simp
  | cons i l ih =>
    intro p hp hslot
    obtain ⟨hi, hnodup⟩ := List.nodup_cons.1 hl
    rw [List.foldl_cons, List.map_cons, fillFirst_append fun x hx => hp x hx i List.mem_cons_self, List.append_cons, ih hnodup]
    · simp
    · intro x hx j hj
      rcases List.mem_append.1 hx with hx | hx
      · exact hp x hx j (List.mem_cons_of_mem _ hj)
      · obtain rfl := List.mem_singleton.1 hx
        rw [hslot i List.mem_cons_self]
        exact fun h => hi (h.1 ▸ hj)
    · exact fun j hj => hslot j (List.mem_cons_of_mem _ hj)

/-! ## The tiles that an EMIT sends -/

/-- The slot that an EMIT fills from tile `n` of array `i`, counted from ACC_TILE, in a core `x` (R118). -/
def emitSlot (x : CoreSt) (c : MatCmd) (n i : Nat) : Slot :=
  filledSlot (c.accTile.toNat + n) i (min 64 (c.rows.toNat - 64 * n)) ((x.arrays.getD i {}).tiles.getD (c.accTile.toNat + n) {})

/-- The slots of tile `n` of all arrays. -/
def emitSlots (x : CoreSt) (c : MatCmd) (n : Nat) : List Slot := (maArrays c).map (emitSlot x c n)

section
variable {s : State} {k step : Nat} {c : MatCmd} (hop : c.opcode = 3) (herrs : ∀ i ∈ maArrays c, (engMemOf s (maUnit k i)).errs = [])

theorem maSends_emit (hop : c.opcode = 3) : maSends c = true := by simp [maSends, hop]

theorem maTileCount_emit (hop : c.opcode = 3) : maTileCount c = ceilDiv c.rows.toNat 64 := by simp [maTileCount, hop]

theorem maBound_emit (hop : c.opcode = 3) (s : State) (k step : Nat) : maBound s k step c = none := by simp [maBound, maWs, hop]

theorem maZero_emit (hop : c.opcode = 3) (hnamed : c.arrays ≠ 0) (hrows : c.rows ≠ 0) : maZero c = false := by
  simp only [maZero, hop, Bool.or_eq_false_iff, beq_eq_false_iff_ne]
  exact ⟨hnamed, beq_eq_false_iff_ne.2 hrows⟩

include hop in
theorem maTiles_emit (w : Option WinSt) (ti : Nat) (l : List Nat) : ∀ x : CoreSt, (∀ i ∈ l, (engMemOf s (maUnit k i)).errs = []) →
    maTiles k c w ti (setCore s k x) l =
      (setCore s k (withTq x (l.foldl (fun q i => fillFirst i (c.accTile.toNat + ti) (emitSlot x c ti i) q) x.tq)), l) := by
  induction l with
  | nil => intro x _; rfl
  | cons i l ih =>
    intro x h
    have herr : (engMemOf (setCore s k x) (maUnit k i)).errs = [] := h i List.mem_cons_self
    have htile (j : Nat) : maTile (setCore s k x) k c w ti i j =
        .ok (setCore s k (withTq x (fillFirst i (c.accTile.toNat + ti) (emitSlot x c ti i) x.tq)), 64) := by
      rw [maTile, if_pos hop, maEmitTile, errGot_of_none herr, countErrs_of_none herr, pushSlot_eq, modCore_setCore, tileOf, coreOf_setCore_same]
      rfl
    rw [maTiles, htile]
    dsimp only
    rw [ih _ fun j hj => h j (List.mem_cons_of_mem _ hj)]
    rfl

theorem ceilDiv_pos {n : Nat} {r : BitVec n} (h : r ≠ 0) : 0 < ceilDiv r.toNat 64 := by
  have hr : r.toNat ≠ 0 := fun hr => h (BitVec.eq_of_toNat_eq hr)
  unfold ceilDiv
  omega

/-- An EMIT that passes R115 has at most eight tiles. -/
theorem maFieldsOk_emit (hop : c.opcode = 3) (h : maFieldsOk c = true) : maTileCount c ≤ 8 := by
  have hemit := (Bool.and_eq_true_iff.1 h).2
  rw [hop] at hemit
  change (_ && _) = true at hemit
  simp only [Bool.and_eq_true, decide_eq_true_eq] at hemit
  obtain ⟨-, htiles⟩ := hemit
  rw [maTileCount_emit hop]
  omega

theorem ceilDiv_round {r n : Nat} (h : n < ceilDiv r 64) : 0 < min 64 (r - 64 * n) := by
  unfold ceilDiv at h
  omega

include hop herrs in
/-- An EMIT from tile `ti` on, whose arrays `got` have their slots of that tile, sends every tile left: there are slots for them. -/
theorem maRunFrom_emit (w : Option WinSt) (x : CoreSt) : ∀ (fuel ti : Nat) (q : List Slot) (got miss : List Nat), maArrays c = got ++ miss →
    (∀ y ∈ q, y.written ≠ 0) → (ti < maTileCount c ∨ got = []) → maTileCount c - ti ≤ fuel →
    q.length + (maTileCount c - ti) * (maArrays c).length ≤ 16 → maArrays c ≠ [] →
    maRunFrom k step c w fuel (setCore s k (withTq x (q ++ got.map (emptySlot (c.accTile.toNat + ti))))) ti (maArrays c) got =
      (maDone (setCore s k (withTq x (q ++ (List.range' ti (maTileCount c - ti)).flatMap (emitSlots x c)))) k step c (maArrays c), none) := by
  intro fuel
  induction fuel with
  | zero =>
    intro ti q got miss _ _ hgot hfuel _ _
    have hti : ¬ ti < maTileCount c := by omega
    rw [hgot.resolve_left hti, Nat.le_zero.1 hfuel]
    simp [maRunFrom]
  | succ fuel ih =>
    intro ti q got miss hlive hq hgot hfuel hroom hne
    by_cases hti : ti < maTileCount c
    · have hcount : maTileCount c - ti = maTileCount c - (ti + 1) + 1 := by omega
      have hround : q.length + (maTileCount c - (ti + 1)) * (maArrays c).length + (maArrays c).length ≤ 16 := by
        rw [hcount, Nat.succ_mul] at hroom
        omega
      have hnodup := hlive ▸ nodup_maArrays c
      have hmiss : (maArrays c).filter (fun i => !got.contains i) = miss := by
        rw [hlive, List.filter_append, List.filter_eq_nil_iff.2 fun i hi => by simp [hi], List.nil_append]
        exact List.filter_eq_self.2 fun i hi => by
          simpa using fun hi' => (List.disjoint_of_nodup_append hnodup) hi' hi
      have hlen : (maArrays c).length = got.length + miss.length := by rw [hlive, List.length_append]
      have hreserve := maReserve_eq k (c.accTile.toNat + ti) (maArrays c) got
        (setCore s k (withTq x (q ++ got.map (emptySlot (c.accTile.toNat + ti))))) (nodup_maArrays c)
      simp only [hmiss, coreOf_setCore_same, withTq_tq, List.length_append, List.length_map] at hreserve
      rw [List.take_of_length_le (by omega), ← hlive, foldl_reserveSlot_setCore, withTq_withTq, withTq_tq, List.append_assoc, ← List.map_append,
        ← hlive] at hreserve
      have hfill : (maArrays c).foldl (fun q i => fillFirst i (c.accTile.toNat + ti) (emitSlot x c ti i) q)
          (q ++ (maArrays c).map (emptySlot (c.accTile.toNat + ti))) = q ++ emitSlots x c ti :=
        foldl_fillFirst (nodup_maArrays c) (fun y hy _ _ h => hq y hy h.2.2) fun _ _ => rfl
      have hany : (maArrays c).any (fun i => !(maArrays c).contains i) = false := List.any_eq_false.2 fun i hi => by simp [hi]
      have hnext := ih (ti + 1) (q ++ emitSlots x c ti) [] (maArrays c) rfl (fun y hy => ?_) (.inr rfl) (by omega) ?_ hne
      · rw [maRunFrom, if_neg (by simp [hne]; omega)]
        simp only [maSends_emit hop, if_true, hreserve, hany, Bool.false_eq_true, if_false]
        rw [maTiles_emit hop w ti _ _ herrs, withTq_withTq, withTq_tq, hcount, List.range'_succ, List.flatMap_cons, ← List.append_assoc]
        refine Eq.trans ?_ hnext
        rw [List.map_nil, List.append_nil, ← hfill]
        rfl
      · rcases List.mem_append.1 hy with hy | hy
        · exact hq y hy
        · obtain ⟨i, -, rfl⟩ := List.mem_map.1 hy
          exact Nat.pos_iff_ne_zero.1 (ceilDiv_round (hti.trans_eq (maTileCount_emit hop)))
      · rw [List.length_append, emitSlots, List.length_map]
        omega
    · rw [hgot.resolve_left hti, maRunFrom, if_pos (.inl (Nat.le_of_not_lt hti)), Nat.sub_eq_zero_of_le (Nat.le_of_not_lt hti)]
      simp

include hop herrs in
/-- All of an EMIT. -/
theorem maRunFrom_emit_all (w : Option WinSt) (x : CoreSt) {q : List Slot} {got miss : List Nat} (hlive : maArrays c = got ++ miss)
    (hq : ∀ y ∈ q, y.written ≠ 0) (hrows : c.rows ≠ 0) (hfields : maFieldsOk c = true) (hne : maArrays c ≠ [])
    (hroom : q.length + maTileCount c * (maArrays c).length ≤ 16) :
    maRunFrom k step c w 9 (setCore s k (withTq x (q ++ got.map (emptySlot c.accTile.toNat)))) 0 (maArrays c) got =
      (maDone (setCore s k (withTq x (q ++ (List.range (ceilDiv c.rows.toNat 64)).flatMap (emitSlots x c)))) k step c (maArrays c), none) := by
  have hcount := maTileCount_emit hop
  have hpos : 0 < maTileCount c := hcount ▸ ceilDiv_pos hrows
  have hrun := maRunFrom_emit (step := step) hop herrs w x 9 0 q got miss hlive hq (.inl hpos)
    (by have := maFieldsOk_emit hop hfields; omega) hroom hne
  rw [Nat.sub_zero, ← List.range_eq_range', hcount] at hrun
  exact hrun

/-- Where every array finds a slot, it does not matter that the core was set to what it is. -/
theorem maRunFrom_setCore_self (w : Option WinSt) (hsends : maSends c = true) (hne : maArrays c ≠ []) (hpos : 0 < maTileCount c)
    (hroom : (coreOf s k).tq.length + (maArrays c).length ≤ 16) (fuel : Nat) :
    maRunFrom k step c w (fuel + 1) s 0 (maArrays c) [] = maRunFrom k step c w (fuel + 1) (setCore s k (coreOf s k)) 0 (maArrays c) [] := by
  have hfold : (maArrays c).foldl (fun s i => reserveSlot s k i (c.accTile.toNat + 0)) s =
      (maArrays c).foldl (fun s i => reserveSlot s k i (c.accTile.toNat + 0)) (setCore s k (coreOf s k)) := by
    obtain ⟨i, l, hl⟩ := List.exists_cons_of_ne_nil hne
    have hfirst : reserveSlot (setCore s k (coreOf s k)) k i (c.accTile.toNat + 0) = reserveSlot s k i (c.accTile.toNat + 0) := modCore_setCore ..
    rw [hl, List.foldl_cons, List.foldl_cons, hfirst]
  have hgo : ¬ (maTileCount c ≤ 0 ∨ maArrays c = []) := not_or.2 ⟨Nat.not_le.2 hpos, hne⟩
  rw [maRunFrom, maRunFrom, if_neg hgo, if_neg hgo]
  simp only [hsends, if_true, maReserve_all (nodup_maArrays c) hroom]
  rw [maReserve_all (nodup_maArrays c) (by rwa [coreOf_setCore_same]), hfold]

theorem maRuns_withTq (s : State) (k : Nat) (live : List Nat) (q : List Slot) : MaRuns k live s (setCore s k (withTq (coreOf s k) q)) :=
  maRuns_modCore_of_arrays s (f := (withTq · q)) rfl rfl

/-- The queue after an EMIT. -/
def emittedTq (x : CoreSt) (c : MatCmd) : List Slot := x.tq ++ (List.range (ceilDiv c.rows.toNat 64)).flatMap (emitSlots x c)

/-- What an EMIT in its turn ends in. -/
def emitted (s : State) (k step : Nat) (c : MatCmd) : State :=
  maEnd (setCore s k (withTq (coreOf s k) (emittedTq (coreOf s k) c))) k step c

/-- An EMIT in its turn sends its tiles. -/
theorem completes_emit {c0 : MatCmd} (hc : c = { c0 with opcode := 3 }) (hrows : c.rows ≠ 0) (hturn : MaTurn s k step c) :
    Completes (.maEmit k step c0) s (emitted s k step c) := by
  have hop : c.opcode = 3 := by rw [hc]
  obtain ⟨-, -, -, -, hnamed, hfields, -, -, hwritten, -, -, hroom⟩ := id hturn
  have herrs : ∀ i ∈ maArrays c, (engMemOf s (maUnit k i)).errs = [] := fun i hi => MaTurn.errs hturn hi
  have hne := maArrays_ne_nil hnamed
  have hzero := maZero_emit hop hnamed hrows
  have hpos : 0 < maTileCount c := (maTileCount_emit hop).symm ▸ ceilDiv_pos hrows
  have hroom := hroom (maSends_emit hop)
  have hfirst : (maArrays c).length ≤ maTileCount c * (maArrays c).length := Nat.le_mul_of_pos_left _ hpos
  have hall := maRunFrom_emit_all (step := step) hop herrs none (coreOf s k) (got := []) rfl hwritten hrows hfields hne hroom
  rw [List.map_nil, List.append_nil] at hall
  have hrun := (maRunFrom_setCore_self (step := step) none (maSends_emit hop) hne hpos (by omega) 8).trans hall
  refine completes_of_turn hturn (by rw [hc]; rfl) (maRuns_withTq s k (maArrays c) _) ?_
  rw [maStart_of_turn hturn, maBegins, maBound_emit hop, setWalk_none, if_neg (by simp [hzero]), if_neg (by simp [hop]), hrun]
  rfl

/-! ## An EMIT that waits -/

/-- The arrays whose slots are free (R119). -/
def reserving (s : State) (k : Nat) (c : MatCmd) : List Nat := (maArrays c).take (16 - (coreOf s k).tq.length)

/-- An EMIT with the slots that its arrays could reserve. -/
def waitingEmit (s : State) (k step : Nat) (c : MatCmd) : MaWait := { newWait c step with reserved := reserving s k c, begun := true }

/-- The core in which an EMIT waits that found the queue at `q`. -/
def emitWaits (s : State) (k step : Nat) (c : MatCmd) (q : List Slot) : CoreSt :=
  withWait (withTq (coreOf s k) (q ++ (reserving s k c).map (emptySlot c.accTile.toNat))) [waitingEmit s k step c]

theorem reserving_misses (hne : maArrays c ≠ []) (hroom : 16 < (coreOf s k).tq.length + (maArrays c).length) :
    (maArrays c).any (fun i => !(reserving s k c).contains i) = true := by
  by_contra hnone
  have hsub : maArrays c ⊆ reserving s k c := fun i hi => by
    simpa using List.any_eq_false.1 (Bool.eq_false_of_not_eq_true hnone) i hi
  have hle := (List.subperm_of_subset (nodup_maArrays c) hsub).length_le
  have hsome := List.length_pos_iff.2 hne
  rw [reserving, List.length_take] at hle
  omega

theorem maRunFrom_waits (w : Option WinSt) (hsends : maSends c = true) (hne : maArrays c ≠ []) (hpos : 0 < maTileCount c)
    (hroom : 16 < (coreOf s k).tq.length + (maArrays c).length) (fuel : Nat) : maRunFrom k step c w (fuel + 1) s 0 (maArrays c) [] =
      ((reserving s k c).foldl (fun s i => reserveSlot s k i c.accTile.toNat) s, some (0, maArrays c, reserving s k c)) := by
  have hreserve := maReserve_eq k (c.accTile.toNat + 0) (maArrays c) [] s (nodup_maArrays c)
  simp only [List.contains_nil, Bool.not_false, List.filter_true, List.nil_append] at hreserve
  rw [maRunFrom, if_neg (not_or.2 ⟨Nat.not_le.2 hpos, hne⟩)]
  simp only [hsends, if_true, hreserve]
  exact if_pos (reserving_misses hne hroom)

/-- An EMIT that lacks slots waits with those it has. -/
theorem maServe_waits (hop : c.opcode = 3) (hrows : c.rows ≠ 0) (hnamed : c.arrays ≠ 0) (hve : (coreOf s k).veWait = [])
    (hroom : 16 < (coreOf s k).tq.length + (maArrays c).length) :
    maServe s k [newWait c step] = setCore s k (emitWaits s k step c (coreOf s k).tq) := by
  have hzero := maZero_emit hop hnamed hrows
  have hpos : 0 < maTileCount c := (maTileCount_emit hop).symm ▸ ceilDiv_pos hrows
  have hrun := maRunFrom_waits (step := step) none (maSends_emit hop) (maArrays_ne_nil hnamed) hpos hroom 8
  have hstart : maStart s k (newWait c step) =
      ((reserving s k c).foldl (fun s i => reserveSlot s k i c.accTile.toNat) s, some (waitingEmit s k step c)) := by
    rw [maStart_of_blocks (fun i _ => by simp [maHeldOk, maTilesOk, hop]) (by simp [maReadsOk, hop]), maBegins, maBound_emit hop, setWalk_none,
      if_neg (by simp [hzero]), if_neg (by simp [hop]), hrun]
    rfl
  simp only [maServe, maResume, List.any_nil, Bool.false_eq_true, if_false, hstart]
  rw [modCore_foldl_reserveSlot k _ (fun x => { x with maWait := [] ++ [waitingEmit s k step c] })]
  exact veResume_idle (by rw [coreOf_setCore_same]; exact hve) 64

/-- Where the other slots are free by now, an EMIT that waits goes on as it would have run. -/
theorem maServe_goes_on (hop : c.opcode = 3) (hrows : c.rows ≠ 0) {q : List Slot} (hturn : MaTurn (modCore s k (withTq · q)) k step c) :
    maServe (setCore s k (emitWaits s k step c q)) k [waitingEmit s k step c] = emitted (modCore s k (withTq · q)) k step c := by
  obtain ⟨-, -, -, -, hnamed, hfields, -, hve, hwritten, -, -, hroom⟩ := id hturn
  rw [coreOf_modCore_same] at hve hwritten hroom
  have herrs : ∀ i ∈ maArrays c, (engMemOf s (maUnit k i)).errs = [] := fun i hi => MaTurn.errs hturn hi
  have hzero := maZero_emit hop hnamed hrows
  have hrun : maRunFrom k step c none 9 (setCore s k (emitWaits s k step c q)) 0 (maArrays c) (reserving s k c) =
      (maDone (setCore s k (withWait (withTq (coreOf s k) (emittedTq (withTq (coreOf s k) q) c)) [waitingEmit s k step c])) k step c (maArrays c), none) :=
    maRunFrom_emit_all hop herrs none (withWait (coreOf s k) [waitingEmit s k step c])
      (List.take_append_drop (16 - (coreOf s k).tq.length) (maArrays c)).symm hwritten hrows hfields (maArrays_ne_nil hnamed)
      (hroom (maSends_emit hop))
  have hstart : maStart (setCore s k (emitWaits s k step c q)) k (waitingEmit s k step c) = (maDone (setCore s k (withWait (withTq (coreOf s k)
      (emittedTq (withTq (coreOf s k) q) c)) [waitingEmit s k step c])) k step c (maArrays c), none) := by
    rw [maStart, show (waitingEmit s k step c).begun = true from rfl]
    simp only [waitingEmit, newWait, hzero, maBound_emit hop, setWalk_none, Bool.not_true, Bool.false_and, Bool.false_eq_true, if_false]
    rw [if_neg (by simp [hop]), hrun]
    rfl
  rw [maServe_ends hstart (by rw [coreOf_setCore_same]; exact hve), maEnd_setCore_withWait, emitted, coreOf_modCore_same]
  rw [modCore, setCore_setCore]
  rfl

/-! ## Commands with a zero count (R117) -/

theorem coreOf_setWalk (s : State) (k step : Nat) (w : Option WinSt) :
    ∃ ws, coreOf (setWalk s k step w) k = { coreOf s k with windows := ws } := by
  unfold setWalk
  split
  · exact ⟨_, coreOf_modCore_same ..⟩
  · exact ⟨_, rfl⟩

/-- A command with a zero count does no more than stand its window's walk where the command is. -/
theorem completes_zero {i : Instr} (hexec : exec i s = maCommand k step c s) (hzero : maZero c = true) (hturn : MaTurn s k step c) :
    Completes i s (maEnd (setWalk s k step (maBound s k step c)) k step c) := by
  refine completes_of_turn hturn hexec (maRuns_setWalk s k step _) ?_
  rw [maStart_of_turn hturn, maBegins, if_pos hzero]

end

end Sys2Proof.Machine

namespace Sys2Proof
open Machine

/-- Settles O24: an EMIT in its turn runs from tile to tile with its slots reserved (`completes_emit`); one that lacks slots waits
(`maServe_waits`) and goes on as it would have run (`maServe_goes_on`); a zero count ends at once (`completes_zero`). -/
theorem matrixEmitsAndWaits : Obligations.MatrixEmitsAndWaits := by
  unfold Obligations.MatrixEmitsAndWaits
  intro s k step c0 hshape
  refine ⟨fun hrows hturn => ?sends, ?waits, ?zero⟩
  case sends =>
    obtain ⟨-, -, -, -, -, -, hwait, -⟩ := id hturn
    have hruns := maRuns_withTq s k (maArrays { c0 with opcode := 3 }) (emittedTq (coreOf s k) { c0 with opcode := 3 })
    refine ⟨emitted s k step _, completes_emit rfl hrows hturn, maFrame_maEnd hshape hwait hruns fun _ => ?_, fun i _ => ?_, ?_⟩
    · rw [coreOf_setCore_same]; rfl
    · refine (maEnd_tiles (hruns.shape hshape) step _ i).trans ?_
      rw [arrayOf, coreOf_setCore_same]; rfl
    · rw [emitted, maEnd_tq, coreOf_setCore_same]; rfl
  case waits =>
    intro c free hrows hk hactive hcan harrays hnamed hfields hwait hve hroom
    refine ⟨setCore s k (emitWaits s k step c (coreOf s k).tq), ?_, ⟨_, rfl⟩, coreOf_setCore_same .., fun q t hturn hemit => ?_⟩
    · rw [← maServe_waits rfl hrows hnamed hve hroom]
      exact maCommand_issues hk hactive hcan harrays hnamed hfields hwait step
    · have ht : emitted (modCore s k (withTq · q)) k step c = t :=
        Host.Outcome.next.inj ((completes_emit rfl hrows hturn).symm.trans hemit)
      have hdrop : modCore (setCore s k (emitWaits s k step c (coreOf s k).tq)) k (fun x =>
          { x with tq := q ++ x.tq.drop (coreOf s k).tq.length }) = setCore s k (emitWaits s k step c q) := by
        rw [modCore_setCore, emitWaits, emitWaits]
        simp [withTq, withWait]
      have hruns : (decide (48 ≤ k) || stopped s || !canRun s (coreUnit k)) = false := by
        rw [show stopped s = false from hactive, hcan, decide_eq_false (by omega)]
        rfl
      have hreserve : exec (.tileSlotReserve k) (setCore s k (emitWaits s k step c q)) =
          .next (maServe (setCore s k (emitWaits s k step c q)) k [waitingEmit s k step c]) := by
        refine (if_neg (by exact Bool.eq_false_iff.1 hruns)).trans ?_
        rw [coreOf_setCore_same]
        rfl
      rw [hdrop, Completes, hreserve, maServe_goes_on rfl hrows hturn, ht]
  case zero =>
    intro i c hi hzero hturn
    obtain ⟨-, -, -, -, -, -, hwait, -⟩ := id hturn
    have hexec : exec i s = maCommand k step c s := by
      rcases hi with ⟨rfl, rfl⟩ | ⟨rfl, rfl⟩ | ⟨rfl, rfl⟩ | ⟨rfl, rfl⟩ | ⟨rfl, rfl⟩ | ⟨rfl, rfl⟩ <;> rfl
    have hruns : MaRuns k (maArrays c) s (setWalk s k step (maBound s k step c)) := maRuns_setWalk s k step _
    obtain ⟨ws, hcore⟩ := coreOf_setWalk s k step (maBound s k step c)
    refine ⟨_, completes_zero hexec hzero hturn, maFrame_maEnd hshape hwait hruns fun hnone => by rw [hnone]; rfl, ?_, fun a _ => ⟨?_, ?_⟩⟩
    · rw [maEnd_tq, hcore]
    · refine (maEnd_tiles (hruns.shape hshape) step c a).trans ?_
      rw [arrayOf, hcore]
    · refine (maEnd_held (hruns.shape hshape) step c a).trans ?_
      rw [arrayOf, hcore]

end Sys2Proof
end

section
/-! PROOFS. The words of a tile that a pass writes (O22, O23; R92, R99, R106, R114). -/

namespace Sys2Proof.Machine

/-! ## One value of a tile -/

theorem tget_putWord (t : Tbl (BitVec 32)) (key : Nat) (w : BitVec 32) (j : Nat) :
    (tget (putWord t key w) j).getD 0 = if j = key then w else (tget t j).getD 0 := by
  unfold putWord
  by_cases hj : j = key
  · subst hj
    split
    · next hw => simp [hw]
    · simp
  · split
    · rw [tget_tdel_other t _ _ hj]
    · rw [tget_tset_other t _ _ _ hj]

/-- Values of a tile have keys of their own. -/
theorem tileKey_inj {cx : Bool} {r x q r' x' q' : Nat} (hx : x < maWidth cx) (hx' : x' < maWidth cx) (hq : q < 2) (hq' : q' < 2) :
    tileKey cx r x q = tileKey cx r' x' q' ↔ (r, x) = (r', x') ∧ (cx = true → q = q') := by
  cases cx with
  | false =>
    simp only [tileKey, maWidth, Bool.false_eq_true, if_false, Prod.mk.injEq, false_implies, and_true] at *
    omega
  | true =>
    simp only [tileKey, maWidth, if_true, Prod.mk.injEq, forall_true_left] at *
    omega

/-- Part `q` of a value: a real value has one. -/
def elemPart (cx : Bool) (q : Nat) (e : Elem) : Val := if cx = true ∧ q = 1 then e.2 else e.1

/-- Writing a value leaves every other one. -/
theorem tileWord_tilePut {t : Tile} {cx : Bool} (hcx : t.cplx = cx) {r x q r' x' : Nat} (hx : x < maWidth cx) (hx' : x' < maWidth cx) (hq : q < 2)
    (e : Elem) : tileWord (tilePut t cx r' x' e) r x q = if (r, x) = (r', x') then accWord t.fmt (elemPart cx q e) else tileWord t r x q := by
  subst hcx
  have hzero := tileKey_inj (r := r) (r' := r') hx hx' hq Nat.zero_lt_two
  have hone := tileKey_inj (r := r) (r' := r') hx hx' hq Nat.one_lt_two
  have hword : tileWord (tilePut t t.cplx r' x' e) r x q = (tget (tilePut t t.cplx r' x' e).vals (tileKey t.cplx r x q)).getD 0 := rfl
  rw [hword, tilePut]
  cases hc : t.cplx with
  | false =>
    simp only [hc, Bool.false_eq_true, false_implies, and_true] at hzero
    simp only [Bool.false_eq_true, if_false, tget_putWord, hzero, tileWord, hc, elemPart, false_and]
  | true =>
    simp only [hc, forall_true_left] at hzero hone
    simp only [if_true, tget_putWord, hzero, hone, tileWord, hc, elemPart, true_and]
    by_cases hp : (r, x) = (r', x')
    · rcases Nat.lt_succ_iff_lt_or_eq.1 hq with h | rfl
      · simp [hp, Nat.lt_one_iff.1 h]
      · simp [hp]
    · simp [hp]

theorem tilePut_fmt (t : Tile) (cx : Bool) (r x : Nat) (e : Elem) : (tilePut t cx r x e).fmt = t.fmt ∧ (tilePut t cx r x e).cplx = t.cplx := ⟨rfl, rfl⟩

/-! ## The values of a pass -/

/-- The value that a pass makes of the products `ps` at (r, x) of tile `t`. -/
def passValue (c : MatCmd) (t : Tile) (p : Nat × Nat) (ps : List (Elem × Elem)) : Elem :=
  (macLine t.fmt (c.cplx == 1) (passStart c t p.1 p.2) ps).1

/-- The cells of a pass at the positions `ps`, the products `f` at each. -/
def cellsAt (f : Nat × Nat → List (Elem × Elem)) (ps : List (Nat × Nat)) : List (Nat × Nat × List (Elem × Elem)) := ps.map (fun p => (p.1, p.2, f p))

/-- A pass writes the values of its positions and leaves every other. -/
theorem tileRun_cellsAt {c : MatCmd} {old : Tile} {f : Nat × Nat → List (Elem × Elem)} (hcx : (tileFor c old).cplx = (c.cplx == 1))
    {ps : List (Nat × Nat)} (hps : ∀ p ∈ ps, p.2 < maWidth (c.cplx == 1)) :
    let t := tileFor c old
    let t' := (tileRun c old (cellsAt f ps)).1
    t'.fmt = t.fmt ∧ t'.cplx = t.cplx ∧ ∀ r x q, x < maWidth (c.cplx == 1) → q < 2 →
      tileWord t' r x q = if (r, x) ∈ ps then accWord t.fmt (elemPart (c.cplx == 1) q (passValue c t (r, x) (f (r, x)))) else tileWord t r x q := by
  dsimp only
  induction ps using List.reverseRecOn with
  | nil => exact ⟨rfl, rfl, fun _ _ _ _ _ => by simp [cellsAt, tileRun]⟩
  | append_singleton ps p ih =>
    obtain ⟨hfmt, hcplx, hword⟩ := ih fun y hy => hps y (List.mem_append_left _ hy)
    have hstep : (tileRun c old (cellsAt f (ps ++ [p]))).1 =
        tilePut (tileRun c old (cellsAt f ps)).1 (c.cplx == 1) p.1 p.2 (passValue c (tileFor c old) p (f p)) := by
      simp [tileRun, cellsAt, passValue]
    rw [hstep]
    refine ⟨hfmt, hcplx, fun r x q hx hq => ?_⟩
    rw [tileWord_tilePut (hcplx.trans hcx) hx (hps p (List.mem_append_right _ (List.mem_singleton.2 rfl))) hq, hfmt, hword r x q hx hq]
    by_cases hp : (r, x) = p
    · simp [hp]
    · simp [hp]

/-- A tile that a pass writes has the pass's mode, and a format (R106, R114). -/
theorem tileFor_of_tilesOk {s : State} {k i : Nat} {c : MatCmd} (hop : c.opcode = 2) (hok : maTilesOk c (arrayOf s k i) = true) {n : Nat}
    (hn : n < maTileCount c) :
    (tileFor c (tileOf s k i (c.accTile.toNat + n))).cplx = (c.cplx == 1) ∧ (tileFor c (tileOf s k i (c.accTile.toNat + n))).fmt ≠ .none := by
  have hfmt : accFmt c.fmtS.toNat ≠ .none := by unfold accFmt; split <;> decide
  have hused : n < if c.dataflow = 2 then 1 else ceilDiv c.rows.toNat 64 := by simpa only [maTileCount, hop, true_and] using hn
  have hmeets : c.acc = 0 ∨ (tileOf s k i (c.accTile.toNat + n)).fmt = .none ∨ (tileOf s k i (c.accTile.toNat + n)).cplx = (c.cplx == 1) := by
    simp only [maTilesOk, hop, bne_self_eq_false, Bool.false_or, Bool.or_eq_true, beq_iff_eq, List.all_eq_true, List.mem_range, Bool.and_eq_true] at hok
    exact hok.imp id fun h => (h n hused).imp id fun h => h.2
  generalize tileOf s k i (c.accTile.toNat + n) = t at *
  unfold tileFor
  dsimp only
  split
  · exact ⟨rfl, hfmt⟩
  · next hkept =>
    obtain ⟨hsome, hsame⟩ := not_or.1 hkept
    refine ⟨?_, hsome⟩
    rcases hmeets with hacc | hnone | hmode
    · by_contra hne
      exact hsame ⟨hacc, .inr hne⟩
    · exact absurd hnone hsome
    · exact hmode

/-- A tile whose words are those of a value holds it. -/
theorem tileHolds_of_words {t : Tile} {cx : Bool} {f : TileFmt} {r x : Nat} {v : Elem} (hcx : t.cplx = cx) (hfmt : t.fmt = f)
    (h : ∀ q < 2, tileWord t r x q = accWord f (elemPart cx q v)) : TileHolds t r x v := by
  subst hcx hfmt
  refine ⟨by simpa [elemPart] using h 0 (by decide), fun hc => by simpa [elemPart, hc] using h 1 (by decide)⟩

end Sys2Proof.Machine
end

section
/-! PROOFS. A pass from tile to tile: what has been written, and the slots that follow it (O22, O23; R105 to R107, R118, R119). -/

namespace Sys2Proof.Machine

/-! ## A pass on its way -/

/-- The slot filled from tile `T p` of array `p.1`, `V p` of its rows; `p.2` is the tile's number. -/
def tileSlot (T : Nat × Nat → Tile) (V : Nat × Nat → Nat) (p : Nat × Nat) : Slot := filledSlot p.2 p.1 (V p) (T p)

/-- What a command that sends its tiles adds to the queue. -/
def sent (c : MatCmd) (l : List Slot) : List Slot := if c.emit = 1 then l else []

/-- A pass that started from `s` stands at `t`: of the tiles, counted as (array, number), those in `done` are written with `T` and sent, and the
queue ends with `pending`. -/
structure PassAt (k : Nat) (c : MatCmd) (T : Nat × Nat → Tile) (V : Nat × Nat → Nat) (s : State) (done : List (Nat × Nat)) (pending : List Slot)
    (t : State) : Prop where
  runs : MaRuns k (maArrays c) s t
  held : ∀ i, (arrayOf t k i).held = (arrayOf s k i).held
  tile : ∀ i n, tileOf t k i n = if (i, n) ∈ done then T (i, n) else tileOf s k i n
  windows : (coreOf t k).windows = (coreOf s k).windows
  queue : (coreOf t k).tq = (coreOf s k).tq ++ sent c (done.map (tileSlot T V)) ++ sent c pending

/-- One tile of a pass: it is set, quietly, and its slot is filled if the pass sends. -/
def WritesTile (k : Nat) (c : MatCmd) (T : Nat × Nat → Tile) (V : Nat × Nat → Nat) (p : Nat × Nat) (s t : State) : Prop :=
  ∃ r, Quiet [coreUnit k] [maUnit k p.1] (setTile s k p.1 p.2 (T p)) r ∧ t = if c.emit = 1 then pushSlot r k p.1 p.2 (V p) else r

section
variable {k : Nat} {c : MatCmd} {T : Nat × Nat → Tile} {V : Nat × Nat → Nat} {s t r : State} {done : List (Nat × Nat)} {pending : List Slot}

theorem passAt_start (k : Nat) (c : MatCmd) (T : Nat × Nat → Tile) (V : Nat × Nat → Nat) (s : State) : PassAt k c T V s [] [] s :=
  ⟨.refl .., fun _ => rfl, fun _ _ => rfl, rfl, by simp [sent]⟩

theorem sent_of_emit (hemit : c.emit = 1) (l : List Slot) : sent c l = l := if_pos hemit
theorem sent_of_no_emit (hemit : c.emit ≠ 1) (l : List Slot) : sent c l = [] := if_neg hemit

/-- Reserving slots touches the queue alone. -/
theorem PassAt.reserve (h : PassAt k c T V s done [] t) (hemit : c.emit = 1) (n : Nat) (l : List Nat) :
    PassAt k c T V s done (l.map (emptySlot n)) (l.foldl (fun s i => reserveSlot s k i n) t) := by
  have hcore := foldl_reserveSlot_tq k n l t
  have harray (i : Nat) : arrayOf (l.foldl (fun s i => reserveSlot s k i n) t) k i = arrayOf t k i := by rw [arrayOf, hcore]
  refine ⟨h.runs.trans (maRuns_reserve n l t), fun i => by rw [harray, h.held], fun i m => ?_, by rw [hcore, h.windows], ?_⟩
  · rw [← h.tile, tileOf, show (coreOf _ k).arrays.getD i {} = _ from harray i]
    rfl
  · rw [hcore, h.queue]
    simp [sent_of_emit hemit]

/-- A tile that is written joins those that are done. -/
theorem PassAt.writes (hshape : MaShape s k) (hqueue : ∀ x ∈ (coreOf s k).tq, x.written ≠ 0) {p : Nat × Nat}
    (h : PassAt k c T V s done (emptySlot p.2 p.1 :: pending) t) (hp : p ∉ done) (hi : p.1 ∈ maArrays c) (hn : p.2 < 8)
    (hwrites : WritesTile k c T V p t r) : PassAt k c T V s (done ++ [p]) pending r := by
  obtain ⟨x, hquiet, hr⟩ := hwrites
  have hshape' := h.runs.shape hshape
  have hlt := mem_maArrays hi
  have hset := maRuns_setTile hshape' hlt hi p.2 (T p)
  have hruns : MaRuns k (maArrays c) s x := (h.runs.trans hset).trans
    (hquiet.runs (List.Subset.refl _) (List.cons_subset.2 ⟨List.mem_map_of_mem hi, List.nil_subset _⟩))
  have hcore : coreOf x k = { coreOf t k with arrays := putTile (coreOf t k).arrays p.1 p.2 (T p) } := by rw [hquiet.coreOf, coreOf_setTile]
  have hheld (i : Nat) : (arrayOf x k i).held = (arrayOf s k i).held := by
    rw [← h.held, arrayOf, hquiet.coreOf]
    refine (congrArg MaSt.held (arrayOf_setTile (maShape_tiles hshape' hlt).1 p.2 (T p) i)).trans ?_
    split <;> rfl
  have htile (i n : Nat) : tileOf x k i n = if (i, n) ∈ done ++ [p] then T (i, n) else tileOf s k i n := by
    have hone : tileOf x k i n = if i = p.1 ∧ n = p.2 then T p else tileOf t k i n := by
      rw [← tileOf_setTile hshape' hlt hn (T p), tileOf, hquiet.coreOf]
      rfl
    rw [hone, h.tile]
    by_cases hip : (i, n) = p
    · subst hip
      simp
    · have hne : ¬ (i = p.1 ∧ n = p.2) := fun h => hip (Prod.ext h.1 h.2)
      simp [hne, hip]
  have hwindows : (coreOf x k).windows = (coreOf s k).windows := by rw [hcore, ← h.windows]
  have htq : (coreOf x k).tq = (coreOf t k).tq := by rw [hcore]
  by_cases hemit : c.emit = 1
  · rw [if_pos hemit, pushSlot_eq] at hr
    subst hr
    have hsame : coreOf (modCore x k fun y => { y with tq := fillFirst p.1 p.2 (filledSlot p.2 p.1 (V p) (tileOf x k p.1 p.2)) y.tq }) k =
        { coreOf x k with tq := fillFirst p.1 p.2 (filledSlot p.2 p.1 (V p) (tileOf x k p.1 p.2)) (coreOf x k).tq } := coreOf_modCore_same ..
    refine ⟨hruns.trans (maRuns_modCore_of_arrays x rfl rfl), fun i => ?_, fun i n => ?_, by rw [hsame]; exact hwindows, ?_⟩
    · rw [arrayOf, hsame]
      exact hheld i
    · rw [tileOf, hsame]
      exact htile i n
    · have hown : tileOf x k p.1 p.2 = T p := by rw [htile]; simp
      rw [hsame]
      dsimp only
      rw [htq, h.queue, hown]
      simp only [sent_of_emit hemit]
      rw [fillFirst_append]
      · simp [tileSlot]
      · intro y hy hfits
        rcases List.mem_append.1 hy with hy | hy
        · exact hqueue y hy hfits.2.2
        · obtain ⟨p', hp', rfl⟩ := List.mem_map.1 hy
          exact hp (Prod.ext hfits.1 hfits.2.1 ▸ hp')
  · rw [if_neg hemit] at hr
    subst hr
    refine ⟨hruns, hheld, htile, hwindows, ?_⟩
    rw [htq, h.queue]
    simp [sent_of_no_emit hemit]

/-! ## The tiles of a pass -/

/-- Tile `ti` of each array of `l`. -/
def roundTiles (c : MatCmd) (ti : Nat) (l : List Nat) : List (Nat × Nat) := l.map (fun i => (i, c.accTile.toNat + ti))

/-- All tiles of a pass from `ti` on, `m` of each array. -/
def tilesFrom (c : MatCmd) (ti m : Nat) : List (Nat × Nat) := (List.range' ti m).flatMap (fun ti => roundTiles c ti (maArrays c))

theorem mem_tilesFrom {ti m i n : Nat} : (i, n) ∈ tilesFrom c ti m ↔ i ∈ maArrays c ∧ c.accTile.toNat + ti ≤ n ∧ n < c.accTile.toNat + ti + m := by
  simp only [tilesFrom, roundTiles, List.mem_flatMap, List.mem_range'_1, List.mem_map, Prod.mk.injEq]
  constructor
  · rintro ⟨y, hy, i', hi', rfl, rfl⟩
    exact ⟨hi', by omega, by omega⟩
  · rintro ⟨hi, hlow, hhigh⟩
    exact ⟨n - c.accTile.toNat, by omega, i, hi, rfl, by omega⟩

theorem length_tilesFrom (c : MatCmd) (ti m : Nat) : (tilesFrom c ti m).length = m * (maArrays c).length := by
  simp [tilesFrom, roundTiles]

variable {w : Option WinSt}
  (hshape : MaShape s k) (hqueue : ∀ x ∈ (coreOf s k).tq, x.written ≠ 0) (hfits : c.accTile.toNat + maTileCount c ≤ 8)
  (hwrites : ∀ ti < maTileCount c, ∀ i ∈ maArrays c, ∀ done pending t, PassAt k c T V s done pending t → (i, c.accTile.toNat + ti) ∉ done →
    ∃ r v, maTile t k c w ti i ((maArrays c).idxOf i) = .ok (r, v) ∧ WritesTile k c T V (i, c.accTile.toNat + ti) t r)

include hshape hqueue hfits hwrites in
/-- One round of a pass. -/
theorem maTiles_passAt {ti : Nat} (hti : ti < maTileCount c) {l : List Nat} (hnodup : l.Nodup) (hlive : ∀ i ∈ l, i ∈ maArrays c) :
    ∀ {done : List (Nat × Nat)} {t : State}, (∀ p ∈ roundTiles c ti l, p ∉ done) → PassAt k c T V s done (l.map (emptySlot (c.accTile.toNat + ti))) t →
      (maTiles k c w ti t l).2 = l ∧ PassAt k c T V s (done ++ roundTiles c ti l) [] (maTiles k c w ti t l).1 := by
  induction l with
  | nil => intro done t _ h; simpa [maTiles, roundTiles] using h
  | cons i l ih =>
    intro done t hnew h
    obtain ⟨hi, hnodup⟩ := List.nodup_cons.1 hnodup
    have hfirst : (i, c.accTile.toNat + ti) ∉ done := hnew _ List.mem_cons_self
    obtain ⟨r, v, htile, hwrite⟩ := hwrites ti hti i (hlive i List.mem_cons_self) done _ t h hfirst
    have hr := h.writes hshape hqueue (p := (i, c.accTile.toNat + ti)) hfirst (hlive i List.mem_cons_self) (by dsimp only; omega) hwrite
    have hlater : ∀ p ∈ roundTiles c ti l, p ∉ done ++ [(i, c.accTile.toNat + ti)] := by
      intro p hp hmem
      rcases List.mem_append.1 hmem with hmem | hmem
      · exact hnew p (List.mem_cons_of_mem _ hp) hmem
      · obtain rfl := List.mem_singleton.1 hmem
        obtain ⟨j, hj, hji⟩ := List.mem_map.1 hp
        exact hi ((Prod.mk.inj hji).1 ▸ hj)
    obtain ⟨hran, hpass⟩ := ih hnodup (fun j hj => hlive j (List.mem_cons_of_mem _ hj)) hlater hr
    rw [List.append_assoc] at hpass
    rw [maTiles, htile]
    dsimp only
    rw [hran]
    exact ⟨rfl, hpass⟩

include hshape hqueue hfits hwrites in
/-- All rounds of a pass whose tiles find free slots. -/
theorem maRunFrom_passAt (hop : c.opcode = 2) (hne : maArrays c ≠ [])
    (hroom : maSends c = true → (coreOf s k).tq.length + maTileCount c * (maArrays c).length ≤ 16) (step : Nat) :
    ∀ (fuel ti : Nat) (t : State), ti ≤ maTileCount c → maTileCount c - ti ≤ fuel → PassAt k c T V s (tilesFrom c 0 ti) [] t →
      ∃ r, maRunFrom k step c w fuel t ti (maArrays c) [] = (maDone r k step c (maArrays c), none) ∧
        PassAt k c T V s (tilesFrom c 0 (maTileCount c)) [] r := by
  intro fuel
  induction fuel with
  | zero =>
    intro ti t hle hfuel h
    obtain rfl : ti = maTileCount c := by omega
    exact ⟨t, rfl, h⟩
  | succ fuel ih =>
    intro ti t hle hfuel h
    rcases Nat.eq_or_lt_of_le hle with rfl | hti
    · exact ⟨t, by rw [maRunFrom, if_pos (.inl (Nat.le_refl _))], h⟩
    · have hnew : ∀ p ∈ roundTiles c ti (maArrays c), p ∉ tilesFrom c 0 ti := by
        intro p hp hmem
        obtain ⟨i, -, rfl⟩ := List.mem_map.1 hp
        have := (mem_tilesFrom.1 hmem).2.2
        omega
      have hsends : maSends c = true ↔ c.emit = 1 := by simp [maSends, hop]
      have hreserved : ∃ t', (if maSends c = true then maReserve k (c.accTile.toNat + ti) t [] (maArrays c) else (t, maArrays c)) = (t', maArrays c) ∧
          PassAt k c T V s (tilesFrom c 0 ti) ((maArrays c).map (emptySlot (c.accTile.toNat + ti))) t' := by
        by_cases hemit : c.emit = 1
        · have hfree : (coreOf t k).tq.length + (maArrays c).length ≤ 16 := by
            have hround : (ti + 1) * (maArrays c).length ≤ maTileCount c * (maArrays c).length := Nat.mul_le_mul_right _ hti
            have hroom := hroom (hsends.2 hemit)
            rw [h.queue]
            simp only [sent_of_emit hemit, List.length_append, List.length_map, length_tilesFrom, List.length_nil]
            rw [Nat.succ_mul] at hround
            omega
          rw [if_pos (hsends.2 hemit), maReserve_all (nodup_maArrays c) hfree]
          exact ⟨_, rfl, h.reserve hemit _ _⟩
        · rw [if_neg (mt hsends.1 hemit)]
          refine ⟨t, rfl, h.runs, h.held, h.tile, h.windows, ?_⟩
          rw [h.queue]
          simp [sent_of_no_emit hemit]
      obtain ⟨t', hround, hpass⟩ := hreserved
      obtain ⟨hran, hpass⟩ := maTiles_passAt hshape hqueue hfits hwrites hti (nodup_maArrays c) (fun _ h => h) hnew hpass
      have hdone : tilesFrom c 0 ti ++ roundTiles c ti (maArrays c) = tilesFrom c 0 (ti + 1) := by
        simp [tilesFrom, List.range'_1_concat]
      have hany : (maArrays c).any (fun i => !(maArrays c).contains i) = false := List.any_eq_false.2 fun i hi => by simp [hi]
      rw [hdone] at hpass
      obtain ⟨r, hrest, hpass⟩ := ih (ti + 1) _ hti (by omega) hpass
      refine ⟨r, ?_, hpass⟩
      rw [maRunFrom, if_neg (not_or.2 ⟨Nat.not_le.2 hti, hne⟩)]
      dsimp only
      rw [hround]
      simp only [hany, Bool.false_eq_true, if_false, hran, hrest]

end

end Sys2Proof.Machine
end

section
/-! PROOFS. Passes with a held block (O22; R104 to R106, R109, R114, R118, R291). -/

namespace Sys2Proof.Machine

/-! ## A pass that runs to its end -/

section
variable {s : State} {k step : Nat} {c : MatCmd} {T : Nat × Nat → Tile} {V : Nat × Nat → Nat}

/-- A pass in its turn, whose tiles one after another are written, ends with all of them written. -/
theorem pass_completes {instr : Instr} (hturn : MaTurn s k step c) (hexec : exec instr s = maCommand k step c s) (hshape : MaShape s k)
    (hop : c.opcode = 2) (hzero : maZero c = false) (hfits : c.accTile.toNat + maTileCount c ≤ 8)
    (hwrites : ∀ ti < maTileCount c, ∀ i ∈ maArrays c, ∀ t, MaRuns k (maArrays c) s t → (arrayOf t k i).held = (arrayOf s k i).held →
      tileOf t k i (c.accTile.toNat + ti) = tileOf s k i (c.accTile.toNat + ti) →
      ∃ r v, maTile t k c (maBound s k step c) ti i ((maArrays c).idxOf i) = .ok (r, v) ∧ WritesTile k c T V (i, c.accTile.toNat + ti) t r) :
    ∃ s', Completes instr s s' ∧ MaFrame s s' k step c ∧ (∀ u, FifoIdle s u → FifoIdle s' u) ∧
      (∀ i, (arrayOf s' k i).held = (arrayOf s k i).held) ∧
      (∀ i n, tileOf s' k i n = if (i, n) ∈ tilesFrom c 0 (maTileCount c) then T (i, n) else tileOf s k i n) ∧
      (coreOf s' k).tq = (coreOf s k).tq ++ sent c ((tilesFrom c 0 (maTileCount c)).map (tileSlot T V)) := by
  obtain ⟨-, -, -, -, hnamed, -, hwait, -, hwritten, -, -, hroom⟩ := id hturn
  have hwalk : MaRuns k (maArrays c) s (setWalk s k step (maBound s k step c)) := maRuns_setWalk s k step _
  obtain ⟨ws, hcore⟩ := coreOf_setWalk s k step (maBound s k step c)
  have hbound : maBound s k step c = none → (coreOf (setWalk s k step (maBound s k step c)) k).windows = (coreOf s k).windows := fun hnone => by
    rw [hnone]; rfl
  have hstart := maStart_of_turn hturn
  rw [maBegins, if_neg (by simp [hzero]), if_neg (by simp [hop])] at hstart
  generalize setWalk s k step (maBound s k step c) = s1 at *
  have hqueue : (coreOf s1 k).tq = (coreOf s k).tq := by rw [hcore]
  have harray (i : Nat) : arrayOf s1 k i = arrayOf s k i := by rw [arrayOf, hcore]
  have htile (i n : Nat) : tileOf s1 k i n = tileOf s k i n := by rw [tileOf, hcore]; rfl
  have hfrom (ti : Nat) (hti : ti < maTileCount c) (i : Nat) (hi : i ∈ maArrays c) (done : List (Nat × Nat)) (pending : List Slot) (t : State)
      (h : PassAt k c T V s1 done pending t) (hnew : (i, c.accTile.toNat + ti) ∉ done) :
      ∃ r v, maTile t k c (maBound s k step c) ti i ((maArrays c).idxOf i) = .ok (r, v) ∧ WritesTile k c T V (i, c.accTile.toNat + ti) t r :=
    hwrites ti hti i hi t (hwalk.trans h.runs) (by rw [h.held, harray]) (by rw [h.tile, if_neg hnew, htile])
  obtain ⟨r, hrun, hpass⟩ := maRunFrom_passAt (hwalk.shape hshape) (hqueue ▸ hwritten) hfits hfrom hop (maArrays_ne_nil hnamed)
    (hqueue ▸ hroom) step 9 0 s1 (Nat.zero_le _) (by omega) (passAt_start ..)
  rw [hrun] at hstart
  have hruns := hwalk.trans hpass.runs
  have hshape' := hruns.shape hshape
  refine ⟨maEnd r k step c, completes_of_turn hturn hexec hruns hstart, maFrame_maEnd hshape hwait hruns fun hnone => ?_, fun u hu => ?_, fun i => ?_,
    fun i n => ?_, ?_⟩
  · rw [hpass.windows, hbound hnone]
  · rw [FifoIdle, engMemOf_maEnd]
    exact hruns.idle u hu
  · rw [maEnd_held hshape', hpass.held, harray]
  · rw [tileOf_maEnd hshape', hpass.tile, htile]
  · rw [maEnd_tq, hpass.queue, hqueue]
    simp [sent]

end

/-! ## One tile of a pass in WS or IS -/

/-- The rows that make tile `ti` (R105). -/
def tileRows (c : MatCmd) (ti : Nat) : List Nat := (List.range c.rows.toNat).filter (fun r => r / 64 = ti)

/-- Streamed row `r` as bytes: zeros where the window has none (R104, R156). -/
def streamedBytes (s : State) (k : Nat) (c : MatCmd) (a : Option Nat) : List Byte :=
  a.elim (zeroRow c.fmtT.toNat (c.cplx == 1) c.depth.toNat) (fun a => (maRead s k a (rowBytes c.fmtT.toNat (c.cplx == 1) c.depth.toNat)).bytes)

/-- The products of streamed row `r` with column `x` of the held block, in ascending k (R99, R105, R109). -/
def passProducts (s : State) (k : Nat) (c : MatCmd) (w : Option WinSt) (i r x : Nat) : List (Elem × Elem) :=
  let K := maDepth c.fmtS.toNat (c.cplx == 1)
  (padTo K (rowElems c.fmtT.toNat (c.cplx == 1) (streamedBytes s k c (maRowAddr w c i ((maArrays c).idxOf i) r)) c.depth.toNat)).zip
    ((List.range K).map (fun y => heldRead (arrayOf s k i).held c.op.toNat y x))

/-- The place in its tile of streamed row `r` and column `x` of the block: in IS the row is a column (R106). -/
def passPlace (c : MatCmd) (r x : Nat) : Nat × Nat := if c.dataflow = 1 then (x, r % 64) else (r % 64, x)

/-- The products at place `p` of tile `ti`. -/
def productsAt (s : State) (k : Nat) (c : MatCmd) (w : Option WinSt) (i ti : Nat) (p : Nat × Nat) : List (Elem × Elem) :=
  if c.dataflow = 1 then passProducts s k c w i (64 * ti + p.2) p.1 else passProducts s k c w i (64 * ti + p.1) p.2

/-- The places of tile `ti` that a pass writes. -/
def passPlaces (s : State) (k : Nat) (c : MatCmd) (i ti : Nat) : List (Nat × Nat) :=
  (tileRows c ti).flatMap (fun r => (List.range (passWidth s k c i)).map (passPlace c r))

/-- Tile `p.2` of array `p.1` as a pass leaves it. -/
def passTile (s : State) (k : Nat) (c : MatCmd) (w : Option WinSt) (p : Nat × Nat) : Tile :=
  (tileRun c (tileOf s k p.1 p.2) (cellsAt (productsAt s k c w p.1 (p.2 - c.accTile.toNat)) (passPlaces s k c p.1 (p.2 - c.accTile.toNat)))).1

/-- The valid rows of the slot that follows it (R118). -/
def passValid (s : State) (k : Nat) (c : MatCmd) (p : Nat × Nat) : Nat :=
  if c.dataflow = 1 then passWidth s k c p.1 else (tileRows c (p.2 - c.accTile.toNat)).length

section
variable {s t : State} {k : Nat} {c : MatCmd} {w : Option WinSt} {i ti : Nat}

theorem productsAt_passPlace {r : Nat} (hr : r / 64 = ti) (x : Nat) : productsAt s k c w i ti (passPlace c r x) = passProducts s k c w i r x := by
  have hrow : 64 * ti + r % 64 = r := by omega
  unfold productsAt passPlace
  split <;> simp only [hrow]

theorem zipIdx_map_range {α : Type} (f : Nat → α) (n : Nat) : ((List.range n).map f).zipIdx = (List.range n).map (fun j => (f j, j)) := by
  apply List.ext_getElem
  · simp
  · intro j hj hj'
    simp

/-- The columns of the held block as OP reads it, each with its number (R109). -/
def heldColumns (s : State) (k : Nat) (c : MatCmd) (i : Nat) : List (List Elem × Nat) :=
  ((List.range (passWidth s k c i)).map (fun j => (List.range (maDepth c.fmtS.toNat (c.cplx == 1))).map (fun x =>
    heldRead (arrayOf s k i).held c.op.toNat x j))).zipIdx

/-- The cells of streamed row `p.1` of bytes `p.2`. -/
def rowCells (s : State) (k : Nat) (c : MatCmd) (i : Nat) (p : Nat × List Byte) : List (Nat × Nat × List (Elem × Elem)) :=
  let es := padTo (maDepth c.fmtS.toNat (c.cplx == 1)) (rowElems c.fmtT.toNat (c.cplx == 1) p.2 c.depth.toNat)
  (heldColumns s k c i).map (fun q => if c.dataflow = 1 then (q.2, p.1 % 64, es.zip q.1) else (p.1 % 64, q.2, es.zip q.1))

/-- The cells of a tile's rows are the products at its places. -/
theorem flatMap_rowCells : ((tileRows c ti).zip (((tileRows c ti).map (maRowAddr w c i ((maArrays c).idxOf i))).map (streamedBytes s k c))).flatMap
    (rowCells s k c i) = cellsAt (productsAt s k c w i ti) (passPlaces s k c i ti) := by
  rw [List.map_map, List.zip_map_right, List.zip_eq_zipWith, List.zipWith_self, List.map_map, cellsAt, passPlaces, List.flatMap_map, List.map_flatMap]
  refine List.flatMap_congr fun r hr => ?_
  have hrow : r / 64 = ti := by simpa using (List.mem_filter.1 hr).2
  rw [rowCells, heldColumns, zipIdx_map_range, List.map_map, List.map_map]
  refine List.map_congr_left fun x _ => ?_
  simp only [Function.comp_apply, productsAt_passPlace hrow]
  unfold passPlace
  split <;> rfl

theorem passWidth_toNat (s : State) (k : Nat) (c : MatCmd) (i : Nat) : passWidth s k c i =
    if c.op.toNat = 0 then ((coreOf s k).arrays.getD i {}).held.cols else ((coreOf s k).arrays.getD i {}).held.depth := by
  have hop : c.op = 0 ↔ c.op.toNat = 0 := ⟨fun h => by rw [h]; rfl, fun h => BitVec.eq_of_toNat_eq h⟩
  simp only [passWidth, hop]

theorem quiet_clearErrs {vs us : List UAddr} {u : UAddr} (herrs : (engMemOf s u).errs = []) (lo n : Nat) : Quiet vs us s (clearErrs s u lo n) := by
  rw [clearErrs_of_none herrs]
  exact .refl ..

/-- What follows a tile that is set: SAT, and the errors of the words written anew, of which there are none. -/
theorem quiet_setSat_clearErrs {x : State} (herrs : (engMemOf x (maUnit k i)).errs = []) (sat lo n : Nat) :
    Quiet [coreUnit k] [maUnit k i] x (clearErrs (setSat x k (maUnit k i) 0x04 sat) (maUnit k i) lo n) := by
  have hsat : Quiet [coreUnit k] [maUnit k i] x (setSat x k (maUnit k i) 0x04 sat) := quiet_setSat x (List.mem_singleton.2 rfl) ..
  exact hsat.trans (quiet_clearErrs ((hsat.errs _).trans herrs) lo n)

/-- Setting a tile between quiet steps writes it. -/
theorem writesTile_of_quiet {T : Nat × Nat → Tile} {V : Nat × Nat → Nat} {n v : Nat} {tile : Tile} {x r : State}
    (hx : Quiet [coreUnit k] [maUnit k i] t x) (hr : Quiet [coreUnit k] [maUnit k i] (setTile x k i n tile) r) (hT : tile = T (i, n))
    (hV : v = V (i, n)) : WritesTile k c T V (i, n) t (if c.emit = 1 then pushSlot r k i n v else r) := by
  have hset : Quiet [coreUnit k] [maUnit k i] (setTile t k i n tile) (setTile x k i n tile) := hx.modCore k _
  exact ⟨r, hT ▸ hset.trans hr, by rw [hV]⟩

/-- A tile of a pass whose streamed rows are good is written. -/
theorem maTile_pass (hop : c.opcode = 2) (hdf : c.dataflow ≠ 2)
    (hgood : ∀ r a, r < c.rows.toNat → maRowAddr w c i ((maArrays c).idxOf i) r = some a →
      GoodRead (maRead s k a (rowBytes c.fmtT.toNat (c.cplx == 1) c.depth.toNat)))
    (herrs : (engMemOf t (maUnit k i)).errs = []) (hidle : FifoIdle t (maUnit k i)) (hruns : MaRuns k (maArrays c) s t)
    (hheld : (arrayOf t k i).held = (arrayOf s k i).held) (htile : tileOf t k i (c.accTile.toNat + ti) = tileOf s k i (c.accTile.toNat + ti)) :
    ∃ r v, maTile t k c w ti i ((maArrays c).idxOf i) = .ok (r, v) ∧
      WritesTile k c (passTile s k c w) (passValid s k c) (i, c.accTile.toNat + ti) t r := by
  have hread (a n : Nat) : maRead t k a n = maRead s k a n := hruns.maRead k a n
  have hbytes (a : Option Nat) : streamedBytes t k c a = streamedBytes s k c a := by
    simp only [streamedBytes, hread]
  have hbad : badRead ((((tileRows c ti).map (maRowAddr w c i ((maArrays c).idxOf i))).filterMap (fun x => x)).map
      (fun x => maRead t k x (rowBytes c.fmtT.toNat (c.cplx == 1) c.depth.toNat))) = none := badRead_of_good fun g hg => by
    obtain ⟨a, ha, rfl⟩ := List.mem_map.1 hg
    obtain ⟨o, ho, rfl⟩ := List.mem_filterMap.1 ha
    obtain ⟨r, hr, haddr⟩ := List.mem_map.1 ho
    rw [hread]
    exact hgood r a (List.mem_range.1 (List.mem_filter.1 hr).1) haddr
  have hcells : rowCells t k c i = rowCells s k c i := by
    unfold rowCells heldColumns passWidth
    simp only [hheld]
  obtain ⟨hstream, -⟩ := stream_idle (((tileRows c ti).map (maRowAddr w c i ((maArrays c).idxOf i))).map (streamedBytes t k c)) hidle
  have hquiet : Quiet [coreUnit k] [maUnit k i] t (stream t (maUnit k i)
    (((tileRows c ti).map (maRowAddr w c i ((maArrays c).idxOf i))).map (streamedBytes t k c))).2 := quiet_stream t (List.mem_singleton.2 rfl) _
  rw [maTile, if_neg (by simp [hop]), if_neg hdf]
  unfold maPassTile
  dsimp only
  rw [show List.filter (fun r => decide (r / 64 = ti)) (List.range c.rows.toNat) = tileRows c ti from rfl, hbad]
  simp only [errGot_of_none herrs, ite_self, Option.or_none]
  have hwidth : passWidth t k c i = passWidth s k c i := by simp only [passWidth, hheld]
  rw [← passWidth_toNat t k c i, show (fun x : Option Nat => x.elim (zeroRow c.fmtT.toNat (c.cplx == 1) c.depth.toNat)
    fun x => (maRead t k x (rowBytes c.fmtT.toNat (c.cplx == 1) c.depth.toNat)).bytes) = streamedBytes t k c from rfl]
  have hcount := hquiet.trans (quiet_countReads _ k (rowBytes c.fmtT.toNat (c.cplx == 1) c.depth.toNat)
    (((tileRows c ti).map (maRowAddr w c i ((maArrays c).idxOf i))).filterMap (fun x => x)))
  have hcounted := (hcount.errs (maUnit k i)).trans herrs
  rw [countErrs_of_none ((hquiet.errs _).trans herrs), countErrs_of_none hcounted, ite_self]
  refine ⟨_, _, rfl, writesTile_of_quiet hcount (quiet_setSat_clearErrs (by exact hcounted) _ _ _) ?_ ?_⟩
  · have hold : (arrayOf t k i).tiles.getD (c.accTile.toNat + ti) {} = tileOf s k i (c.accTile.toNat + ti) := htile
    have hstreamed : streamedBytes t k c = streamedBytes s k c := funext hbytes
    have hcellsAt : (((tileRows c ti).zip (stream t (maUnit k i)
        (((tileRows c ti).map (maRowAddr w c i ((maArrays c).idxOf i))).map (streamedBytes t k c))).1).flatMap (rowCells t k c i)) =
          cellsAt (productsAt s k c w i ti) (passPlaces s k c i ti) := by rw [hstream, hcells, hstreamed, flatMap_rowCells]
    rw [passTile, Nat.add_sub_cancel_left, ← hcellsAt, ← hold]
    rfl
  · rw [passValid, Nat.add_sub_cancel_left, hwidth]

end

/-! ## The values of a tile that a pass has written -/

/-- What a PASS in WS or IS that R115 lets through names (R96, R105, R109). -/
theorem maFieldsOk_pass {c : MatCmd} (hop : c.opcode = 2) (hdf : c.dataflow ≠ 2) (h : maFieldsOk c = true) :
    (c.dataflow = 1 → c.cplx ≠ 1) ∧ c.accTile.toNat + ceilDiv c.rows.toNat 64 ≤ 8 := by
  have hpass := (Bool.and_eq_true_iff.1 h).2
  rw [hop] at hpass
  change (_ && ite _ _ _) = true at hpass
  rw [if_neg hdf] at hpass
  simp only [Bool.and_eq_true, decide_eq_true_eq, Bool.not_eq_true', Bool.and_eq_false_iff, beq_eq_false_iff_ne] at hpass
  obtain ⟨-, ⟨⟨⟨-, hmode⟩, -⟩, -⟩, htiles⟩ := hpass
  exact ⟨fun his => hmode.resolve_left fun hne => hne his, htiles⟩

theorem maZero_of_pass {c : MatCmd} (hop : c.opcode = 2) :
    maZero c = (c.arrays == 0 || (c.rows == 0 || c.depth == 0 || (c.dataflow == 2 && c.cols == 0))) := by
  simp only [maZero, hop]
  rfl

theorem maZero_pass {c : MatCmd} (hop : c.opcode = 2) (hdf : c.dataflow ≠ 2) (hnamed : c.arrays ≠ 0) (hrows : c.rows ≠ 0) (hdepth : c.depth ≠ 0) :
    maZero c = false := by
  rw [maZero_of_pass hop, beq_eq_false_iff_ne.2 hnamed, beq_eq_false_iff_ne.2 hrows, beq_eq_false_iff_ne.2 hdepth, beq_eq_false_iff_ne.2 hdf]
  rfl

section
variable {s : State} {k step : Nat} {c : MatCmd} {w : Option WinSt} {i ti : Nat}

theorem mem_passPlaces {p : Nat × Nat} : p ∈ passPlaces s k c i ti ↔
    ∃ r x, r < c.rows.toNat ∧ r / 64 = ti ∧ x < passWidth s k c i ∧ p = passPlace c r x := by
  simp only [passPlaces, tileRows, List.mem_flatMap, List.mem_filter, List.mem_range, List.mem_map, decide_eq_true_eq]
  constructor
  · rintro ⟨r, ⟨hr, hti⟩, x, hx, rfl⟩
    exact ⟨r, x, hr, hti, hx, rfl⟩
  · rintro ⟨r, x, hr, hti, hx, rfl⟩
    exact ⟨r, ⟨hr, hti⟩, x, hx, rfl⟩

/-- A pass whose columns fit writes within the tile's columns. -/
theorem passPlaces_lt (hfits : passWidth s k c i ≤ maWidth (c.cplx == 1)) (hreal : c.dataflow = 1 → c.cplx ≠ 1) {p : Nat × Nat}
    (hp : p ∈ passPlaces s k c i ti) : p.2 < maWidth (c.cplx == 1) := by
  obtain ⟨r, x, -, -, hx, rfl⟩ := mem_passPlaces.1 hp
  unfold passPlace
  split
  · next his =>
    rw [beq_eq_false_iff_ne.2 (hreal his)]
    exact Nat.mod_lt _ (by decide)
  · exact hx.trans_le hfits

/-- The products of a pass are those of the row that it streams. -/
theorem passProducts_eq (x r : Nat) : passProducts s k c (maBound s k step c) i r x = (passRow s k step c i ((maArrays c).idxOf i) r).zip
    ((List.range (maDepth c.fmtS.toNat (c.cplx == 1))).map (fun y => heldRead ((coreOf s k).arrays.getD i {}).held c.op.toNat y x)) := by
  simp only [passProducts, passRow, streamedBytes]
  cases maRowAddr (maBound s k step c) c i ((maArrays c).idxOf i) r <;> rfl

/-- A tile that a pass has written: the format and mode, the values at its places, and the words of the others. -/
theorem passTile_holds {n : Nat} (hfits : passWidth s k c i ≤ maWidth (c.cplx == 1)) (hreal : c.dataflow = 1 → c.cplx ≠ 1)
    (hcx : (tileFor c (tileOf s k i (c.accTile.toNat + n))).cplx = (c.cplx == 1)) :
    let t := tileFor c (tileOf s k i (c.accTile.toNat + n))
    let t' := passTile s k c w (i, c.accTile.toNat + n)
    t'.fmt = t.fmt ∧ t'.cplx = t.cplx ∧
      (∀ r x, r < c.rows.toNat → r / 64 = n → x < passWidth s k c i →
        TileHolds t' (passPlace c r x).1 (passPlace c r x).2 (passValue c t (passPlace c r x) (passProducts s k c w i r x))) ∧
      ∀ r x q, x < maWidth (c.cplx == 1) → q < 2 → (r, x) ∉ passPlaces s k c i n → tileWord t' r x q = tileWord t r x q := by
  intro t t'
  have hlt (p : Nat × Nat) (hp : p ∈ passPlaces s k c i n) := passPlaces_lt hfits hreal hp
  have ht' : t' = (tileRun c (tileOf s k i (c.accTile.toNat + n)) (cellsAt (productsAt s k c w i n) (passPlaces s k c i n))).1 := by
    simp only [t', passTile, Nat.add_sub_cancel_left]
  obtain ⟨hfmt, hcplx, hwords⟩ := tileRun_cellsAt (f := productsAt s k c w i n) hcx hlt
  rw [ht']
  refine ⟨hfmt, hcplx, fun r x hr hrn hx => ?_, fun r x q hx hq hout => ?_⟩
  · have hplace : passPlace c r x ∈ passPlaces s k c i n := mem_passPlaces.2 ⟨r, x, hr, hrn, hx, rfl⟩
    rw [← productsAt_passPlace hrn]
    exact tileHolds_of_words (hcplx.trans hcx) hfmt fun q hq => (hwords _ _ q (hlt _ hplace) hq).trans (if_pos hplace)
  · rw [hwords r x q hx hq, if_neg hout]

end

end Sys2Proof.Machine

namespace Sys2Proof
open Machine

/-- Settles O22: every tile of the pass is written in turn (`pass_completes`, `maTile_pass`), with the values at its places and no others
(`passTile_holds`). -/
theorem matrixPasses : Obligations.MatrixPasses := by
  unfold Obligations.MatrixPasses
  intro s k step c0 df hdf
  have hdf2 : df ≠ 2 := by rcases hdf with rfl | rfl <;> decide
  intro c instr hturn hshape hrows hdepth hwidth hgood
  have hne2 : c.dataflow ≠ 2 := hdf2
  obtain ⟨-, -, -, -, hnamed, hfields, -⟩ := id hturn
  obtain ⟨hreal, hfits⟩ := maFieldsOk_pass rfl hne2 hfields
  have hcount : maTileCount c = ceilDiv c.rows.toNat 64 := if_neg fun h => hne2 h.2
  have hexec : exec instr s = maCommand k step c s := by rcases hdf with rfl | rfl <;> rfl
  have hgood' {i : Nat} (hi : i ∈ maArrays c) (r a : Nat) (hr : r < c.rows.toNat)
      (haddr : maRowAddr (maBound s k step c) c i ((maArrays c).idxOf i) r = some a) :
      GoodRead (maRead s k a (rowBytes c.fmtT.toNat (c.cplx == 1) c.depth.toNat)) := by
    have hlt := List.idxOf_lt_length_of_mem hi
    exact hgood _ a r hlt hr (by rwa [List.getD_eq_getElem _ _ hlt, List.getElem_idxOf])
  obtain ⟨s', hcompletes, hframe, hidle, hheld, htile, hqueue⟩ := pass_completes (T := passTile s k c (maBound s k step c)) (V := passValid s k c)
    hturn hexec hshape rfl (maZero_pass rfl hne2 hnamed hrows hdepth) (hcount ▸ hfits) fun ti hti i hi t hruns hheld htile =>
      maTile_pass rfl hne2 (hgood' hi) ((hruns.errs _).trans (MaTurn.errs hturn hi)) (hruns.idle _ (MaTurn.idle hturn hi)) hruns hheld htile
  have hkept {i n : Nat} (hi : i ∈ maArrays c) (hn : n < maTileCount c) := tileFor_of_tilesOk (c := c) rfl (MaTurn.tilesOk hturn hi) hn
  have hvalues {i n : Nat} (hi : i ∈ maArrays c) (hn : n < maTileCount c) :=
    passTile_holds (w := maBound s k step c) (hwidth i hi) hreal (hkept hi hn).1
  refine ⟨s', hcompletes, hframe, fun hemit => ?_, fun hemit => ⟨_, hqueue, ?_, fun x hx => ?_⟩, fun j hj => ?_⟩
  · rw [hqueue, sent_of_no_emit (by rw [hemit]; decide), List.append_nil]
  · rw [sent_of_emit hemit, List.length_map, length_tilesFrom]
  · rw [sent_of_emit hemit] at hx
    obtain ⟨⟨i, m⟩, hp, rfl⟩ := List.mem_map.1 hx
    obtain ⟨hi, hlow, hhigh⟩ := mem_tilesFrom.1 hp
    obtain ⟨n, rfl⟩ := Nat.exists_eq_add_of_le (show c.accTile.toNat ≤ m by omega)
    have hn : n < maTileCount c := by omega
    have hsome : (passTile s k c (maBound s k step c) (i, c.accTile.toNat + n)).fmt ≠ .none := (hvalues hi hn).1 ▸ (hkept hi hn).2
    dsimp only [tileSlot, filledSlot]
    rw [htile, if_pos hp, if_neg hsome]
    exact ⟨rfl, rfl⟩
  · have hi : (maArrays c).getD j 0 ∈ maArrays c := List.getD_eq_getElem _ 0 hj ▸ List.getElem_mem hj
    have hidx : (maArrays c).idxOf ((maArrays c).getD j 0) = j := by
      rw [List.getD_eq_getElem _ _ hj]
      exact (nodup_maArrays c).idxOf_getElem j hj
    dsimp only
    generalize (maArrays c).getD j 0 = i at *
    refine ⟨hheld i, hidle _ (MaTurn.idle hturn hi), fun n _ hn => ?_, fun n hn => ?_⟩
    · rw [htile, if_neg fun hmem => ?_]
      have := (mem_tilesFrom.1 hmem).2
      omega
    · obtain ⟨hfmt, hcplx, hholds, hothers⟩ := hvalues hi hn
      rw [htile, if_pos (mem_tilesFrom.2 ⟨hi, by omega, by omega⟩)]
      refine ⟨hfmt, hcplx, fun r x hr hrn hx => ?_, fun r x q _ hx hq hout => hothers r x q hx hq fun hmem => ?_⟩
      · have hcell := hholds r x hr hrn hx
        rwa [passProducts_eq, hidx] at hcell
      · obtain ⟨r', x', hr', hrn, hx', hp⟩ := mem_passPlaces.1 hmem
        have hplace := hout r' hr' hrn
        by_cases his : df = 1
        · rw [if_pos his] at hplace
          obtain ⟨rfl, rfl⟩ := Prod.mk.inj (hp.trans (if_pos his))
          omega
        · rw [if_neg his] at hplace
          obtain ⟨rfl, rfl⟩ := Prod.mk.inj (hp.trans (if_neg his))
          omega

end Sys2Proof
end

section
/-! PROOFS. Passes in OS (O23; R107). -/

namespace Sys2Proof.Machine

/-! ## The operands of an OS pass -/

/-- Slice `y` of the shared operand. -/
def sharedSlice (s : State) (k : Nat) (c : MatCmd) (y : Nat) : Got :=
  maRead s k (64 * (c.sAddr.toNat + y * c.sPitch.toNat)) (rowBytes c.fmtS.toNat (c.cplx == 1) c.cols.toNat)

/-- Slice `y` of array `i`'s own operand. -/
def ownSlice (s : State) (k : Nat) (c : MatCmd) (i y : Nat) : Got :=
  maRead s k (64 * (c.tAddr.toNat + i * c.tStep.toNat + y * c.tPitch.toNat)) (rowBytes c.fmtT.toNat (c.cplx == 1) c.rows.toNat)

/-- The elements of a shared slice, and those of an array's own. -/
def sharedElems (c : MatCmd) (g : Got) : List Elem := rowElems c.fmtS.toNat (c.cplx == 1) g.bytes c.cols.toNat
def ownElems (c : MatCmd) (g : Got) : List Elem := rowElems c.fmtT.toNat (c.cplx == 1) g.bytes c.rows.toNat

/-- The products at place `p` of the tile: one of each slice. -/
def osProducts (s : State) (k : Nat) (c : MatCmd) (i : Nat) (p : Nat × Nat) : List (Elem × Elem) :=
  (List.range c.depth.toNat).map (fun y =>
    ((ownElems c (ownSlice s k c i y)).getD p.1 zeroElem, (sharedElems c (sharedSlice s k c y)).getD p.2 zeroElem))

/-- All places of a tile. -/
def osPlaces (c : MatCmd) : List (Nat × Nat) := (List.range 64).flatMap (fun r => (List.range (maWidth (c.cplx == 1))).map (fun x => (r, x)))

/-- Tile `p.2` of array `p.1` as an OS pass leaves it. -/
def osTile (s : State) (k : Nat) (c : MatCmd) (p : Nat × Nat) : Tile :=
  (tileRun c (tileOf s k p.1 p.2) (cellsAt (osProducts s k c p.1) (osPlaces c))).1

theorem padTo_getD (n : Nat) (es : List Elem) (j : Nat) : (padTo n es).getD j zeroElem = es.getD j zeroElem := by
  unfold padTo
  rcases Nat.lt_or_ge j es.length with h | h
  · rw [List.getD_append _ _ _ _ h]
  · rw [List.getD_append_right _ _ _ _ h, List.getD_eq_default _ _ h]
    by_cases hj : j - es.length < n - es.length
    · rw [List.getD_eq_getElem _ _ (by rwa [List.length_replicate]), List.getElem_replicate]
    · exact List.getD_eq_default _ _ (by rw [List.length_replicate]; omega)

section
variable {s t : State} {k : Nat} {c : MatCmd} {w : Option WinSt} {i : Nat}

theorem mem_osPlaces {r x : Nat} : (r, x) ∈ osPlaces c ↔ r < 64 ∧ x < maWidth (c.cplx == 1) := by
  simp [osPlaces]

/-- The products of the padded slices are those of the slices (R104). -/
theorem osProducts_eq (p : Nat × Nat) : osProducts s k c i p =
    (((List.range c.depth.toNat).map (fun y => padTo 64 (ownElems c (ownSlice s k c i y)))).zip
      ((List.range c.depth.toNat).map (fun y => padTo (maWidth (c.cplx == 1)) (sharedElems c (sharedSlice s k c y))))).map
        (fun q => (q.1.getD p.1 zeroElem, q.2.getD p.2 zeroElem)) := by
  rw [List.zip_map', List.map_map]
  exact List.map_congr_left fun y _ => by simp only [Function.comp_apply, padTo_getD]

/-- What follows a tile that is set: the errors of the words written anew, of which there are none, and SAT. -/
theorem quiet_clearErrs_setSat {x : State} (herrs : (engMemOf x (maUnit k i)).errs = []) (lo n sat : Nat) :
    Quiet [coreUnit k] [maUnit k i] x (setSat (clearErrs x (maUnit k i) lo n) k (maUnit k i) 0x04 sat) :=
  (quiet_clearErrs herrs lo n).trans (quiet_setSat _ (List.mem_singleton.2 rfl) ..)

/-- The cells of a tile's places, of the slices `a` and `b`. -/
def osCells (c : MatCmd) (a b : List (List Elem)) : List (Nat × Nat × List (Elem × Elem)) :=
  (List.range 64).flatMap (fun r => (List.range (maWidth (c.cplx == 1))).map (fun j =>
    (r, j, (a.zip b).map (fun p => (p.1.getD r zeroElem, p.2.getD j zeroElem)))))

/-- The cells of the padded slices are the products at their places. -/
theorem osCells_eq : osCells c
    ((((List.range c.depth.toNat).map (ownSlice s k c i)).map (fun g => g.bytes)).map (fun bs =>
      padTo 64 (rowElems c.fmtT.toNat (c.cplx == 1) bs c.rows.toNat)))
    (((List.range c.depth.toNat).map (sharedSlice s k c)).map (fun g =>
      padTo (maWidth (c.cplx == 1)) (rowElems c.fmtS.toNat (c.cplx == 1) g.bytes c.cols.toNat))) = cellsAt (osProducts s k c i) (osPlaces c) := by
  rw [osCells, cellsAt, osPlaces, List.map_flatMap]
  refine List.flatMap_congr fun r _ => ?_
  refine (List.map_congr_left fun x _ => ?_).trans List.map_map.symm
  simp only [Function.comp_apply, osProducts_eq, List.map_map]
  rfl

/-- The tile of an OS pass whose slices are good is written. -/
theorem maTile_os (hop : c.opcode = 2) (hdf : c.dataflow = 2)
    (hgood : ∀ y, y < c.depth.toNat → GoodRead (sharedSlice s k c y) ∧ GoodRead (ownSlice s k c i y))
    (herrs : (engMemOf t (maUnit k i)).errs = []) (hidle : FifoIdle t (maUnit k i)) (hruns : MaRuns k (maArrays c) s t)
    (htile : tileOf t k i c.accTile.toNat = tileOf s k i c.accTile.toNat) (j : Nat) :
    ∃ r v, maTile t k c w 0 i j = .ok (r, v) ∧ WritesTile k c (osTile s k c) (fun _ => c.rows.toNat) (i, c.accTile.toNat) t r := by
  have hshared (y : Nat) : sharedSlice t k c y = sharedSlice s k c y := hruns.maRead k _ _
  have hown (y : Nat) : ownSlice t k c i y = ownSlice s k c i y := hruns.maRead k _ _
  have hsh : (((List.range c.depth.toNat).map (fun x => 64 * (c.sAddr.toNat + x * c.sPitch.toNat))).map
      (fun a => maRead t k a (rowBytes c.fmtS.toNat (c.cplx == 1) c.cols.toNat))) = (List.range c.depth.toNat).map (sharedSlice s k c) := by
    rw [List.map_map]
    exact List.map_congr_left fun y _ => hshared y
  have hownRows : (((List.range c.depth.toNat).map (fun x => 64 * (c.tAddr.toNat + i * c.tStep.toNat + x * c.tPitch.toNat))).map
      (fun a => maRead t k a (rowBytes c.fmtT.toNat (c.cplx == 1) c.rows.toNat))) = (List.range c.depth.toNat).map (ownSlice s k c i) := by
    rw [List.map_map]
    exact List.map_congr_left fun y _ => hown y
  have hbad : badRead ((List.range c.depth.toNat).map (sharedSlice s k c) ++ (List.range c.depth.toNat).map (ownSlice s k c i)) = none :=
    badRead_of_good fun g hg => by
      rcases List.mem_append.1 hg with hg | hg
      · obtain ⟨y, hy, rfl⟩ := List.mem_map.1 hg
        exact (hgood y (List.mem_range.1 hy)).1
      · obtain ⟨y, hy, rfl⟩ := List.mem_map.1 hg
        exact (hgood y (List.mem_range.1 hy)).2
  rw [maTile, if_neg (by simp [hop]), if_pos hdf]
  unfold maOsTile
  dsimp only
  rw [hsh, hownRows, hbad]
  simp only [errGot_of_none herrs, ite_self]
  obtain ⟨hstream, -⟩ := stream_idle (((List.range c.depth.toNat).map (ownSlice s k c i)).map (fun g => g.bytes)) hidle
  have hquiet : Quiet [coreUnit k] [maUnit k i] t (stream t (maUnit k i)
    (((List.range c.depth.toNat).map (ownSlice s k c i)).map (fun g => g.bytes))).2 := quiet_stream t (List.mem_singleton.2 rfl) _
  rw [hstream]
  generalize (stream t (maUnit k i) (((List.range c.depth.toNat).map (ownSlice s k c i)).map (fun g => g.bytes))).2 = x at hquiet ⊢
  have hcount := (hquiet.trans (quiet_countReads x k (rowBytes c.fmtS.toNat (c.cplx == 1) c.cols.toNat)
    ((List.range c.depth.toNat).map (fun x => 64 * (c.sAddr.toNat + x * c.sPitch.toNat))))).trans
      (quiet_countReads _ k (rowBytes c.fmtT.toNat (c.cplx == 1) c.rows.toNat)
        ((List.range c.depth.toNat).map (fun x => 64 * (c.tAddr.toNat + i * c.tStep.toNat + x * c.tPitch.toNat))))
  rw [countErrs_of_none ((hcount.errs _).trans herrs), ite_self, hcount.coreOf]
  have hshadow := hcount.trans (quiet_shadow _ (List.mem_singleton.2 (rfl : maUnit k i = maUnit k i))
    (shadowOf (c.cplx == 1) (osTile s k c (i, c.accTile.toNat))))
  have hold : (arrayOf t k i).tiles.getD c.accTile.toNat {} = tileOf s k i c.accTile.toNat := htile
  have htileEq : osTile s k c (i, c.accTile.toNat) = (tileRun c ((arrayOf t k i).tiles.getD c.accTile.toNat {}) (osCells c
    ((((List.range c.depth.toNat).map (ownSlice s k c i)).map (fun g => g.bytes)).map (fun bs =>
      padTo 64 (rowElems c.fmtT.toNat (c.cplx == 1) bs c.rows.toNat)))
    (((List.range c.depth.toNat).map (sharedSlice s k c)).map (fun g =>
      padTo (maWidth (c.cplx == 1)) (rowElems c.fmtS.toNat (c.cplx == 1) g.bytes c.cols.toNat))))).1 := by
    rw [hold, osCells_eq]
    rfl
  rw [htileEq] at hshadow
  refine ⟨_, _, rfl, writesTile_of_quiet hshadow (quiet_clearErrs_setSat (by exact (hshadow.errs _).trans herrs) _ _ _) htileEq.symm rfl⟩

end

theorem maZero_os {c : MatCmd} (hop : c.opcode = 2) (hnamed : c.arrays ≠ 0) (hrows : c.rows ≠ 0) (hdepth : c.depth ≠ 0) (hcols : c.cols ≠ 0) :
    maZero c = false := by
  rw [maZero_of_pass hop, beq_eq_false_iff_ne.2 hnamed, beq_eq_false_iff_ne.2 hrows, beq_eq_false_iff_ne.2 hdepth, beq_eq_false_iff_ne.2 hcols, Bool.and_false]
  rfl

end Sys2Proof.Machine

namespace Sys2Proof
open Machine

/-- Settles O23: each array writes its one tile (`maTile_os`), with the sum of its products at every place (`tileRun_cellsAt`). -/
theorem matrixOuterProducts : Obligations.MatrixOuterProducts := by
  unfold Obligations.MatrixOuterProducts
  intro s k step c0 c cx shared own hturn hshape hrows hcols hdepth hgood
  obtain ⟨-, -, -, -, hnamed, -⟩ := id hturn
  have hcount : maTileCount c = 1 := if_pos ⟨rfl, rfl⟩
  have hfits : c.accTile.toNat + maTileCount c ≤ 8 := by have := c.accTile.isLt; omega
  obtain ⟨s', hcompletes, hframe, -, hheld, htile, -⟩ := pass_completes (instr := .maPassOs k step c0) (T := osTile s k c)
    (V := fun _ => c.rows.toNat) hturn rfl hshape rfl (maZero_os rfl hnamed hrows hdepth hcols) hfits fun ti hti i hi t hruns _ htile => by
      obtain rfl : ti = 0 := by omega
      exact maTile_os rfl rfl (fun y hy => ⟨(hgood y hy).1, (hgood y hy).2 i hi⟩) ((hruns.errs _).trans (MaTurn.errs hturn hi))
        (hruns.idle _ (MaTurn.idle hturn hi)) hruns htile _
  refine ⟨s', hcompletes, hframe, fun i hi => ⟨hheld i, fun n _ hn => ?_, ?_⟩⟩
  · rw [htile, if_neg fun hmem => ?_]
    have := (mem_tilesFrom.1 hmem).2
    omega
  · have hcx := (tileFor_of_tilesOk (c := c) rfl (MaTurn.tilesOk hturn hi) (n := 0) (by omega)).1
    obtain ⟨hfmt, hcplx, hwords⟩ := tileRun_cellsAt (f := osProducts s k c i) hcx (ps := osPlaces c) fun p hp => (mem_osPlaces.1 hp).2
    rw [htile, if_pos (mem_tilesFrom.2 ⟨hi, by omega, by omega⟩)]
    refine ⟨hfmt, hcplx, fun r x hr hx => ?_⟩
    exact tileHolds_of_words (hcplx.trans hcx) hfmt fun q hq => (hwords r x q hx hq).trans (if_pos (mem_osPlaces.2 ⟨hr, hx⟩))

end Sys2Proof
end

section
/-! PROOFS. Writes to local memory from states that differ in counts, status words and stream FIFOs alone (O18; R130, R263, R273, R371). -/

namespace Sys2Proof.Machine

/-! ## Quiet states answer and change alike -/

section
variable {vs us : List UAddr} {s t : State}

theorem Quiet.mem (h : Quiet vs us s t) : t.mem = s.mem := (congrArg State.mem h.state :)
theorem Quiet.faults (h : Quiet vs us s t) : t.faults = s.faults := (congrArg State.faults h.state :)
theorem Quiet.lastFault (h : Quiet vs us s t) : t.lastFault = s.lastFault := (congrArg State.lastFault h.state :)
theorem Quiet.time (h : Quiet vs us s t) : t.time = s.time := (congrArg State.time h.state :)

theorem Quiet.held (h : Quiet vs us s t) (u : UAddr) : (unitOf t u).held = (unitOf s u).held := (congrArg UnitSt.held (h.port u) :)
theorem Quiet.failed (h : Quiet vs us s t) (u : UAddr) : (unitOf t u).failed = (unitOf s u).failed := (congrArg UnitSt.failed (h.port u) :)

theorem Quiet.placeOf (h : Quiet vs us s t) : placeOf t = placeOf s :=
  calc Machine.placeOf t = Machine.placeOf (unmetered t) := rfl
    _ = Machine.placeOf (unmetered s) := by rw [h.state]

theorem Quiet.keepNibble (h : Quiet vs us s t) (k : Nat) (c : VeCmd) (r : Nat) (bs : List Byte) : keepNibble t k c r bs = keepNibble s k c r bs :=
  calc Machine.keepNibble t k c r bs = Machine.keepNibble (unmetered t) k c r bs := rfl
    _ = Machine.keepNibble (unmetered s) k c r bs := by rw [h.state]

/-- Counters may differ in whatever way. -/
theorem Quiet.pmu (h : Quiet vs us s t) (p q : PmuSt) : Quiet vs us { s with pmu := p } { t with pmu := q } :=
  ⟨h.state, h.port, h.status, h.engMem, h.errs, h.idle⟩

theorem Quiet.setMem (h : Quiet vs us s t) {m n : MemSt} (hm : n = m) : Quiet vs us { s with mem := m } { t with mem := n } :=
  hm ▸ ⟨congrArg (fun x => { x with mem := n }) h.state, h.port, h.status, h.engMem, h.errs, h.idle⟩

theorem Quiet.setFaults (h : Quiet vs us s t) (fs : Tbl FaultRec) : Quiet vs us { s with faults := fs } { t with faults := fs } :=
  ⟨congrArg (fun x => { x with faults := fs }) h.state, h.port, h.status, h.engMem, h.errs, h.idle⟩

/-- One update of a port on both sides. -/
theorem Quiet.modUnit (h : Quiet vs us s t) (u : UAddr) {f : UnitSt → UnitSt}
    (hport : ∀ {x y}, unmeteredPort y = unmeteredPort x → unmeteredPort (f y) = unmeteredPort (f x)) (hstatus : ∀ x, (f x).status = x.status) :
    Quiet vs us (modUnit s u f) (modUnit t u f) := by
  refine ⟨h.state, fun v => ?_, fun v hv => ?_, h.engMem, h.errs, h.idle⟩
  · by_cases huv : v = u
    · rw [huv, unitOf_modUnit_same, unitOf_modUnit_same]; exact hport (h.port u)
    · rw [unitOf_modUnit_other _ _ _ _ huv, unitOf_modUnit_other _ _ _ _ huv]; exact h.port v
  · by_cases huv : v = u
    · rw [huv, unitOf_modUnit_same, unitOf_modUnit_same, hstatus, hstatus]; exact h.status u (huv ▸ hv)
    · rw [unitOf_modUnit_other _ _ _ _ huv, unitOf_modUnit_other _ _ _ _ huv]; exact h.status v hv

theorem Quiet.countEvent (h : Quiet vs us s t) (rec ev inst v : Nat) : Quiet vs us (countEvent s rec ev inst v) (countEvent t rec ev inst v) := by
  obtain ⟨p, hs⟩ := countEvent_pmu s rec ev inst v
  obtain ⟨q, ht⟩ := countEvent_pmu t rec ev inst v
  rw [hs, ht]; exact h.pmu p q

theorem Quiet.countUnit (h : Quiet vs us s t) (u : UAddr) (ev v : Nat) : Quiet vs us (countUnit s u ev v) (countUnit t u ev v) := by
  obtain ⟨p, hs⟩ := countUnit_pmu s u ev v
  obtain ⟨q, ht⟩ := countUnit_pmu t u ev v
  rw [hs, ht]; exact h.pmu p q

theorem Quiet.countDram (h : Quiet vs us s t) (ev a n : Nat) : Quiet vs us (countDram s ev a n) (countDram t ev a n) := by
  obtain ⟨p, hs⟩ := countDram_pmu s ev a n
  obtain ⟨q, ht⟩ := countDram_pmu t ev a n
  rw [hs, ht]; exact h.pmu p q

theorem Quiet.countCorrected (h : Quiet vs us s t) (a : Nat) : Quiet vs us (countCorrected s a) (countCorrected t a) := by
  unfold Machine.countCorrected
  rw [h.placeOf]
  exact (h.modUnit _ (f := fun x => { x with corrected := x.corrected + 1 }) id fun _ => rfl).countUnit ..

/-! ## Fault records -/

/-- A port that takes the fault record after number `n`. -/
def faultedPort (n : Nat) (x : UnitSt) : UnitSt := { x with faults := min (x.faults + 1) (2 ^ 32 - 1), lastFault := n + 1 }

theorem Quiet.recordFaultAt (h : Quiet vs us s t) (u : UAddr) (cause : BitVec 8) (action : BitVec 4) (retry : Nat) (queue : BitVec 12) (seq : Seq)
    (address : Nat) : Quiet vs us (recordFaultAt s u cause action retry queue seq address) (recordFaultAt t u cause action retry queue seq address) := by
  have hport : Quiet vs us (Machine.modUnit s u (faultedPort s.lastFault)) (Machine.modUnit t u (faultedPort t.lastFault)) := by
    rw [h.lastFault]
    exact h.modUnit u (fun hxy => congrArg (faultedPort s.lastFault) hxy) fun _ => rfl
  exact ⟨(congrArg (fun x => unmetered (Machine.recordFaultAt x u cause action retry queue seq address)) h.state :), hport.port, hport.status,
    h.engMem, h.errs, h.idle⟩

theorem Quiet.recordFault (h : Quiet vs us s t) (u : UAddr) (cause : BitVec 8) (action : BitVec 4) (address : Nat) :
    Quiet vs us (recordFault s u cause action address) (recordFault t u cause action address) := by
  simp only [Machine.recordFault, h.held, h.failed]
  split
  · exact h.recordFaultAt ..
  · exact h.recordFaultAt ..

/-! ## Writes -/

theorem Quiet.writePiece (h : Quiet vs us s t) (a : Nat) (bs : List Byte) : Quiet vs us (writePiece s a bs) (writePiece t a bs) := by
  unfold Machine.writePiece
  dsimp only
  rw [h.mem, h.placeOf]
  split
  · exact h.setMem rfl
  · split
    · exact h.setMem rfl
    · exact (h.setMem rfl).countCorrected a
    · exact (h.setMem rfl).recordFault ..
    · exact (h.setMem rfl).recordFault ..

theorem Quiet.dropWrite (h : Quiet vs us s t) (master : UAddr) (a : Nat) : Quiet vs us (dropWrite s master a) (dropWrite t master a) := by
  have hcount := h.countEvent 0x3800 0x74 0 1
  unfold Machine.dropWrite
  dsimp only
  rw [h.time, hcount.mem, hcount.faults]
  split
  · split
    · split
      · exact (hcount.setMem rfl).setFaults _
      · exact hcount
    · exact hcount
  · have hrecord := hcount.recordFaultAt master causeReserved 0 0 0 0 a
    exact hrecord.setMem (by rw [hrecord.mem, hrecord.lastFault])

/-- One write from two states that are alike. -/
theorem Quiet.writeLocal (h : Quiet vs us s t) (master : UAddr) (a : Nat) (bs : List Byte) :
    Quiet vs us (writeLocal s master a bs false) (writeLocal t master a bs false) := by
  have hpieces : Quiet vs us ((pieces bs.length a bs).foldl (storePiece false) (Machine.countDram s 0x51 a bs.length))
      ((pieces bs.length a bs).foldl (storePiece false) (Machine.countDram t 0x51 a bs.length)) :=
    List.foldl_rel (h.countDram 0x51 a bs.length) fun p _ x y hxy => by
      simp only [storePiece, hxy.placeOf, Bool.false_eq_true, if_false]
      split
      · exact hxy
      · exact hxy.writePiece ..
  unfold storePiece at hpieces
  unfold Machine.writeLocal
  dsimp only
  rw [hpieces.placeOf]
  split
  · exact hpieces.dropWrite ..
  · exact hpieces

/-- Words written anew lose the same errors. -/
theorem Quiet.clearErrs (h : Quiet vs us s t) (u : UAddr) (lo n : Nat) : Quiet vs us (clearErrs s u lo n) (clearErrs t u lo n) := by
  have herrs : errsIn t u lo n = errsIn s u lo n := by simp only [errsIn, h.errs]
  unfold Machine.clearErrs
  rw [herrs]
  split
  · exact h
  · refine ⟨h.state, h.port, h.status, fun v hv => ?_, fun v => ?_, fun v hidle => ?_⟩
    · by_cases huv : v = u
      · rw [huv, engMemOf_modEngMem_same, engMemOf_modEngMem_same, h.engMem u (huv ▸ hv)]
      · rw [engMemOf_modEngMem_other _ _ huv, engMemOf_modEngMem_other _ _ huv, h.engMem v hv]
    · by_cases huv : v = u
      · rw [huv, engMemOf_modEngMem_same, engMemOf_modEngMem_same, h.errs]
      · rw [engMemOf_modEngMem_other _ _ huv, engMemOf_modEngMem_other _ _ huv, h.errs]
    · by_cases huv : v = u
      · subst huv
        rw [FifoIdle, engMemOf_modEngMem_same] at hidle ⊢
        exact h.idle v hidle
      · rw [FifoIdle, engMemOf_modEngMem_other _ _ huv] at hidle ⊢
        exact h.idle v hidle

/-- One result row written from two states that are alike. -/
theorem Quiet.writeDst (h : Quiet vs us s t) (k : Nat) (c : VeCmd) (r : Nat) (bs : List Byte) :
    Quiet vs us (writeDst s k c r bs) (writeDst t k c r bs) := by
  have hbase : coreBase t k = coreBase s k := calc coreBase t k = coreBase (unmetered t) k := rfl
    _ = coreBase s k := by rw [h.state]; rfl
  unfold Machine.writeDst
  split
  · rw [hbase]; exact h.writeLocal ..
  · exact h.writeLocal ..
  · exact (h.modCore k _).clearErrs ..
  · exact h

end

/-! ## What a command of the vector engine counts before it writes (R272, R291) -/

theorem quiet_countErrs {vs us : List UAddr} (s : State) (u : UAddr) (lo n : Nat) : Quiet vs us s (countErrs s u lo n) := by
  unfold countErrs
  extract_lets found
  split
  · exact .refl ..
  · exact (quiet_modUnit s u (f := fun x => { x with corrected := x.corrected + found }) (fun _ => rfl) fun _ _ => rfl).trans (quiet_countUnit ..)

/-- The rows of operand A stream in, and what its registers hold of errors is counted. -/
def veStreamedIn (s : State) (k : Nat) (c : VeCmd) : State :=
  (veRegReads c).foldl (fun s p => countErrs s (veUnit k) p.1 p.2) (stream s (veUnit k) (veStreamed s k c)).2

/-- So is what its reads of memory met. -/
def veMetered (s : State) (k : Nat) (c : VeCmd) : State :=
  (veCounted (veStreamedIn s k c) k c).foldl (fun s r => countRead s r.1 r.2) (veStreamedIn s k c)

theorem quiet_veMetered {vs us : List UAddr} (s : State) {k : Nat} (hu : veUnit k ∈ us) (c : VeCmd) : Quiet vs us s (veMetered s k c) :=
  ((quiet_stream s hu _).trans (.foldl (fun t (p : Nat × Nat) => quiet_countErrs t (veUnit k) p.1 p.2) _ _)).trans
    (.foldl (fun t (p : Nat × Nat) => quiet_countRead t p.1 p.2) _ _)

end Sys2Proof.Machine
end

section
/-! PROOFS. What the result rows of a vector command leave alone, and how it sets SAT (O18; R123, R126, R130, R132, R182). -/

namespace Sys2Proof.Machine

/-! ## A command that writes -/

/-- A state without what the rows of a vector command may change: memory, cores, ports, the fault log, pins, counters, engine memories. -/
def unstoredRows (s : State) : State :=
  { s with mem := {}, cores := [], units := [], pins := {}, pmu := {}, faults := [], lastFault := 0, engMem := [] }

/-- Two states that agree in the rest differ in those alone. -/
theorem eq_of_unstoredRows {s t : State} (h : unstoredRows t = unstoredRows s) : t = { s with
    mem := t.mem, cores := t.cores, units := t.units, pins := t.pins, pmu := t.pmu, faults := t.faults, lastFault := t.lastFault
    engMem := t.engMem } :=
  congrArg (fun x => { x with
    mem := t.mem, cores := t.cores, units := t.units, pins := t.pins, pmu := t.pmu, faults := t.faults, lastFault := t.lastFault
    engMem := t.engMem }) h

/-- From `s` to `t` core `k` writes rows: registers and memory may change, no slice and no status word of a port does. -/
structure StoresRows (k : Nat) (s t : State) : Prop where
  state : unstoredRows t = unstoredRows s
  other : ∀ j, j ≠ k → coreOf t j = coreOf s j
  core : coreOf t k = { coreOf s k with veRegs := (coreOf t k).veRegs }
  engMem : ∀ u, u ≠ veUnit k → engMemOf t u = engMemOf s u
  held : ∀ u, (unitOf t u).held = (unitOf s u).held
  status : ∀ u, (unitOf t u).status = (unitOf s u).status

section
variable {k : Nat} {s t r : State}

theorem StoresRows.refl (k : Nat) (s : State) : StoresRows k s s :=
  ⟨rfl, fun _ _ => rfl, rfl, fun _ _ => rfl, fun _ => rfl, fun _ => rfl⟩

theorem StoresRows.trans (h : StoresRows k s t) (h' : StoresRows k t r) : StoresRows k s r where
  state := h'.state.trans h.state
  other j hj := (h'.other j hj).trans (h.other j hj)
  core := by rw [h'.core, h.core]
  engMem u hu := (h'.engMem u hu).trans (h.engMem u hu)
  held u := (h'.held u).trans (h.held u)
  status u := (h'.status u).trans (h.status u)

theorem StoresRows.foldl {α : Type} {f : State → α → State} (hf : ∀ s x, StoresRows k s (f s x)) (l : List α) (s : State) :
    StoresRows k s (l.foldl f s) :=
  List.foldlRecOn (motive := StoresRows k s) l f (.refl k s) fun _ h x _ => h.trans (hf _ x)

/-- What changes neither cores, ports nor engine memories. -/
theorem StoresRows.of_state (hstate : unstoredRows t = unstoredRows s) (hcores : t.cores = s.cores) (hunits : t.units = s.units)
    (hengMem : t.engMem = s.engMem) : StoresRows k s t where
  state := hstate
  other _ _ := by rw [coreOf_of_cores hcores]
  core := by rw [coreOf_of_cores hcores]
  engMem _ _ := by simp only [engMemOf, hengMem]
  held _ := by simp only [unitOf, hunits]
  status _ := by simp only [unitOf, hunits]

theorem storesRows_modUnit (s : State) (u : UAddr) {f : UnitSt → UnitSt} (hf : ∀ x, (f x).held = x.held ∧ (f x).status = x.status) :
    StoresRows k s (modUnit s u f) := by
  have hsame (v : UAddr) : (unitOf (modUnit s u f) v).held = (unitOf s v).held ∧ (unitOf (modUnit s u f) v).status = (unitOf s v).status := by
    by_cases hv : v = u
    · rw [hv, unitOf_modUnit_same]; exact hf _
    · rw [unitOf_modUnit_other s u v f hv]; exact ⟨rfl, rfl⟩
  exact ⟨rfl, fun _ _ => rfl, rfl, fun _ _ => rfl, fun v => (hsame v).1, fun v => (hsame v).2⟩

theorem storesRows_countEvent (s : State) (rec ev inst v : Nat) : StoresRows k s (countEvent s rec ev inst v) := by
  obtain ⟨pm, h⟩ := countEvent_pmu s rec ev inst v
  rw [h]; exact .of_state rfl rfl rfl rfl

theorem storesRows_countUnit (s : State) (u : UAddr) (ev v : Nat) : StoresRows k s (countUnit s u ev v) := by
  obtain ⟨pm, h⟩ := countUnit_pmu s u ev v
  rw [h]; exact .of_state rfl rfl rfl rfl

theorem storesRows_countDram (s : State) (ev a n : Nat) : StoresRows k s (countDram s ev a n) := by
  obtain ⟨pm, h⟩ := countDram_pmu s ev a n
  rw [h]; exact .of_state rfl rfl rfl rfl

theorem storesRows_recordFaultAt (s : State) (u : UAddr) (cause : BitVec 8) (action : BitVec 4) (n : Nat) (queue : BitVec 12) (seq : Seq)
    (address : Nat) : StoresRows k s (recordFaultAt s u cause action n queue seq address) := by
  have hport : StoresRows k s (modUnit s u (faultedPort s.lastFault)) := storesRows_modUnit s u fun _ => ⟨rfl, rfl⟩
  exact ⟨rfl, fun _ _ => rfl, rfl, fun _ _ => rfl, hport.held, hport.status⟩

theorem storesRows_recordFault (s : State) (u : UAddr) (cause : BitVec 8) (action : BitVec 4) (address : Nat) :
    StoresRows k s (recordFault s u cause action address) := by
  obtain ⟨queue, seq, h⟩ := recordFault_eq s u cause action address
  rw [h]; exact storesRows_recordFaultAt ..

theorem storesRows_countCorrected (s : State) (a : Nat) : StoresRows k s (countCorrected s a) :=
  (storesRows_modUnit s _ (f := fun x => { x with corrected := x.corrected + 1 }) fun _ => ⟨rfl, rfl⟩).trans (storesRows_countUnit ..)

theorem storesRows_writePiece (s : State) (a : Nat) (bs : List Byte) : StoresRows k s (writePiece s a bs) := by
  have hmem (m : MemSt) : StoresRows k s { s with mem := m } := .of_state rfl rfl rfl rfl
  unfold writePiece
  dsimp only
  split
  · exact hmem _
  · split
    · exact hmem _
    · exact (hmem _).trans (storesRows_countCorrected ..)
    · exact (hmem _).trans (storesRows_recordFault ..)
    · exact (hmem _).trans (storesRows_recordFault ..)

theorem storesRows_dropWrite (s : State) (master : UAddr) (a : Nat) : StoresRows k s (dropWrite s master a) := by
  refine (storesRows_countEvent s 0x3800 0x74 0 1).trans ?_
  unfold dropWrite
  dsimp only
  split
  · split
    · split
      · exact .of_state rfl rfl rfl rfl
      · exact .refl ..
    · exact .refl ..
  · exact (storesRows_recordFaultAt ..).trans (.of_state rfl rfl rfl rfl)

theorem storesRows_writeLocal (s : State) (master : UAddr) (a : Nat) (bs : List Byte) : StoresRows k s (writeLocal s master a bs false) := by
  have hpieces : StoresRows k s ((pieces bs.length a bs).foldl (storePiece false) (countDram s 0x51 a bs.length)) :=
    (storesRows_countDram ..).trans (.foldl (fun t p => by
      unfold storePiece
      split
      · exact .refl ..
      · exact storesRows_writePiece ..) _ _)
  unfold storePiece at hpieces
  unfold writeLocal
  dsimp only
  split
  · exact hpieces.trans (storesRows_dropWrite ..)
  · exact hpieces

theorem storesRows_clearErrs (s : State) (lo n : Nat) : StoresRows k s (clearErrs s (veUnit k) lo n) := by
  unfold clearErrs
  split
  · exact .refl ..
  · exact ⟨rfl, fun _ _ => rfl, rfl, fun u hu => engMemOf_modEngMem_other s _ hu, fun _ => rfl, fun _ => rfl⟩

/-- A row goes to core or cluster memory, to the registers, or nowhere (R123, R130). -/
theorem storesRows_writeDst (s : State) (c : VeCmd) (r : Nat) (bs : List Byte) : StoresRows k s (writeDst s k c r bs) := by
  unfold writeDst
  split
  · exact storesRows_writeLocal ..
  · exact storesRows_writeLocal ..
  · refine .trans ?_ (storesRows_clearErrs ..)
    exact ⟨rfl, fun j hj => coreOf_modCore_other s k j _ hj, by rw [coreOf_modCore_same], fun _ _ => rfl, fun _ => rfl, fun _ => rfl⟩
  · exact .refl ..

theorem writeDst_of_none {c : VeCmd} (h : c.dst = 0) (s : State) (k r : Nat) (bs : List Byte) : writeDst s k c r bs = s := by
  simp [writeDst, h]

end

/-! ## SAT (R132, R182) -/

theorem sliceStatus_congr {s t : State} {u : UAddr} (h : (unitOf t u).status = (unitOf s u).status) (sl : Slice) :
    sliceStatus t u sl = sliceStatus s u sl := by simp only [sliceStatus, h]

theorem runningSlice_congr {s t : State} {u : UAddr} (h : (unitOf t u).held = (unitOf s u).held) : runningSlice t u = runningSlice s u := by
  simp only [runningSlice, h]

theorem sliceStatus_countUnit (s : State) (u : UAddr) (ev n : Nat) (v : UAddr) (sl : Slice) :
    sliceStatus (countUnit s u ev n) v sl = sliceStatus s v sl := by
  obtain ⟨pm, h⟩ := countUnit_pmu s u ev n
  rw [h]; rfl

/-- Ones set in the status word of a slice stand there, and in no other's. -/
theorem sliceStatus_orStatus (s : State) (u : UAddr) (sl : Slice) {w : BitVec 32} (hw : w ≠ 0) (x : Slice) :
    sliceStatus (orStatus s u sl w) u x = if x = sl then sliceStatus s u x ||| w else sliceStatus s u x := by
  rw [orStatus, if_neg hw]
  split
  · next h => simp [sliceStatus, h]
  · next h =>
    have hfind (l : List (Slice × BitVec 32)) : (l.filter (fun p => p.1 != sl)).find? (fun p => p.1 == x) = l.find? (fun p => p.1 == x) := by
      rw [List.find?_filter]
      congr 1
      funext p
      by_cases hp : p.1 = x
      · simp [hp, h]
      · simp [hp]
    have hne : (sl == x) = false := beq_eq_false_iff_ne.2 fun e => h e.symm
    simp only [sliceStatus, unitOf_modUnit_same, List.find?_cons, hne, hfind]

theorem statusSat_congr {s t r : State} {k : Nat} {sat : Prop} (h : StatusSat t r k sat)
    (hheld : (unitOf t (coreUnit k)).held = (unitOf s (coreUnit k)).held) (hstatus : (unitOf t (coreUnit k)).status = (unitOf s (coreUnit k)).status) :
    StatusSat s r k sat := by
  intro sl
  have hsl := h sl
  rwa [runningSlice_congr hheld, sliceStatus_congr hstatus] at hsl

theorem statusSat_setSat (s : State) (k : Nat) (u : UAddr) (ev n : Nat) : StatusSat s (setSat s k u ev n) k (n ≠ 0) := by
  intro sl
  unfold setSat
  split
  · next hn => exact ⟨fun h => absurd hn h, fun _ => rfl⟩
  · next hn =>
    rw [sliceStatus_countUnit]
    cases hrun : runningSlice s (coreUnit k) with
    | none => exact ⟨fun _ h => (Option.some_ne_none _ h.symm).elim, fun _ => rfl⟩
    | some x =>
      rw [Option.elim, sliceStatus_orStatus s _ x (by decide)]
      refine ⟨fun _ h => if_pos (Option.some.inj h).symm, fun h => if_neg ?_⟩
      rintro rfl
      exact h.elim (fun h => h hn) fun h => h rfl

end Sys2Proof.Machine
end

section
/-! PROOFS. The commands of the vector engine: what their rows of results are, how they run, wait and are turned away (O18; R123, R126, R128,
R130, R132, R143, R144, R146, R147). -/

namespace Sys2Proof.Machine

/-! ## The result rows -/

section
variable (s : State) (k step : Nat) (c : VeCmd)

/-- What a command that accumulates finds at its destination. -/
def oldRows : List (List Elem) := if c.acc = 1 then (List.range (veDest c).1).map (dstRow s k c) else []

/-- Row `r` of the results as it is written, and how many of its values were limited (R130, R132). -/
def resultRow (r : Nat) : Sat (List Byte) :=
  putRow c (veKey s k step) (veDest c).2.2.1 (veDest c).2.2.2 r ((veCompute s k c (oldRows s k c)).1.getD r [])
    (if c.acc = 1 ∧ ¬ (c.opcode = 0x40 ∧ c.axis = 1) then (oldRows s k c)[r]? else none)

/-- How many values the command limits (R132). -/
def limitings : Nat :=
  (veCompute s k c (oldRows s k c)).2 + (if c.dst = 0 then 0 else ((List.range (veDest c).1).map (fun r => (resultRow s k step c r).2)).sum)

/-- The rows `row` of a command written in order, from `t` on. -/
def storeRows (row : Nat → List Byte) (t : State) : State :=
  (List.range (veDest c).1).foldl (fun t r => writeDst t k c r (keepNibble t k c r (row r))) t

/-- The state whose memory, registers and fault log a command leaves. -/
def veWritten : State := storeRows k c (fun r => (resultRow s k step c r).1) s

/-- All that a command does before it ends: it streams and counts, writes its rows and sets SAT. -/
def veStored : State :=
  setSat (storeRows k c (fun r => (resultRow s k step c r).1) (veMetered s k c)) k (veUnit k) 0x13 (limitings s k step c)

/-- A command leaves: its slots free under POP, and its step is left to be reported complete (R126, R146). -/
def veDone : State := modCore (popSlots s k c) k (fun x => { x with veBusy := x.veBusy ++ [step], veCycles := x.veCycles + veCost c })

/-- A command of non-zero size has run to its end. -/
def veEnd : State := countUnit (veDone (veStored s k step c) k step c) (veUnit k) 0x10 (veCost c)

end

/-- A destination has the rows of the block, or one where a reduction runs along columns (R128, R139). -/
theorem veDest_rows (c : VeCmd) : (veDest c).1 = if c.opcode.toNat = 0x40 ∧ c.axis.toNat ≠ 0 then 1 else c.rows.toNat := by
  have hop : c.opcode = 0x40 ↔ c.opcode.toNat = 0x40 := ⟨fun h => by rw [h]; rfl, fun h => BitVec.eq_of_toNat_eq h⟩
  have haxis : c.axis = 0 ↔ c.axis.toNat = 0 := ⟨fun h => by rw [h]; rfl, fun h => BitVec.eq_of_toNat_eq h⟩
  simp only [← hop, ne_eq, ← haxis]
  by_cases h40 : c.opcode = 0x40
  · by_cases hrow : c.axis = 0
    · simp [veDest, h40, hrow]
    · simp only [veDest, h40, hrow, if_true, if_false, not_false_iff, and_self]
  · rw [if_neg fun h => h40 h.1, veDest, if_neg h40]
    split <;> rfl

theorem enterRows_length (f : Nat) (rows : List (List Elem)) : (enterRows f rows).1.length = rows.length := by simp [enterRows_fst]

/-- A command makes as many rows as its destination takes (R128, R139, R140). -/
theorem veCompute_length (s : State) (k : Nat) (c : VeCmd) (old : List (List Elem)) : (veCompute s k c old).1.length = (veDest c).1 := by
  have hrows : (enterRows c.opfmt.toNat (rowsA s k c)).1.length = c.rows.toNat := (enterRows_length ..).trans (operandRows_length ..)
  rw [veDest_rows]
  unfold veCompute
  dsimp only
  rw [← rowsA]
  generalize enterRows c.opfmt.toNat (rowsA s k c) = a at *
  split
  case h_4 hop =>
    split
    · next haxis => simp [collect, haxis, hrows]
    · next haxis => simp [hop, haxis]
  case h_6 _ _ _ h40 _ =>
    have hother : c.opcode.toNat ≠ 0x40 := h40
    simp [hother, collect, hrows]
  all_goals next hop => simp [hop, collect, hrows]

/-- The elements of a list with their places are those at each place. -/
theorem map_zipIdx_eq {α β : Type} (f : α × Nat → β) (l : List α) (d : α) :
    l.zipIdx.map f = (List.range l.length).map (fun r => f (l.getD r d, r)) := by
  refine List.ext_getElem (by simp) fun i hi _ => ?_
  have hlt : i < l.length := by simpa using hi
  simp [hlt]

section
variable {s t : State} {k step : Nat} {c : VeCmd}

/-- Rows that go nowhere change nothing. -/
theorem storeRows_of_none (h : c.dst = 0) (row : Nat → List Byte) (t : State) : storeRows k c row t = t := by
  simp only [storeRows, writeDst_of_none h, List.foldl_fixed]

theorem storesRows_storeRows (row : Nat → List Byte) (t : State) : StoresRows k t (storeRows k c row t) :=
  .foldl (fun t r => storesRows_writeDst t c r _) _ _

theorem Quiet.storeRows {vs us : List UAddr} (h : Quiet vs us s t) (k : Nat) (c : VeCmd) (row : Nat → List Byte) :
    Quiet vs us (storeRows k c row s) (storeRows k c row t) :=
  List.foldl_rel h fun r _ x y hxy => by
    rw [hxy.keepNibble]
    exact hxy.writeDst ..

theorem veRun_of_empty (h : c.opcode = 0 ∨ c.rows = 0 ∨ c.cols = 0) : veRun s k step c = veDone s k step c := by
  rw [veRun, if_pos h]; rfl

/-- A command of non-zero size whose reads are good runs to its end (R130, R132, R144, R146, R147). -/
theorem veRun_of_good (hop : c.opcode ≠ 0) (hrows : c.rows ≠ 0) (hcols : c.cols ≠ 0) (hreads : badRead (veReads s k c) = none)
    (herrs : veErrBad s k c = false) : veRun s k step c = veEnd s k step c := by
  have hrow : collect ((veCompute s k c (oldRows s k c)).1.zipIdx.map (fun p =>
      putRow c (veKey s k step) (veDest c).2.2.1 (veDest c).2.2.2 p.2 p.1
        (if c.acc = 1 ∧ ¬ (c.opcode = 0x40 ∧ c.axis = 1) then (oldRows s k c)[p.2]? else none))) =
      ((List.range (veDest c).1).map (fun r => (resultRow s k step c r).1),
        ((List.range (veDest c).1).map (fun r => (resultRow s k step c r).2)).sum) := by
    rw [map_zipIdx_eq _ _ [], veCompute_length]
    simp only [collect, List.map_map]
    rfl
  have hsize : ¬ (c.opcode = 0 ∨ c.rows = 0 ∨ c.cols = 0) := not_or.2 ⟨hop, not_or.2 ⟨hrows, hcols⟩⟩
  rw [veRun, if_neg hsize, hreads, herrs]
  dsimp only
  rw [← oldRows, hrow]
  dsimp only
  rw [zipIdx_map_range, List.foldl_map, if_neg Bool.false_ne_true]
  by_cases hdst : c.dst = 0
  · rw [if_pos hdst, veEnd, veStored, storeRows_of_none hdst, limitings]
    rfl
  · rw [if_neg hdst, veEnd, veStored, limitings]
    rfl

theorem veDone_frame (s : State) (k step : Nat) (c : VeCmd) : (∃ cs, veDone s k step c = { s with cores := cs }) ∧
    (∀ j, j ≠ k → coreOf (veDone s k step c) j = coreOf s j) ∧
    coreOf (veDone s k step c) k = { coreOf s k with
      tq := if c.pop = 1 then (coreOf s k).tq.drop (veSlots c) else (coreOf s k).tq
      veBusy := (coreOf s k).veBusy ++ [step], veCycles := (coreOf s k).veCycles + veCost c } := by
  refine ⟨⟨(veDone s k step c).cores, ?_⟩, fun j hj => ?_, ?_⟩
  · unfold veDone popSlots
    split <;> rfl
  · rw [veDone, coreOf_modCore_other _ _ _ _ hj, popSlots]
    split
    · exact coreOf_modCore_other _ _ _ _ hj
    · rfl
  · rw [veDone, coreOf_modCore_same, popSlots]
    split
    · rw [coreOf_modCore_same]
    · rfl

theorem storesRows_veWritten (s : State) (k step : Nat) (c : VeCmd) : StoresRows k s (veWritten s k step c) := storesRows_storeRows ..

/-- Beside the rows that it writes a command counts, streams and sets SAT, and nothing more. -/
theorem quiet_veStored (s : State) (k step : Nat) (c : VeCmd) : Quiet [coreUnit k] [veUnit k] (veWritten s k step c) (veStored s k step c) :=
  ((quiet_veMetered s (List.mem_singleton.2 rfl) c).storeRows k c _).trans (quiet_setSat _ (List.mem_singleton.2 rfl) ..)

/-- SAT is set exactly when a value was limited (R132). -/
theorem statusSat_veStored (s : State) (k step : Nat) (c : VeCmd) : StatusSat s (veStored s k step c) k (limitings s k step c ≠ 0) := by
  have hstores := storesRows_veWritten s k step c
  have hmetered : Quiet [] [veUnit k] s (veMetered s k c) := quiet_veMetered s (List.mem_singleton.2 rfl) c
  have hquiet := hmetered.storeRows k c fun r => (resultRow s k step c r).1
  exact statusSat_congr (statusSat_setSat _ k (veUnit k) 0x13 _) ((hquiet.held _).trans (hstores.held _))
    ((hquiet.status _ List.not_mem_nil).trans (hstores.status _))

theorem veEnd_frame (s : State) (k step : Nat) (c : VeCmd) : (∃ cs pm, veEnd s k step c = { veStored s k step c with cores := cs, pmu := pm }) ∧
    (∀ j, j ≠ k → coreOf (veEnd s k step c) j = coreOf s j) ∧
    coreOf (veEnd s k step c) k = { coreOf s k with
      veRegs := (coreOf (veWritten s k step c) k).veRegs
      veBusy := (coreOf s k).veBusy ++ [step], veCycles := (coreOf s k).veCycles + veCost c
      tq := if c.pop = 1 then (coreOf s k).tq.drop (veSlots c) else (coreOf s k).tq } := by
  have hstores := storesRows_veWritten s k step c
  have hcores := (quiet_veStored s k step c).coreOf
  obtain ⟨⟨cs, hdone⟩, hother, hcore⟩ := veDone_frame (veStored s k step c) k step c
  obtain ⟨pm, hcount⟩ := countUnit_pmu (veDone (veStored s k step c) k step c) (veUnit k) 0x10 (veCost c)
  have hend : coreOf (veEnd s k step c) = coreOf (veDone (veStored s k step c) k step c) := by rw [veEnd, hcount]; rfl
  refine ⟨⟨cs, pm, by rw [veEnd, hcount, hdone]⟩, fun j hj => ?_, ?_⟩
  · rw [hend, hother j hj, hcores, hstores.other j hj]
  · rw [hend, hcore, hcores, hstores.core]

end

/-! ## Commands as they come (R126, R143, R147) -/

section
variable {s : State} {k : Nat} {c : VeCmd}

/-- A row of the table gives its command to the engine. -/
theorem exec_of_veForms : ∀ x ∈ veForms, ∀ (s : State) (k step : Nat) (c : VeCmd),
    exec (x.1 k step c) s = veCommand k step (veForm c x.2.1 x.2.2) s := by
  simp only [veForms, List.cons_append, List.nil_append, List.forall_mem_cons, List.not_mem_nil, false_imp_iff, implies_true, and_true]
  and_intros
  all_goals intro s k step c; rfl

/-- None of them is a NOP. -/
theorem opcode_of_veForms : ∀ x ∈ veForms, BitVec.ofNat 8 x.2.1 ≠ 0 := by decide

theorem veCommand_issues (hk : k < 48) (hrun : Active s) (hcan : canRun s (veUnit k) = true) (step : Nat) (c : VeCmd) :
    veCommand k step c s = .next (veIssue s k step c) := by
  have hcond : (decide (48 ≤ k) || stopped s || !canRun s (veUnit k)) = false := by
    rw [show stopped s = false from hrun, hcan, decide_eq_false (by omega)]
    rfl
  rw [veCommand, hcond]; rfl

theorem veIssue_runs (hok : veOk c = true) (hwait : (coreOf s k).veWait = []) (hslots : slotsReady s k c = true) (step : Nat) :
    veIssue s k step c = veRun s k step c := by
  simp [veIssue, hok, hwait, hslots]

theorem veIssue_waits (hok : veOk c = true) (h : (coreOf s k).veWait ≠ [] ∨ slotsReady s k c = false) (step : Nat) :
    veIssue s k step c = modCore s k (fun x => { x with veWait := x.veWait ++ [(step, c)] }) := by
  have hready : ((coreOf s k).veWait.isEmpty && slotsReady s k c) = false := by
    rcases h with h | h
    · rw [List.isEmpty_eq_false_iff.2 h, Bool.false_and]
    · rw [h, Bool.and_false]
  simp [veIssue, hok, hready]

theorem veIssue_refuses (hok : veOk c = false) (s : State) (k step : Nat) : veIssue s k step c = engineFault s (veUnit k) causeCommand 0 := by
  simp [veIssue, hok]

theorem veUnit_parent : ∀ k, k < 48 → parentOf (veUnit k) = coreUnit k := by decide

/-- An engine that stops records its fault under the next number, and its FAULT token carries that number (R21, R371). -/
theorem engineFault_frame (s : State) (u : UAddr) (cause : BitVec 8) (address : Nat) :
    let s' := engineFault s u cause address
    s'.mem = s.mem ∧ s'.cores = s.cores ∧ s'.lastFault = s.lastFault + 1 ∧
      (∃ r, tget s'.faults ((s.lastFault + 1) % 256) = some r ∧ r.unit = u ∧ r.cause = cause) ∧
      s'.crossing = s.crossing ++ [outgoing s u (parentOf u) 6 0 (s.lastFault + 1)] := by
  obtain ⟨queue, seq, h⟩ := recordFault_eq s u cause (actionFor s u) address
  dsimp only
  rw [engineFault, h]
  exact ⟨rfl, rfl, rfl, ⟨_, tget_tset_same .., rfl, rfl⟩, rfl⟩

end

end Sys2Proof.Machine

namespace Sys2Proof
open Machine

/-- Settles O18: a command in its turn runs to `veEnd` (`veRun_of_good`), which is the state of its rows written one by one (`veWritten`) but for
what `Quiet` lets change and the command's own leaving (`veEnd_frame`); one of zero size only leaves (`veRun_of_empty`). -/
theorem vectorCommandsRun : Obligations.VectorCommandsRun := by
  unfold Obligations.VectorCommandsRun
  constructor
  · intro mk op sub hform s k step c0 c hturn hrows hcols
    obtain ⟨hk, hrun, hcan, hok, hwait, hslots, hreads, herrs⟩ := hturn
    have hexec := exec_of_veForms _ hform s k step c0
    have hop : c.opcode ≠ 0 := opcode_of_veForms _ hform
    have hstores := storesRows_veWritten s k step c
    have hquiet := quiet_veStored s k step c
    obtain ⟨⟨cs, pm, hend⟩, hother, hcore⟩ := veEnd_frame s k step c
    refine ⟨veEnd s k step c, ?_, ?_, ?_, ?_, ?_, hother, fun u hu => ?_, hcore, ?_⟩
    · rw [Completes, hexec, veCommand_issues hk hrun hcan, veIssue_runs hok hwait hslots, veRun_of_good hop hrows hcols hreads herrs]
    · rw [hend]; exact hquiet.mem
    · rw [hend]; exact hquiet.faults
    · rw [hend]; exact hquiet.lastFault
    · have hstate : unstoredRows (veStored s k step c) = unstoredRows s := (congrArg unstoredRows hquiet.state :).trans hstores.state
      exact ⟨_, _, _, _, _, _, _, _, eq_of_unstoredRows (by rw [hend]; exact hstate)⟩
    · rw [hend]
      exact (hquiet.engMem u fun h => hu (List.mem_singleton.1 h)).trans (hstores.engMem u hu)
    · rw [hend]
      exact statusSat_veStored s k step c
  · intro s k step c hk hrun hcan
    have hissue {mk : Nat → Nat → VeCmd → Instr} {op : Nat} {sub : Option Nat} (hform : (mk, op, sub) ∈ veForms) :
        exec (mk k step c) s = .next (veIssue s k step (veForm c op sub)) :=
      (exec_of_veForms _ hform s k step c).trans (veCommand_issues hk hrun hcan ..)
    refine ⟨fun i x hok hwait hslots hx => ?_, fun mk op sub hform hok hwaits => ?_, fun mk op sub hform hok => ?_⟩
    · obtain ⟨⟨cs, hdone⟩, hother, hcore⟩ := veDone_frame s k step x
      have hends (hexec : exec i s = .next (veIssue s k step x)) (hempty : x.opcode = 0 ∨ x.rows = 0 ∨ x.cols = 0) :
          Completes i s (veDone s k step x) := by
        rw [Completes, hexec, veIssue_runs hok hwait hslots, veRun_of_empty hempty]
      rcases hx with ⟨rfl, rfl⟩ | ⟨mk, op, sub, hform, rfl, rfl, hempty⟩
      · exact ⟨_, hends (veCommand_issues hk hrun hcan ..) (.inl rfl), ⟨cs, hdone⟩, hother, hcore⟩
      · exact ⟨_, hends (hissue hform) (.inr hempty), ⟨cs, hdone⟩, hother, hcore⟩
    · refine ⟨_, (hissue hform).trans (congrArg _ (veIssue_waits hok hwaits step)), ⟨_, rfl⟩, fun j hj => coreOf_modCore_other s k j _ hj,
        coreOf_modCore_same ..⟩
    · obtain ⟨hmem, hcores, hlast, ⟨r, hr, hunit, hcause⟩, hcrossing⟩ := engineFault_frame s (veUnit k) causeCommand 0
      exact ⟨_, r, (hissue hform).trans (congrArg _ (veIssue_refuses hok ..)), hmem, hcores, hlast, hr, hunit, hcause,
        by rw [hcrossing, veUnit_parent k hk]⟩

end Sys2Proof
end

section
/-! PROOFS. A read of local memory, byte by byte (R262, R263, R271, R272). -/

namespace Sys2Proof.Machine

/-! ## Lists of equal parts -/

theorem length_flatMap_range {β : Type} {f : Nat → List β} {n : Nat} (hf : ∀ x, (f x).length = n) (k : Nat) :
    ((List.range k).flatMap f).length = k * n := by
  simp [List.length_flatMap, hf]

/-- Entry `i` of equal parts in a row is entry `i % n` of part `i / n`. -/
theorem getD_flatMap_range {β : Type} {f : Nat → List β} {n : Nat} (hf : ∀ x, (f x).length = n) (d : β) {k i : Nat} (hi : i < k * n) :
    ((List.range k).flatMap f).getD i d = (f (i / n)).getD (i % n) d := by
  have hn : 0 < n := Nat.pos_of_mul_pos_left (Nat.zero_lt_of_lt hi)
  induction k with
  | zero => omega
  | succ k ih =>
    rw [List.range_succ, List.flatMap_append]
    have hlen := length_flatMap_range hf k
    by_cases h : i < k * n
    · rw [List.getD_append _ _ _ _ (by omega), ih h]
    · obtain ⟨j, rfl⟩ := Nat.exists_eq_add_of_le (Nat.le_of_not_lt h)
      have hj : j < n := by rw [Nat.succ_mul] at hi; omega
      rw [List.getD_append_right _ _ _ _ (by omega), hlen, Nat.add_sub_cancel_left, Nat.mul_comm k n, Nat.mul_add_div hn,
        Nat.mul_add_mod, Nat.div_eq_of_lt hj, Nat.mod_eq_of_lt hj]
      simp

/-! ## Codewords as they read -/

theorem cwBytes_length (cells : List Host.Cell) (check : Tbl (BitVec 32)) (w : Nat) : (cwBytes cells check w).length = 32 := by
  unfold cwBytes
  split
  · split <;> simp
  · simp

/-- A codeword lies in one place: every border of the map of R262 is a multiple of 32. -/
theorem placeOf_codeword (s : State) (x : Nat) : placeOf s (32 * (x / 32)) = placeOf s x := by
  obtain ⟨hlow, hhigh, hword⟩ : 32 * (x / 32) ≤ x ∧ x < 32 * (x / 32) + 32 ∧ 32 * (x / 32) % 32 = 0 := by omega
  generalize 32 * (x / 32) = y at *
  have hlt {b : Nat} (hb : b % 32 = 0) : y < b ↔ x < b := by omega
  have hle {b : Nat} (hb : b % 32 = 0) : b ≤ y ↔ b ≤ x := by omega
  have hdiv {b n : Nat} (hb : b % 32 = 0) (hn : n % 32 = 0) : (y - b) / n = (x - b) / n := by
    obtain ⟨k, rfl⟩ := Nat.dvd_of_mod_eq_zero hn
    rw [← Nat.div_div_eq_div_mul, ← Nat.div_div_eq_div_mul]
    congr 1; omega
  have hmod {b n r : Nat} (hb : b % 32 = 0) (hn : n % 32 = 0) (hr : r % 32 = 0) : (y - b) % n < r ↔ (x - b) % n < r := by
    have hword' : (y - b) % n % 32 = 0 := by rw [Nat.mod_mod_of_dvd _ (Nat.dvd_of_mod_eq_zero hn)]; omega
    have h := Nat.mod_add_div (y - b) n
    have h' := Nat.mod_add_div (x - b) n
    rw [hdiv hb hn] at h
    omega
  simp (disch := decide) only [placeOf, hlt, hle, hdiv, hmod]

/-- Codeword `w` as a read takes it: nothing lies at a reserved address (R263). -/
def readCw (s : State) (w : Nat) : List Byte :=
  if placeOf s (32 * w) = .reserved then List.replicate 32 0 else cwBytes s.mem.cells s.mem.check w

theorem readCw_length (s : State) (w : Nat) : (readCw s w).length = 32 := by
  unfold readCw
  split
  · exact List.length_replicate
  · exact cwBytes_length ..

/-- Codeword `w` does not stop a read (R272). -/
def cwReads (s : State) (w : Nat) : Prop := placeOf s (32 * w) = .reserved ∨ cwGood s w = true

theorem codewords_eq {n : Nat} (hn : n ≠ 0) (a : Nat) :
    codewords a n = (List.range ((a + n - 1) / 32 - a / 32 + 1)).map (a / 32 + ·) := if_neg hn

theorem readLocal_bytes_getD (s : State) (a : Nat) {n j : Nat} (hj : j < n) :
    (readLocal s a n).bytes.getD j 0 = (readCw s ((a + j) / 32)).getD ((a + j) % 32) 0 := by
  have hcw : a / 32 + (a % 32 + j) / 32 = (a + j) / 32 ∧ (a % 32 + j) % 32 = (a + j) % 32 := by omega
  have hall : ((codewords a n).flatMap (readCw s)).getD (a % 32 + j) 0 = (readCw s ((a + j) / 32)).getD ((a + j) % 32) 0 := by
    rw [codewords_eq (by omega), List.flatMap_map, getD_flatMap_range (fun _ => readCw_length s _) 0 (by omega), hcw.1, hcw.2]
  rw [← hall]
  show List.getD (((codewords a n).flatMap (readCw s)).drop (a % 32) |>.take n) j 0 = _
  simp [List.getD_eq_getElem?_getD, hj]

theorem readLocal_bytes_length (s : State) (a n : Nat) : (readLocal s a n).bytes.length = n := by
  show (((codewords a n).flatMap (readCw s)).drop (a % 32) |>.take n).length = n
  by_cases hn : n = 0
  · subst hn; simp
  · rw [List.length_take, List.length_drop, codewords_eq hn, List.flatMap_map, length_flatMap_range (fun _ => readCw_length s _)]
    omega

theorem goodRead_readLocal_iff (s : State) (a n : Nat) : GoodRead (readLocal s a n) ↔ ∀ w ∈ codewords a n, cwReads s w := by
  have hbad (w : Nat) : cwReads s w ↔ ¬ (placeOf s (32 * w) ≠ .reserved ∧ cwStateAt s w = .poison) ∧
      ¬ (placeOf s (32 * w) ≠ .reserved ∧ cwStateAt s w = .uncorrectable) := by
    unfold cwReads cwGood
    cases cwStateAt s w <;> simp
  simp only [GoodRead, readLocal, List.any_eq_false, hbad, forall_and, bne_iff_ne, beq_iff_eq, Bool.and_eq_true, cwStateAt]

/-! ## Bytes -/

theorem byteAt_eq (s : State) (x : Nat) : byteAt s x = (readCw s (x / 32)).getD (x % 32) 0 := by
  have h := readLocal_bytes_getD s x Nat.one_pos
  rw [Nat.add_zero] at h
  rw [← h, byteAt]
  cases (readLocal s x 1).bytes <;> rfl

theorem mem_codewords {a n w : Nat} : w ∈ codewords a n ↔ ∃ j, j < n ∧ w = (a + j) / 32 := by
  by_cases hn : n = 0
  · simp [codewords, hn]
  · rw [codewords_eq hn]
    simp only [List.mem_map, List.mem_range]
    constructor
    · rintro ⟨i, hi, rfl⟩
      exact ⟨32 * i - a % 32, by omega, by omega⟩
    · rintro ⟨j, hj, rfl⟩
      exact ⟨(a + j) / 32 - a / 32, by omega, by omega⟩

theorem goodAt_iff (s : State) (x : Nat) : GoodAt s x ↔ cwReads s (x / 32) := by
  simp [GoodAt, goodRead_readLocal_iff, mem_codewords]

/-- A read returns the bytes of its addresses. -/
theorem readLocal_bytes (s : State) (a n : Nat) : (readLocal s a n).bytes = (List.range n).map fun j => byteAt s (a + j) := by
  refine List.ext_getElem (by simp [readLocal_bytes_length]) fun j hj _ => ?_
  rw [← List.getD_eq_getElem _ 0 hj, readLocal_bytes_getD s a (by rwa [readLocal_bytes_length] at hj)]
  simp [byteAt_eq]

/-- A read is good where each of its bytes is. -/
theorem goodRead_readLocal {s : State} {a n : Nat} (h : ∀ j, j < n → GoodAt s (a + j)) : GoodRead (readLocal s a n) :=
  (goodRead_readLocal_iff s a n).2 fun w hw => by
    obtain ⟨j, hj, rfl⟩ := mem_codewords.1 hw
    exact (goodAt_iff s _).1 (h j hj)

end Sys2Proof.Machine
end

section
/-! PROOFS. A write to codewords that read good, byte by byte: what is written reads back and every other byte reads as before (R263, R271 to
R273). -/

namespace Sys2Proof.Machine

/-! ## One piece of a write -/

theorem cwBytes_getD_of_good {cells : List Host.Cell} {check : Tbl (BitVec 32)} {w i : Nat} (h : cwState ((tget check w).getD 0) = .good)
    (hi : i < 32) : (cwBytes cells check w).getD i 0 = cget cells (32 * w + i) := by
  simp only [cwBytes, h]
  exact cgets_getD _ _ _ _ hi

theorem cwBytes_congr {cells cells' : List Host.Cell} {check check' : Tbl (BitVec 32)} {w : Nat} (hcheck : tget check' w = tget check w)
    (hcells : ∀ i, i < 32 → cget cells' (32 * w + i) = cget cells (32 * w + i)) : cwBytes cells' check' w = cwBytes cells check w := by
  have hgets : cgets cells' (32 * w) 32 = cgets cells (32 * w) 32 :=
    List.ext_getElem (by simp) fun i hi _ => by
      rw [cgets_length] at hi
      rw [← List.getD_eq_getElem _ 0, ← List.getD_eq_getElem _ 0, cgets_getD _ _ _ _ hi, cgets_getD _ _ _ _ hi, hcells i hi]
  simp only [cwBytes, hcheck, hgets]

/-- From `s` to `t` the bytes `bs` from `a` are merged into their codeword, which then reads good as it is stored: its other bytes are those
that it read before, and every other codeword stands as it stood. -/
def Merges (s t : State) (a : Nat) (bs : List Byte) : Prop :=
  ∃ cells, cellsWf cells = true ∧ t.mem.cells = cputs cells a bs ∧ cwStateAt t (a / 32) = .good ∧
    (∀ w, w ≠ a / 32 → tget t.mem.check w = tget s.mem.check w) ∧
    (∀ x, x / 32 ≠ a / 32 → cget cells x = cget s.mem.cells x) ∧
    ∀ x, x / 32 = a / 32 → ¬ (a ≤ x ∧ x < a + bs.length) → cget cells x = (cwBytes s.mem.cells s.mem.check (a / 32)).getD (x % 32) 0

/-- A piece that is a whole codeword, or a part of one that reads good, is merged (R273). -/
theorem merges_writePiece {s : State} (hok : MemOk s) {a : Nat} {bs : List Byte} (hgood : cwGood s (a / 32) = true)
    (hfit : a % 32 + bs.length ≤ 32) : Merges s (writePiece s a bs) a bs := by
  have hcleared : cwState ((tget (tdel s.mem.check (a / 32)) (a / 32)).getD 0) = .good := by simp [cwState]
  unfold writePiece
  dsimp only
  split
  · next hwhole =>
    exact ⟨s.mem.cells, hok, rfl, hcleared, fun w hw => tget_tdel_other _ _ _ hw, fun _ _ => rfl,
      fun x hx hout => absurd ⟨by omega, by omega⟩ hout⟩
  · unfold cwGood cwStateAt at hgood
    split
    · next hstate =>
      refine ⟨s.mem.cells, hok, rfl, hstate, fun _ _ => rfl, fun _ _ => rfl, fun x hx _ => ?_⟩
      rw [cwBytes_getD_of_good hstate (Nat.mod_lt _ (by decide)), ← hx, Nat.div_add_mod]
    · next p e hstate =>
      refine ⟨cputs s.mem.cells (32 * (a / 32)) (cwBytes s.mem.cells s.mem.check (a / 32)), cellsWf_cputs _ _ hok, ?_, ?_, fun w hw => ?_,
        fun x hx => ?_, fun x hx _ => ?_⟩
      · rw [countCorrected_mem]
      · rw [cwStateAt, countCorrected_mem]; exact hcleared
      · rw [countCorrected_mem]; exact tget_tdel_other _ _ _ hw
      · rw [cget_cputs _ _ _ hok, cwBytes_length, if_neg (by omega)]
      · rw [cget_cputs _ _ _ hok, cwBytes_length, if_pos (by omega)]
        congr 1
        omega
    · next hstate => rw [hstate] at hgood; cases hgood
    · next hstate => rw [hstate] at hgood; cases hgood

section
variable {s t : State} {a : Nat} {bs : List Byte} (h : Merges s t a bs)
include h

theorem Merges.cwGood {w : Nat} (hgood : cwGood s w = true) : cwGood t w = true := by
  obtain ⟨_, -, -, hmerged, hcheck, -⟩ := h
  by_cases hw : w = a / 32
  · subst hw; simp [Machine.cwGood, hmerged]
  · rw [← hgood, Machine.cwGood, Machine.cwGood, cwStateAt, cwStateAt, hcheck w hw]

/-- The bytes of the piece read back, and every other byte reads as before. -/
theorem Merges.cwBytes_getD (hfit : a % 32 + bs.length ≤ 32) (x : Nat) :
    (cwBytes t.mem.cells t.mem.check (x / 32)).getD (x % 32) 0 =
      if a ≤ x ∧ x < a + bs.length then bs.getD (x - a) 0 else (cwBytes s.mem.cells s.mem.check (x / 32)).getD (x % 32) 0 := by
  obtain ⟨cells, hwf, hcells, hmerged, hcheck, hother, hsame⟩ := h
  by_cases hx : x / 32 = a / 32
  · rw [cwBytes_getD_of_good (hx ▸ hmerged) (Nat.mod_lt _ (by decide)), Nat.div_add_mod, hcells, cget_cputs _ _ _ hwf]
    split
    · rfl
    · next hout => rw [hsame x hx hout, hx]
  · rw [if_neg (by omega), cwBytes_congr (hcheck _ hx) fun i hi => ?_]
    rw [hcells, cget_cputs _ _ _ hwf, if_neg (by omega), hother _ (by omega)]

end

/-! ## Writes of local memory -/

/-- The bytes that `f` gives, with `bs` laid over them from `a`. -/
def laid (f : Nat → Byte) (a : Nat) (bs : List Byte) (x : Nat) : Byte := if a ≤ x ∧ x < a + bs.length then bs.getD (x - a) 0 else f x

/-- From `s` to `t` the bytes `bs` are written from `a`: they read back, every other byte reads as before, and what read good still does. -/
structure Lays (s t : State) (a : Nat) (bs : List Byte) : Prop where
  writes : Writes s t
  memOk : MemOk s → MemOk t
  good : ∀ x, GoodAt s x → GoodAt t x
  byteAt : byteAt t = laid (byteAt s) a bs

theorem laid_nil (f : Nat → Byte) (a : Nat) : laid f a [] = f := by
  funext x
  simp only [laid]
  exact if_neg (by simp)

/-- Two runs of bytes, the second behind the first, are one. -/
theorem laid_append (f : Nat → Byte) (a : Nat) (bs cs : List Byte) : laid (laid f a bs) (a + bs.length) cs = laid f a (bs ++ cs) := by
  funext x
  simp only [laid, List.length_append]
  by_cases hcs : a + bs.length ≤ x ∧ x < a + bs.length + cs.length
  · rw [if_pos hcs, if_pos (by omega), List.getD_append_right _ _ _ _ (by omega)]
    congr 1; omega
  · by_cases hbs : a ≤ x ∧ x < a + bs.length
    · rw [if_neg hcs, if_pos hbs, if_pos (by omega), List.getD_append _ _ _ _ (by omega)]
    · rw [if_neg hcs, if_neg hbs, if_neg (by omega)]

theorem readCw_of_place {s : State} {w : Nat} (h : placeOf s (32 * w) ≠ .reserved) : readCw s w = cwBytes s.mem.cells s.mem.check w := if_neg h

/-- One piece of a write to a codeword that reads good, at no reserved address. -/
theorem lays_writePiece {s : State} (hok : MemOk s) {a : Nat} {bs : List Byte} (hplace : placeOf s a ≠ .reserved) (hgood : GoodAt s a)
    (hfit : a % 32 + bs.length ≤ 32) : Lays s (writePiece s a bs) a bs := by
  have hwrites := writes_writePiece s a bs
  have hcw : cwGood s (a / 32) = true := ((goodAt_iff s a).1 hgood).resolve_left (by rwa [placeOf_codeword])
  have hmerges := merges_writePiece hok hcw hfit
  refine ⟨hwrites, memOk_writePiece a bs, fun x hx => ?_, funext fun x => ?_⟩
  · rw [goodAt_iff, cwReads] at hx ⊢
    rw [hwrites.placeOf]
    exact hx.imp_right hmerges.cwGood
  · rw [byteAt_eq, laid, byteAt_eq]
    by_cases hx : placeOf s (32 * (x / 32)) = .reserved
    · have hout : ¬ (a ≤ x ∧ x < a + bs.length) := fun hin => by
        rw [← placeOf_codeword, show a / 32 = x / 32 by omega] at hplace
        exact hplace hx
      rw [if_neg hout, readCw, readCw, hwrites.placeOf, if_pos hx, if_pos hx]
    · rw [readCw_of_place hx, readCw_of_place (by rwa [hwrites.placeOf]), hmerges.cwBytes_getD hfit]

theorem Lays.trans {s t r : State} {a b : Nat} {bs cs ds : List Byte} (h : Lays s t a bs) (h' : Lays t r b cs) (hb : b = a + bs.length)
    (hds : bs ++ cs = ds) : Lays s r a ds where
  writes := h.writes.trans h'.writes
  memOk := h'.memOk ∘ h.memOk
  good x := h'.good x ∘ h.good x
  byteAt := by rw [h'.byteAt, h.byteAt, hb, laid_append, hds]

theorem Lays.refl (s : State) (a : Nat) : Lays s s a [] := ⟨.refl s, id, fun _ => id, (laid_nil ..).symm⟩

theorem pieces_nil (fuel a : Nat) : pieces fuel a [] = [] := by cases fuel <;> simp [pieces]

theorem lays_storePiece {s : State} (hok : MemOk s) {a : Nat} {bs : List Byte} (hplace : placeOf s a ≠ .reserved) (hgood : GoodAt s a)
    (hfit : a % 32 + bs.length ≤ 32) : Lays s (storePiece false s (a, bs)) a bs := by
  simp only [storePiece, hplace, if_false, Bool.false_eq_true]
  exact lays_writePiece hok hplace hgood hfit

/-- The pieces of a write are stored one by one. -/
theorem lays_pieces (fuel : Nat) {s : State} (hok : MemOk s) {a : Nat} {bs : List Byte} (hfuel : bs.length ≤ fuel)
    (hplace : ∀ j, j < bs.length → placeOf s (a + j) ≠ .reserved) (hgood : ∀ j, j < bs.length → GoodAt s (a + j)) :
    Lays s ((pieces fuel a bs).foldl (storePiece false) s) a bs := by
  induction fuel generalizing s a bs with
  | zero => rw [List.length_eq_zero_iff.1 (Nat.le_zero.1 hfuel)]; exact .refl s a
  | succ fuel ih =>
    by_cases hbs : bs = []
    · subst hbs; exact .refl s a
    have hlen : 0 < bs.length := List.length_pos_iff.2 hbs
    rw [pieces, if_neg hbs, List.foldl_cons]
    by_cases hfit : a % 32 + bs.length ≤ 32
    · rw [List.take_of_length_le (by omega), List.drop_of_length_le (by omega), pieces_nil]
      exact lays_storePiece hok (hplace 0 hlen) (hgood 0 hlen) hfit
    · have htake : (bs.take (32 - a % 32)).length = 32 - a % 32 := by rw [List.length_take]; omega
      have hdrop : (bs.drop (32 - a % 32)).length = bs.length - (32 - a % 32) := List.length_drop
      have hhead : Lays s (storePiece false s (a, bs.take (32 - a % 32))) a (bs.take (32 - a % 32)) :=
        lays_storePiece hok (hplace 0 hlen) (hgood 0 hlen) (by omega)
      have htail := ih (a := a + (32 - a % 32)) (bs := bs.drop (32 - a % 32)) (hhead.memOk hok) (by omega)
        (fun j hj => by rw [hhead.writes.placeOf, Nat.add_assoc]; exact hplace _ (by omega))
        (fun j hj => hhead.good _ (by rw [Nat.add_assoc]; exact hgood _ (by omega)))
      exact hhead.trans htail (by rw [htake]) (List.take_append_drop ..)

/-- From `s` to `t` memory stands as it stood: reads, and counts of accesses. -/
structure Reads (s t : State) : Prop where
  writes : Writes s t
  mem : t.mem = s.mem

theorem Reads.refl (s : State) : Reads s s := ⟨.refl s, rfl⟩

theorem Reads.trans {s t r : State} (h : Reads s t) (h' : Reads t r) : Reads s r := ⟨h.writes.trans h'.writes, h'.mem.trans h.mem⟩

theorem Reads.readCw {s t : State} (h : Reads s t) : readCw t = readCw s := by
  funext w; rw [Machine.readCw, Machine.readCw, h.mem, h.writes.placeOf]

theorem Reads.cwReads {s t : State} (h : Reads s t) : cwReads t = cwReads s := by
  funext w; rw [Machine.cwReads, Machine.cwReads, h.writes.placeOf, cwGood, cwGood, cwStateAt, cwStateAt, h.mem]

theorem Reads.lays {s t : State} (h : Reads s t) (a : Nat) : Lays s t a [] where
  writes := h.writes
  memOk := memOk_of_mem h.mem
  good x hx := by rwa [goodAt_iff, h.cwReads, ← goodAt_iff]
  byteAt := by rw [laid_nil]; funext x; rw [byteAt_eq, byteAt_eq, h.readCw]

theorem reads_countUnit (s : State) (u : UAddr) (ev v : Nat) : Reads s (countUnit s u ev v) := ⟨writes_countUnit .., countUnit_mem ..⟩

theorem reads_countDram (s : State) (ev a n : Nat) : Reads s (countDram s ev a n) := ⟨writes_countDram .., countDram_mem ..⟩

theorem reads_countRead (s : State) (a n : Nat) : Reads s (countRead s a n) := by
  refine (reads_countDram s 0x50 a n).trans (List.foldlRecOn (motive := Reads _) _ _ (.refl _) fun t h w _ => h.trans ?_)
  split
  · split
    · exact .refl t
    · exact ⟨writes_countCorrected .., countCorrected_mem ..⟩
  · exact .refl t

theorem mem_pieces {fuel a : Nat} {bs : List Byte} {p : Nat × List Byte} (hp : p ∈ pieces fuel a bs) : ∃ j, j < bs.length ∧ p.1 = a + j := by
  induction fuel generalizing a bs with
  | zero => cases hp
  | succ fuel ih =>
    rw [pieces] at hp
    split at hp
    · cases hp
    · next hbs =>
      rcases List.mem_cons.1 hp with rfl | hp
      · exact ⟨0, List.length_pos_iff.2 hbs, rfl⟩
      · obtain ⟨j, hj, hpj⟩ := ih hp
        rw [List.length_drop] at hj
        exact ⟨32 - a % 32 + j, by omega, by omega⟩

/-- A write without a mirror to good bytes, at no reserved address. -/
theorem lays_writeLocal {s : State} (hok : MemOk s) (master : UAddr) {a : Nat} {bs : List Byte}
    (hplace : ∀ j, j < bs.length → placeOf s (a + j) ≠ .reserved) (hgood : ∀ j, j < bs.length → GoodAt s (a + j)) :
    Lays s (writeLocal s master a bs false) a bs := by
  have hcount := (reads_countDram s 0x51 a bs.length).lays a
  have hpieces : Lays s ((pieces bs.length a bs).foldl (storePiece false) (countDram s 0x51 a bs.length)) a bs :=
    hcount.trans (lays_pieces _ (hcount.memOk hok) le_rfl (fun j hj => by rw [hcount.writes.placeOf]; exact hplace j hj)
      (fun j hj => hcount.good _ (hgood j hj))) rfl rfl
  have hnone : (pieces bs.length a bs).find? (fun p => placeOf s p.1 == .reserved) = none :=
    List.find?_eq_none.2 fun p hp => by
      obtain ⟨j, hj, hpj⟩ := mem_pieces hp
      simpa [hpj] using hplace j hj
  unfold storePiece at hpieces
  unfold writeLocal
  dsimp only
  rw [hpieces.writes.placeOf, hnone]
  exact hpieces

end Sys2Proof.Machine
end

section
/-! PROOFS. What a mover reads and writes of the device's own memory, and a mover's command that has run (R284, R286 to R288). -/

namespace Sys2Proof.Machine

/-! ## A mover's accesses to the device's own memory -/

theorem Writes.devnum {s t : State} (h : Writes s t) : devnum t = devnum s := (congrArg (fun x => x.pins.devnum.toNat) h.state :)

theorem reads_countHeld (s : State) (u : UAddr) (a : Nat) : Reads s (countHeld s u a) := by
  unfold countHeld
  split
  · split
    · exact reads_countUnit ..
    · exact .refl s
  · exact .refl s

/-- The fabric address `i` beyond `a`, in 42 bits. -/
theorem addrPlus_add (a : Nat) (i : Int) (j : Nat) : (addrPlus a i + j) % 2 ^ 42 = (((a : Int) + i + j) % 2 ^ 42).toNat := by
  unfold addrPlus
  omega

theorem addrPlus_lt (a : Nat) (i : Int) : addrPlus a i < 2 ^ 42 := by
  unfold addrPlus
  omega

/-- The `n` bytes from fabric address `f` are good bytes of the device's own memory. -/
structure OwnRun (s : State) (f n : Nat) : Prop where
  start : f < 2 ^ 42
  short : n ≤ 2 ^ 36
  own : ∀ j, j < n → OwnByte s ((f + j) % 2 ^ 42)

section
variable {s : State} {f n : Nat} (h : OwnRun s f n)
include h

theorem OwnRun.device (hn : 0 < n) : f / 2 ^ 36 = devnum s := by
  have hstart := h.start
  obtain ⟨hfirst, -⟩ := h.own 0 hn
  omega

/-- They lie one behind the other in local memory. -/
theorem OwnRun.localAddr {j : Nat} (hj : j < n) : (f + j) % 2 ^ 42 % 2 ^ 36 = f % 2 ^ 36 + j := by
  have hdevice := h.device (by omega)
  have hstart := h.start
  have hshort := h.short
  obtain ⟨hsame, -⟩ := h.own j hj
  omega

theorem OwnRun.inMemory {j : Nat} (hj : j < n) : InMemory s (f % 2 ^ 36 + j) := by
  obtain ⟨-, hplace, -⟩ := h.own j hj
  rwa [h.localAddr hj] at hplace

theorem OwnRun.goodAt {j : Nat} (hj : j < n) : GoodAt s (f % 2 ^ 36 + j) := by
  obtain ⟨-, -, hgood⟩ := h.own j hj
  rwa [h.localAddr hj] at hgood

end

/-- What is written nowhere but in memory, with codewords that read good, leaves the own bytes own. -/
theorem ownByte_of_writes {s t : State} (hwrites : Writes s t) (hgood : ∀ x, GoodAt s x → GoodAt t x) {f : Nat} (h : OwnByte s f) :
    OwnByte t f := by
  obtain ⟨hdevice, hplace, hbyte⟩ := h
  exact ⟨hwrites.devnum.symm ▸ hdevice, by rwa [InMemory, hwrites.placeOf], hgood _ hbyte⟩

/-- A read of own memory returns its bytes. -/
theorem movRead_own {r : MovRun} {f n : Nat} (h : OwnRun r.s f n) (hn : 0 < n) (u : UAddr) (c : Nat) :
    ∃ t, movRead r u c 0 f n = ({ r with s := t }, (List.range n).map fun j => byteAt r.s ((f + j) % 2 ^ 42 % 2 ^ 36)) ∧ Reads r.s t := by
  have hread : busRead r.s (f % 2 ^ 36) n = readLocal r.s (f % 2 ^ 36) n := if_neg fun hc => (h.inMemory hn).2 hc.2
  obtain ⟨hpoison, huncorrectable⟩ := goodRead_readLocal fun j hj => h.goodAt hj
  refine ⟨_, ?_, (reads_countRead r.s (f % 2 ^ 36) n).trans (reads_countHeld _ u (f % 2 ^ 36))⟩
  have hbytes : (readLocal r.s (f % 2 ^ 36) n).bytes = (List.range n).map fun j => byteAt r.s ((f + j) % 2 ^ 42 % 2 ^ 36) := by
    rw [readLocal_bytes]
    exact List.map_congr_left fun j hj => by rw [h.localAddr (List.mem_range.1 hj)]
  simp only [movRead, h.device hn, hread, hpoison, huncorrectable, ← hbytes]
  simp

/-- A write to own memory lays its bytes there. -/
theorem movWrite_own {r : MovRun} {f : Nat} {bs : List Byte} (h : OwnRun r.s f bs.length) (hbs : bs ≠ []) (hok : MemOk r.s) (u : UAddr)
    (c : Nat) (src : Option Nat) : ∃ t, movWrite r u c 0 f src false bs = { r with s := t } ∧ Lays r.s t (f % 2 ^ 36) bs := by
  have hlen := List.length_pos_iff.2 hbs
  have hcontrol : placeOf r.s (f % 2 ^ 36) ≠ .control := (h.inMemory hlen).2
  have hwrite : busWrite r.s u (f % 2 ^ 36) bs false = writeLocal r.s u (f % 2 ^ 36) bs false := by
    rw [busWrite, if_neg hbs, if_neg hcontrol]
  have hlays := lays_writeLocal hok u (fun j hj => (h.inMemory hj).1) (fun j hj => h.goodAt hj)
  refine ⟨_, ?_, hlays.trans ((reads_countHeld _ u (f % 2 ^ 36)).lays (f % 2 ^ 36 + bs.length)) rfl (List.append_nil bs)⟩
  simp only [movWrite, hbs, h.device hlen, hwrite]
  simp

/-! ## A command that has run -/

/-- Two states that agree in what writes leave alone differ in the rest alone. -/
theorem eq_of_unwritten {s t : State} (h : unwritten t = unwritten s) : t = { s with
    mem := t.mem, units := t.units, faults := t.faults, lastFault := t.lastFault, pins := t.pins, pmu := t.pmu } :=
  congrArg (fun x => { x with
    mem := t.mem, units := t.units, faults := t.faults, lastFault := t.lastFault, pins := t.pins, pmu := t.pmu }) h

theorem Writes.clusterOf {s t : State} (h : Writes s t) : clusterOf t = clusterOf s := clusterOf_of_clusters (congrArg State.clusters h.state :)

/-- The command waits on mover `m` to be reported complete; a count and the mover's stream FIFO are all else that changes. -/
theorem movDone_eq (s : State) (c m : Nat) (u : UAddr) (ts : List Nat) (minSize cycles : Nat) : ∃ f pm em,
    movDone s c m u ts minSize cycles = { modMov s c m f with pmu := pm, engMem := em } ∧ ∀ x, (f x).eng.busy = x.eng.busy ++ [0] := by
  obtain ⟨pm, hcount⟩ := countUnit_pmu (modMov (stream s u (ts.map fun _ => [])).2 c m (fun x => { x with
    eng := { x.eng with busy := x.eng.busy ++ [0], cycles := x.eng.cycles + cycles }
    toIssue := x.toIssue + ts.length, minSize := minSize })) u 0x44 cycles
  exact ⟨_, pm, _, hcount, fun _ => rfl⟩

theorem movDone_mem (s : State) (c m : Nat) (u : UAddr) (ts : List Nat) (minSize cycles : Nat) :
    (movDone s c m u ts minSize cycles).mem = s.mem := by
  obtain ⟨f, pm, em, h, -⟩ := movDone_eq s c m u ts minSize cycles
  rw [h]; rfl

theorem movDone_placeOf (s : State) (c m : Nat) (u : UAddr) (ts : List Nat) (minSize cycles : Nat) :
    placeOf (movDone s c m u ts minSize cycles) = placeOf s := by
  obtain ⟨f, pm, em, h, -⟩ := movDone_eq s c m u ts minSize cycles
  rw [h]; rfl

theorem movDone_byteAt (s : State) (c m : Nat) (u : UAddr) (ts : List Nat) (minSize cycles : Nat) :
    byteAt (movDone s c m u ts minSize cycles) = byteAt s := by
  funext x
  rw [byteAt_eq, byteAt_eq, readCw, readCw, movDone_mem, movDone_placeOf]

/-- A command whose accesses write memory has run. -/
theorem moverRun_movDone {s t : State} (h : Writes s t) {c m : Nat} (hm : m < (clusterOf s c).movers.length) (u : UAddr) (ts : List Nat)
    (minSize cycles : Nat) : MoverRun s (movDone t c m u ts minSize cycles) c m := by
  obtain ⟨f, pm, em, hdone, hbusy⟩ := movDone_eq t c m u ts minSize cycles
  have hrest := eq_of_unwritten h.state
  have hother (j : Nat) (hj : j ≠ c) : clusterOf (modMov t c m f) j = clusterOf s j :=
    (clusterOf_modCluster_other t c j _ hj).trans (congrFun h.clusterOf j)
  have hsame : clusterOf (modMov t c m f) c = { clusterOf s c with movers := lmod (clusterOf s c).movers m f } := by
    rw [modMov, clusterOf_modCluster_same, h.clusterOf]
  have hmovers (j : Nat) : movOf (modMov t c m f) c j = (lmod (clusterOf s c).movers m f).getD j {} := by rw [movOf, hsame]
  rw [hdone]
  refine ⟨⟨t.mem, (modMov t c m f).clusters, t.units, t.pins, pm, em, t.faults, t.lastFault, s.freeCount, ?_⟩, hother, fun j hj => ?_, ?_,
    (congrArg ClusterSt.seq hsame :), (congrArg ClusterSt.ce hsame :), (congrArg ClusterSt.pe hsame :), ?_⟩
  · exact congrArg (fun x => { x with clusters := (modMov t c m f).clusters, pmu := pm, engMem := em }) hrest
  · exact (hmovers j).trans (lmod_get_other _ _ _ _ _ hj)
  · calc (movOf (modMov t c m f) c m).eng.busy = (f (movOf s c m)).eng.busy := by rw [hmovers, lmod_get_same _ _ _ _ hm, movOf]
      _ = (movOf s c m).eng.busy ++ [0] := hbusy _
  · exact ((congrArg (fun x => x.movers.length) hsame).trans (lmod_length ..)).symm

end Sys2Proof.Machine
end

section
/-! PROOFS. Runs of bytes laid one after the other, and the rows that a RELAY reads (R156, R163). -/

namespace Sys2Proof.Machine

/-! ## Runs of bytes laid one after the other -/

/-- From `s` to `t` the bytes `bytes i` are written at local address `at_ i` for each `i` of `done`: they read back, every other byte reads
as before, and what read good still does. -/
structure LaysAll {ι : Type} (at_ : ι → Nat) (bytes : ι → List Byte) (s t : State) (done : List ι) : Prop where
  writes : Writes s t
  memOk : MemOk t
  good : ∀ x, GoodAt s x → GoodAt t x
  laid : ∀ i ∈ done, ∀ j, j < (bytes i).length → byteAt t (at_ i + j) = (bytes i).getD j 0
  kept : ∀ x, (∀ i ∈ done, ∀ j, j < (bytes i).length → at_ i + j ≠ x) → byteAt t x = byteAt s x

section
variable {ι : Type} {at_ : ι → Nat} {bytes : ι → List Byte} {s t r : State} {done : List ι}

theorem LaysAll.nil (hok : MemOk s) : LaysAll at_ bytes s s [] :=
  ⟨.refl s, hok, fun _ => id, fun _ h => absurd h List.not_mem_nil, fun _ _ => rfl⟩

/-- One run more, apart from those before it. -/
theorem LaysAll.snoc (h : LaysAll at_ bytes s t done) {i : ι} (h' : Lays t r (at_ i) (bytes i))
    (hapart : ∀ k ∈ done, k ≠ i → ∀ j j', j < (bytes k).length → j' < (bytes i).length → at_ k + j ≠ at_ i + j') :
    LaysAll at_ bytes s r (done ++ [i]) where
  writes := h.writes.trans h'.writes
  memOk := h'.memOk h.memOk
  good x hx := h'.good x (h.good x hx)
  laid k hk j hj := by
    rw [h'.byteAt, Machine.laid]
    by_cases hki : k = i
    · subst hki
      rw [if_pos (by omega), Nat.add_sub_cancel_left]
    · have hk : k ∈ done := by simpa [hki] using hk
      rw [if_neg fun hin => hapart k hk hki j (at_ k + j - at_ i) hj (by omega) (by omega)]
      exact h.laid k hk j hj
  kept x hx := by
    rw [h'.byteAt, Machine.laid, if_neg fun hin => hx i (by simp) (x - at_ i) (by omega) (by omega)]
    exact h.kept x fun k hk => hx k (List.mem_append_left _ hk)

end

/-- An invariant of a run over a list, said of the part that is done. -/
theorem foldl_done {α β : Type} {f : β → α → β} {P : List α → β → Prop} {l : List α} {b : β} (hnil : P [] b)
    (hstep : ∀ done b x, (∀ y ∈ done, y ∈ l) → x ∈ l → P done b → P (done ++ [x]) (f b x)) : P l (l.foldl f b) := by
  induction l using List.reverseRecOn with
  | nil => exact hnil
  | append_singleton l x ih =>
    rw [List.foldl_append]
    exact hstep l _ x (fun y hy => List.mem_append_left _ hy) (by simp) (ih fun done b y hd hy =>
      hstep done b y (fun z hz => List.mem_append_left _ (hd z hz)) (List.mem_append_left _ hy))

/-! ## The addresses and rows of a RELAY (R156, R163) -/

/-- The fabric address of byte `j` of plane position `q` of plane `p`. -/
def relayDst (x : MovCmd) (p q j : Nat) : Nat :=
  (((x.dst.toNat : Int) + (p * x.planePitch.toNat * 64 : Nat) + q * movPitch x.dstPitch + j) % 2 ^ 42).toNat

/-- The fabric address of byte `j` of group `gr` of source position (`y`, `z`). -/
def relaySrc (x : MovCmd) (y z gr j : Nat) : Nat :=
  (((x.src.toNat : Int) + (y * x.linePitch.toNat * 64 + gr * x.groupPitch.toNat * 64 : Nat) + z * movPitch x.srcPitch + j) % 2 ^ 42).toNat

/-- The bytes of a row: every group of the channel. -/
def relayLen (x : MovCmd) : Nat := x.groups.toNat * x.length.toNat

/-- Where plane position `q` of plane `p` starts. -/
def relayTo (x : MovCmd) (p q : Nat) : Nat :=
  addrPlus x.dst.toNat ((p * x.planePitch.toNat * 64 : Nat) + (q : Int) * movPitch x.dstPitch)

/-- Where group `gr` of source position (`y`, `z`) starts. -/
def relayFrom (x : MovCmd) (y z gr : Nat) : Nat :=
  addrPlus x.src.toNat ((y * x.linePitch.toNat * 64 + gr * x.groupPitch.toNat * 64 : Nat) + (z : Int) * movPitch x.srcPitch)

theorem relayTo_add (x : MovCmd) (p q j : Nat) : (relayTo x p q + j) % 2 ^ 42 = relayDst x p q j := by
  rw [relayTo, addrPlus_add, relayDst, ← add_assoc (x.dst.toNat : Int)]

theorem relayFrom_add (x : MovCmd) (y z gr j : Nat) : (relayFrom x y z gr + j) % 2 ^ 42 = relaySrc x y z gr j := by
  rw [relayFrom, addrPlus_add, relaySrc, ← add_assoc (x.src.toNat : Int)]

/-- The first byte goes to the command's destination. -/
theorem relayDst_zero (x : MovCmd) : relayDst x 0 0 0 = x.dst.toNat := by
  have hdst := x.dst.isLt
  simp only [relayDst, Nat.cast_zero, zero_mul, add_zero]
  omega

/-- Byte `j` of the row that comes from source position `src`: 0 where there is none (R156). -/
def relayByte (s : State) (x : MovCmd) (src : Option (Nat × Nat)) (j : Nat) : Byte :=
  match src with
  | some (y, z) => byteAt s (relaySrc x y z (j / x.length.toNat) (j % x.length.toNat) % 2 ^ 36)
  | none => 0

/-- The row that comes from source position `src`. -/
def relayBytes (s : State) (x : MovCmd) (src : Option (Nat × Nat)) : List Byte := (List.range (relayLen x)).map (relayByte s x src)

theorem relayBytes_length (s : State) (x : MovCmd) (src : Option (Nat × Nat)) : (relayBytes s x src).length = relayLen x := by
  simp [relayBytes]

theorem relayBytes_getD (s : State) (x : MovCmd) (src : Option (Nat × Nat)) {j : Nat} (hj : j < relayLen x) :
    (relayBytes s x src).getD j 0 = relayByte s x src j := by
  simp [relayBytes, hj]

/-- The bytes that a row reads are good bytes of the device's own memory. -/
def OwnSource (s : State) (x : MovCmd) (src : Option (Nat × Nat)) : Prop :=
  ∀ y z, src = some (y, z) → ∀ j, j < relayLen x → OwnByte s (relaySrc x y z (j / x.length.toNat) (j % x.length.toNat))

theorem ownRun_relayFrom {s : State} {x : MovCmd} {y z gr : Nat} (h : OwnSource s x (some (y, z))) (hgr : gr < x.groups.toNat) :
    OwnRun s (relayFrom x y z gr) x.length.toNat := by
  refine ⟨addrPlus_lt .., by have := x.length.isLt; omega, fun j hj => ?_⟩
  have hbyte : gr * x.length.toNat + j < relayLen x := by
    calc gr * x.length.toNat + j < (gr + 1) * x.length.toNat := by rw [Nat.succ_mul]; omega
      _ ≤ relayLen x := Nat.mul_le_mul_right _ hgr
  have hown := h y z rfl _ hbyte
  rwa [Nat.mul_comm gr, Nat.mul_add_div (by omega), Nat.mul_add_mod, Nat.div_eq_of_lt hj, Nat.mod_eq_of_lt hj, Nat.add_zero,
    ← relayFrom_add] at hown

/-- One group more of a row (R163). -/
def relayGroup (u : UAddr) (c : Nat) (x : MovCmd) (y z : Nat) (p : MovRun × List Byte) (gr : Nat) : MovRun × List Byte :=
  if p.1.stop then p
  else
    let (r, bs) := movRead p.1 u c x.srcSpace.toNat (relayFrom x y z gr) x.length.toNat
    (r, p.2 ++ bs)

theorem relayByte_of_reads {s t : State} (h : Reads s t) (x : MovCmd) (src : Option (Nat × Nat)) : relayByte t x src = relayByte s x src := by
  funext j
  cases src with
  | none => rfl
  | some yz => simp only [relayByte, byteAt_eq, h.readCw]

theorem ownSource_of_writes {s t : State} (hwrites : Writes s t) (hgood : ∀ x, GoodAt s x → GoodAt t x) {x : MovCmd}
    {src : Option (Nat × Nat)} (h : OwnSource s x src) : OwnSource t x src := fun y z hsrc j hj =>
  ownByte_of_writes hwrites hgood (h y z hsrc j hj)

/-- A group of own memory is read behind those before it. -/
theorem relayGroup_own {r : MovRun} {x : MovCmd} {y z gr : Nat} (hstop : r.stop = false) (hspace : x.srcSpace = 0)
    (hlen : 0 < x.length.toNat) (hown : OwnSource r.s x (some (y, z))) (hgr : gr < x.groups.toNat) (u : UAddr) (c : Nat) :
    ∃ t, relayGroup u c x y z (r, (List.range (gr * x.length.toNat)).map (relayByte r.s x (some (y, z)))) gr =
      ({ r with s := t }, (List.range ((gr + 1) * x.length.toNat)).map (relayByte r.s x (some (y, z)))) ∧ Reads r.s t := by
  obtain ⟨t, hread, hreads⟩ := movRead_own (ownRun_relayFrom hown hgr) hlen u c
  refine ⟨t, ?_, hreads⟩
  have hspace' : x.srcSpace.toNat = 0 := by rw [hspace]; rfl
  have hbytes : (List.range x.length.toNat).map (fun j => byteAt r.s ((relayFrom x y z gr + j) % 2 ^ 42 % 2 ^ 36)) =
      (List.range x.length.toNat).map (fun j => relayByte r.s x (some (y, z)) (gr * x.length.toNat + j)) :=
    List.map_congr_left fun j hj => by
      have hj := List.mem_range.1 hj
      rw [relayFrom_add, relayByte, Nat.mul_comm gr, Nat.mul_add_div hlen, Nat.mul_add_mod, Nat.div_eq_of_lt hj, Nat.mod_eq_of_lt hj,
        Nat.add_zero]
  simp only [relayGroup, hstop, hspace', hread, hbytes]
  simp [Nat.succ_mul, List.range_add]

/-- A row is read group by group, and nothing else happens. -/
theorem relayRow_own {r : MovRun} {x : MovCmd} {src : Option (Nat × Nat)} (hstop : r.stop = false) (hspace : x.srcSpace = 0)
    (hlen : 0 < x.length.toNat) (hown : OwnSource r.s x src) (u : UAddr) (c : Nat) :
    ∃ t, relayRow u c x src r = ({ r with s := t }, relayBytes r.s x src) ∧ Reads r.s t := by
  cases src with
  | none =>
    refine ⟨r.s, Prod.ext rfl ?_, .refl _⟩
    show List.replicate (x.length.toNat * x.groups.toNat) 0 = (List.range (x.groups.toNat * x.length.toNat)).map fun _ => 0
    rw [List.map_const', List.length_range, Nat.mul_comm]
  | some yz =>
    obtain ⟨y, z⟩ := yz
    have hgroups (k : Nat) (hk : k ≤ x.groups.toNat) : ∃ t, (List.range k).foldl (relayGroup u c x y z) (r, []) =
        ({ r with s := t }, (List.range (k * x.length.toNat)).map (relayByte r.s x (some (y, z)))) ∧ Reads r.s t := by
      induction k with
      | zero => exact ⟨r.s, by simp, .refl _⟩
      | succ k ih =>
        obtain ⟨t, hfold, hreads⟩ := ih (by omega)
        obtain ⟨t', hgroup, hreads'⟩ := relayGroup_own (r := { r with s := t }) hstop hspace hlen
          (ownSource_of_writes hreads.writes (hreads.lays 0).good hown) hk u c
        rw [relayByte_of_reads hreads] at hgroup
        exact ⟨t', by rw [List.range_succ, List.foldl_append, hfold]; exact hgroup, hreads.trans hreads'⟩
    exact hgroups _ le_rfl

end Sys2Proof.Machine
end

section
/-! PROOFS. The planes that a RELAY writes, and its command (R156, R162, R163, R289). -/

namespace Sys2Proof.Machine

/-! ## Plane position by plane position (R163) -/

/-- One plane position: its row is read and written. -/
def relayStep (u : UAddr) (c : Nat) (x : MovCmd) (src : Nat × Nat → Option (Nat × Nat)) (r : MovRun) (i : Nat × Nat) : MovRun :=
  if r.stop then r
  else
    let (r, bs) := relayRow u c x (src i) r
    if r.stop then r
    else movWrite r u c x.dstSpace.toNat (relayTo x i.1 i.2) (localSource r.s x.srcSpace.toNat x.src.toNat) (x.mirror == 1) bs

/-- The plane positions, plane by plane. -/
def relayPositions (g : RelayGeo) : List (Nat × Nat) :=
  (List.range ((relayX g).k * (relayY g).k)).flatMap fun p => (List.range ((relayX g).outSize * (relayY g).outSize)).map fun q => (p, q)

/-- The source position of a plane position. -/
def relaySource (g : RelayGeo) (i : Nat × Nat) : Option (Nat × Nat) :=
  gridSource (relayX g) (relayY g) (g.padMode == 1) i.2 (i.1 / (relayX g).k) (i.1 % (relayX g).k)

theorem relayRun_eq (u : UAddr) (c : Nat) (x : MovCmd) (g : RelayGeo) (r : MovRun) :
    relayRun u c x g r = (relayPositions g).foldl (relayStep u c x (relaySource g)) r := by
  simp only [relayPositions, List.foldl_flatMap, List.foldl_map]
  rfl

theorem mem_relayPositions {g : RelayGeo} {i : Nat × Nat} : i ∈ relayPositions g ↔
    i.1 < (relayX g).k * (relayY g).k ∧ i.2 < (relayX g).outSize * (relayY g).outSize := by
  obtain ⟨p, q⟩ := i
  simp [relayPositions]

/-- A RELAY that is not empty has a first position. -/
theorem zero_mem_relayPositions {x : MovCmd} {g : RelayGeo} (h : relayEmpty x g = false) : (0, 0) ∈ relayPositions g := by
  simp only [relayEmpty, Bool.or_eq_false_iff, decide_eq_false_iff_not] at h
  obtain ⟨⟨⟨⟨-, hx⟩, hy⟩, hkx⟩, hky⟩ := h
  exact mem_relayPositions.2 ⟨Nat.mul_pos (Nat.pos_of_ne_zero hkx) (Nat.pos_of_ne_zero hky),
    Nat.mul_pos (Nat.pos_of_ne_zero hx) (Nat.pos_of_ne_zero hy)⟩

/-- A RELAY between places of the device's own memory: it reads no byte that it writes, and writes none twice. -/
structure OwnRelay (s : State) (x : MovCmd) (src : Nat × Nat → Option (Nat × Nat)) (l : List (Nat × Nat)) : Prop where
  writes : ∀ i ∈ l, ∀ j, j < relayLen x → OwnByte s (relayDst x i.1 i.2 j)
  reads : ∀ i ∈ l, OwnSource s x (src i)
  apart : ∀ i ∈ l, ∀ y z, src i = some (y, z) → ∀ j, j < relayLen x → ∀ k ∈ l, ∀ j', j' < relayLen x →
    relayDst x k.1 k.2 j' ≠ relaySrc x y z (j / x.length.toNat) (j % x.length.toNat)
  once : ∀ i ∈ l, ∀ k ∈ l, ∀ j j', j < relayLen x → j' < relayLen x → relayDst x i.1 i.2 j = relayDst x k.1 k.2 j' → i = k

theorem relayLen_le (x : MovCmd) : relayLen x ≤ 2 ^ 36 := by
  have hgroups := x.groups.isLt
  have hlength := x.length.isLt
  calc relayLen x ≤ 2 ^ 4 * 2 ^ 24 := Nat.mul_le_mul hgroups.le hlength.le
    _ ≤ 2 ^ 36 := by decide

/-- A good byte of own memory is known by its local address. -/
theorem ownByte_inj {s : State} {f f' : Nat} (h : OwnByte s f) (h' : OwnByte s f') (hlocal : f % 2 ^ 36 = f' % 2 ^ 36) : f = f' := by
  obtain ⟨hdevice, -⟩ := h
  obtain ⟨hdevice', -⟩ := h'
  omega

/-- The local address where a plane position starts. -/
def relayAt (x : MovCmd) (i : Nat × Nat) : Nat := relayTo x i.1 i.2 % 2 ^ 36

theorem ownRun_relayTo {s : State} {x : MovCmd} {i : Nat × Nat} (h : ∀ j, j < relayLen x → OwnByte s (relayDst x i.1 i.2 j)) :
    OwnRun s (relayTo x i.1 i.2) (relayLen x) :=
  ⟨addrPlus_lt .., relayLen_le x, fun j hj => by rw [relayTo_add]; exact h j hj⟩

section
variable {s : State} {x : MovCmd} {src : Nat × Nat → Option (Nat × Nat)} {l : List (Nat × Nat)} (h : OwnRelay s x src l)
include h

theorem OwnRelay.localAddr {i : Nat × Nat} (hi : i ∈ l) {j : Nat} (hj : j < relayLen x) :
    relayDst x i.1 i.2 j % 2 ^ 36 = relayAt x i + j := by
  rw [← relayTo_add]
  exact (ownRun_relayTo (h.writes i hi)).localAddr hj

/-- A row reads what stood in memory before the command. -/
theorem OwnRelay.relayBytes_eq {t : State} {done : List (Nat × Nat)} (hdone : ∀ i ∈ done, i ∈ l)
    (ht : LaysAll (relayAt x) (fun i => relayBytes s x (src i)) s t done) {i : Nat × Nat} (hi : i ∈ l) :
    relayBytes t x (src i) = relayBytes s x (src i) := by
  refine List.map_congr_left fun j hj => ?_
  have hj := List.mem_range.1 hj
  cases hsrc : src i with
  | none => rfl
  | some yz =>
    obtain ⟨y, z⟩ := yz
    refine ht.kept _ fun k hk j' hj' hsame => ?_
    rw [relayBytes_length] at hj'
    rw [← h.localAddr (hdone k hk) hj'] at hsame
    exact h.apart i hi y z hsrc j hj k (hdone k hk) j' hj' (ownByte_inj (h.writes k (hdone k hk) j' hj') (h.reads i hi y z hsrc j hj) hsame)

/-- One plane position more is laid. -/
theorem OwnRelay.step (hsrcSpace : x.srcSpace = 0) (hdstSpace : x.dstSpace = 0) (hmirror : x.mirror = 0) (hlen : 0 < relayLen x)
    {r : MovRun} (hstop : r.stop = false) {done : List (Nat × Nat)} (hdone : ∀ i ∈ done, i ∈ l)
    (ht : LaysAll (relayAt x) (fun i => relayBytes s x (src i)) s r.s done) {i : Nat × Nat} (hi : i ∈ l) (u : UAddr) (c : Nat) :
    ∃ t, relayStep u c x src r i = { r with s := t } ∧ LaysAll (relayAt x) (fun i => relayBytes s x (src i)) s t (done ++ [i]) := by
  have hlength : 0 < x.length.toNat := Nat.pos_of_mul_pos_left hlen
  obtain ⟨t₁, hrow, hreads⟩ := relayRow_own hstop hsrcSpace hlength (ownSource_of_writes ht.writes ht.good (h.reads i hi)) u c
  rw [h.relayBytes_eq hdone ht hi] at hrow
  have hbytes := relayBytes_length s x (src i)
  have hto : OwnRun t₁ (relayTo x i.1 i.2) (relayBytes s x (src i)).length := by
    rw [hbytes]
    exact ownRun_relayTo fun j hj =>
      ownByte_of_writes hreads.writes (hreads.lays 0).good (ownByte_of_writes ht.writes ht.good (h.writes i hi j hj))
  obtain ⟨t₂, hwrite, hlays⟩ := movWrite_own (r := { r with s := t₁ }) hto (List.length_pos_iff.1 (by omega))
    (memOk_of_mem hreads.mem ht.memOk) u c (localSource t₁ x.srcSpace.toNat x.src.toNat)
  refine ⟨t₂, ?_, ht.snoc ((hreads.lays (relayAt x i)).trans hlays rfl rfl) fun k hk hki j j' hj hj' hsame => hki ?_⟩
  · have hspace : x.dstSpace.toNat = 0 := by rw [hdstSpace]; rfl
    rw [hstop] at hrow
    simp only [relayStep, hrow, hspace, hmirror]
    simpa [hstop] using hwrite
  · rw [relayBytes_length] at hj hj'
    rw [← h.localAddr (hdone k hk) hj, ← h.localAddr hi hj'] at hsame
    exact h.once k (hdone k hk) i hi j j' hj hj' (ownByte_inj (h.writes k (hdone k hk) j hj) (h.writes i hi j' hj') hsame)

/-- All of them are. -/
theorem OwnRelay.run (hsrcSpace : x.srcSpace = 0) (hdstSpace : x.dstSpace = 0) (hmirror : x.mirror = 0) (hlen : 0 < relayLen x)
    (hok : MemOk s) (u : UAddr) (c : Nat) (ext : List Byte) : ∃ t, l.foldl (relayStep u c x src) { s := s, ext := ext, stop := false } =
      { s := t, ext := ext, stop := false } ∧ LaysAll (relayAt x) (fun i => relayBytes s x (src i)) s t l := by
  refine foldl_done (f := relayStep u c x src) (P := fun done r => ∃ t, r = { s := t, ext := ext, stop := false } ∧
    LaysAll (relayAt x) (fun i => relayBytes s x (src i)) s t done) ⟨s, rfl, .nil hok⟩ fun done r i hdone hi hr => ?_
  obtain ⟨t, rfl, ht⟩ := hr
  exact h.step hsrcSpace hdstSpace hmirror hlen rfl hdone ht hi u c

end

/-! ## The command (R156, R162, R163, R289) -/

/-- An engine's fault leaves the clusters as they are. -/
theorem engineFault_clusters (s : State) (u : UAddr) (cause : BitVec 8) (address : Nat) :
    (engineFault s u cause address).clusters = s.clusters := by
  obtain ⟨queue, seq, h⟩ := recordFault_eq s u cause (actionFor s u) address
  rw [engineFault, h]; rfl

section
variable {s : State} {c : BitVec 3} {m : Nat} (hactive : Active s) (hm : m < 6) (hrun : canRun s (movUnit s c.toNat m) = true)
include hactive hm hrun

theorem movCommand_runs (f : State → UAddr → State) : movCommand c m s f = .next (f s (movUnit s c.toNat m)) := by
  unfold Active at hactive
  simp [movCommand, hactive, hrun]
  omega

theorem relay_refused {x : MovCmd} {g : RelayGeo} (hbad : relayCmdOk m x g = false) (ext : List Byte) :
    Completes (.moverRelay c m x ⟨g, ext⟩) s (engineFault s (movUnit s c.toNat m) causeCommand 0) := by
  show execMoverRelay c m x ⟨g, ext⟩ s = _
  rw [execMoverRelay, movCommand_runs hactive hm hrun]
  simp [hbad]

theorem relay_moves_nothing {x : MovCmd} {g : RelayGeo} (hok : relayCmdOk m x g = true) (hempty : relayEmpty x g = true) (ext : List Byte) :
    Completes (.moverRelay c m x ⟨g, ext⟩) s (movDone s c.toNat m (movUnit s c.toNat m) [] 256 0) := by
  show execMoverRelay c m x ⟨g, ext⟩ s = _
  rw [execMoverRelay, movCommand_runs hactive hm hrun]
  simp [hok, hempty]

/-- A RELAY between places of own memory runs to its end. -/
theorem relay_runs {x : MovCmd} {g : RelayGeo} (hok : relayCmdOk m x g = true) (hempty : relayEmpty x g = false)
    (hsrcSpace : x.srcSpace = 0) (hdst : x.dst.toNat / 2 ^ 36 = devnum s) {ext : List Byte} {t : State}
    (ht : relayRun (movUnit s c.toNat m) c.toNat x g { s := s, ext := ext, stop := false } = { s := t, ext := ext, stop := false }) :
    ∃ ts n k, Completes (.moverRelay c m x ⟨g, ext⟩) s (movDone t c.toNat m (movUnit s c.toNat m) ts n k) := by
  have hhost : waitsForHost s { x with opcode := 3 } = false := by simp [waitsForHost, hsrcSpace]
  have hpeer (n : Nat) : waitsForPeer s x n = false := by
    simp only [waitsForPeer, hdst, bne_self_eq_false, Bool.and_false, Bool.false_and]
  have hexec : execMoverRelay c m x ⟨g, ext⟩ s = .next (movDone t c.toNat m (movUnit s c.toNat m)
      (List.replicate ((relayX g).outSize * (relayY g).outSize * (relayX g).k * (relayY g).k) (min (x.length.toNat * x.groups.toNat) 2048))
      (cmdMinSize s x)
      ((relayX g).outSize * (relayY g).outSize * (relayX g).k * (relayY g).k * max 1 (ceilDiv (x.length.toNat * x.groups.toNat) 256))) := by
    rw [execMoverRelay, movCommand_runs hactive hm hrun]
    simp only [hok, hempty, ht, hhost, hpeer]
    simp
  exact ⟨_, _, _, hexec⟩

/-- It leaves each plane position with its row, and every other byte as it was. -/
theorem relay_gathers {x : MovCmd} {g : RelayGeo} (hmovers : m < (clusterOf s c.toNat).movers.length) (hmem : MemOk s)
    (hok : relayCmdOk m x g = true) (hempty : relayEmpty x g = false) (hsrcSpace : x.srcSpace = 0) (hdstSpace : x.dstSpace = 0)
    (hmirror : x.mirror = 0) (hlen : 0 < relayLen x) (hown : OwnRelay s x (relaySource g) (relayPositions g)) (ext : List Byte) :
    ∃ s', Completes (.moverRelay c m x ⟨g, ext⟩) s s' ∧ MoverRun s s' c.toNat m ∧
      (∀ i ∈ relayPositions g, ∀ j, j < relayLen x → byteAt s' (relayDst x i.1 i.2 j % 2 ^ 36) = relayByte s x (relaySource g i) j) ∧
      ∀ a, (∀ i ∈ relayPositions g, ∀ j, j < relayLen x → relayDst x i.1 i.2 j % 2 ^ 36 ≠ a) → byteAt s' a = byteAt s a := by
  obtain ⟨t, hfold, ht⟩ := hown.run hsrcSpace hdstSpace hmirror hlen hmem (movUnit s c.toNat m) c.toNat ext
  rw [← relayRun_eq] at hfold
  have hdst : x.dst.toNat / 2 ^ 36 = devnum s := by
    obtain ⟨hdevice, -⟩ := hown.writes (0, 0) (zero_mem_relayPositions hempty) 0 hlen
    rwa [relayDst_zero] at hdevice
  obtain ⟨ts, n, k, hcompletes⟩ := relay_runs hactive hm hrun hok hempty hsrcSpace hdst hfold
  refine ⟨_, hcompletes, moverRun_movDone ht.writes hmovers .., fun i hi j hj => ?_, fun a ha => ?_⟩
  · rw [movDone_byteAt, hown.localAddr hi hj, ht.laid i hi j (by rwa [relayBytes_length]), relayBytes_getD s x _ hj]
  · rw [movDone_byteAt]
    refine ht.kept a fun i hi j hj => ?_
    rw [relayBytes_length] at hj
    rw [← hown.localAddr hi hj]
    exact ha i hi j hj

end

end Sys2Proof.Machine
end

section
/-! PROOFS. The geometry of a RELAY (R150, R154 to R156, R162). -/

namespace Sys2Proof.Machine

/-! ## The geometry of R150, R155 and R156 -/

/-- The input position that output `o` reads for tap `t` along an axis, by R156; none for a zero row. -/
def tapOf (padMode : BitVec 1) (size up stride dil pad : Nat) (o t : Nat) : Option Nat :=
  let v : Int := (o * stride + t * dil : Nat) - (pad : Nat)
  let w : Int := max 0 (min ((size - 1) * up : Nat) v)
  let view := (size - 1) * up + 1
  if (v < 0 ∨ (view : Int) ≤ v ∨ size = 0) ∧ padMode = 0 then none else if w.toNat % up = 0 then some (w.toNat / up) else none

/-- The outputs along an axis, by R150 over the view of R155. -/
def outsOf (size up stride dil k padL padR : Nat) : Nat :=
  let n : Int := ((if size = 0 then 0 else (size - 1) * up + 1) + padL + padR : Nat) - (dil * (k - 1) : Nat) - 1
  (n.fdiv stride + 1).toNat

section
variable {a : Axis} (hsize : 0 < a.size)
include hsize

theorem Axis.view_eq : a.view = (a.size - 1) * a.up + 1 := if_neg hsize.ne'

theorem Axis.outSize_eq (hk : a.k ≠ 0) : a.outSize = outsOf a.size a.up a.stride a.dil a.k a.padL a.padR := by
  rw [Axis.outSize, if_neg (by rw [Axis.view_eq hsize]; omega), outsOf]
  rfl

theorem Axis.source_eq (padMode : BitVec 1) (o t : Nat) :
    a.source (padMode == 1) o t = tapOf padMode a.size a.up a.stride a.dil a.padL o t := by
  have hpad : (padMode == 1) = !decide (padMode = 0) := by revert padMode; decide
  have hclamp (v : Int) : clampInt 0 (((a.size - 1) * a.up + 1 : Nat) - 1) v = max 0 (min (((a.size - 1) * a.up : Nat) : Int) v) := by
    rw [clampInt]
    split
    · omega
    · split <;> omega
  simp only [Axis.source, tapOf, hpad, Axis.view_eq hsize, hclamp]
  congr 1
  simp
  omega

end

/-- The outputs of a RELAY along x. -/
def relayOw (g : RelayGeo) : Nat := outsOf g.inW.toNat g.ux.toNat g.sx.toNat g.dx.toNat g.kw.toNat g.padL.toNat g.padR.toNat

/-- The outputs of a RELAY along y. -/
def relayOh (g : RelayGeo) : Nat := outsOf g.inH.toNat g.uy.toNat g.sy.toNat g.dy.toNat g.kh.toNat g.padT.toNat g.padB.toNat

/-- The source position of plane position `q` of plane `p`, in the terms of R156. -/
def relayGather (g : RelayGeo) (p q : Nat) : Option (Nat × Nat) :=
  match tapOf g.padMode g.inH.toNat g.uy.toNat g.sy.toNat g.dy.toNat g.padT.toNat (q / relayOw g) (p / g.kw.toNat),
    tapOf g.padMode g.inW.toNat g.ux.toNat g.sx.toNat g.dx.toNat g.padL.toNat (q % relayOw g) (p % g.kw.toNat) with
  | some y, some z => some (y, z)
  | _, _ => none

section
variable {g : RelayGeo} (hw : 0 < g.inW.toNat) (hh : 0 < g.inH.toNat)

include hw in
theorem outSize_relayX (hkw : g.kw ≠ 0) : (relayX g).outSize = relayOw g :=
  Axis.outSize_eq (a := relayX g) hw (by simpa [relayX, BitVec.toNat_eq] using hkw)

include hh in
theorem outSize_relayY (hkh : g.kh ≠ 0) : (relayY g).outSize = relayOh g :=
  Axis.outSize_eq (a := relayY g) hh (by simpa [relayY, BitVec.toNat_eq] using hkh)

include hw hh

/-- A RELAY is empty where it has no byte in a row, no output or no tap. -/
theorem relayEmpty_iff (x : MovCmd) : relayEmpty x g = true ↔ relayLen x = 0 ∨ relayOw g = 0 ∨ relayOh g = 0 ∨ g.kw = 0 ∨ g.kh = 0 := by
  have hkw : (relayX g).k = 0 ↔ g.kw = 0 := by simp [relayX, BitVec.toNat_eq]
  have hkh : (relayY g).k = 0 ↔ g.kh = 0 := by simp [relayY, BitVec.toNat_eq]
  have hlen : relayLen x = 0 ↔ x.groups = 0 ∨ x.length = 0 := by simp [relayLen, BitVec.toNat_eq]
  simp only [relayEmpty, Bool.or_eq_true, decide_eq_true_eq, beq_iff_eq, hkw, hkh, hlen]
  by_cases hx : g.kw = 0
  · simp [hx]
  · by_cases hy : g.kh = 0
    · simp [hy]
    · rw [outSize_relayX hw hx, outSize_relayY hh hy]
      tauto

theorem relayEmpty_false_iff (x : MovCmd) :
    relayEmpty x g = false ↔ relayLen x ≠ 0 ∧ relayOw g ≠ 0 ∧ relayOh g ≠ 0 ∧ g.kw ≠ 0 ∧ g.kh ≠ 0 := by
  rw [← Bool.not_eq_true, relayEmpty_iff hw hh]
  simp only [not_or, ne_eq]

theorem relaySource_eq (hkw : g.kw ≠ 0) (how : relayOw g ≠ 0) (i : Nat × Nat) : relaySource g i = relayGather g i.1 i.2 := by
  have hx := outSize_relayX hw hkw
  rw [relaySource, gridSource, if_neg (by rwa [hx]), Axis.source_eq (a := relayX g) hw, Axis.source_eq (a := relayY g) hh, hx]
  rfl

/-- The plane positions of a RELAY with taps along both axes. -/
theorem mem_relayPositions_iff (hkw : g.kw ≠ 0) (hkh : g.kh ≠ 0) {i : Nat × Nat} :
    i ∈ relayPositions g ↔ i.1 < g.kw.toNat * g.kh.toNat ∧ i.2 < relayOw g * relayOh g := by
  rw [mem_relayPositions, outSize_relayX hw hkw, outSize_relayY hh hkh]
  rfl

/-! ## The bytes that a RELAY writes -/

/-- Byte `j` of plane position `q` of plane `p` is written. -/
def RelayWrites (x : MovCmd) (g : RelayGeo) (p q j : Nat) : Prop :=
  p < g.kw.toNat * g.kh.toNat ∧ q < relayOw g * relayOh g ∧ j < relayLen x

/-- A RELAY that writes a byte is not empty. -/
theorem relayEmpty_of_writes {x : MovCmd} {p q j : Nat} (h : RelayWrites x g p q j) : relayEmpty x g = false := by
  obtain ⟨hp, hq, hj⟩ := h
  obtain ⟨hkw, hkh⟩ := Nat.mul_ne_zero_iff.1 (Nat.ne_zero_of_lt hp)
  obtain ⟨how, hoh⟩ := Nat.mul_ne_zero_iff.1 (Nat.ne_zero_of_lt hq)
  exact (relayEmpty_false_iff hw hh x).2 ⟨Nat.ne_zero_of_lt hj, how, hoh, fun h => hkw (by rw [h]; rfl), fun h => hkh (by rw [h]; rfl)⟩

theorem relayWrites_iff (hkw : g.kw ≠ 0) (hkh : g.kh ≠ 0) {x : MovCmd} {p q j : Nat} :
    RelayWrites x g p q j ↔ (p, q) ∈ relayPositions g ∧ j < relayLen x := by
  rw [mem_relayPositions_iff hw hh hkw hkh]
  exact and_assoc.symm

/-- The bytes of a RELAY, each by its plane, position and place in the row. -/
theorem ownRelay_of_bytes {s : State} {x : MovCmd} (hkw : g.kw ≠ 0) (hkh : g.kh ≠ 0) (how : relayOw g ≠ 0)
    (hown : ∀ p q j, RelayWrites x g p q j → OwnByte s (relayDst x p q j) ∧ ∀ y z, relayGather g p q = some (y, z) →
      OwnByte s (relaySrc x y z (j / x.length.toNat) (j % x.length.toNat)) ∧ ∀ p' q' j', RelayWrites x g p' q' j' →
        relayDst x p' q' j' ≠ relaySrc x y z (j / x.length.toNat) (j % x.length.toNat))
    (honce : ∀ p q j p' q' j', RelayWrites x g p q j → RelayWrites x g p' q' j' → relayDst x p q j = relayDst x p' q' j' →
      p = p' ∧ q = q' ∧ j = j') : OwnRelay s x (relaySource g) (relayPositions g) := by
  have hbyte {i : Nat × Nat} {j : Nat} (hi : i ∈ relayPositions g) (hj : j < relayLen x) : RelayWrites x g i.1 i.2 j :=
    (relayWrites_iff hw hh hkw hkh).2 ⟨hi, hj⟩
  refine ⟨fun i hi j hj => ?_, fun i hi y z hsrc j hj => ?_, fun i hi y z hsrc j hj k hk j' hj' => ?_,
    fun i hi k hk j j' hj hj' hsame => ?_⟩
  · obtain ⟨hdst, -⟩ := hown _ _ j (hbyte hi hj)
    exact hdst
  · rw [relaySource_eq hw hh hkw how] at hsrc
    obtain ⟨-, hreads⟩ := hown _ _ j (hbyte hi hj)
    obtain ⟨hsource, -⟩ := hreads y z hsrc
    exact hsource
  · rw [relaySource_eq hw hh hkw how] at hsrc
    obtain ⟨-, hreads⟩ := hown _ _ j (hbyte hi hj)
    obtain ⟨-, hapart⟩ := hreads y z hsrc
    exact hapart _ _ j' (hbyte hk hj')
  · obtain ⟨hp, hq, -⟩ := honce _ _ _ _ _ _ (hbyte hi hj) (hbyte hk hj') hsame
    exact Prod.ext hp hq

end

end Sys2Proof.Machine

namespace Sys2Proof
open Machine

/-- Settles O30: a RELAY that the checks turn away is a fault (`relay_refused`) and an empty one ends at once (`relay_moves_nothing`); any
other lays one row after the other (`relay_gathers`), each from bytes that no row before it wrote, at the positions of R156
(`relaySource_eq`). -/
theorem relayGathersPlanes : Obligations.RelayGathersPlanes := by
  unfold Obligations.RelayGathersPlanes
  intro s c m x g ext u tap outs ow oh row dst src from_ inRow hactive hm hmovers hrun hok
  have hm6 : m < 6 := by omega
  refine ⟨fun hbad => ?_, fun hcmd hw hh => ⟨fun hnothing => ?_, fun _ hsrcSpace hdstSpace hmirror hown honce => ?_⟩⟩
  · obtain ⟨hmem, hcores, hlast, hrecord, hcrossing⟩ := engineFault_frame s u causeCommand 0
    exact ⟨_, relay_refused hactive hm6 hrun hbad ext, hmem, hcores, engineFault_clusters .., hlast, hrecord, hcrossing⟩
  · exact ⟨_, relay_moves_nothing hactive hm6 hrun hcmd ((relayEmpty_iff hw hh x).2 hnothing) ext,
      moverRun_movDone (.refl s) hmovers .., movDone_mem ..⟩
  · cases hempty : relayEmpty x g with
    | true =>
      have hnone {p q j : Nat} : ¬ inRow p q j := fun h => by simp [relayEmpty_of_writes hw hh h] at hempty
      exact ⟨_, relay_moves_nothing hactive hm6 hrun hcmd hempty ext, moverRun_movDone (.refl s) hmovers .., fun _ _ _ h => absurd h hnone,
        fun a _ => by rw [movDone_byteAt]⟩
    | false =>
      obtain ⟨hlen, how, -, hkw, hkh⟩ := (relayEmpty_false_iff hw hh x).1 hempty
      have hrow {p q j : Nat} : inRow p q j ↔ (p, q) ∈ relayPositions g ∧ j < relayLen x := relayWrites_iff hw hh hkw hkh
      obtain ⟨s', hcompletes, hmover, hlaid, hkept⟩ := relay_gathers hactive hm6 hrun hmovers hok hcmd hempty hsrcSpace hdstSpace hmirror
        (Nat.pos_of_ne_zero hlen) (ownRelay_of_bytes hw hh hkw hkh how hown honce) ext
      refine ⟨s', hcompletes, hmover, fun p q j hpqj => ?_, fun a ha => hkept a fun i hi j hj => ha _ _ _ (hrow.2 ⟨hi, hj⟩)⟩
      obtain ⟨hpos, hj⟩ := hrow.1 hpqj
      have hbyte := hlaid _ hpos j hj
      rw [relaySource_eq hw hh hkw how] at hbyte
      exact hbyte

end Sys2Proof
end

section
/-! PROOFS. What a DSP instruction in its turn answers (O10 to O14; R209, R221, R222, R226, R272). -/

namespace Sys2Proof.Machine

/-! ## The engine's state under its own updates and under counting -/

@[simp] theorem dspOf_modDsp (s : State) (k : Nat) (f : DspSt → DspSt) : dspOf (modDsp s k f) k = f (dspOf s k) := by
  simp [dspOf, modDsp]

theorem dspOf_of_quiet {vs us : List UAddr} {s t : State} (h : Quiet vs us s t) (k : Nat) : dspOf t k = dspOf s k := by
  rw [dspOf, h.coreOf, dspOf]

theorem quiet_counted {vs us : List UAddr} (s : State) (reads : List (Nat × Nat)) : Quiet vs us s (counted s reads) :=
  .foldl (fun s (r : Nat × Nat) => quiet_countRead s r.1 r.2) reads s

/-- An update reads the engine's state and nothing else. -/
theorem modDsp_congr {s : State} {k : Nat} {u u' : DspSt → DspSt} (h : u (dspOf s k) = u' (dspOf s k)) : modDsp s k u = modDsp s k u' := by
  simp only [dspOf] at h
  simp only [modDsp, modCore, h]

theorem dspAfter_congr {s : State} {k : Nat} {u u' : DspSt → DspSt} (h : u (dspOf s k) = u' (dspOf s k)) (slot : BitVec 1) (sat : Nat)
    (reads : List (Nat × Nat)) : dspAfter s k slot u sat reads = dspAfter s k slot u' sat reads := by
  have hfetch : dspOf (if slot = 0 then counted s [(coreBase s k + 8 * (dspOf s k).pc.toNat, 8)] else s) k = dspOf s k := by
    split
    · exact dspOf_of_quiet (vs := []) (us := []) (quiet_counted ..) k
    · rfl
  have hupdate : modDsp (if slot = 0 then counted s [(coreBase s k + 8 * (dspOf s k).pc.toNat, 8)] else s) k u =
      modDsp (if slot = 0 then counted s [(coreBase s k + 8 * (dspOf s k).pc.toNat, 8)] else s) k u' :=
    modDsp_congr (by rw [hfetch]; exact h)
  unfold dspAfter
  dsimp only
  rw [hupdate]

/-- Results enter flight beside an update of the control state. -/
theorem fxState_writes_upd (ws : List (Nat × DspDest × BitVec 64)) (n : Nat) (d' d : DspSt) :
    fxState { writes := ws, sat := n, upd := some d' } d = withResults ws d' := by simp [fxState, withResults]

/-! ## An instruction in its turn -/

/-- An engine that serves does not turn its instructions away. -/
theorem not_turned_away {s : State} {k : Nat} (hk : k < 48) (hrun : Active s) (hcan : canRun s (deUnit k) = true) :
    (48 ≤ k || stopped s || !canRun s (deUnit k)) = false := by
  unfold Active at hrun
  simp [Nat.not_le.2 hk, hrun, hcan]

section
variable {s : State} {k : Nat} {slot : BitVec 1} {w : BitVec 32} {f : State → DspSt → Fx}

/-- Slot 0 has no slot before it, so what it writes is not asked for. -/
theorem dspTurn_of_dests {dests dests' : List DspDest} (h : DspTurn s k slot w dests) (hdests : slot = 1 → dests' = dests) :
    DspTurn s k slot w dests' := by
  obtain ⟨hk, hrun, hcan, h0, h1⟩ := h
  refine ⟨hk, hrun, hcan, h0, fun hslot => ?_⟩
  rw [hdests hslot]; exact h1 hslot

/-- The effect `x` of an instruction, seen from the engine's state at its turn, is all that the next state takes of it. -/
theorem dspIssue_of_effect {dests : List DspDest} {x : Fx} {u : DspSt → DspSt} (h : DspTurn s k slot w dests) (hx : f s (dspOf s k) = x)
    (hdests : slot = 1 → x.writes.map (fun w => w.2.1) = dests) (hfault : x.fault = none) (hsignal : x.signal = none)
    (hu : fxState x (dspOf s k) = u (dspOf s k)) : dspIssue k slot w f s = .next (dspAfter s k slot u x.sat x.reads) := by
  subst hx
  rw [dspIssue_next (dspTurn_of_dests h hdests) hfault hsignal, dspAfter_congr hu]

/-- An instruction that writes registers and counts limitings. -/
theorem dspIssue_of_writes {ws : List (Nat × DspDest × BitVec 64)} {n : Nat} {dests : List DspDest} (h : DspTurn s k slot w dests)
    (hx : f s (dspOf s k) = { writes := ws, sat := n }) (hdests : slot = 1 → ws.map (fun w => w.2.1) = dests) :
    dspIssue k slot w f s = .next (dspAfter s k slot (withResults ws) n) :=
  dspIssue_of_effect (x := { writes := ws, sat := n }) (u := withResults ws) h hx hdests rfl rfl (congrFun (fxState_writes ws n) _)

/-- An instruction of slot 0 that sets the engine's control state. -/
theorem dspIssue_of_update {d' : DspSt} {u : DspSt → DspSt} (h : DspTurn s k 0 w []) (hx : f s (dspOf s k) = { upd := some d' })
    (hu : d' = u (dspOf s k)) : dspIssue k 0 w f s = .next (dspAfter s k 0 u 0) :=
  dspIssue_of_effect (x := { upd := some d' }) (u := u) h hx nofun rfl rfl ((fxState_upd ..).trans hu)

end

end Sys2Proof.Machine
end

section
/-! PROOFS. The numbers of the DSP engine: limits, rounding to nearest and lanes (R211, R223, R226). -/

namespace Sys2Proof.Machine

/-! ## Limits (R226) -/

theorem fits_limited (w : Nat) (x : Int) : fits w (limited w x) := by
  have hpos : (1 : Int) ≤ 2 ^ (w - 1) := one_le_pow₀ (by decide)
  unfold fits limited
  omega

theorem limited_of_fits {w : Nat} {x : Int} (h : fits w x) : limited w x = x := by
  obtain ⟨hlow, hhigh⟩ := h
  unfold limited
  omega

theorem limited_eq_iff (w : Nat) (x : Int) : limited w x = x ↔ fits w x :=
  ⟨fun h => h ▸ fits_limited w x, limited_of_fits⟩

theorem satTo_fst (w : Nat) (x : Int) : (satTo w x).1 = limited w x := by
  have hpos : (1 : Int) ≤ 2 ^ (w - 1) := one_le_pow₀ (by decide)
  exact clampInt_eq (by omega) x

theorem satTo_snd (w : Nat) (x : Int) : (satTo w x).2 = 0 ↔ fits w x := by
  have hfst : clampInt (-((2 : Int) ^ (w - 1))) ((2 : Int) ^ (w - 1) - 1) x = limited w x := satTo_fst w x
  simp only [satTo, hfst, ← limited_eq_iff]
  split <;> simp [*]

/-! ## Two's complement -/

theorem two_pow_pred {w : Nat} (hw : 1 ≤ w) : 2 ^ w = 2 * 2 ^ (w - 1) := by
  rw [← Nat.pow_succ']; congr 1; omega

theorem fits_signedOf {w : Nat} (hw : 1 ≤ w) (n : Nat) : fits w (signedOf w n) := by
  have hlt : n % 2 ^ w < 2 ^ w := Nat.mod_lt _ (by positivity)
  have hcast : (2 : Int) ^ (w - 1) = ((2 ^ (w - 1) : Nat) : Int) := by push_cast; rfl
  rw [fits, signedOf, hcast]
  rw [two_pow_pred hw] at hlt ⊢
  split <;> omega

/-- A pattern of `w` bits reads back. -/
theorem signedOf_of_fits {w n : Nat} {i : Int} (hw : 1 ≤ w) (h : fits w i) (hn : n % 2 ^ w = patternOf w i) : signedOf w n = i :=
  signedOf_of_mod hw h.1 h.2 hn

theorem signedOf_toNat {w : Nat} (x : BitVec w) : signedOf w x.toNat = x.toInt := by
  rw [signedOf, Nat.mod_eq_of_lt x.isLt, BitVec.toInt]
  rcases w with _ | w
  · simp [BitVec.of_length_zero]
  · rw [Nat.add_sub_cancel, Nat.pow_succ]
    split <;> split <;> first | rfl | omega

/-! ## Rounding to nearest, ties to even (R211) -/

theorem isNearest_neg {x r : Int} {n : Nat} (h : IsNearest x n r) : IsNearest (-x) n (-r) := by
  have hflip : |-r * 2 ^ n - -x| = |r * 2 ^ n - x| := by rw [← abs_neg]; congr 1; ring
  obtain ⟨hnear, htie⟩ := h
  rw [IsNearest, hflip]
  exact ⟨hnear, fun h => by have := htie h; omega⟩

/-- The quotient that R178 takes of a number is the nearest, and of two nearest ones the even one. -/
theorem isNearest_roundQ (m n : Nat) : IsNearest m n (roundQ .rne (m / 2 ^ n) (m % 2 ^ n) (2 ^ n)) := by
  have hd : 0 < 2 ^ n := by positivity
  have hnear := roundQ_rne_near m hd
  have hcast : (2 : Int) ^ n = ((2 ^ n : Nat) : Int) := by push_cast; rfl
  have hsplit := Nat.div_add_mod' m (2 ^ n)
  have hrem := Nat.mod_lt m hd
  rw [IsNearest, Int.abs_eq_natAbs, hcast]
  refine ⟨by exact_mod_cast hnear, fun htie => ?_⟩
  generalize m / 2 ^ n = q at *
  generalize m % 2 ^ n = r at *
  generalize 2 ^ n = d at *
  subst hsplit
  have hdown : ((q : Int) * d - (q * d + r : Nat)).natAbs = r := by push_cast; omega
  have hup : (((q + 1 : Nat) : Int) * d - (q * d + r : Nat)).natAbs = d - r := by
    have hsum : ((q + 1 : Nat) : Int) * d - (q * d + r : Nat) = d - r := by push_cast; ring
    rw [hsum]; omega
  unfold roundQ at htie ⊢
  dsimp only at htie ⊢
  split at htie
  · rw [hdown] at htie; omega
  · split at htie
    · rw [hup] at htie; omega
    · next h1 h2 =>
      rw [if_neg h1, if_neg h2]
      split <;> omega

theorem isNearest_shiftRne (x : Int) (n : Nat) : IsNearest x n (shiftRne x n) := by
  have hsplit : splitAt2 x.natAbs (-(n : Int)) 0 = (x.natAbs / 2 ^ n, x.natAbs % 2 ^ n, 2 ^ n) := by
    unfold splitAt2
    split
    · have hn : n = 0 := by omega
      subst hn; simp [Nat.mod_one]
    · simp
  have hnear := isNearest_roundQ x.natAbs n
  rw [shiftRne, roundInt, hsplit]
  dsimp only
  split
  · next hneg =>
    have hx : -(x.natAbs : Int) = x := by have := of_decide_eq_true hneg; omega
    have hflip := isNearest_neg hnear
    rwa [hx] at hflip
  · next hpos =>
    have hx : (x.natAbs : Int) = x := by have := of_decide_eq_false (Bool.eq_false_of_not_eq_true hpos); omega
    rwa [hx] at hnear

/-- A number nearest to a part of one of `w` bits has `w` bits. -/
theorem fits_of_isNearest {w n : Nat} {x r : Int} (hx : fits w x) (h : IsNearest x n r) : fits w r := by
  obtain ⟨hlow, hhigh⟩ := hx
  obtain ⟨hnear, -⟩ := h
  have hM : (1 : Int) ≤ 2 ^ (w - 1) := one_le_pow₀ (by decide)
  have hD : (1 : Int) ≤ 2 ^ n := one_le_pow₀ (by decide)
  unfold fits
  generalize (2 : Int) ^ (w - 1) = M at *
  generalize (2 : Int) ^ n = D at *
  have hle := le_abs_self (r * D - x)
  have hge := neg_abs_le (r * D - x)
  constructor
  · by_contra hr
    nlinarith [mul_nonneg (show (0 : Int) ≤ -M - 1 - r by omega) (show (0 : Int) ≤ D by omega), mul_nonneg (show (0 : Int) ≤ M - 1 by omega)
      (show (0 : Int) ≤ D - 1 by omega)]
  · by_contra hr
    nlinarith [mul_nonneg (show (0 : Int) ≤ r - M by omega) (show (0 : Int) ≤ D by omega), mul_nonneg (show (0 : Int) ≤ M - 1 by omega)
      (show (0 : Int) ≤ D - 1 by omega)]

/-! ## Lanes (R211) -/

theorem laneBits_mul {lw : BitVec 2} (h : lw ≠ 3) : laneBits lw * (64 / laneBits lw) = 64 := by
  revert h; revert lw; decide

theorem one_le_laneBits (lw : BitVec 2) : 1 ≤ laneBits lw := by
  unfold laneBits
  have : 0 < 2 ^ lw.toNat := by positivity
  omega

theorem lane_lt (w : Nat) (x : BitVec 64) (i : Nat) : lane w x i < 2 ^ w := Nat.mod_lt _ (by positivity)

theorem fits_laneInt {w : Nat} (hw : 1 ≤ w) (x : BitVec 64) (i : Nat) : fits w (laneInt w x i) := fits_signedOf hw _

/-- A lane that holds the pattern of a number of its width holds that number. -/
theorem laneInt_of_lane {w : Nat} (hw : 1 ≤ w) {v : BitVec 64} {i : Nat} {x : Int} (hx : fits w x) (h : lane w v i = patternOf w x) :
    laneInt w v i = x :=
  signedOf_of_fits hw hx (by rw [h, Nat.mod_eq_of_lt (patternOf_lt w x)])

/-- Digits of `w` bits, the first lowest, stay below their number, and each reads back from its place. -/
theorem sum_digits {w : Nat} {p : Nat → Nat} (hp : ∀ i, p i < 2 ^ w) (m : Nat) :
    ∑ i ∈ Finset.range m, p i * 2 ^ (w * i) < 2 ^ (w * m) ∧
      ∀ i, i < m → (∑ i ∈ Finset.range m, p i * 2 ^ (w * i)) / 2 ^ (w * i) % 2 ^ w = p i := by
  induction m with
  | zero => simp
  | succ m ih =>
    obtain ⟨hlt, hdigit⟩ := ih
    rw [Finset.sum_range_succ]
    refine ⟨?_, fun i hi => ?_⟩
    · calc _ < (p m + 1) * 2 ^ (w * m) := by rw [Nat.succ_mul]; omega
        _ ≤ 2 ^ w * 2 ^ (w * m) := Nat.mul_le_mul_right _ (hp m)
        _ = 2 ^ (w * (m + 1)) := by rw [← Nat.pow_add]; congr 1; ring
    · rcases Nat.lt_or_ge i m with h | h
      · have hplace : p m * 2 ^ (w * m) = 2 ^ (w * i) * (2 ^ w * (p m * 2 ^ (w * (m - 1 - i)))) := by
          have hexp : w * m = w * i + (w + w * (m - 1 - i)) := by
            obtain ⟨j, rfl⟩ : ∃ j, m = i + 1 + j := ⟨m - (i + 1), by omega⟩
            have : i + 1 + j - 1 - i = j := by omega
            rw [this]; ring
          rw [hexp, Nat.pow_add, Nat.pow_add]; ring
        rw [hplace, Nat.add_mul_div_left _ _ (by positivity), Nat.add_mul_mod_self_left]
        exact hdigit i h
      · have hlast : i = m := by omega
        subst hlast
        rw [Nat.add_mul_div_right _ _ (by positivity), Nat.div_eq_of_lt hlt, Nat.zero_add, Nat.mod_eq_of_lt (hp i)]

/-- An operation on each lane collects the lanes' patterns and their limitings. -/
theorem lanes_eq (w : Nat) (f : Int → Int → Int × Nat) (a b : BitVec 64) : lanes w f a b =
    (BitVec.ofNat 64 (∑ i ∈ Finset.range (64 / w), patternOf w (f (laneInt w a i) (laneInt w b i)).1 * 2 ^ (w * i)),
      ∑ i ∈ Finset.range (64 / w), (f (laneInt w a i) (laneInt w b i)).2) := by
  unfold lanes
  generalize 64 / w = m
  induction m with
  | zero => simp
  | succ m ih =>
    rw [List.range_succ, List.foldl_append, ih, Finset.sum_range_succ, Finset.sum_range_succ, BitVec.ofNat_add]
    rfl

/-- Each lane takes its own result. -/
theorem lane_lanes {w : Nat} (hw : w * (64 / w) = 64) (f : Int → Int → Int × Nat) (a b : BitVec 64) {i : Nat} (hi : i < 64 / w) :
    lane w (lanes w f a b).1 i = patternOf w (f (laneInt w a i) (laneInt w b i)).1 := by
  obtain ⟨hlt, hdigit⟩ := sum_digits (w := w) (p := fun i => patternOf w (f (laneInt w a i) (laneInt w b i)).1) (fun _ => patternOf_lt ..) (64 / w)
  rw [hw] at hlt
  rw [lanes_eq, lane, BitVec.toNat_ofNat, Nat.mod_eq_of_lt hlt, hdigit i hi]

theorem lanes_snd_eq_zero (w : Nat) (f : Int → Int → Int × Nat) (a b : BitVec 64) :
    (lanes w f a b).2 = 0 ↔ ∀ i, i < 64 / w → (f (laneInt w a i) (laneInt w b i)).2 = 0 := by
  simp [lanes_eq]

end Sys2Proof.Machine
end

section
/-! PROOFS. The ALU operations of the DSP engine (O10; R210, R211, R219, R221, R223, R226). -/

namespace Sys2Proof.Machine

/-! ## Shifts and leading zeros of one lane (R211) -/

/-- A left shift by the lane's width or more leaves no bit. -/
theorem patternOf_shl (w n : Nat) (a : Int) : patternOf w (if w ≤ n then 0 else a * 2 ^ n) = patternOf w (a * 2 ^ n) := by
  split
  · next h =>
    have hdvd : ((2 ^ w : Nat) : Int) ∣ a * 2 ^ n := by push_cast; exact (pow_dvd_pow 2 h).mul_left a
    rw [patternOf, patternOf, Int.emod_eq_zero_of_dvd hdvd, Int.zero_emod]
  · rfl

/-- An arithmetic shift by the lane's width or more leaves the sign. -/
theorem fdiv_of_fits {w n : Nat} {a : Int} (ha : fits w a) (h : w ≤ n) : a.fdiv (2 ^ n) = if a < 0 then -1 else 0 := by
  obtain ⟨hlow, hhigh⟩ := ha
  have hle : (2 : Int) ^ (w - 1) ≤ 2 ^ n := pow_le_pow_right₀ (by decide) (by omega)
  have hpos : (0 : Int) < 2 ^ n := by positivity
  rw [Int.fdiv_eq_ediv_of_nonneg _ hpos.le]
  split
  · refine ((Int.ediv_emod_unique hpos (r := a + 2 ^ n)).2 ⟨by ring, by omega, by omega⟩).1
  · exact Int.ediv_eq_zero_of_lt (by omega) (by omega)

theorem fdiv_min {w n : Nat} {a : Int} (ha : fits w a) : a.fdiv (2 ^ min n w) = a.fdiv (2 ^ n) := by
  rcases Nat.le_total n w with h | h
  · rw [Nat.min_eq_left h]
  · rw [Nat.min_eq_right h, fdiv_of_fits ha le_rfl, fdiv_of_fits ha h]

/-- A logical shift by the lane's width or more leaves no bit. -/
theorem shrl_of_le {w n : Nat} (a : Int) (h : w ≤ n) : patternOf w a / 2 ^ n = 0 :=
  Nat.div_eq_of_lt ((patternOf_lt w a).trans_le (Nat.pow_le_pow_right (by decide) h))

theorem length_filter_range_lt (c w : Nat) : ((List.range w).filter (fun j => decide (j < c))).length = min c w := by
  induction w with
  | zero => simp
  | succ w ih =>
    rw [List.range_succ, List.filter_append, List.length_append, ih]
    by_cases h : w < c
    · simp [h]; omega
    · simp [h]; omega

/-- The leading zeros are the places from the top down below which the number stays. -/
theorem clz_eq_length {w n : Nat} (hn : n < 2 ^ w) : clz w n = ((List.range w).filter (fun j => decide (n < 2 ^ (w - 1 - j)))).length := by
  unfold clz
  split
  · next h => subst h; simp
  · next h =>
    have hlog : n.log2 < w := (Nat.log2_lt h).2 hn
    have hplaces : (List.range w).filter (fun j => decide (n < 2 ^ (w - 1 - j))) =
        (List.range w).filter (fun j => decide (j < w - 1 - n.log2)) := by
      refine List.filter_congr fun j hj => decide_eq_decide.2 ?_
      rw [← Nat.log2_lt h]
      have := List.mem_range.1 hj
      omega
    rw [hplaces, length_filter_range_lt]
    omega

/-! ## One division step (R219) -/

theorem bitsOf_eq {n : Nat} (w : BitVec n) (hi lo : Nat) : bitsOf w hi lo = w.toNat / 2 ^ lo % 2 ^ (hi + 1 - lo) := by
  rw [bitsOf, Nat.shiftRight_eq_div_pow]

theorem divStep_spec (a b : BitVec 64) :
    let t := 2 * bitsOf a 63 32 + bitsOf a 31 31
    bitsOf (divStep a b) 63 32 = (if bitsOf b 31 0 ≤ t then t - bitsOf b 31 0 else t) % 2 ^ 32 ∧
      bitsOf (divStep a b) 31 0 = bitsOf a 30 0 * 2 + (if bitsOf b 31 0 ≤ t then 1 else 0) := by
  have htop : bitsOf a 31 0 / 2 ^ 31 = bitsOf a 31 31 := by simp only [bitsOf_eq]; omega
  have hquot : bitsOf a 31 0 * 2 % 2 ^ 32 = bitsOf a 30 0 * 2 := by simp only [bitsOf_eq]; omega
  have hlow : bitsOf a 30 0 < 2 ^ 31 := bitsOf_lt a 30 0
  simp only [divStep, htop, hquot]
  generalize 2 * bitsOf a 63 32 + bitsOf a 31 31 = t
  generalize bitsOf b 31 0 = dv
  generalize bitsOf a 30 0 = q at hlow ⊢
  split <;> simp only [bitsOf_eq, BitVec.toNat_ofNat] <;> omega

/-! ## An ALU instruction in its turn -/

section
variable {s : State} {k : Nat} {slot : BitVec 1} {w : BitVec 32} {f : AluF} (h : DspTurn s k slot w [.d f.dd.toNat])
include h

theorem dspIssue_alu (hlw : f.lw ≠ 3) (op : Nat → Int → Int → Int × Nat) :
    dspIssue k slot w (aluFx f op) s = .next (dspAfter s k slot (withResults [(1, .d f.dd.toNat,
      (lanes (laneBits f.lw) (op (laneBits f.lw)) (dReg (dspOf s k) f.da.toNat) (dReg (dspOf s k) f.db.toNat)).1)])
      (lanes (laneBits f.lw) (op (laneBits f.lw)) (dReg (dspOf s k) f.da.toNat) (dReg (dspOf s k) f.db.toNat)).2) :=
  dspIssue_of_writes h (if_neg hlw) fun _ => rfl

theorem dspIssue_whole (op : BitVec 64 → BitVec 64 → BitVec 64) : dspIssue k slot w (wholeFx f op) s =
    .next (dspAfter s k slot (withResults [(1, .d f.dd.toNat, op (dReg (dspOf s k) f.da.toNat) (dReg (dspOf s k) f.db.toNat))]) 0) :=
  dspIssue_of_writes h rfl fun _ => rfl

/-- A lane operation without limits: each lane takes the pattern of its own result. -/
theorem dspIssue_lanewise (hlw : f.lw ≠ 3) (g : Nat → Int → Int → Int) : ∃ v : BitVec 64,
    dspIssue k slot w (aluFx f fun w a b => (g w a b, 0)) s = .next (dspAfter s k slot (withResults [(1, .d f.dd.toNat, v)]) 0) ∧
    ∀ i, i < 64 / laneBits f.lw → lane (laneBits f.lw) v i = patternOf (laneBits f.lw) (g (laneBits f.lw)
      (laneInt (laneBits f.lw) (dReg (dspOf s k) f.da.toNat) i) (laneInt (laneBits f.lw) (dReg (dspOf s k) f.db.toNat) i)) := by
  have hexec := dspIssue_alu h hlw fun w a b => (g w a b, 0)
  rw [(lanes_snd_eq_zero ..).2 fun _ _ => rfl] at hexec
  exact ⟨_, hexec, fun i hi => lane_lanes (laneBits_mul hlw) _ _ _ hi⟩

/-- The same where the model's operation and the statement's leave the same pattern of numbers of the lane's width. -/
theorem dspIssue_lanewise_of_pattern (hlw : f.lw ≠ 3) {g op : Nat → Int → Int → Int}
    (hop : ∀ w a b, fits w a → patternOf w (g w a b) = patternOf w (op w a b)) : ∃ v : BitVec 64,
    dspIssue k slot w (aluFx f fun w a b => (g w a b, 0)) s = .next (dspAfter s k slot (withResults [(1, .d f.dd.toNat, v)]) 0) ∧
    ∀ i, i < 64 / laneBits f.lw → lane (laneBits f.lw) v i = patternOf (laneBits f.lw) (op (laneBits f.lw)
      (laneInt (laneBits f.lw) (dReg (dspOf s k) f.da.toNat) i) (laneInt (laneBits f.lw) (dReg (dspOf s k) f.db.toNat) i)) := by
  obtain ⟨v, hexec, hlanes⟩ := dspIssue_lanewise h hlw g
  exact ⟨v, hexec, fun i hi => (hlanes i hi).trans (hop _ _ _ (fits_laneInt (one_le_laneBits _) ..))⟩

/-- A lane operation with limits: each lane takes its limited result, and what is counted tells whether one was limited (R226). -/
theorem dspIssue_limited (hlw : f.lw ≠ 3) (op : Int → Int → Int) : ∃ (v : BitVec 64) (n : Nat),
    dspIssue k slot w (aluFx f fun w a b => satTo w (op a b)) s = .next (dspAfter s k slot (withResults [(1, .d f.dd.toNat, v)]) n) ∧
    (∀ i, i < 64 / laneBits f.lw → laneInt (laneBits f.lw) v i = limited (laneBits f.lw) (op
      (laneInt (laneBits f.lw) (dReg (dspOf s k) f.da.toNat) i) (laneInt (laneBits f.lw) (dReg (dspOf s k) f.db.toNat) i))) ∧
    (n = 0 ↔ ∀ i, i < 64 / laneBits f.lw → fits (laneBits f.lw) (op
      (laneInt (laneBits f.lw) (dReg (dspOf s k) f.da.toNat) i) (laneInt (laneBits f.lw) (dReg (dspOf s k) f.db.toNat) i))) := by
  refine ⟨_, _, dspIssue_alu h hlw _, fun i hi => ?_, ?_⟩
  · refine laneInt_of_lane (one_le_laneBits _) (fits_limited ..) ?_
    rw [lane_lanes (laneBits_mul hlw) _ _ _ hi, satTo_fst]
  · simp only [lanes_snd_eq_zero, satTo_snd]

end

end Sys2Proof.Machine

namespace Sys2Proof
open Machine

/-- Settles O10: each instruction is one of `dspIssue_lanewise`, `dspIssue_limited` and `dspIssue_whole`; what is left is arithmetic of one
lane. -/
theorem dspArithmetic : Obligations.DspArithmetic := by
  unfold Obligations.DspArithmetic
  refine ⟨fun mk opc op hmem s k slot f hlw h => ?_, fun s k slot f hlw h => ?_, fun s k slot f => ?_,
    fun mk opc op hmem s k slot f hlw h => ?_⟩
  · simp only [List.mem_cons, Prod.mk.injEq, List.not_mem_nil, or_false] at hmem
    rcases hmem with ⟨rfl, rfl, rfl⟩ | ⟨rfl, rfl, rfl⟩ | ⟨rfl, rfl, rfl⟩ | ⟨rfl, rfl, rfl⟩ | ⟨rfl, rfl, rfl⟩ | ⟨rfl, rfl, rfl⟩ | ⟨rfl, rfl, rfl⟩ |
      ⟨rfl, rfl, rfl⟩ | ⟨rfl, rfl, rfl⟩ | ⟨rfl, rfl, rfl⟩
    case inl => exact dspIssue_lanewise h hlw fun _ a _ => a
    · exact dspIssue_lanewise h hlw fun _ a b => a + b
    · exact dspIssue_lanewise h hlw fun _ a b => a - b
    · exact dspIssue_lanewise_of_pattern h hlw (op := fun w a b => a * 2 ^ f.imm6.toNat) fun w a _ _ => patternOf_shl w f.imm6.toNat a
    · exact dspIssue_lanewise_of_pattern h hlw (op := fun w a b => a.fdiv (2 ^ f.imm6.toNat)) fun w a _ ha => by rw [fdiv_min ha]
    · refine dspIssue_lanewise_of_pattern h hlw (op := fun w a b => ((patternOf w a / 2 ^ f.imm6.toNat : Nat) : Int)) fun w a _ _ => ?_
      split
      · next hle => rw [shrl_of_le a hle]; rfl
      · rfl
    · exact dspIssue_lanewise h hlw fun _ a b => min a b
    · exact dspIssue_lanewise h hlw fun _ a b => max a b
    · exact dspIssue_lanewise h hlw fun _ a b => if a < b then -1 else 0
    · exact dspIssue_lanewise_of_pattern h hlw (g := fun w a _ => clz w (unsignedOf w a))
        (op := fun w a _ => ((List.range w).filter (fun j => decide (patternOf w a < 2 ^ (w - 1 - j)))).length) fun w a _ _ => by
          rw [unsignedOf, clz_eq_length (patternOf_lt w a)]
  · obtain ⟨v, hexec, hlanes⟩ := dspIssue_lanewise h hlw fun w a _ => if w ≤ f.imm6.toNat then 0 else shiftRne a f.imm6.toNat
    refine ⟨v, hexec, fun i hi => ?_⟩
    have hlane := hlanes i hi
    split
    · next hle => rw [hlane, if_pos hle]; simp [patternOf]
    · next hle =>
      have hnear := isNearest_shiftRne (laneInt (laneBits f.lw) (dReg (dspOf s k) f.da.toNat) i) f.imm6.toNat
      rw [if_neg hle] at hlane
      rw [laneInt_of_lane (one_le_laneBits _) (fits_of_isNearest (fits_laneInt (one_le_laneBits _) ..) hnear) hlane]
      exact hnear
  · intro a b t turn
    exact ⟨fun h => dspIssue_whole h _, fun h => dspIssue_whole h _, fun h => dspIssue_whole h _,
      fun h => ⟨_, dspIssue_whole h _, divStep_spec a b⟩⟩
  · simp only [List.mem_cons, Prod.mk.injEq, List.not_mem_nil, or_false] at hmem
    rcases hmem with ⟨rfl, rfl, rfl⟩ | ⟨rfl, rfl, rfl⟩ | ⟨rfl, rfl, rfl⟩
    · exact dspIssue_limited h hlw fun a b => a + b
    · exact dspIssue_limited h hlw fun a b => a - b
    · simp only [Int.abs_eq_natAbs]
      exact dspIssue_limited h hlw fun a _ => (a.natAbs : Int)

end Sys2Proof
end

section
/-! PROOFS. Address, immediate and system instructions of the DSP engine (O13; R205, R216, R217, R220, R230). -/

namespace Sys2Proof.Machine

/-! ## The values moved -/

theorem toNat_append_eq_add {n m : Nat} (x : BitVec n) (y : BitVec m) : (x ++ y).toNat = x.toNat * 2 ^ m + y.toNat := by
  rw [BitVec.toNat_append, ← Nat.shiftLeft_add_eq_or_of_lt y.isLt, Nat.shiftLeft_eq]

theorem patternOf_eq_toNat (w : Nat) (i : Int) : patternOf w i = (BitVec.ofInt w i).toNat := by rw [BitVec.toNat_ofInt, patternOf]

/-- ADDA adds IMM16 as a signed number modulo 2^24 (R216). -/
theorem adda_value (a : BitVec 24) (imm : BitVec 16) :
    BitVec.ofNat 64 (patternOf 24 (a.toNat + signedOf 16 imm.toNat)) = (a + imm.signExtend 24).setWidth 64 := by
  rw [patternOf_eq_toNat, signedOf_toNat, BitVec.ofInt_add, BitVec.ofInt_natCast, BitVec.ofNat_toNat, BitVec.ofNat_toNat, BitVec.setWidth_eq]
  rfl

/-- The fields of STATUS, from PEND down to IE (R230). -/
theorem dspStatus_eq (d : DspSt) : dspStatus d = 0#8 ++ d.pend ++ d.evmask ++ 0#6 ++ BitVec.ofBool d.hm ++ BitVec.ofBool d.ie := by
  have hpend := d.pend.isLt
  have hmask := d.evmask.isLt
  apply BitVec.eq_of_toNat_eq
  simp only [dspStatus, toNat_append_eq_add, BitVec.toNat_ofNat, BitVec.toNat_ofBool]
  cases d.hm <;> cases d.ie <;> simp <;> omega

theorem toNat_eq_sum_lanes (x : BitVec 64) : x.toNat = ∑ j ∈ Finset.range 4, lane 16 x j * 2 ^ (16 * j) := by
  have hx := x.isLt
  simp [Finset.sum_range_succ, lane]
  omega

/-- One lane of 16 bits is put in place of what stood there, and the others stay (R217). -/
theorem lane_putLane (x : BitVec 64) {l i : Nat} (v : BitVec 16) (hl : l < 4) (hi : i < 4) :
    lane 16 (putLane x l v) i = if i = l then v.toNat else lane 16 x i := by
  let p (j : Nat) : Nat := if j = l then v.toNat else lane 16 x j
  have hp (j : Nat) : p j < 2 ^ 16 := by
    unfold p; split
    · exact v.isLt
    · exact lane_lt ..
  have hsplit (q : Nat → Nat) : ∑ j ∈ Finset.range 4, q j * 2 ^ (16 * j) =
      q l * 2 ^ (16 * l) + ∑ j ∈ (Finset.range 4).erase l, q j * 2 ^ (16 * j) :=
    (Finset.add_sum_erase _ (fun j => q j * 2 ^ (16 * j)) (Finset.mem_range.2 hl)).symm
  have hrest : ∑ j ∈ (Finset.range 4).erase l, p j * 2 ^ (16 * j) = ∑ j ∈ (Finset.range 4).erase l, lane 16 x j * 2 ^ (16 * j) :=
    Finset.sum_congr rfl fun j hj => by simp [p, Finset.ne_of_mem_erase hj]
  have hput : x.toNat - lane 16 x l * 2 ^ (16 * l) + v.toNat * 2 ^ (16 * l) = ∑ j ∈ Finset.range 4, p j * 2 ^ (16 * j) := by
    rw [toNat_eq_sum_lanes x, hsplit (lane 16 x), hsplit p, hrest, show p l = v.toNat from if_pos rfl]
    omega
  obtain ⟨hlt, hdigit⟩ := sum_digits hp 4
  rw [putLane, hput, lane, BitVec.toNat_ofNat, Nat.mod_eq_of_lt hlt]
  exact hdigit i hi

theorem bitsOf_mask (v : BitVec 64) : BitVec.ofNat 8 (bitsOf v 23 16) = v.extractLsb' 16 8 := by
  apply BitVec.eq_of_toNat_eq
  simp [bitsOf]

/-! ## Address instructions -/

/-- An address instruction writes one register for the next cycle; only SETA and ADDA take an immediate. -/
theorem dspIssue_addr {s : State} {k : Nat} {slot : BitVec 1} {w : BitVec 32} {f : AddrF} {imm : Bool} {r : DspDest} {val : DspSt → BitVec 64}
    (himm : imm = true ∨ f.imm16 = 0) (h : DspTurn s k slot w [r]) :
    dspIssue k slot w (addrFx f imm r val) s = .next (dspAfter s k slot (withResults [(1, r, val (dspOf s k))]) 0) :=
  dspIssue_of_writes h (by rcases himm with himm | himm <;> simp [addrFx, himm]) fun _ => rfl

end Sys2Proof.Machine

namespace Sys2Proof
open Machine

/-- Settles O13: each instruction writes one register or sets the control state (`dspIssue_addr`, `dspIssue_of_writes`,
`dspIssue_of_update`). -/
theorem dspMovesRegisters : Obligations.DspMovesRegisters := by
  unfold Obligations.DspMovesRegisters
  intro s k slot d
  refine ⟨?_, fun f => ⟨fun h => ?_, fun h => ?_⟩, ?_⟩
  · intro f w
    refine ⟨fun h => dspIssue_addr (.inl rfl) h, fun h => ?_, fun himm => ?_⟩
    · rw [← adda_value]
      exact dspIssue_addr (.inl rfl) h
    · exact ⟨fun h => dspIssue_addr (.inr himm) h, fun h => dspIssue_addr (.inr himm) h, fun h => dspIssue_addr (.inr himm) h,
        fun h => dspIssue_addr (.inr himm) h, fun h => dspIssue_addr (.inr himm) h⟩
  · refine ⟨putLane (dReg d f.dd.toNat) f.lane.toNat f.imm16, ?_, fun i hi => lane_putLane _ _ f.lane.isLt hi⟩
    show execDspMovl k slot f s = _
    exact dspIssue_of_writes h rfl fun _ => rfl
  · refine ⟨putLane 0 f.lane.toNat f.imm16, ?_, fun i hi => (lane_putLane _ _ f.lane.isLt hi).trans (by simp [lane])⟩
    show execDspMovz k slot f s = _
    exact dspIssue_of_writes h rfl fun _ => rfl
  · intro f turn w x
    refine ⟨fun hsel => ⟨fun h => ?_, fun h => ?_⟩, fun hsel => ⟨fun h => ?_, fun h => ?_⟩, fun hsel h => ?_, fun h => ?_, fun h => ?_⟩
    · show execDspMvls k f s = _
      exact dspIssue_of_writes h (if_neg (Nat.not_le.2 hsel)) nofun
    · show execDspMvsl k f s = _
      exact dspIssue_of_writes h (if_neg (Nat.not_le.2 hsel)) nofun
    · show execDspMvsd k f s = _
      rw [← dspStatus_eq]
      exact dspIssue_of_writes h (if_pos hsel) nofun
    · show execDspMvds k f s = _
      refine dspIssue_of_update h (if_pos hsel) ?_
      rw [bitsOf_mask]
    · show execDspMvsd k f s = _
      exact dspIssue_of_writes h (by rw [hsel]; rfl) nofun
    · show execDspMvad k f s = _
      exact dspIssue_of_writes h rfl nofun
    · show execDspMvda k f s = _
      exact dspIssue_of_effect h rfl nofun rfl rfl (fxState_writes_upd ..)

end Sys2Proof
end

section
/-! PROOFS. Control instructions of the DSP engine (O14; R218, R228, R231 to R233, R236). -/

namespace Sys2Proof.Machine

/-! ## Conditions and counts -/

theorem bitsOf_low {v : BitVec 64} {n : Nat} : bitsOf v n 0 = (v.setWidth (n + 1)).toNat := by
  rw [bitsOf, Nat.shiftRight_zero, BitVec.toNat_setWidth, Nat.sub_zero]

theorem bitsOf_low_eq_zero (v : BitVec 64) : bitsOf v 31 0 = 0 ↔ v.setWidth 32 = 0 := by
  rw [bitsOf_low, ← BitVec.toNat_inj]; rfl

theorem bitOf_sign (v : BitVec 64) : bitOf v 31 = (v.setWidth 32).msb := by
  rw [BitVec.msb_eq_getLsbD_last, BitVec.getLsbD_setWidth, bitOf, BitVec.testBit_toNat]
  rfl

/-! ## Branches (R218) -/

/-- The engine with a branch to `target` pending behind two delay packets. -/
def branching (target : BitVec 20) (reti : Bool) (d : DspSt) : DspSt := { d with branch := some (target, 3, reti) }

section
variable {s : State} {k : Nat} {w : BitVec 32} (h : DspTurn s k 0 w []) (hbranch : (dspOf s k).branch = none)
include h hbranch

/-- A branch whose target may be taken, outside the delay packets of another. -/
theorem dspIssue_branch {f : State → DspSt → Fx} {check : Bool} {target : Nat} {reti : Bool} {c : DspSt → Bool}
    {ws : DspSt → List (Nat × DspDest × BitVec 64)} {u : DspSt → DspSt} (hf : f s (dspOf s k) = branchFx k check target reti c ws s (dspOf s k))
    (htarget : check = true → sameRegion s k (dspOf s k).pc.toNat target = true)
    (hu : u (dspOf s k) = if c (dspOf s k) then branching (BitVec.ofNat 20 target) reti (withResults (ws (dspOf s k)) (dspOf s k)) else dspOf s k) :
    dspIssue k 0 w f s = .next (dspAfter s k 0 u 0) := by
  have hcheck : (check && !sameRegion s k (dspOf s k).pc.toNat target) = false := by
    cases check with
    | false => rfl
    | true => rw [htarget rfl]; rfl
  have hx : f s (dspOf s k) =
      if c (dspOf s k) then { writes := ws (dspOf s k), upd := some (branching (BitVec.ofNat 20 target) reti (dspOf s k)) } else {} := by
    simp only [hf, branchFx, hbranch, hcheck, Option.isSome_none, Bool.or_self, Bool.false_eq_true, if_false]
    rfl
  cases hc : c (dspOf s k) with
  | false =>
    rw [hc, if_neg Bool.false_ne_true] at hx hu
    exact dspIssue_of_effect h hx nofun rfl rfl ((congrFun fxState_none _).trans hu.symm)
  | true =>
    rw [hc, if_pos rfl] at hx hu
    exact dspIssue_of_effect h hx nofun rfl rfl ((fxState_writes_upd ..).trans hu.symm)

/-- A branch in its region that writes nothing. -/
theorem dspIssue_branch_to {t : BitVec 20} (htarget : sameRegion s k (dspOf s k).pc.toNat t.toNat = true) {c : DspSt → Bool} {u : DspSt → DspSt}
    (hu : u (dspOf s k) = if c (dspOf s k) then branching t false (dspOf s k) else dspOf s k) :
    dspIssue k 0 w (branchFx k true t.toNat false c fun _ => []) s = .next (dspAfter s k 0 u 0) := by
  refine dspIssue_branch h hbranch rfl (fun _ => htarget) (hu.trans ?_)
  simp [withResults]

end

/-! ## Loops (R228) -/

/-- The fields of the word of a loop level: active where the count is not 0, in the handler or not, its count, and the first and last packet
of its body (R227). -/
theorem toNat_loopWord (n : BitVec 22) (hm : Bool) (first last : BitVec 20) :
    (BitVec.ofBool (n ≠ 0) ++ BitVec.ofBool hm ++ n ++ first ++ last).toNat =
      (if n = 0 then 0 else 2 ^ 63) + (if hm then 2 ^ 62 else 0) + n.toNat * 2 ^ 40 + first.toNat * 2 ^ 20 + last.toNat := by
  have hactive : (BitVec.ofBool (n ≠ 0)).toNat = if n = 0 then 0 else 1 := by
    rw [BitVec.toNat_ofBool]
    by_cases h : n = 0
    · rw [if_pos h, decide_eq_false (not_not_intro h)]; rfl
    · rw [if_neg h, decide_eq_true h]; rfl
  simp only [toNat_append_eq_add, hactive, BitVec.toNat_ofBool]
  cases hm <;> split <;> simp <;> omega

theorem loopWord_eq {n : BitVec 22} {pc : BitVec 20} {body : BitVec 10} (hm : Bool) (hbody : body ≠ 0) (hend : pc.toNat + body.toNat < 2 ^ 20) :
    BitVec.ofNat 64 ((if n = 0 then 0 else 2 ^ 63) + (if hm then 2 ^ 62 else 0) + n.toNat * 2 ^ 40 + (pc.toNat + 1) * 2 ^ 20 +
      (pc.toNat + body.toNat)) = BitVec.ofBool (n ≠ 0) ++ BitVec.ofBool hm ++ n ++ (pc + 1) ++ (pc + body.setWidth 20) := by
  have hbody0 : body.toNat ≠ 0 := fun h => hbody (BitVec.eq_of_toNat_eq h)
  have hlast : (pc + body.setWidth 20).toNat = pc.toNat + body.toNat := by
    have := body.isLt
    rw [BitVec.toNat_add, BitVec.toNat_setWidth]; omega
  have hfirst : (pc + 1).toNat = pc.toNat + 1 := by rw [BitVec.toNat_add]; simp; omega
  rw [← hfirst, ← hlast, ← toNat_loopWord]
  exact BitVec.ofNat_toNat ..

/-- LOOP opens its level; with a count of 0 the packet after its body follows. -/
theorem dspIssue_loop {s : State} {k : Nat} {w : BitVec 32} {f : LoopF} {n : BitVec 22} (h : DspTurn s k 0 w [])
    (hbranch : (dspOf s k).branch = none) (hbody : f.body ≠ 0) (hcount : f.csrc = 1 → bitsOf f.count 5 0 = 0)
    (hnext : sameRegion s k (dspOf s k).pc.toNat ((dspOf s k).pc.toNat + 1) = true)
    (hlast : sameRegion s k (dspOf s k).pc.toNat ((dspOf s k).pc.toNat + f.body.toNat) = true)
    (hn : n = if f.csrc = 1 then (dReg (dspOf s k) (bitsOf f.count 10 6)).setWidth 22 else f.count.setWidth 22)
    (hend : (dspOf s k).pc.toNat + f.body.toNat < 2 ^ 20) :
    dspIssue k 0 w (loopFx k f) s = .next (dspAfter s k 0 (fun d => { d with
      loops := lmod d.loops f.level.toNat fun _ =>
        BitVec.ofBool (n ≠ 0) ++ BitVec.ofBool d.hm ++ n ++ (d.pc + 1) ++ (d.pc + f.body.setWidth 20)
      skip := if n = 0 then some (d.pc + f.body.setWidth 20 + 1) else none }) 0) := by
  have hnum : (if f.csrc = 1 then bitsOf (dReg (dspOf s k) (bitsOf f.count 10 6)) 21 0 else f.count.toNat) = n.toNat := by
    rw [hn]
    split
    · exact bitsOf_low
    · have := f.count.isLt
      rw [BitVec.toNat_setWidth]; omega
  have hsrc : (f.csrc == 1 && bitsOf f.count 5 0 != 0) = false := by simpa using hcount
  have hzero : n.toNat = 0 ↔ n = 0 := by rw [← BitVec.toNat_inj]; rfl
  have hskip : BitVec.ofNat 20 ((dspOf s k).pc.toNat + f.body.toNat + 1) = (dspOf s k).pc + f.body.setWidth 20 + 1 := by
    apply BitVec.eq_of_toNat_eq
    simp [BitVec.toNat_add]
  refine dspIssue_of_update h ?_ rfl
  simp only [loopFx, hbranch, Option.isSome_none, beq_eq_false_iff_ne.2 hbody, hsrc, hnext, hlast, Bool.and_self, Bool.not_true, Bool.or_self,
    Bool.false_eq_true, if_false, hnum, loopWord_eq (dspOf s k).hm hbody hend, hskip, hzero]

/-! ## WAIT (R231) -/

theorem ofNat_two_pow (l : Nat) : BitVec.ofNat 8 (2 ^ l) = 1#8 <<< l := by
  apply BitVec.eq_of_toNat_eq
  simp [Nat.shiftLeft_eq]

/-! ## SIGNAL (R218) -/

theorem sameRoutes_of_quiet {vs us : List UAddr} {s t : State} (h : Quiet vs us s t) : SameRoutes s t :=
  ⟨(congrArg State.occ h.state :), (congrArg State.dies h.state :), fun u => (congrArg UnitSt.phase (h.port u) :), h.held⟩

theorem stepListOf_modDsp (s : State) (k : Nat) (f : DspSt → DspSt) : stepListOf (modDsp s k f) = stepListOf s :=
  (SameRoutes.of_units rfl rfl rfl).stepListOf

/-- One READY token to each receiver. -/
def sendReady (u : UAddr) (tag value : Nat) (dsts : List UAddr) (s : State) : State := dsts.foldl (fun s dst => sendToken s u dst 1 tag value) s

theorem sendReady_cores (u : UAddr) (tag value : Nat) (dsts : List UAddr) (s : State) : (sendReady u tag value dsts s).cores = s.cores :=
  List.foldlRecOn (motive := fun t : State => t.cores = s.cores) dsts (fun s dst => sendToken s u dst 1 tag value) rfl fun _ h _ _ => h

theorem sendReady_mem (u : UAddr) (tag value : Nat) (dsts : List UAddr) (s : State) : (sendReady u tag value dsts s).mem = s.mem :=
  foldl_mem (f := fun s dst => sendToken s u dst 1 tag value) (fun _ _ => rfl) dsts s

theorem sendReady_crossing (u : UAddr) (tag value : Nat) (dsts : List UAddr) : ∀ s : State,
    (sendReady u tag value dsts s).crossing = s.crossing ++ dsts.map (fun dst => outgoing s u dst 1 tag value) := by
  induction dsts with
  | nil => simp [sendReady]
  | cons dst dsts ih =>
    intro s
    calc _ = (sendReady u tag value dsts (sendToken s u dst 1 tag value)).crossing := rfl
      _ = _ := by rw [ih, sendToken_crossing, List.append_assoc, List.map_cons]; rfl

/-- An instruction of slot 0 in its turn: the fetch is counted, its effect takes place, and the packet opens unless a WAIT stalls it. -/
theorem dspIssue_slot0 {s : State} {k : Nat} {w : BitVec 32} {dests : List DspDest} {f : State → DspSt → Fx} (h : DspTurn s k 0 w dests)
    (hfault : (f s (dspOf s k)).fault = none) : dspIssue k 0 w f s =
      .next (modDsp (applyFx (countRead s (coreBase s k + 8 * (dspOf s k).pc.toNat) 8) k (f s (dspOf s k))) k fun d =>
        { d with slot0 := d.waiting.isNone }) := by
  obtain ⟨hk, hrun, hcan, h0, -⟩ := h
  obtain ⟨hopen, hfetch, hword⟩ := h0 rfl
  simp only [dspIssue, not_turned_away hk hrun hcan, hopen, hfetch, hword, hfault, Bool.false_eq_true, if_false, if_true, Bool.not_true,
    ne_eq, not_true_eq_false]

theorem applyFx_signal {s : State} {k n : Nat} {rest : List Nat} {st : AStep}
    (hrunning : tget (coreOf s k).seq.running (deUnit k).toNat = some (n :: rest))
    (hstep : (stepListOf s (coreEng k 6 0) (deUnit k))[n]? = some st) (tag : BitVec 8) (v : BitVec 32) :
    applyFx s k { signal := some (tag, v) } =
      sendReady (deUnit k) tag.toNat v.toNat (st.emits.map (fun e => e.dst)).dedup (modDsp s k fun d => d) := by
  have hseq (u : DspSt → DspSt) : (coreOf (modDsp s k u) k).seq = (coreOf s k).seq := by simp [modDsp]
  have hid : modDsp s k (fxState { signal := some (tag, v) }) = modDsp s k fun d => d := modDsp_congr (by simp [fxState])
  rw [← hid]
  simp only [applyFx, List.foldl_nil, setSat, if_true, hseq, stepListOf_modDsp, hrunning, Option.getD_some, List.head?_cons, Option.bind_some, hstep]
  rfl

theorem not_waiting_of_mayOpen {d : DspSt} (h : mayOpen d = true) : d.waiting.isNone = true := by
  simp only [mayOpen, Bool.and_eq_true] at h
  obtain ⟨⟨-, hwaiting⟩, -⟩ := h
  exact hwaiting

/-- SIGNAL in its turn: the tokens leave for the receivers of the running step, the packet opens, and memory and the other cores stay. -/
theorem dspIssue_signal {s : State} {k n : Nat} {w : BitVec 32} {rest : List Nat} {st : AStep} (h : DspTurn s k 0 w [])
    (hrunning : tget (coreOf s k).seq.running (deUnit k).toNat = some (n :: rest))
    (hstep : (stepListOf s (coreEng k 6 0) (deUnit k))[n]? = some st) (tag : BitVec 8) (v : DspSt → BitVec 32) :
    ∃ s', dspIssue k 0 w (fun _ d => { signal := some (tag, v d) }) s = .next s' ∧
      s'.crossing = s.crossing ++ (st.emits.map (fun e => e.dst)).dedup.map (fun dst =>
        outgoing s (deUnit k) dst 1 tag.toNat (v (dspOf s k)).toNat) ∧
      dspOf s' k = { dspOf s k with slot0 := true } ∧ (∀ j, j ≠ k → coreOf s' j = coreOf s j) ∧ s'.mem = s.mem := by
  have hcount : Quiet [] [] s (countRead s (coreBase s k + 8 * (dspOf s k).pc.toNat) 8) := quiet_countRead ..
  have hwaiting : (dspOf s k).waiting.isNone = true := by
    obtain ⟨-, -, -, h0, -⟩ := h
    obtain ⟨hopen, -⟩ := h0 rfl
    exact not_waiting_of_mayOpen hopen
  have hexec := dspIssue_slot0 (f := fun _ d => { signal := some (tag, v d) }) h rfl
  rw [applyFx_signal (by rw [hcount.coreOf]; exact hrunning) (by rw [(sameRoutes_of_quiet hcount).stepListOf]; exact hstep)] at hexec
  generalize (v (dspOf s k)).toNat = value at hexec ⊢
  generalize (st.emits.map (fun e => e.dst)).dedup = dsts at hexec ⊢
  generalize countRead s (coreBase s k + 8 * (dspOf s k).pc.toNat) 8 = t at hcount hexec
  let s1 : State := modDsp t k fun d => d
  have hcores : coreOf (sendReady (deUnit k) tag.toNat value dsts s1) = coreOf s1 := coreOf_of_cores (sendReady_cores ..)
  have hdsp : dspOf (sendReady (deUnit k) tag.toNat value dsts s1) k = dspOf s k := by
    rw [dspOf, hcores]
    exact (dspOf_modDsp ..).trans (dspOf_of_quiet hcount k)
  refine ⟨_, hexec, ?_, ?_, fun j hj => ?_, ?_⟩
  · have hcrossing : s1.crossing = s.crossing := (congrArg State.crossing hcount.state :)
    exact (sendReady_crossing (deUnit k) tag.toNat value dsts s1).trans (by rw [hcrossing]; rfl)
  · rw [dspOf_modDsp, hdsp, hwaiting]
  · calc _ = coreOf (sendReady (deUnit k) tag.toNat value dsts s1) j := coreOf_modCore_other _ _ _ _ hj
      _ = coreOf t j := by rw [hcores]; exact coreOf_modCore_other _ _ _ _ hj
      _ = coreOf s j := by rw [hcount.coreOf]
  · exact (sendReady_mem (deUnit k) tag.toNat value dsts s1).trans hcount.mem

end Sys2Proof.Machine

namespace Sys2Proof
open Machine

/-- Settles O14. Each control instruction sets the control state alone: the transfers by `dspIssue_branch`, LOOP by `dspIssue_loop`, SIGNAL, which
also sends its tokens, by `dspIssue_signal`. -/
theorem dspControl : Obligations.DspControl := by
  unfold Obligations.DspControl
  intro s k d turn w
  refine ⟨?_, ?_, ?_, ?_, ?_, ?_, ?_⟩
  · intro slot h
    show execDspNop k slot s = _
    exact dspIssue_of_effect (x := {}) (u := fun d => d) h rfl (fun _ => rfl) rfl rfl (congrFun fxState_none _)
  · intro hbranch
    refine ⟨?_, ?_, ?_⟩
    · intro t htarget go
      refine ⟨fun h => ?_, fun h => ?_, ?_⟩
      · show execDspBr k t s = _
        exact dspIssue_branch_to h hbranch htarget (if_pos rfl).symm
      · show execDspCall k t s = _
        exact dspIssue_branch h hbranch rfl (fun _ => htarget) (by rw [BitVec.ofNat_toNat, BitVec.setWidth_eq]; rfl)
      · intro n x
        refine ⟨fun h => ?_, fun h => ?_, fun h => ?_, fun h => ?_⟩
        · show execDspBrz k n t s = _
          refine dspIssue_branch_to h hbranch htarget ?_
          simp only [beq_iff_eq, bitsOf_low_eq_zero]
          rfl
        · show execDspBrnz k n t s = _
          refine dspIssue_branch_to h hbranch htarget ?_
          simp only [bne_iff_ne, ne_eq, bitsOf_low_eq_zero, ite_not]
          rfl
        · show execDspBrn k n t s = _
          refine dspIssue_branch_to h hbranch htarget ?_
          rw [bitOf_sign]
          rfl
        · show execDspBrnn k n t s = _
          refine dspIssue_branch_to h hbranch htarget ?_
          have hx : bitOf (dReg (dspOf s k) n.toNat) 31 = x.msb := bitOf_sign _
          rw [hx]
          cases x.msb <;> rfl
    · intro n halign hrange h
      have htarget : (aReg d n.toNat).toNat % 8 = 0 ∧ (aReg d n.toNat).toNat / 8 < 2 ^ 20 := ⟨halign, by omega⟩
      show execDspJmpa k n s = _
      exact dspIssue_branch h hbranch (check := false) (target := (aReg d n.toNat).toNat / 8) (reti := false) (c := fun _ => true)
        (ws := fun _ => []) (by dsimp only; rw [if_pos htarget]) nofun (by simp [branching, withResults, d])
    · intro h
      show execDspReti k s = _
      exact dspIssue_branch h hbranch rfl nofun (by simp [branching, withResults])
  · intro hbranch h
    show execDspHalt k s = _
    exact dspIssue_of_update h (if_neg (by rw [hbranch]; exact Bool.false_ne_true)) rfl
  · intro f hbranch hbody hcount hnext hlast n hend h
    show execDspLoop k f s = _
    exact dspIssue_loop h hbranch hbody hcount hnext hlast rfl hend
  · intro ie h
    show execDspIen k ie s = _
    exact dspIssue_of_update h rfl rfl
  · intro l h
    show execDspWait k l s = _
    refine dspIssue_of_update h (d' := if bitOf d.pend l.toNat then { d with pend := d.pend &&& ~~~(1#8 <<< l.toNat) }
      else { d with waiting := some l }) ?_ rfl
    simp only [ofNat_two_pow]
    split <;> rfl
  · intro tag dd n st rest h hrunning hstep
    rw [bitsOf_low]
    exact dspIssue_signal h hrunning hstep tag fun d => (dReg d dd.toNat).setWidth 32

end Sys2Proof
end

section
/-! PROOFS. Complex adds, products and accumulations of the DSP engine (O11; R212, R213, R221, R223 to R226). -/

namespace Sys2Proof.Machine

/-! ## Elements of a register pair (R223) -/

/-- The parts of four elements in the lanes of a register pair. -/
theorem lane_pairBits (es : List C16) (h : Nat) {i : Nat} (hi : i < 2) :
    lane 16 (pairBits es h) (2 * i) = patternOf 16 (es.getD (2 * h + i) (0, 0)).1 ∧
      lane 16 (pairBits es h) (2 * i + 1) = patternOf 16 (es.getD (2 * h + i) (0, 0)).2 := by
  have h0 := patternOf_lt 16 (es.getD (2 * h + 0) (0, 0)).1
  have h1 := patternOf_lt 16 (es.getD (2 * h + 0) (0, 0)).2
  have h2 := patternOf_lt 16 (es.getD (2 * h + 1) (0, 0)).1
  have h3 := patternOf_lt 16 (es.getD (2 * h + 1) (0, 0)).2
  obtain rfl | rfl : i = 0 ∨ i = 1 := by omega
  all_goals
    simp only [lane, pairBits, BitVec.toNat_ofNat]
    omega

theorem laneInt_pairBits {es : List C16} {h i : Nat} (hi : i < 2) (h1 : fits 16 (es.getD (2 * h + i) (0, 0)).1)
    (h2 : fits 16 (es.getD (2 * h + i) (0, 0)).2) :
    laneInt 16 (pairBits es h) (2 * i) = (es.getD (2 * h + i) (0, 0)).1 ∧
      laneInt 16 (pairBits es h) (2 * i + 1) = (es.getD (2 * h + i) (0, 0)).2 := by
  obtain ⟨hre, him⟩ := lane_pairBits es h hi
  exact ⟨laneInt_of_lane (by decide) h1 hre, laneInt_of_lane (by decide) h2 him⟩

/-! ## Narrowing to elements (R225, R226) -/

/-- Both parts of a number divided by 2^`sh` and rounded. -/
def rounded (sh : Nat) (x : Int × Int) : Int × Int := (shiftRne x.1 sh, shiftRne x.2 sh)

theorem narrow16_eq (sh : Nat) (x : Int × Int) : (narrow16 sh x).1 = (limited 16 (rounded sh x).1, limited 16 (rounded sh x).2) := by
  simp only [narrow16, satTo_fst, rounded]

theorem narrow16_snd (sh : Nat) (x : Int × Int) : (narrow16 sh x).2 = 0 ↔ fits 16 (rounded sh x).1 ∧ fits 16 (rounded sh x).2 := by
  simp only [narrow16, Nat.add_eq_zero_iff, satTo_snd, rounded]

theorem narrowAll_snd (sh : Nat) (x : Nat → Int × Int) (m : Nat) : (narrowAll sh ((List.range m).map x)).2 = 0 ↔
    ∀ j, j < m → fits 16 (rounded sh (x j)).1 ∧ fits 16 (rounded sh (x j)).2 := by
  simp [narrowAll, List.sum_eq_zero_iff, narrow16_snd]

/-- Element `j` of a register pair after narrowing. -/
theorem narrowAll_lanes (sh : Nat) (x : Nat → Int × Int) {j : Nat} (hj : j < 4) :
    let es := (narrowAll sh ((List.range 4).map x)).1
    let v := if j < 2 then pairBits es 0 else pairBits es 1
    laneInt 16 v (2 * (j % 2)) = limited 16 (rounded sh (x j)).1 ∧ laneInt 16 v (2 * (j % 2) + 1) = limited 16 (rounded sh (x j)).2 := by
  intro es v
  have hv : v = pairBits es (j / 2) := by
    unfold v; split
    · rw [Nat.div_eq_of_lt ‹_›]
    · rw [show j / 2 = 1 by omega]
  have helem : es.getD (2 * (j / 2) + j % 2) (0, 0) = (limited 16 (rounded sh (x j)).1, limited 16 (rounded sh (x j)).2) := by
    rw [Nat.div_add_mod, ← narrow16_eq]
    simp [es, narrowAll, hj]
  have h := laneInt_pairBits (es := es) (h := j / 2) (Nat.mod_lt j (by decide)) (by rw [helem]; exact fits_limited ..)
    (by rw [helem]; exact fits_limited ..)
  rwa [helem, ← hv] at h

/-- An instruction that writes four narrowed elements to a register pair. -/
theorem dspIssue_pair {s : State} {k : Nat} {slot : BitVec 1} {w : BitVec 32} {f : State → DspSt → Fx} {lat n sh : Nat} {x : Nat → Int × Int}
    (h : DspTurn s k slot w [.d (2 * n), .d (2 * n + 1)])
    (hx : f s (dspOf s k) = { writes := pairWrite lat n (narrowAll sh ((List.range 4).map x)).1, sat := (narrowAll sh ((List.range 4).map x)).2 }) :
    ∃ (v v' : BitVec 64) (m : Nat),
      dspIssue k slot w f s = .next (dspAfter s k slot (withResults [(lat, .d (2 * n), v), (lat, .d (2 * n + 1), v')]) m) ∧
      ∃ p : Nat → Int × Int, (∀ j, j < 4 → IsNearest (x j).1 sh (p j).1 ∧ IsNearest (x j).2 sh (p j).2 ∧
        laneInt 16 (if j < 2 then v else v') (2 * (j % 2)) = limited 16 (p j).1 ∧
        laneInt 16 (if j < 2 then v else v') (2 * (j % 2) + 1) = limited 16 (p j).2) ∧
        (m = 0 ↔ ∀ j, j < 4 → fits 16 (p j).1 ∧ fits 16 (p j).2) :=
  ⟨_, _, _, dspIssue_of_writes h hx fun _ => rfl, fun j => rounded sh (x j),
    fun _ hj => ⟨isNearest_shiftRne .., isNearest_shiftRne .., narrowAll_lanes sh x hj⟩, narrowAll_snd sh x 4⟩

theorem dspIssue_cadd {s : State} {k : Nat} {slot : BitVec 1} {w : BitVec 32} {f : CaddF} {op : C16 → C16 → Int × Int} {order : List Nat}
    {x : Nat → Int × Int} (hsh : f.sh.toNat < 2) (h : DspTurn s k slot w [.d (2 * f.dd.toNat), .d (2 * f.dd.toNat + 1)])
    (hx : order.map (fun j => op ((pairOf (dspOf s k) f.da.toNat).getD j (0, 0)) ((pairOf (dspOf s k) f.db.toNat).getD j (0, 0))) =
      (List.range 4).map x) :
    ∃ (v v' : BitVec 64) (m : Nat), dspIssue k slot w (caddFx f op order) s =
        .next (dspAfter s k slot (withResults [(1, .d (2 * f.dd.toNat), v), (1, .d (2 * f.dd.toNat + 1), v')]) m) ∧
      ∃ p : Nat → Int × Int, (∀ j, j < 4 → IsNearest (x j).1 f.sh.toNat (p j).1 ∧ IsNearest (x j).2 f.sh.toNat (p j).2 ∧
        laneInt 16 (if j < 2 then v else v') (2 * (j % 2)) = limited 16 (p j).1 ∧
        laneInt 16 (if j < 2 then v else v') (2 * (j % 2) + 1) = limited 16 (p j).2) ∧
        (m = 0 ↔ ∀ j, j < 4 → fits 16 (p j).1 ∧ fits 16 (p j).2) := by
  refine dspIssue_pair h ?_
  simp only [caddFx, if_neg (Nat.not_le.2 hsh), hx]

/-! ## Accumulations (R221, R225, R226) -/

/-- A part of 48 bits, limited (R226). -/
def limited48 (x : Int) : BitVec 48 := BitVec.ofNat 48 (patternOf 48 (satTo 48 x).1)

theorem toInt_limited48 (x : Int) : (limited48 x).toInt = limited 48 x := by
  rw [← signedOf_toNat]
  refine signedOf_of_fits (by decide) (fits_limited ..) ?_
  rw [limited48, satTo_fst, BitVec.toNat_ofNat, Nat.mod_mod, Nat.mod_eq_of_lt (patternOf_lt ..)]

theorem setWidth_limited48 (x : Int) : (limited48 x).setWidth 64 = BitVec.ofNat 64 (patternOf 48 (satTo 48 x).1) := by
  have hlt := patternOf_lt 48 (satTo 48 x).1
  apply BitVec.eq_of_toNat_eq
  simp only [limited48, BitVec.toNat_setWidth, BitVec.toNat_ofNat]
  omega

/-- Four accumulators of a quad replaced. -/
theorem quad_replaced {α : Type} (l : List α) (q : Nat) (v : Nat → α) :
    (List.range 4).foldl (fun l j => lmod l (4 * q + j) fun _ => v j) l = l.mapIdx fun x o => if x / 4 = q then v (x % 4) else o := by
  simp only [List.range_eq_range', List.foldl, List.range', lmod_const]
  refine List.ext_getElem (by simp) fun i h1 h2 => ?_
  simp only [List.getElem_set, List.getElem_mapIdx]
  by_cases hq : i / 4 = q
  · obtain rfl | rfl | rfl | rfl : i = 4 * q + 0 ∨ i = 4 * q + 1 ∨ i = 4 * q + 2 ∨ i = 4 * q + 3 := by omega
    all_goals simp [hq]
  · rw [if_neg hq, if_neg (by omega), if_neg (by omega), if_neg (by omega), if_neg (by omega)]

/-- What CMAC form `conj`, with one element for all products under `one`, adds up for accumulator `j` of its quad, before limits (R225). -/
def macSum (d : DspSt) (f : CmulF) (conj one : Bool) (j : Nat) : Int × Int :=
  let a := pairElem d f.da.toNat j
  let b := pairElem d f.db.toNat (if one then bitsOf f.dd 1 0 else j)
  let o := d.ac.getD (4 * bitsOf f.dd 3 3 + j) (0, 0)
  let base : Int × Int := if bitOf f.dd 2 then (0, 0) else (o.1.toInt, o.2.toInt)
  (base.1 + (cprod conj a b).1, base.2 + (cprod conj a b).2)

/-- The four accumulators of quad `q` as EXT and MVAD will see them. -/
def quadResults (q : Nat) (r m : Nat → BitVec 48) : List (Nat × DspDest × BitVec 64) :=
  (List.range 4).flatMap fun j => [(4, .acRead (8 * q + 2 * j), (r j).setWidth 64), (4, .acRead (8 * q + 2 * j + 1), (m j).setWidth 64)]

theorem quadResults_dests (q : Nat) (r m : Nat → BitVec 48) :
    (quadResults q r m).map (fun w => w.2.1) = (List.range 8).map fun j => .acRead (8 * q + j) := rfl

/-- The engine with accumulators `r`, `m` in quad `q`, at once for a later CMAC and in flight for EXT and MVAD (R221). -/
def accumulated (q : Nat) (r m : Nat → BitVec 48) (d : DspSt) : DspSt :=
  { withResults (quadResults q r m) d with ac := d.ac.mapIdx fun x o => if x / 4 = q then (r (x % 4), m (x % 4)) else o }

section
variable {s : State} {k : Nat} {f : CmulF} {conj one : Bool} (hsh : f.sh = 0) (hlane : one = false → bitsOf f.dd 1 0 = 0)
include hsh hlane

theorem cmacFx_eq (d : DspSt) : cmacFx f conj one s d =
    { writes := quadResults (bitsOf f.dd 3 3) (fun j => limited48 (macSum d f conj one j).1) fun j => limited48 (macSum d f conj one j).2
      sat := ((List.range 4).map fun j => (satTo 48 (macSum d f conj one j).1).2 + (satTo 48 (macSum d f conj one j).2).2).sum
      upd := some { d with ac := d.ac.mapIdx fun x o => if x / 4 = bitsOf f.dd 3 3 then
        (limited48 (macSum d f conj one (x % 4)).1, limited48 (macSum d f conj one (x % 4)).2) else o } } := by
  have hlegal : (f.sh != 0 || (!one && bitsOf f.dd 1 0 != 0)) = false := by
    cases one with
    | false => simp [hsh, hlane rfl]
    | true => simp [hsh]
  have hplace (j : Nat) : 2 * (4 * bitsOf f.dd 3 3 + j) = 8 * bitsOf f.dd 3 3 + 2 * j := by omega
  rw [← quad_replaced d.ac (bitsOf f.dd 3 3) fun j => (limited48 (macSum d f conj one j).1, limited48 (macSum d f conj one j).2)]
  simp only [cmacFx, hlegal, Bool.false_eq_true, if_false, List.flatMap_map, List.map_map, List.foldl_map, hplace, quadResults, setWidth_limited48,
    signedOf_toNat]
  rfl

theorem dspIssue_cmac {slot : BitVec 1} {w : BitVec 32} (h : DspTurn s k slot w ((List.range 8).map fun j => .acRead (8 * bitsOf f.dd 3 3 + j))) :
    dspIssue k slot w (cmacFx f conj one) s = .next (dspAfter s k slot
      (accumulated (bitsOf f.dd 3 3) (fun j => limited48 (macSum (dspOf s k) f conj one j).1) fun j => limited48 (macSum (dspOf s k) f conj one j).2)
      ((List.range 4).map fun j => (satTo 48 (macSum (dspOf s k) f conj one j).1).2 + (satTo 48 (macSum (dspOf s k) f conj one j).2).2).sum) := by
  have hexec := dspIssue_of_effect (u := accumulated (bitsOf f.dd 3 3) (fun j => limited48 (macSum (dspOf s k) f conj one j).1)
    fun j => limited48 (macSum (dspOf s k) f conj one j).2) h (cmacFx_eq hsh hlane _) (fun _ => quadResults_dests ..) rfl rfl
    (fxState_writes_upd ..)
  exact hexec

end

end Sys2Proof.Machine

namespace Sys2Proof
open Machine

/-- Settles O11. Complex adds go by `dspIssue_cadd`, products and EXT by `dspIssue_pair`, accumulations by `dspIssue_cmac`; a part is
limited just when its exact value does not fit, which `satTo_snd` counts. -/
theorem dspMultiplies : Obligations.DspMultiplies := by
  unfold Obligations.DspMultiplies
  refine ⟨fun mk opc op order hmem s k slot f hsh h => ?_, fun s k slot f opc h i lat x hi => ?_, ?_⟩
  · simp only [List.mem_cons, Prod.mk.injEq, List.not_mem_nil, or_false] at hmem
    rcases hmem with ⟨rfl, rfl, rfl, rfl⟩ | ⟨rfl, rfl, rfl, rfl⟩ | ⟨rfl, rfl, rfl, rfl⟩ | ⟨rfl, rfl, rfl, rfl⟩ | ⟨rfl, rfl, rfl, rfl⟩ |
      ⟨rfl, rfl, rfl, rfl⟩ | ⟨rfl, rfl, rfl, rfl⟩
    all_goals exact dspIssue_cadd hsh h rfl
  · rcases hi with ⟨rfl, rfl, rfl, rfl⟩ | ⟨rfl, rfl, rfl, rfl⟩ | ⟨rfl, rfl, hquad, hdb, rfl, rfl⟩
    · exact dspIssue_pair (f := cmulFx f false) h rfl
    · exact dspIssue_pair (f := cmulFx f true) h rfl
    · have hda : bitsOf f.da 0 0 = f.da.toNat := by rw [bitsOf_eq]; simp; omega
      have hlegal : (bitsOf f.da 3 1 != 0 || f.db != 0) = false := by
        have hhigh : bitsOf f.da 3 1 = 0 := by rw [bitsOf_eq]; simp; omega
        simp [hhigh, hdb]
      refine dspIssue_pair (f := extFx f) h ?_
      simp only [extFx, hlegal, hda, signedOf_toNat, Bool.false_eq_true, if_false]
  · intro s k slot f i conj one hi hone hsh hlane q h
    have hexec : exec i s = dspIssue k slot (cmulWord (if one then 4 else if conj then 3 else 2) f) (cmacFx f conj one) s := by
      subst hi
      cases one with
      | false => cases conj <;> rfl
      | true => rw [hone rfl]; rfl
    refine ⟨fun j => limited48 (macSum (dspOf s k) f conj one j).1, fun j => limited48 (macSum (dspOf s k) f conj one j).2, _,
      hexec.trans (dspIssue_cmac hsh hlane h), macSum (dspOf s k) f conj one, fun j hj => ⟨?_, toInt_limited48 _, toInt_limited48 _⟩, ?_⟩
    · unfold macSum cprod
      cases conj <;> rfl
    · simp [List.sum_eq_zero_iff, satTo_snd, forall_and]

end Sys2Proof
end

section
/-! PROOFS. Post-modification of the address registers of the DSP engine (O12; R206, R207). -/

namespace Sys2Proof.Machine

/-! ## Bits read in reverse -/

/-- The `n` bits of `x` above bit `g`, the highest read lowest. -/
def revBits (g : Nat) : Nat → Nat → Nat
  | 0, _ => 0
  | n + 1, x => (x.testBit (g + n)).toNat + 2 * revBits g n x

theorem revBits_congr {g n x y : Nat} (h : ∀ i, i < g + n → x.testBit i = y.testBit i) : revBits g n x = revBits g n y := by
  induction n with
  | zero => rfl
  | succ n ih => rw [revBits, revBits, h (g + n) (by omega), ih fun i hi => h i (by omega)]

theorem sum_eq_revBits (g n x : Nat) : ((List.range n).map fun j => if x.testBit (g + n - 1 - j) then 2 ^ j else 0).sum = revBits g n x := by
  induction n with
  | zero => rfl
  | succ n ih =>
    have hrest : (List.range n).map (fun j => if x.testBit (g + (n + 1) - 1 - (j + 1)) then 2 ^ (j + 1) else 0) =
        (List.range n).map fun j => 2 * if x.testBit (g + n - 1 - j) then 2 ^ j else 0 := by
      refine List.map_congr_left fun j _ => ?_
      rw [show g + (n + 1) - 1 - (j + 1) = g + n - 1 - j by omega]
      split <;> ring
    rw [List.range_succ_eq_map, List.map_cons, List.map_map, List.sum_cons, revBits, ← ih, ← List.sum_map_mul_left]
    congr 1
    · simp
      split <;> simp [*]
    · exact congrArg List.sum hrest

/-! ## Addition with the carry running down (R207) -/

/-- One more digit of a sum modulo a power of two. -/
theorem add_two_mul_mod {x t d : Nat} (hx : x < 2) : (x + 2 * t) % (2 * d) = x + 2 * (t % d) := by
  rcases Nat.eq_zero_or_pos d with rfl | hd
  · simp
  · have hlt := Nat.mod_lt t hd
    conv_lhs => rw [← Nat.div_add_mod t d]
    rw [show x + 2 * (d * (t / d) + t % d) = 2 * d * (t / d) + (x + 2 * (t % d)) by ring, Nat.mul_add_mod, Nat.mod_eq_of_lt (by omega)]

/-- A full adder of one place: the digit and the carry for the place below. -/
theorem full_adder (x y c : Bool) :
    x.toNat + y.toNat + c.toNat = (x != (y != c)).toNat + 2 * ((x && y) || (x && c) || (y && c)).toNat := by
  cases x <;> cases y <;> cases c <;> rfl

/-- Bits outside those from `g` on stay, and those, read in reverse, add. -/
theorem revAdd_spec (m g n : Nat) : ∀ (a : Nat) (c : Bool),
    (∀ i, i < g ∨ g + n ≤ i → (revAdd m g (g + n) a c).testBit i = a.testBit i) ∧
      revBits g n (revAdd m g (g + n) a c) = (revBits g n a + revBits g n m + c.toNat) % 2 ^ n := by
  induction n with
  | zero =>
    intro a c
    have hstop : revAdd m g (g + 0) a c = a := by cases g <;> simp [revAdd]
    rw [hstop]
    simp [revBits, Nat.mod_one]
  | succ n ih =>
    intro a c
    let x := a.testBit (g + n)
    let y := m.testBit (g + n)
    let a' := if (x != (y != c)) = x then a else a ^^^ 2 ^ (g + n)
    have hstep : revAdd m g (g + (n + 1)) a c = revAdd m g (g + n) a' ((x && y) || (x && c) || (y && c)) := by
      show revAdd m g (g + n + 1) a c = _
      rw [revAdd, if_neg (by omega)]
    have hdigit : a'.testBit (g + n) = (x != (y != c)) := by
      unfold a'
      split
      · next h => exact h.symm
      · next h =>
        rw [Nat.testBit_xor, Nat.testBit_two_pow_self]
        show (x ^^ true) = _
        revert h
        generalize (y != c) = z
        cases x <;> cases z <;> decide
    have hkeep (i : Nat) (hi : i ≠ g + n) : a'.testBit i = a.testBit i := by
      unfold a'
      split
      · rfl
      · rw [Nat.testBit_xor, Nat.testBit_two_pow_of_ne (Ne.symm hi), Bool.xor_false]
    obtain ⟨houter, hsum⟩ := ih a' ((x && y) || (x && c) || (y && c))
    rw [hstep]
    refine ⟨fun i hi => ?_, ?_⟩
    · rw [houter i (by omega), hkeep i (by omega)]
    · have hcarry := full_adder x y c
      rw [revBits, houter (g + n) (.inr le_rfl), hdigit, hsum, revBits_congr (x := a') (y := a) fun i hi => hkeep i (by omega), revBits, revBits,
        Nat.pow_succ', ← add_two_mul_mod (Bool.toNat_lt _)]
      congr 1
      show _ = x.toNat + _ + (y.toNat + _) + _
      omega

theorem toNat_postMod_reverse {a : BitVec 24} {m : BitVec 32} (hmode : bitOf m 31 = true) (hg : bitsOf m 28 24 ≤ 23) :
    (postMod a m).toNat = revAdd (bitsOf m 23 0) (bitsOf m 28 24) 24 a.toNat false := by
  obtain ⟨houter, -⟩ := revAdd_spec (bitsOf m 23 0) (bitsOf m 28 24) (24 - bitsOf m 28 24) a.toNat false
  rw [Nat.add_sub_cancel' (by omega)] at houter
  rw [postMod, if_pos hmode, BitVec.toNat_ofNat]
  refine Nat.mod_eq_of_lt (Nat.lt_pow_two_of_testBit _ fun i hi => ?_)
  rw [houter i (.inr hi)]
  exact Nat.testBit_lt_two_pow (a.isLt.trans_le (Nat.pow_le_pow_right (by decide) hi))

/-- Reverse-carry addressing: the bits below `G` stay, and those from 23 down to `G`, read in reverse, add. -/
theorem postMod_reverse {a : BitVec 24} {m : BitVec 32} (hmode : bitOf m 31 = true) (hg : bitsOf m 28 24 ≤ 23) :
    (postMod a m).toNat % 2 ^ bitsOf m 28 24 = a.toNat % 2 ^ bitsOf m 28 24 ∧
      revBits (bitsOf m 28 24) (24 - bitsOf m 28 24) (postMod a m).toNat = (revBits (bitsOf m 28 24) (24 - bitsOf m 28 24) a.toNat +
        revBits (bitsOf m 28 24) (24 - bitsOf m 28 24) (bitsOf m 23 0)) % 2 ^ (24 - bitsOf m 28 24) := by
  obtain ⟨houter, hsum⟩ := revAdd_spec (bitsOf m 23 0) (bitsOf m 28 24) (24 - bitsOf m 28 24) a.toNat false
  rw [Nat.add_sub_cancel' (by omega)] at houter hsum
  rw [toNat_postMod_reverse hmode hg]
  refine ⟨Nat.eq_of_testBit_eq fun i => ?_, hsum⟩
  rw [Nat.testBit_mod_two_pow, Nat.testBit_mod_two_pow]
  by_cases hi : i < bitsOf m 28 24
  · rw [houter i (.inl hi)]
  · simp [hi]

theorem toNat_postMod_linear {a : BitVec 24} {m : BitVec 32} (hmode : bitOf m 31 = false) :
    (postMod a m).toNat = (a.toNat + bitsOf m 23 0) % 2 ^ 24 := by
  rw [postMod, if_neg (by rw [hmode]; exact Bool.false_ne_true), BitVec.toNat_add, BitVec.toNat_setWidth, bitsOf_eq]
  simp

end Sys2Proof.Machine
end

section
/-! PROOFS. Loads and stores of the DSP engine (O12; R207, R208, R214, R215, R221). -/

namespace Sys2Proof.Machine

/-! ## Addresses (R207, R208, R214) -/

theorem badAccess_eq_false (a n : Nat) : badAccess a n = false ↔ a % n = 0 ∧ a + n ≤ coreBytes := by
  simp [badAccess]

/-- The write of An that follows an access, where it is asked for. -/
def postWrite (on : Bool) (n : Nat) (d : DspSt) : List (Nat × DspDest × BitVec 64) :=
  if on then [(1, .a n, (postMod (aReg d n) (mReg d n)).setWidth 64)] else []

theorem lsAddr_eq {f : LsF} (hmode : f.mode ≠ 3) (himm : f.mode ≠ 2 → f.imm = 0) (d : DspSt) :
    lsAddr f d = some ((aReg d f.ai.toNat).toNat + (if f.mode = 2 then f.imm.toInt * (2 ^ (f.size.toNat + 1) : Nat) else 0),
      postWrite (f.mode = 1) f.ai.toNat d) := by
  have hmodes : ∀ x : BitVec 2, x ≠ 3 → x = 0 ∨ x = 1 ∨ x = 2 := by decide
  rcases hmodes f.mode hmode with h | h | h
  · simp [lsAddr, postWrite, h, himm (by rw [h]; decide)]
  · simp [lsAddr, postWrite, h, himm (by rw [h]; decide)]
  · simp [lsAddr, postWrite, h, signedOf_toNat]

theorem lsRegOk_of_even {f : LsF} (h : f.size = 3 → f.dd.toNat % 2 = 0) : lsRegOk f = true := by
  unfold lsRegOk
  by_cases hsize : f.size = 3
  · simp [hsize, h hsize]
  · rw [beq_eq_false_iff_ne.2 hsize]; rfl

/-! ## One access (R214) -/

section
variable {s : State} {k a : Nat} {f : LsF} (hmode : f.mode ≠ 3) (himm : f.mode ≠ 2 → f.imm = 0) (heven : f.size = 3 → f.dd.toNat % 2 = 0)
  (ha : (a : Int) = (aReg (dspOf s k) f.ai.toNat).toNat + (if f.mode = 2 then f.imm.toInt * (2 ^ (f.size.toNat + 1) : Nat) else 0))
include hmode himm ha

theorem lsAddr_eq_at : lsAddr f (dspOf s k) = some ((a : Int), postWrite (f.mode = 1) f.ai.toNat (dspOf s k)) :=
  (lsAddr_eq hmode himm _).trans (by rw [ha])

include heven

/-- The fault of a load that breaks R208. -/
theorem loadFx_fault (hbad : badAccess a (2 ^ (f.size.toNat + 1)) = true) :
    (loadFx k f s (dspOf s k)).fault = some (causeCommand, coreBase s k + a) := by
  simp only [loadFx, lsAddr_eq_at hmode himm ha, lsRegOk_of_even heven, hbad, Bool.not_true, Bool.false_eq_true, if_false, if_true, Int.toNat_natCast]

/-- The fault of a store that breaks R208. -/
theorem storeFx_fault (hbad : badAccess a (2 ^ (f.size.toNat + 1)) = true) :
    (storeFx k f s (dspOf s k)).fault = some (causeCommand, coreBase s k + a) := by
  simp only [storeFx, lsAddr_eq_at hmode himm ha, lsRegOk_of_even heven, hbad, Bool.not_true, Bool.false_eq_true, if_false, if_true, Int.toNat_natCast]

theorem storeFx_eq (hok : badAccess a (2 ^ (f.size.toNat + 1)) = false) : storeFx k f s (dspOf s k) =
    { writes := postWrite (f.mode = 1) f.ai.toNat (dspOf s k)
      stores := [(a, (bytesLE 8 (dReg (dspOf s k) f.dd.toNat).toNat ++ bytesLE 8 (dReg (dspOf s k) (f.dd.toNat + 1)).toNat).take
        (2 ^ (f.size.toNat + 1)))] } := by
  simp only [storeFx, lsAddr_eq_at hmode himm ha, lsRegOk_of_even heven, hok, Bool.not_true, Bool.false_eq_true, if_false, Int.toNat_natCast]

theorem loadFx_eq (hok : badAccess a (2 ^ (f.size.toNat + 1)) = false)
    (hpoison : (readLocal s (coreBase s k + a) (2 ^ (f.size.toNat + 1))).poisoned = false)
    (herr : (readLocal s (coreBase s k + a) (2 ^ (f.size.toNat + 1))).uncorrectable = false) :
    loadFx k f s (dspOf s k) =
      { writes := (3, .d f.dd.toNat, BitVec.ofNat 64 (ofBytesLE ((readLocal s (coreBase s k + a) (2 ^ (f.size.toNat + 1))).bytes.take 8))) ::
          (if f.size = 3 then [(3, .d (f.dd.toNat + 1),
            BitVec.ofNat 64 (ofBytesLE ((readLocal s (coreBase s k + a) (2 ^ (f.size.toNat + 1))).bytes.drop 8)))] else []) ++
          postWrite (f.mode = 1) f.ai.toNat (dspOf s k)
        reads := [(coreBase s k + a, 2 ^ (f.size.toNat + 1))] } := by
  have hhigh (h : f.size = 3) : ((readLocal s (coreBase s k + a) (2 ^ (f.size.toNat + 1))).bytes.drop 8).take 8 =
      (readLocal s (coreBase s k + a) (2 ^ (f.size.toNat + 1))).bytes.drop 8 := by
    rw [List.take_of_length_le]
    rw [List.length_drop, readLocal_bytes_length, h]
    decide
  simp only [loadFx, lsAddr_eq_at hmode himm ha, lsRegOk_of_even heven, hok, hpoison, herr, Bool.not_true, Bool.false_eq_true, if_false,
    Int.toNat_natCast, Bool.or_self, Nat.mul_zero, Nat.mul_one, List.drop_zero]
  by_cases hsize : f.size = 3
  · rw [if_pos hsize, if_pos hsize, hhigh hsize]
  · rw [if_neg hsize, if_neg hsize]

end

/-! ## Strided accesses (R215) -/

section
variable {s : State} {k : Nat} {f : StrF} {d : DspSt} (hok : ∀ j, j < 4 → badAccess (strAddr f d j) 4 = false)
include hok

theorem strAddr_find : ((List.range 4).map (strAddr f d)).find? (fun a => badAccess (Int.ofNat a) 4) = none := by
  rw [List.find?_eq_none]
  intro a ha
  obtain ⟨j, hj, rfl⟩ := List.mem_map.1 ha
  simpa using hok j (List.mem_range.1 hj)

theorem strStoreFx_eq : strStoreFx k f s d =
    { writes := postWrite (f.post = 1) f.ai.toNat d
      stores := (List.range 4).map fun j => (strAddr f d j, ((bytesLE 8 (dReg d (2 * f.dd.toNat + j / 2)).toNat).drop (4 * (j % 2))).take 4) } := by
  simp only [strStoreFx, strAddr_find hok, strPost, postWrite, decide_eq_true_eq]
  rfl

theorem strLoadFx_eq (hgood : ∀ j, j < 4 → GoodRead (readLocal s (coreBase s k + strAddr f d j) 4)) : strLoadFx k f s d =
    { writes := [(3, .d (2 * f.dd.toNat), BitVec.ofNat 64 (ofBytesLE ((readLocal s (coreBase s k + strAddr f d 0) 4).bytes ++
          (readLocal s (coreBase s k + strAddr f d 1) 4).bytes))),
        (3, .d (2 * f.dd.toNat + 1), BitVec.ofNat 64 (ofBytesLE ((readLocal s (coreBase s k + strAddr f d 2) 4).bytes ++
          (readLocal s (coreBase s k + strAddr f d 3) 4).bytes)))] ++ postWrite (f.post = 1) f.ai.toNat d
      reads := (List.range 4).map fun j => (coreBase s k + strAddr f d j, 4) } := by
  have hreads : badRead (((List.range 4).map (strAddr f d)).map fun a => readLocal s (coreBase s k + a) 4) = none :=
    badRead_of_good fun g hg => by
      obtain ⟨a, ha, rfl⟩ := List.mem_map.1 hg
      obtain ⟨j, hj, rfl⟩ := List.mem_map.1 ha
      exact hgood j (List.mem_range.1 hj)
  simp only [strLoadFx, strAddr_find hok, hreads, strPost, postWrite, decide_eq_true_eq]
  rfl

end

/-! ## The instructions in their turn -/

theorem fxState_reads (ws : List (Nat × DspDest × BitVec 64)) (rs : List (Nat × Nat)) (d : DspSt) :
    fxState { writes := ws, reads := rs } d = withResults ws d := by
  simp [fxState, withResults]

theorem fxState_stores (ws : List (Nat × DspDest × BitVec 64)) (st : List (Nat × List (BitVec 8))) (d : DspSt) :
    fxState { writes := ws, stores := st } d = { withResults ws d with stores := d.stores ++ st } := by
  simp [fxState, withResults]

/-- An instruction that reads memory and writes registers. -/
theorem dspIssue_of_reads {s : State} {k : Nat} {slot : BitVec 1} {w : BitVec 32} {f : State → DspSt → Fx}
    {ws : List (Nat × DspDest × BitVec 64)} {rs : List (Nat × Nat)} {dests : List DspDest} (h : DspTurn s k slot w dests)
    (hx : f s (dspOf s k) = { writes := ws, reads := rs }) (hdests : slot = 1 → ws.map (fun w => w.2.1) = dests) :
    dspIssue k slot w f s = .next (dspAfter s k slot (withResults ws) 0 rs) :=
  dspIssue_of_effect (x := { writes := ws, reads := rs }) (u := withResults ws) h hx hdests rfl rfl (fxState_reads ..)

/-- An instruction that writes registers and holds stores for the packet's end. -/
theorem dspIssue_of_stores {s : State} {k : Nat} {slot : BitVec 1} {w : BitVec 32} {f : State → DspSt → Fx}
    {ws : List (Nat × DspDest × BitVec 64)} {st : List (Nat × List (BitVec 8))} {dests : List DspDest} (h : DspTurn s k slot w dests)
    (hx : f s (dspOf s k) = { writes := ws, stores := st }) (hdests : slot = 1 → ws.map (fun w => w.2.1) = dests) {u : DspSt → DspSt}
    (hu : u (dspOf s k) = { withResults ws (dspOf s k) with stores := (dspOf s k).stores ++ st }) :
    dspIssue k slot w f s = .next (dspAfter s k slot u 0) :=
  dspIssue_of_effect (x := { writes := ws, stores := st }) (u := u) h hx hdests rfl rfl ((fxState_stores ..).trans hu.symm)

end Sys2Proof.Machine

namespace Sys2Proof
open Machine

/-- Settles O12. An access in the engine's own memory meets no fault, so its effect is its writes, its stores and its reads, which
`dspIssue_of_reads` and `dspIssue_of_stores` carry to the next state. A reverse-carry add is an addition of the
bits in reverse order (`postMod_reverse`). -/
theorem dspLoadsAndStores : Obligations.DspLoadsAndStores := by
  unfold Obligations.DspLoadsAndStores
  refine ⟨fun s k slot => ⟨?_, ?_⟩, ?_⟩
  · intro f a d n post hmode himm heven ha halign hbound
    have hok : badAccess a n = false := (badAccess_eq_false a n).2 ⟨halign, hbound⟩
    have hpost : postWrite (f.mode = 1) f.ai.toNat d = post := by simp only [postWrite, decide_eq_true_eq]; rfl
    refine ⟨?_, fun hturn => ?_⟩
    · intro hpoison herr bs ws hturn
      have hfx := loadFx_eq hmode himm heven ha hok hpoison herr
      rw [hpost] at hfx
      show execDspLoad k slot f s = _
      exact dspIssue_of_reads (f := loadFx k f) hturn hfx (fun _ => rfl)
    · have hfx := storeFx_eq hmode himm heven ha hok
      rw [hpost] at hfx
      show execDspStore k slot f s = _
      exact dspIssue_of_stores (f := storeFx k f) hturn hfx (fun _ => rfl) rfl
  · intro f d at_ post got hat
    have hok : ∀ j, j < 4 → badAccess (strAddr f d j) 4 = false := fun j hj => (badAccess_eq_false _ 4).2 (hat j hj)
    have hpost : postWrite (f.post = 1) f.ai.toNat d = post := by simp only [postWrite, decide_eq_true_eq]; rfl
    refine ⟨?_, fun hturn => ?_⟩
    · intro hgood ws hturn
      have hfx := strLoadFx_eq (s := s) (k := k) hok hgood
      rw [hpost] at hfx
      show execDspStridedLoad k slot f s = _
      exact dspIssue_of_reads (f := strLoadFx k f) hturn hfx (fun _ => rfl)
    · have hfx := strStoreFx_eq (s := s) (k := k) hok
      rw [hpost] at hfx
      show execDspStridedStore k slot f s = _
      exact dspIssue_of_stores (f := strStoreFx k f) hturn hfx (fun _ => rfl) rfl
  · intro a m g rev
    refine ⟨toNat_postMod_linear, fun hmode hg => ?_⟩
    have hrev (x : Nat) : rev x = revBits g (24 - g) x := by
      rw [← sum_eq_revBits]
      refine congrArg List.sum (List.map_congr_left fun j _ => ?_)
      rw [show 23 - j = g + (24 - g) - 1 - j by omega]
    simp only [hrev]
    exact postMod_reverse hmode hg

end Sys2Proof
end

section
/-! PROOFS. How a RUN starts, is interrupted, resumes and stops (O16; R208, R231, R232, R234, R235, R237). -/

namespace Sys2Proof.Machine

/-! ## A fault of the engine (R21, R237, R371) -/

theorem deUnit_parent : ∀ k, k < 48 → parentOf (deUnit k) = coreUnit k := by decide

/-- The state that a fault of core `k`'s DSP engine leaves: the RUN is gone with all that it holds, and its record and token are sent. -/
structure DspStopped (s s' : State) (k : Nat) (cause : BitVec 8) (r : FaultRec) : Prop where
  cmd : (dspOf s' k).cmd = none
  flight : (dspOf s' k).flight = []
  stores : (dspOf s' k).stores = []
  regs : (dspOf s' k).d = (dspOf s k).d
  mem : s'.mem = s.mem
  lastFault : s'.lastFault = s.lastFault + 1
  recorded : tget s'.faults ((s.lastFault + 1) % 256) = some r
  number : r.number = s.lastFault + 1
  unit : r.unit = deUnit k
  cause : r.cause = cause
  time : r.time = s.time.now
  token : s'.crossing = s.crossing ++ [outgoing s (deUnit k) (coreUnit k) 6 0 (s.lastFault + 1)]

theorem dspFault_stops {k : Nat} (hk : k < 48) (s : State) (cause : BitVec 8) (addr : Nat) :
    ∃ r, DspStopped s (dspFault s k cause addr) k cause r := by
  let s1 : State := modDsp s k fun d => { d with
    cmd := none, halted := true, flight := [], stores := [], slot0 := false, branch := none, skip := none, waiting := none }
  obtain ⟨queue, seq, hrecord⟩ := recordFault_eq s1 (deUnit k) cause (actionFor s1 (deUnit k)) addr
  have hfault : dspFault s k cause addr =
      sendToken (recordFaultAt s1 (deUnit k) cause (actionFor s1 (deUnit k)) (unitOf s1 (deUnit k)).failed queue seq addr)
        (deUnit k) (coreUnit k) 6 0 (s.lastFault + 1) := by
    show engineFault s1 (deUnit k) cause addr = _
    rw [engineFault, hrecord, deUnit_parent k hk]
    rfl
  have hdsp : dspOf (dspFault s k cause addr) k = dspOf s1 k := by
    rw [dspOf, coreOf_of_cores (t := dspFault s k cause addr) (s := s1) (by rw [hfault]; rfl), dspOf]
  rw [dspOf_modDsp] at hdsp
  obtain ⟨r, hrecorded, hnumber, hunit, hcause, htime⟩ : ∃ r, tget (dspFault s k cause addr).faults ((s.lastFault + 1) % 256) = some r ∧
      r.number = s.lastFault + 1 ∧ r.unit = deUnit k ∧ r.cause = cause ∧ r.time = s.time.now := by
    rw [hfault]
    exact ⟨_, tget_tset_same .., rfl, rfl, rfl, rfl⟩
  exact ⟨r, by rw [hdsp], by rw [hdsp], by rw [hdsp], by rw [hdsp], by rw [hfault]; rfl, by rw [hfault]; rfl, hrecorded, hnumber, hunit, hcause,
    htime, by rw [hfault]; rfl⟩

/-- An instruction of slot 0 that faults stops the RUN. -/
theorem dspIssue_faults {s : State} {k : Nat} {w : BitVec 32} {f : State → DspSt → Fx} {cause : BitVec 8} {addr : Nat} (h : DspTurn s k 0 w [])
    (hfault : (f s (dspOf s k)).fault = some (cause, addr)) : dspIssue k 0 w f s = .next (dspFault s k cause addr) := by
  obtain ⟨hk, hrun, hcan, h0, -⟩ := h
  obtain ⟨hopen, hfetch, hword⟩ := h0 rfl
  simp only [dspIssue, not_turned_away hk hrun hcan, hopen, hfetch, hword, hfault, Bool.false_eq_true, if_false, if_true, Bool.not_true,
    ne_eq, not_true_eq_false]

/-- A fetch that faults stops the RUN. -/
theorem dspIssue_fetch_faults {s : State} {k : Nat} {w : BitVec 32} {f : State → DspSt → Fx} {cause : BitVec 8} {addr : Nat} (hk : k < 48)
    (hrun : Active s) (hcan : canRun s (deUnit k) = true) (hopen : mayOpen (dspOf s k) = true)
    (hfetch : fetchFault s k (dspOf s k) = some (cause, addr)) : dspIssue k 0 w f s = .next (dspFault s k cause addr) := by
  simp only [dspIssue, not_turned_away hk hrun hcan, hopen, hfetch, Bool.false_eq_true, if_false, if_true, Bool.not_true]

theorem fetchFault_outside {s : State} {k : Nat} {d : DspSt} (h : regionAt s k d.pc.toNat = none) :
    fetchFault s k d = some (causeCommand, coreBase s k + 8 * d.pc.toNat) := by
  simp only [fetchFault, h]

/-- An access in mode 0 outside core memory or not aligned (R208). -/
theorem badAccess_of_outside {a n : Nat} (h : a % n ≠ 0 ∨ coreBytes < a + n) : badAccess a n = true := by
  rw [← Bool.not_eq_false, badAccess_eq_false]
  omega

/-! ## The bound of a RUN (R237) -/

section
variable {s : State} {k : Nat} {t : Time} {c : DspCmd} (hk : k < 48) (hrun : Active s) (hcmd : (dspOf s k).cmd = some c)
  (hbound : 16 * c.bound.toNat ≤ (dspOf s k).cycle)
include hk hrun hcmd hbound

theorem dspBoundExpiry_faults : execDspBoundExpiry k t s = .next (dspFault (s.atTime t) k causeCommand 0) := by
  have hcmd' : (dspOf (s.atTime t) k).cmd = some c := hcmd
  have hbound' : ¬(dspOf (s.atTime t) k).cycle < boundCycles (dspOf (s.atTime t) k) := by
    simp only [boundCycles, hcmd', Option.map_some, Option.getD_some]
    exact Nat.not_lt.2 hbound
  rw [execDspBoundExpiry, timed_active hrun]
  simp only [hcmd', Nat.not_le.2 hk, hbound', decide_false, Bool.or_self, Bool.false_eq_true, if_false]

theorem dspRunComplete_faults (hhalted : (dspOf s k).halted = true) (hslot : (dspOf s k).slot0 = false) (hclock : clocked s (deUnit k) = true) :
    execDspRunComplete k t s = .next (dspFault (s.atTime t) k causeCommand 0) := by
  have hcmd' : (dspOf (s.atTime t) k).cmd = some c := hcmd
  have hhalted' : (dspOf (s.atTime t) k).halted = true := hhalted
  have hslot' : (dspOf (s.atTime t) k).slot0 = false := hslot
  have hclock' : clocked (s.atTime t) (deUnit k) = true := hclock
  have hbound' : boundCycles (dspOf (s.atTime t) k) ≤ (dspOf (s.atTime t) k).cycle := by
    simp only [boundCycles, hcmd', Option.map_some, Option.getD_some]
    exact hbound
  rw [execDspRunComplete, timed_active hrun]
  simp [Nat.not_le.2 hk, hcmd', hhalted', hslot', hclock', hbound']

end

/-! ## RUN, interrupts and WAIT -/

section
variable {s : State} {k : Nat} (hk : k < 48) (hrun : Active s)
include hk hrun

theorem execDspRun_starts {c : DspCmd} (hcan : canRun s (deUnit k) = true) (hcmd : (dspOf s k).cmd = none) (hhalted : (dspOf s k).halted = false)
    (ha : c.rsvdA = 0) (hb : c.rsvdB = 0) (hbound : c.bound ≠ 0) : execDspRun k c s = .next (modDsp s k fun d => { d with
      cmd := some { c with opcode := 1 }, d := lmod d.d 0 (fun _ => c.arg.setWidth 64), pc := c.entry, ie := false, hm := false,
      pend := 0, evmask := c.evmask, cycle := 0, flight := [], slot0 := false, stores := [], branch := none, skip := none, waiting := none }) := by
  have hserves : (48 ≤ k || stopped s || !canRun s (deUnit k) || (dspOf s k).cmd.isSome || (dspOf s k).halted) = false := by
    simp [not_turned_away hk hrun hcan, hcmd, hhalted]
  have hok : dspCmdOk { c with opcode := 1 } = true := by simp [dspCmdOk, ha, hb]; exact hbound
  simp only [execDspRun, hserves, hok, Bool.false_eq_true, if_false, Bool.not_true]

theorem execDspInterrupt_due {c : DspCmd} (hcan : canRun s (deUnit k) = true) (hcmd : (dspOf s k).cmd = some c) (hdue : intDue (dspOf s k) = true) :
    execDspInterrupt k s = .next (countUnit (modDsp s k fun d => pass 4 { d with elr := d.pc, hm := true, pc := c.handler, waiting := none })
      (deUnit k) 0x22 1) := by
  have hserves : (48 ≤ k || stopped s || !canRun s (deUnit k) || !intDue (dspOf s k)) = false := by
    simp [not_turned_away hk hrun hcan, hdue]
  simp only [execDspInterrupt, hcmd, hserves, Bool.false_eq_true, if_false]

/-- The engine of a WAIT that resumes after `n` cycles (log entry 3). -/
def resumed (n : Nat) (line : BitVec 3) (d : DspSt) : DspSt :=
  { pass n d with
    cycle := d.cycle, flight := (pass n d).flight.map (fun f => { f with due := f.due - n })
    waiting := none, slot0 := true, pend := d.pend &&& ~~~(1#8 <<< line.toNat) }

theorem execDspWaitResume_set {line : BitVec 3} (hwaiting : (dspOf s k).waiting = some line) (hset : bitOf (dspOf s k).pend line.toNat = true) :
    execDspWaitResume k s = .next (modDsp (s.free 4).2 k (resumed ((s.free 4).1 + 1) line)) := by
  have hserves : (48 ≤ k || stopped s || !bitOf (dspOf s k).pend line.toNat) = false := by
    unfold Active at hrun
    simp [Nat.not_le.2 hk, hrun, hset]
  simp only [execDspWaitResume, hwaiting, hserves, Bool.false_eq_true, if_false, ofNat_two_pow]
  rfl

end

end Sys2Proof.Machine

namespace Sys2Proof
open Machine

/-- Settles O16. What starts, interrupts or resumes a RUN writes the engine's own state alone, and each way to stop it answers `dspFault`, whose
record and token `dspFault_stops` names. -/
theorem dspRunsAndStops : Obligations.DspRunsAndStops := by
  unfold Obligations.DspRunsAndStops
  refine ⟨fun s k hk hrun => ⟨?_, ?_, ?_⟩, ?_⟩
  · intro c hcan hcmd hhalted ha hb hbound
    refine ⟨_, execDspRun_starts hk hrun hcan hcmd hhalted ha hb hbound, ⟨_, rfl⟩, fun j hj => coreOf_modCore_other _ _ _ _ hj, ?_, ?_⟩
    · rw [dspOf_modDsp, modDsp, coreOf_modCore_same]; rfl
    · have hlow : (0#32 ++ c.arg).toNat = c.arg.toNat := by rw [toNat_append_eq_add]; simp
      have harg : c.arg.setWidth 64 = 0#32 ++ c.arg := BitVec.eq_of_toNat_eq ((BitVec.toNat_setWidth_of_le (by decide)).trans hlow.symm)
      rw [dspOf_modDsp, harg]
  · intro c hcan hcmd hhen hie hhm hpend hslot hbranch hhalted
    have hdue : intDue (dspOf s k) = true := by
      simp [intDue, hcmd, hhen, hie, hhm, hslot, hbranch, hhalted]
      exact hpend
    have hcount (t : State) : Quiet [] [] t (countUnit t (deUnit k) 0x22 1) := quiet_countUnit ..
    refine ⟨_, execDspInterrupt_due hk hrun hcan hcmd hdue, ?_, fun j hj => ?_, ?_⟩
    · rw [dspOf_of_quiet (hcount _), dspOf_modDsp]
    · rw [(hcount _).coreOf]
      exact coreOf_modCore_other _ _ _ _ hj
    · exact (hcount _).mem
  · intro line hwaiting hset
    have hfree : (s.free 4).1 < 4 := Nat.mod_lt _ (by decide)
    refine ⟨_, (s.free 4).1 + 1, execDspWaitResume_set hk hrun hwaiting hset, by omega, by omega, ?_, ?_, ?_, ?_, ?_, rfl,
      fun j hj => coreOf_modCore_other _ _ _ _ hj, rfl⟩
    all_goals rw [dspOf_modDsp]; rfl
  · intro s k i s0 h
    suffices hstop : ∃ addr tm, k < 48 ∧ s0 = { s with time := tm } ∧ Completes i s (dspFault s0 k causeCommand addr) by
      obtain ⟨addr, tm, hk, rfl, hexec⟩ := hstop
      obtain ⟨r, hstop⟩ := dspFault_stops hk { s with time := tm } causeCommand addr
      exact ⟨_, r, hexec, hstop.cmd, hstop.flight, hstop.stores, hstop.regs, hstop.mem, hstop.lastFault, hstop.recorded, hstop.number,
        hstop.unit, hstop.cause, hstop.time, hstop.token⟩
    obtain ⟨f, a, h⟩ | ⟨hk, hrun, hcan, hopen, hregion, rfl, rfl⟩ | ⟨c, t, hk, hrun, hcmd, hbound, hi, rfl⟩ := h
    · obtain ⟨hturn, hmode, himm, heven, ha, hbad, hi, rfl⟩ := h
      have hk : k < 48 := hturn.1
      have haddr : (a : Int) = (aReg (dspOf s0 k) f.ai.toNat).toNat + (if f.mode = 2 then f.imm.toInt * (2 ^ (f.size.toNat + 1) : Nat) else 0) := by
        rw [hmode, ha]; simp
      have hmode3 : f.mode ≠ 3 := by rw [hmode]; decide
      obtain rfl | rfl := hi
      · rw [if_pos rfl] at hturn
        exact ⟨_, _, hk, rfl, dspIssue_faults hturn (loadFx_fault hmode3 (fun _ => himm) heven haddr (badAccess_of_outside hbad))⟩
      · rw [if_neg nofun] at hturn
        exact ⟨_, _, hk, rfl, dspIssue_faults hturn (storeFx_fault hmode3 (fun _ => himm) heven haddr (badAccess_of_outside hbad))⟩
    · exact ⟨_, _, hk, rfl, dspIssue_fetch_faults (w := 0) (f := fun _ _ => {}) hk hrun hcan hopen (fetchFault_outside hregion)⟩
    · obtain rfl | ⟨rfl, hhalted, hslot, hclock⟩ := hi
      · exact ⟨_, _, hk, rfl, dspBoundExpiry_faults hk hrun hcmd hbound⟩
      · exact ⟨_, _, hk, rfl, dspRunComplete_faults hk hrun hcmd hbound hhalted hslot hclock⟩

end Sys2Proof
end

section
/-! PROOFS. The packet that follows a packet (O15; R218, R228, R229, R233). -/

namespace Sys2Proof.Machine

/-! ## The loop levels (R229) -/

/-- Level `l` ends its body at packet address `p`. -/
def LevelEnds (d : DspSt) (p l : Nat) : Prop :=
  bitOf (d.loops.getD l 0) 63 = true ∧ bitOf (d.loops.getD l 0) 62 = d.hm ∧ bitsOf (d.loops.getD l 0) 19 0 = p

/-- A loop word once its level is closed: its end, its start and its HM stay. -/
theorem closed_word (w : BitVec 64) : BitVec.ofNat 64 (w.toNat % 2 ^ 40 + (w.toNat / 2 ^ 62 % 2) * 2 ^ 62) = w &&& 0x400000FFFFFFFFFF#64 := by
  have hmask : 0x400000FFFFFFFFFF = 2 ^ 62 ||| (2 ^ 40 - 1) := by decide
  have hlow : w.toNat % 2 ^ 40 < 2 ^ 62 := by omega
  refine BitVec.eq_of_toNat_eq ?_
  calc (BitVec.ofNat 64 (w.toNat % 2 ^ 40 + (w.toNat / 2 ^ 62 % 2) * 2 ^ 62)).toNat
      = (w.toNat / 2 ^ 62 % 2) <<< 62 + w.toNat % 2 ^ 40 := by rw [BitVec.toNat_ofNat, Nat.shiftLeft_eq]; omega
    _ = w.toNat &&& 0x400000FFFFFFFFFF := by
      rw [Nat.shiftLeft_add_eq_or_of_lt hlow, Nat.shiftLeft_eq, ← Nat.toNat_testBit, ← Nat.and_two_pow, ← Nat.and_two_pow_sub_one_eq_mod,
        ← Nat.and_or_distrib_left, hmask]
    _ = _ := by rw [BitVec.toNat_and]; rfl

/-- A loop word without its bit 63. -/
theorem unmarked_word (w : BitVec 64) : BitVec.ofNat 64 (w.toNat % 2 ^ 63) = w &&& 0x7FFFFFFFFFFFFFFF#64 := by
  refine BitVec.eq_of_toNat_eq ?_
  rw [BitVec.toNat_and, ← Nat.and_two_pow_sub_one_eq_mod, BitVec.toNat_ofNat]
  exact Nat.mod_eq_of_lt (Nat.and_le_left.trans_lt w.isLt)

/-- The engine with level `l` closed. -/
def closeLevel (d : DspSt) (l : Nat) : DspSt := { d with loops := lmod d.loops l (fun x => x &&& 0x400000FFFFFFFFFF#64) }

section
variable {d : DspSt} {p l n dflt : Nat}

theorem loopNext_skips (h : ¬ LevelEnds d p l) : loopNext d p (l + 1) dflt = loopNext d p l dflt := by
  rw [loopNext]
  simp only [LevelEnds] at h
  rw [if_neg (by simpa [and_assoc] using h)]

theorem loopNext_again (h : LevelEnds d p l) (hcount : 1 < bitsOf (d.loops.getD l 0) 61 40) : loopNext d p (l + 1) dflt =
    ({ d with loops := lmod d.loops l (fun x => x - 2 ^ 40) }, bitsOf (d.loops.getD l 0) 39 20) := by
  obtain ⟨hopen, hhm, hend⟩ := h
  simp only [loopNext, hopen, hhm, hend, beq_self_eq_true, Bool.and_self, if_true, hcount]
  rfl

theorem loopNext_closes (h : LevelEnds d p l) (hcount : bitsOf (d.loops.getD l 0) 61 40 ≤ 1) :
    loopNext d p (l + 1) dflt = loopNext (closeLevel d l) p l dflt := by
  obtain ⟨hopen, hhm, hend⟩ := h
  simp only [loopNext, hopen, hhm, hend, beq_self_eq_true, Bool.and_self, if_true, Nat.not_lt.2 hcount, if_false, closed_word]
  rfl

theorem loopNext_none (h : ∀ l, l < n → ¬ LevelEnds d p l) : loopNext d p n dflt = (d, dflt) := by
  induction n with
  | zero => rfl
  | succ n ih => rw [loopNext_skips (h n (Nat.lt_succ_self n)), ih fun l hl => h l (Nat.lt_succ_of_lt hl)]

/-- Levels above the one that ends its body do nothing. -/
theorem loopNext_above (hl : l < n) (h : ∀ j, l < j → j < n → ¬ LevelEnds d p j) : loopNext d p n dflt = loopNext d p (l + 1) dflt := by
  induction n, hl using Nat.le_induction with
  | base => rfl
  | succ n hln ih => rw [loopNext_skips (h n hln (Nat.lt_succ_self n)), ih fun j hj hjn => h j hj (Nat.lt_succ_of_lt hjn)]

theorem levelEnds_closeLevel_other {j : Nat} (h : j ≠ l) : LevelEnds (closeLevel d l) p j ↔ LevelEnds d p j := by
  have hword : (closeLevel d l).loops.getD j 0 = d.loops.getD j 0 := lmod_get_other _ _ _ _ _ h
  rw [LevelEnds, hword]
  rfl

/-- A level that closes, where no other ends its body here. -/
theorem loopNext_closes_only (hl : l < n) (h : LevelEnds d p l) (hothers : ∀ j, j ≠ l → j < n → ¬ LevelEnds d p j)
    (hcount : bitsOf (d.loops.getD l 0) 61 40 ≤ 1) : loopNext d p n dflt = (closeLevel d l, dflt) := by
  rw [loopNext_above hl fun j hj hjn => hothers j hj.ne' hjn, loopNext_closes h hcount]
  refine loopNext_none fun j hj => ?_
  rw [levelEnds_closeLevel_other hj.ne]
  exact hothers j hj.ne (hj.trans hl)

end

/-! ## The next packet -/

/-- The packet that follows where no branch is taken here: by the levels, else the next one or the one past a LOOP of count 0. -/
def followLoops (d : DspSt) : DspSt :=
  let r := loopNext d d.pc.toNat 4 ((d.skip.map (fun p => p.toNat)).getD (d.pc.toNat + 1))
  { r.1 with pc := BitVec.ofNat 20 r.2, skip := none }

/-- The address of the packet that stands next. -/
def onward (d : DspSt) : BitVec 20 := d.skip.getD (d.pc + 1)

theorem onward_eq (d : DspSt) : BitVec.ofNat 20 ((d.skip.map (fun p => p.toNat)).getD (d.pc.toNat + 1)) = onward d := by
  unfold onward
  cases d.skip with
  | none => exact BitVec.eq_of_toNat_eq (by simp)
  | some p => exact BitVec.ofNat_toNat 20 p

theorem nextPacket_unbranched {d : DspSt} (h : d.branch = none) : nextPacket d = followLoops d := by
  simp only [nextPacket, h]
  rfl

theorem nextPacket_delayed {d : DspSt} {t : BitVec 20} {n : Nat} {r : Bool} (hn : n ≠ 1) (h : d.branch = some (t, n, r)) :
    nextPacket d = followLoops { d with branch := some (t, n - 1, r) } := by
  simp only [nextPacket, h]
  rfl

theorem nextPacket_branches {d : DspSt} {t : BitVec 20} (h : d.branch = some (t, 1, false)) :
    nextPacket d = { d with pc := t, branch := none, skip := none } := by
  simp only [nextPacket, h]
  rfl

theorem nextPacket_returns {d : DspSt} {t : BitVec 20} (h : d.branch = some (t, 1, true)) : nextPacket d = { d with
    loops := d.loops.map (fun x => if bitOf x 62 then x &&& 0x7FFFFFFFFFFFFFFF#64 else x)
    hm := false, pc := d.elr, branch := none, skip := none } := by
  simp only [nextPacket, h, unmarked_word]
  rfl

/-- No branch, one whose delay packets have ended, a RETI so, or one that waits for its delay packets. -/
theorem branch_cases (d : DspSt) : d.branch = none ∨ (∃ t, d.branch = some (t, 1, false)) ∨ (∃ t, d.branch = some (t, 1, true)) ∨
    ∃ t n r, n ≠ 1 ∧ d.branch = some (t, n, r) := by
  rcases d.branch with _ | ⟨t, n, r⟩
  · exact .inl rfl
  · by_cases hn : n = 1
    · subst hn
      cases r
      · exact .inr (.inl ⟨t, rfl⟩)
      · exact .inr (.inr (.inl ⟨t, rfl⟩))
    · exact .inr (.inr (.inr ⟨t, n, r, hn, rfl⟩))

section
variable {d : DspSt}

theorem followLoops_none (h : ∀ l, l < 4 → ¬ LevelEnds d d.pc.toNat l) : followLoops d = { d with pc := onward d, skip := none } := by
  simp only [followLoops, loopNext_none h, onward_eq]

theorem followLoops_again {l : Nat} (hl : l < 4) (h : LevelEnds d d.pc.toNat l) (habove : ∀ j, l < j → j < 4 → ¬ LevelEnds d d.pc.toNat j)
    (hcount : 1 < bitsOf (d.loops.getD l 0) 61 40) : followLoops d = { d with
      pc := BitVec.ofNat 20 (bitsOf (d.loops.getD l 0) 39 20), skip := none, loops := lmod d.loops l (fun x => x - 2 ^ 40) } := by
  simp only [followLoops, loopNext_above hl habove, loopNext_again h hcount]

theorem followLoops_closes {l : Nat} (hl : l < 4) (h : LevelEnds d d.pc.toNat l) (hothers : ∀ j, j ≠ l → j < 4 → ¬ LevelEnds d d.pc.toNat j)
    (hcount : bitsOf (d.loops.getD l 0) 61 40 ≤ 1) : followLoops d = { closeLevel d l with pc := onward d, skip := none } := by
  simp only [followLoops, loopNext_closes_only hl h hothers hcount, onward_eq]

end

end Sys2Proof.Machine
end

section
/-! PROOFS. What a packet's end changes: the next packet, the landing results and the stores (O15; R221, R222, R229, R273). -/

namespace Sys2Proof.Machine

/-! ## The next packet reads and writes the control state alone -/

theorem loopNext_congr (p : Nat) : ∀ (n dflt : Nat) (d e : DspSt), e.loops = d.loops → e.hm = d.hm →
    loopNext e p n dflt = ({ e with loops := (loopNext d p n dflt).1.loops }, (loopNext d p n dflt).2) := by
  intro n
  induction n with
  | zero => intro dflt d e hloops _; rw [loopNext, loopNext, ← hloops]
  | succ n ih =>
    intro dflt d e hloops hhm
    have hiff : LevelEnds e p n ↔ LevelEnds d p n := by rw [LevelEnds, LevelEnds, hloops, hhm]
    by_cases hends : LevelEnds d p n
    · have hends' : LevelEnds e p n := hiff.2 hends
      by_cases hcount : 1 < bitsOf (d.loops.getD n 0) 61 40
      · rw [loopNext_again hends hcount, loopNext_again hends' (by rw [hloops]; exact hcount), hloops]
      · have hclosed : (closeLevel e n).loops = (closeLevel d n).loops := by rw [closeLevel, closeLevel, hloops]
        rw [loopNext_closes hends (Nat.not_lt.1 hcount), loopNext_closes hends' (by rw [hloops]; exact Nat.not_lt.1 hcount),
          ih dflt (closeLevel d n) (closeLevel e n) hclosed hhm]
        rfl
    · rw [loopNext_skips hends, loopNext_skips (mt hiff.1 hends), ih dflt d e hloops hhm]

theorem followLoops_congr {d e : DspSt} (hloops : e.loops = d.loops) (hhm : e.hm = d.hm) (hpc : e.pc = d.pc) (hskip : e.skip = d.skip) :
    followLoops e = { e with loops := (followLoops d).loops, pc := (followLoops d).pc, skip := none } := by
  simp only [followLoops, hpc, hskip]
  rw [loopNext_congr _ _ _ d e hloops hhm]

/-- The engine with the packet that follows in `d`. -/
def withNext (d e : DspSt) : DspSt :=
  { e with
    loops := (nextPacket d).loops, hm := (nextPacket d).hm, pc := (nextPacket d).pc, branch := (nextPacket d).branch, skip := (nextPacket d).skip }

theorem followLoops_keeps (d : DspSt) : (followLoops d).branch = d.branch ∧ (followLoops d).hm = d.hm ∧ (followLoops d).skip = none := by
  rw [followLoops_congr (d := d) rfl rfl rfl rfl]
  exact ⟨rfl, rfl, rfl⟩

/-- The packet that follows is a function of the loop levels, HM, PC, the branch under way, ELR and a LOOP of count 0. -/
theorem nextPacket_congr {d e : DspSt} (hloops : e.loops = d.loops) (hhm : e.hm = d.hm) (hpc : e.pc = d.pc) (hskip : e.skip = d.skip)
    (hbranch : e.branch = d.branch) (helr : e.elr = d.elr) : nextPacket e = withNext d e := by
  obtain h | ⟨t, h⟩ | ⟨t, h⟩ | ⟨t, n, r, hn, h⟩ := branch_cases d
  · obtain ⟨hkeep, hkeepHm, hkeepSkip⟩ := followLoops_keeps d
    rw [nextPacket_unbranched (hbranch.trans h), followLoops_congr hloops hhm hpc hskip, withNext, nextPacket_unbranched h, hkeep, hkeepHm,
      hkeepSkip, ← hbranch, ← hhm]
  · rw [nextPacket_branches (hbranch.trans h), withNext, nextPacket_branches h, hloops, hhm]
  · rw [nextPacket_returns (hbranch.trans h), withNext, nextPacket_returns h, hloops, helr]
  · let d1 : DspSt := { d with branch := some (t, n - 1, r) }
    let e1 : DspSt := { e with branch := some (t, n - 1, r) }
    have hd : nextPacket d = followLoops d1 := nextPacket_delayed hn h
    have he : nextPacket e = followLoops e1 := nextPacket_delayed hn (hbranch.trans h)
    have hfollow : followLoops e1 = { e1 with loops := (followLoops d1).loops, pc := (followLoops d1).pc, skip := none } :=
      followLoops_congr hloops hhm hpc hskip
    obtain ⟨hkeep, hkeepHm, hkeepSkip⟩ := followLoops_keeps d1
    rw [he, hfollow, withNext, hd, hkeep, hkeepHm, hkeepSkip]
    simp only [d1, e1, hhm]

theorem nextPacket_self (d : DspSt) : nextPacket d = withNext d d := nextPacket_congr rfl rfl rfl rfl rfl rfl

/-! ## Results that land (R221, R222) -/

/-- What no result changes. -/
def unlanded (d : DspSt) : BitVec 20 × Bool × List (Nat × List Byte) × Nat × List (BitVec 48 × BitVec 48) × List Flight × Bool :=
  (d.pc, d.slot0, d.stores, d.cycle, d.ac, d.flight, d.halted)

theorem unlanded_land (d : DspSt) (f : Flight) : unlanded (land d f) = unlanded d := by
  unfold land
  split <;> rfl

theorem unlanded_foldl_land (l : List Flight) (d : DspSt) : unlanded (l.foldl land d) = unlanded d :=
  List.foldlRecOn (motive := fun e => unlanded e = unlanded d) l land rfl fun e he f _ => (unlanded_land e f).trans he

/-- A register takes the value of the last result in the list for it, and keeps its own where there is none. -/
theorem foldl_land_last {α : Type} {get : DspSt → α} {P : DspSt → Prop} {r : DspDest} {val : BitVec 64 → α}
    (hkeep : ∀ d f, P d → P (land d f)) (hhit : ∀ d f, P d → f.dest = r → get (land d f) = val f.val)
    (hmiss : ∀ d f, f.dest ≠ r → get (land d f) = get d) (l : List Flight) : ∀ d, P d →
    get (l.foldl land d) = (((l.reverse.find? fun x => x.dest == r).map fun x => x.val).map val).getD (get d) := by
  induction l with
  | nil => intro d _; rfl
  | cons f l ih =>
    intro d hd
    rw [List.foldl_cons, ih _ (hkeep d f hd), List.reverse_cons, List.find?_append]
    cases l.reverse.find? fun x => x.dest == r with
    | some x => rfl
    | none =>
      by_cases hdest : f.dest = r
      · simp [hdest, hhit d f hd hdest]
      · simp [hdest, hmiss d f hdest]

/-- The value of the last result in `l` for `r`. -/
def lastFor (l : List Flight) (r : DspDest) : Option (BitVec 64) := (l.reverse.find? fun x => x.dest == r).map fun x => x.val

section
variable (l : List Flight) {d : DspSt} {n : Nat}

theorem dReg_foldl_land (hn : n < d.d.length) : dReg (l.foldl land d) n = (lastFor l (.d n)).getD (dReg d n) := by
  have hlast := foldl_land_last (get := fun d => dReg d n) (P := fun d => n < d.d.length) (r := .d n) (val := id) ?_ ?_ ?_ l d hn
  · rw [hlast, Option.map_id_fun, id, lastFor]
  · intro d f hd
    cases h : f.dest <;> simpa only [land, h, lmod_length] using hd
  · intro d f hd hdest
    simp only [land, hdest, dReg, lmod_get_same, hd, id]
  · intro d f hdest
    cases h : f.dest with
    | d m => simpa only [land, h, dReg] using lmod_get_other d.d m n _ 0 fun hnm => hdest (by rw [h, hnm])
    | _ => simp only [land, h, dReg]

theorem aReg_foldl_land (hn : n < d.a.length) :
    aReg (l.foldl land d) n = ((lastFor l (.a n)).map fun v => v.setWidth 24).getD (aReg d n) := by
  have hlast := foldl_land_last (get := fun d => aReg d n) (P := fun d => n < d.a.length) (r := .a n) (val := fun v => v.setWidth 24) ?_ ?_ ?_ l d hn
  · rw [hlast, lastFor]
  · intro d f hd
    cases h : f.dest <;> simpa only [land, h, lmod_length] using hd
  · intro d f hd hdest
    simp only [land, hdest, aReg, lmod_get_same, hd]
  · intro d f hdest
    cases h : f.dest with
    | a m => simpa only [land, h, aReg] using lmod_get_other d.a m n _ 0 fun hnm => hdest (by rw [h, hnm])
    | _ => simp only [land, h, aReg]

theorem mReg_foldl_land (hn : n < d.m.length) :
    mReg (l.foldl land d) n = ((lastFor l (.m n)).map fun v => v.setWidth 32).getD (mReg d n) := by
  have hlast := foldl_land_last (get := fun d => mReg d n) (P := fun d => n < d.m.length) (r := .m n) (val := fun v => v.setWidth 32) ?_ ?_ ?_ l d hn
  · rw [hlast, lastFor]
  · intro d f hd
    cases h : f.dest <;> simpa only [land, h, lmod_length] using hd
  · intro d f hd hdest
    simp only [land, hdest, mReg, lmod_get_same, hd]
  · intro d f hdest
    cases h : f.dest with
    | m m => simpa only [land, h, mReg] using lmod_get_other d.m m n _ 0 fun hnm => hdest (by rw [h, hnm])
    | _ => simp only [land, h, mReg]

end

/-! ## Writes to memory do not read the cores (R263, R273) -/

/-- The state with other cores. -/
def withCores (s : State) (cs : Tbl CoreSt) : State := { s with cores := cs }

section
variable (s : State) (cs : Tbl CoreSt)

theorem countEvent_withCores (rec ev inst v : Nat) : countEvent (withCores s cs) rec ev inst v = withCores (countEvent s rec ev inst v) cs := by
  have hrw : rwVal (withCores s cs) 0x38F0 1 0 = rwVal s 0x38F0 1 0 := rfl
  have hpmu : (withCores s cs).pmu = s.pmu := rfl
  simp only [countEvent, hrw, hpmu]
  split
  · rfl
  · split <;> rfl

theorem countUnit_withCores (u : UAddr) (ev v : Nat) : countUnit (withCores s cs) u ev v = withCores (countUnit s u ev v) cs := by
  have hcond : ((unitOf (withCores s cs) u).phase == .live && !unitGone (withCores s cs) u && !parentDown (withCores s cs) u) =
      ((unitOf s u).phase == .live && !unitGone s u && !parentDown s u) := rfl
  simp only [countUnit, hcond, countEvent_withCores]
  split <;> rfl

theorem placeOf_withCores : placeOf (withCores s cs) = placeOf s := rfl

theorem countDram_withCores (ev a n : Nat) : countDram (withCores s cs) ev a n = withCores (countDram s ev a n) cs := by
  simp only [countDram, placeOf_withCores, countUnit_withCores]
  split
  · rfl
  · split <;> rfl

theorem countCorrected_withCores (a : Nat) : countCorrected (withCores s cs) a = withCores (countCorrected s a) cs :=
  countUnit_withCores (modUnit s (placeUnit (placeOf s a)) fun x => { x with corrected := x.corrected + 1 }) cs ..

theorem recordFault_withCores (u : UAddr) (cause : BitVec 8) (action : BitVec 4) (address : Nat) :
    recordFault (withCores s cs) u cause action address = withCores (recordFault s u cause action address) cs := by
  have hunit : unitOf (withCores s cs) u = unitOf s u := rfl
  simp only [recordFault, hunit]
  split <;> rfl

theorem writePiece_withCores (a : Nat) (bs : List Byte) : writePiece (withCores s cs) a bs = withCores (writePiece s a bs) cs := by
  have hmem : (withCores s cs).mem = s.mem := rfl
  simp only [writePiece, placeOf_withCores, hmem]
  split
  · rfl
  · split
    · rfl
    · exact countCorrected_withCores { s with mem := _ } cs a
    · exact recordFault_withCores { s with mem := _ } cs ..
    · exact recordFault_withCores { s with mem := _ } cs ..

theorem dropWrite_withCores (master : UAddr) (a : Nat) : dropWrite (withCores s cs) master a = withCores (dropWrite s master a) cs := by
  simp only [dropWrite, countEvent_withCores]
  have hmem (t : State) : (withCores t cs).mem = t.mem := rfl
  have hfaults (t : State) : (withCores t cs).faults = t.faults := rfl
  have htime : (withCores s cs).time = s.time := rfl
  simp only [hmem, hfaults, htime]
  split
  · split
    · split <;> rfl
    · rfl
  · rfl

theorem storePiece_withCores (p : Nat × List Byte) : storePiece false (withCores s cs) p = withCores (storePiece false s p) cs := by
  simp only [storePiece, placeOf_withCores, writePiece_withCores]
  split <;> rfl

theorem writeLocal_withCores (master : UAddr) (a : Nat) (bs : List Byte) :
    writeLocal (withCores s cs) master a bs false = withCores (writeLocal s master a bs false) cs := by
  have hpieces : (pieces bs.length a bs).foldl (storePiece false) (countDram (withCores s cs) 0x51 a bs.length) =
      withCores ((pieces bs.length a bs).foldl (storePiece false) (countDram s 0x51 a bs.length)) cs := by
    rw [countDram_withCores]
    exact List.foldl_hom (withCores · cs) fun s p => storePiece_withCores s cs p
  unfold storePiece at hpieces
  unfold writeLocal
  dsimp only
  rw [hpieces, placeOf_withCores]
  split
  · exact dropWrite_withCores ..
  · rfl

end

end Sys2Proof.Machine
end

section
/-! PROOFS. The end of a packet (O15; R218, R221, R222, R228, R229, R233). -/

namespace Sys2Proof.Machine

/-- The stores of a packet as they reach memory, in their order (R222). -/
def storesWritten (s : State) (k : Nat) (l : List (Nat × List Byte)) : State :=
  l.foldl (fun s p => writeLocal s (deUnit k) (coreBase s k + p.1) p.2 false) s

theorem storesWritten_withCores (s : State) (cs : Tbl CoreSt) (k : Nat) (l : List (Nat × List Byte)) :
    storesWritten (withCores s cs) k l = withCores (storesWritten s k l) cs :=
  List.foldl_hom (withCores · cs) fun s p => writeLocal_withCores s cs (deUnit k) (coreBase s k + p.1) p.2

theorem storesWritten_cores (s : State) (k : Nat) (l : List (Nat × List Byte)) : (storesWritten s k l).cores = s.cores := by
  have h := storesWritten_withCores s s.cores k l
  rw [show withCores s s.cores = s from rfl] at h
  rw [h]
  rfl

/-- The engine at the next packet, a cycle later, with its stores in memory, no packet open, and the results of that cycle out of flight. -/
def advanced (d : DspSt) : DspSt :=
  { nextPacket d with stores := [], slot0 := false, cycle := d.cycle + 1, flight := d.flight.filter (fun x => x.due ≠ d.cycle + 1) }

/-- The results that a packet's end lands. -/
def dueResults (d : DspSt) : List Flight := d.flight.filter (fun x => x.due = d.cycle + 1)

theorem landAt_next (d : DspSt) :
    landAt { nextPacket { d with stores := [], slot0 := false } with cycle := (nextPacket { d with stores := [], slot0 := false }).cycle + 1 }
      ((nextPacket { d with stores := [], slot0 := false }).cycle + 1) = (dueResults d).foldl land (advanced d) := by
  have hself := nextPacket_self d
  have hnext : nextPacket { d with stores := [], slot0 := false } = withNext d { d with stores := [], slot0 := false } :=
    nextPacket_congr rfl rfl rfl rfl rfl rfl
  rw [hnext, advanced, hself]
  rfl

/-- The end of a packet that does not end its RUN. -/
theorem endPacket_eq {t : State} {k : Nat} (hhalted : (dspOf t k).halted = false) : endPacket t k =
    countUnit (modDsp (storesWritten t k (dspOf t k).stores) k fun d => (dueResults d).foldl land (advanced d)) (deUnit k) 0x20 1 := by
  have hstored : dspOf (storesWritten t k (dspOf t k).stores) k = dspOf t k := by
    rw [dspOf, coreOf_of_cores (storesWritten_cores ..), dspOf]
  have hlanded (d : DspSt) : ((dueResults d).foldl land (advanced d)).halted = d.halted := by
    have h := unlanded_foldl_land (dueResults d) (advanced d)
    rw [unlanded, unlanded] at h
    simp only [Prod.mk.injEq] at h
    obtain ⟨-, -, -, -, -, -, hhalted⟩ := h
    rw [hhalted, advanced, nextPacket_self]
    rfl
  show countUnit (modDsp (storesWritten t k (dspOf t k).stores) k _) (deUnit k) 0x20 1 = _
  refine congrArg (fun x => countUnit x (deUnit k) 0x20 1) (modDsp_congr ?_)
  rw [hstored]
  dsimp only
  rw [landAt_next, hlanded, hhalted]
  exact if_neg Bool.false_ne_true

end Sys2Proof.Machine

namespace Sys2Proof
open Machine

/-- Settles O15. The levels are followed from the highest down (`loopNext_above`, `loopNext_again`, `loopNext_closes_only`); a packet's end lands
the results that are due in the order they were issued (`foldl_land_last`), and its stores do not read what the engine's update writes
(`storesWritten_withCores`). -/
theorem dspPacketsFollow : Obligations.DspPacketsFollow := by
  unfold Obligations.DspPacketsFollow
  refine ⟨?_, ?_⟩
  · intro d w ends on
    refine ⟨?_, ?_, ?_, ?_, ?_, ?_⟩
    · intro hbranch hnone
      rw [nextPacket_unbranched hbranch]
      exact followLoops_none hnone
    · intro l hl hbranch hends habove hcount
      rw [nextPacket_unbranched hbranch]
      exact followLoops_again hl hends habove hcount
    · intro l hl hbranch hends hothers hcount
      rw [nextPacket_unbranched hbranch]
      exact followLoops_closes hl hends hothers hcount
    · intro t n r hbranch hnone
      rw [nextPacket_delayed (by omega) hbranch]
      exact followLoops_none (d := { d with branch := some (t, n + 1, r) }) hnone
    · exact fun t => nextPacket_branches
    · exact fun t => nextPacket_returns
  · intro s k hturn hhalted
    let t : State := modDsp s k fun d => d
    have hdsp : dspOf t k = dspOf s k := dspOf_modDsp ..
    have hexec : execDspNop k 1 s = .next (endPacket t k) :=
      dspIssue_of_effect (x := {}) (u := fun d => d) hturn rfl (fun _ => rfl) rfl rfl (congrFun fxState_none _)
    have hend := endPacket_eq (t := t) (k := k) (by rw [hdsp]; exact hhalted)
    have hcount (x : State) : Quiet [] [] x (countUnit x (deUnit k) 0x20 1) := quiet_countUnit ..
    have hend' : dspOf (endPacket t k) k = (dueResults (dspOf s k)).foldl land (advanced (dspOf s k)) := by
      rw [hend, dspOf_of_quiet (hcount _), dspOf_modDsp, dspOf, coreOf_of_cores (storesWritten_cores ..), ← dspOf, hdsp]
    have hkeep := unlanded_foldl_land (dueResults (dspOf s k)) (advanced (dspOf s k))
    rw [← hend', unlanded, unlanded] at hkeep
    simp only [Prod.mk.injEq] at hkeep
    obtain ⟨hpc, hslot, hstores, hcycle, hac, hflight, -⟩ := hkeep
    refine ⟨_, hexec, hpc, hslot, hstores, hcycle, hac, hflight, ?_, ?_, ?_, ?_⟩
    · intro n hn
      exact (congrArg (dReg · n) hend').trans (dReg_foldl_land (d := advanced (dspOf s k)) _ hn)
    · intro n hn
      exact (congrArg (aReg · n) hend').trans (aReg_foldl_land (d := advanced (dspOf s k)) _ hn)
    · intro n hn
      exact (congrArg (mReg · n) hend').trans (mReg_foldl_land (d := advanced (dspOf s k)) _ hn)
    · have hstores : storesWritten t k (dspOf t k).stores = withCores (storesWritten s k (dspOf s k).stores) t.cores := by
        rw [hdsp, ← storesWritten_withCores]; rfl
      calc (endPacket t k).mem = (storesWritten t k (dspOf t k).stores).mem := by rw [hend, (hcount _).mem]; rfl
        _ = _ := by rw [hstores]; rfl

end Sys2Proof
end
